-- ==== Sys2Proof/Word.lean ====
section
/-!
DEFINITION. The plain types of the model: bytes, words, the bit-field readers every other file uses, and the type of a
sparse table (a list of key and value pairs in rising key order).
-/

namespace Sys2Proof

/-- One byte. -/
abbrev Byte := BitVec 8

/-- A 64-bit register value (R11). -/
abbrev Word64 := BitVec 64

/-- A scratchpad word of 64 B (R15), little-endian: byte `j` is bits `8j` to `8j + 7`. -/
abbrev SpadBits := BitVec 512

/-- A granule of 128 B (R15), little-endian. -/
abbrev GranBits := BitVec 1024

/-- An instruction word (R56). -/
abbrev InstrWord := BitVec 128

/-- A sparse table: key and value pairs, keys strictly rising, no value equal to what an unlisted key reads as. -/
abbrev SMap (α : Type) := List (Nat × α)

/-- The two instruction streams of a core (R68). -/
inductive Stream
  | crit
  | defr
deriving DecidableEq, Repr

/-- Critical as 0, deferred as 1 (Table 2.14). -/
def Stream.code : Stream → Nat
  | .crit => 0
  | .defr => 1

/-- What the environment did to the on-die memory of a core (R87, R129, R193): bits of one symbol flipped in a scratchpad word; in a word of
the block checks beside the scratchpad; in a word of a weight slot (its tile, then its scales); in a word of an accumulator bank or of its tag
store; or in a group's entry in the group store. -/
inductive Upset
  | spad (word : BitVec 18) (pos : Fin 68) (flip : BitVec 8)
  | side (word : Fin 3072) (pos : Fin 68) (flip : BitVec 8)
  | slot (array slot : Fin 4) (word : Fin 130) (pos : Fin 68) (flip : BitVec 8)
  | bank (array : Fin 4) (word : Fin 4096) (pos : Fin 68) (flip : BitVec 8)
  | tags (array : Fin 4) (word : Fin 128) (pos : Fin 68) (flip : BitVec 8)
  | group (array : Fin 4) (group : Fin 32) (pos : Fin 68) (flip : BitVec 8)
deriving DecidableEq, Repr

/-- What happens to an engine word: the sequencer dispatches it into its engine's queue; the engine issues it from the
head of that queue (R68, R69), or issues it after upsets of the core's memory. (DESIGN CHOICE, log entry 1.) -/
inductive Phase
  | dispatch
  | issue
  | upset (hits : List Upset)
deriving DecidableEq, Repr

/-- The engines of Table 2.1. -/
inductive Engine
  | mx | vx | dm | sy | sq
deriving DecidableEq, Repr

/-- The code of an engine (Table 2.1). -/
def Engine.code : Engine → Nat
  | .mx => 1 | .vx => 2 | .dm => 3 | .sy => 4 | .sq => 5

/-- What a check of the vector engine's datapaths found while a word ran (R178): nothing, a residue mismatch, or a parity error
in the PRU, the LSU or the register files. -/
inductive VxFault
  | none
  | residue
  | parity
deriving DecidableEq, Repr

/-- A wrong symbol of a stored code word: its position and the bits in error. -/
structure SymErr where
  pos : Nat
  flip : Nat
deriving DecidableEq, Repr

/-- A granule as it travels: data and block check. -/
structure DGran where
  v : GranBits
  chk : BitVec 16
deriving DecidableEq, Repr

/-- Who makes a memory access (R188, Table 6.3). -/
inductive Requester
  | core (n : Nat)
  | queueEngine (d : Nat)
  | beryl (d : Nat)
  | collective (d : Nat)
  | update (d : Nat)
  | jasper (d : Nat)
  | fabric (d : Nat)
  | integrity (d : Nat)
deriving DecidableEq, Repr

/-- The writer code of a requester (Table 6.3). -/
def Requester.code : Requester → Nat
  | .core n => n
  | .queueEngine d => 0x40 + d
  | .beryl d => 0x44 + d
  | .collective d => 0x48 + d
  | .update d => 0x4C + d
  | .jasper d => 0x50 + d
  | .fabric d => 0x54 + d
  | .integrity d => 0x58 + d

/-- What a fabric interface sends next (R261, R269): the oldest transfer placed in a SEND queue of its die, or its oldest answer. -/
inductive FiSource
  | flow (q : BitVec 18)
  | response
deriving DecidableEq, Repr

/-- A symbol of an Ewerlink codeword that arrives wrong (R250): which of the codewords that begin with the flit, its lane and place on the lane,
and the bits in error. -/
structure FecHit where
  word : Fin 2
  lane : Fin 8
  place : Fin 18
  flip : BitVec 10
deriving DecidableEq, Repr

/-- A link control entry of a CTRL flit (Table 8.3): a NAK with the expected SEQ, a retrain request, a delay measurement, a time-sync stamp with the
hops of its sender from the root. -/
inductive LinkEntry
  | nak (seq : Nat)
  | retrain
  | delay
  | timeSync (stamp depth : Nat)
deriving DecidableEq, Repr

/-- A codeword slot of an Ewerlink port (R250, R251): lane alignment markers, or the 144 symbols of a codeword, the first highest. -/
inductive LineWord
  | markers
  | code (symbols : BitVec 1440)
deriving DecidableEq, Repr

/-- An 8 B entry of a CTRL package flit (Table 12.3): a NAK with the expected SEQ, or a class and the credit granted for it in 64 B units. -/
inductive EdgeEntry
  | nak (seq : Nat)
  | credit (cls units : Nat)
deriving DecidableEq, Repr

/-- Where a core starts in a phase of the step (R286): logical core, phase, start words of the two streams. -/
structure PhaseStart where
  lc : Nat
  phase : Nat
  crit : Nat
  defr : Nat
deriving DecidableEq, Repr

/-- A range of gradient elements that a die's NORM pass squares (R302): die, local address, granules, element type, park queue. -/
structure NormRange where
  die : Nat
  addr : Nat
  grans : Nat
  etype : Nat
  parkq : Nat
deriving DecidableEq, Repr

/-- What a schedule image says, its bytes apart (R439, R260, R274, R286, R302, R311): key slot, signed hash and signature of its header; its
shape class and the logical cores it uses (R43); the classes of regions (R197); generation; where its bytes go; register values by die × 2^24 +
offset; route entries by plane × 2^12 + destination; flow planes by local queue index, both the same on every die (R260, R285); initial state
entries by queue number; default flows by logical core × 4096 + package; stream starts; what the instruction region of a logical core holds from
its base on when a phase starts (R80); NORM ranges; for a die and phase the index after its collective descriptors; and the index of the VERDICT
descriptor on C0. (DESIGN CHOICE, log entry 13.) -/
structure ImageTables where
  slot : Nat
  hash : BitVec 512
  sig : BitVec 512
  classB : Bool
  cores : BitVec 64
  classes : List (Nat × Nat)
  gen : Nat
  base : Nat
  regs : List (Nat × BitVec 64)
  routes : List (Nat × BitVec 16)
  planes : List (Nat × Nat)
  queues : List (Nat × BitVec 256)
  defFlows : List (Nat × Nat)
  starts : List PhaseStart
  code : List (Nat × Nat × List Byte)
  norm : List NormRange
  ends : List (Nat × Nat × Nat)
  verdict : Nat
deriving DecidableEq, Repr, Inhabited

/-- What the two flash devices hold when they are first read (Table 14.2): whether each answers; the assembly certificates; key records, oldest first;
calibration table; retirement entries; firmware slots. (DESIGN CHOICE, log entry 16.) -/
structure FlashImage where
  a : Bool
  b : Bool
  asmA : List Byte
  asmB : List Byte
  keys : List (List Byte)
  cal : List Byte
  retired : List (List Byte)
  slotA : List Byte
  slotB : List Byte
deriving DecidableEq, Repr

end Sys2Proof
end

