-- ==== Sys2Proof/Syntax.lean ====
section
/-!
DEFINITION. The commands of the block: `Instr` has one constructor for each row of the opcode table, with the row's
operands. What the environment supplies (readings, received data, the outcome of a test) is an operand.
-/

namespace Sys2Proof


/-- The commands and events of the part, one for each row of the opcode table. (DESIGN CHOICE, log entry 20.) -/
inductive Instr
  /-- PKG_RESET_N_ASSERT (R425): PKG_RESET_N held low for 1 µs or more resets every die, with the effect of loss of all supplies. -/
  | pkgResetNAssert
  /-- DIE_RESET_RELEASE (R424): A die leaves reset once its rail detectors, power-good inputs, PKG_RESET_N and REFCLK_100 have held good together for 2 ms. -/
  | dieResetRelease (d : Fin 6) (xspi : Bool) (found : BitVec 3) (fuse : BitVec 64) (cert record : List Byte) (smb : BitVec 2)
  /-- RAIL_FAILURE (R472): A rail detector or power-good input fails after reset release; the die is lost cold or resets, under R425. -/
  | railFailure (rail : Fin 15)
  /-- REFCLK_100_LOSS (R388): REFCLK_100 absent for 1 µs resets every die, with the effect of loss of all supplies. -/
  | refclk100Loss
  /-- PLL_LOSS (R388): A PLL lock or frequency monitor reports a loss; the die takes a cold loss, a warm reset or a port-die reset. -/
  | pllLoss (d : Fin 6) (pll : Fin 6)
  /-- BROWNOUT_N_FALL (R457): BROWNOUT_N goes low; each compute die gates array issue to 16 and limits other issue, and the power manager targets
  450 W and PS5. -/
  | brownoutNFall
  /-- BROWNOUT_N_RISE (R458): BROWNOUT_N goes high and the brownout hold starts. -/
  | brownoutNRise
  /-- BROWNOUT_HOLD_EXPIRY (R458): BROWNOUT_N has been high for BO_HOLD_US; gating ends, B returns and the first upward state step is taken. -/
  | brownoutHoldExpiry (est : BitVec 32)
  /-- PWR_BUDGET_SAMPLE (R454): Every 10 µs the lead die samples PWR_BUDGET[2:0] and takes a new code after three agreeing samples. -/
  | pwrBudgetSample (code : BitVec 3)
  /-- ENROL_N_CHANGE (R478): ENROL_N has held a new level for 10 ms and the debounced level in OPKEY_STATUS.PIN changes. -/
  | enrolNChange (low : Bool)
  /-- THERMTRIP (R460): A sensor reaches 110 °C; THERMTRIP_N asserts and every die stops its PLLs and holds in reset. -/
  | thermtrip
  /-- THERMAL_SAMPLE (R459): Sensor readings cross T_HOT or T_CRIT, or fall back below them, setting or clearing HOT and CRIT and the thermal cap. -/
  | thermalSample (d : Fin 4) (own : BitVec 12) (sensor : BitVec 6) (port : BitVec 12) (portSensor : BitVec 4)
  /-- HOT_CAP_TIMER (R459): Each millisecond under HOT lowers the thermal cap again, and each 10 ms after HOT clears raises it by one state. -/
  | hotCapTimer (d : Fin 4)
  /-- GOVERNOR_TICK (R450): Every 1 µs each die's issue governor estimates power and current and raises or lowers its issue gate. -/
  | governorTick (d : Fin 4) (mw icc : BitVec 32)
  /-- POWER_MANAGER_TICK (R451): Every 100 µs, or on a budget, brownout or thermal change, the power manager sets PWR_LIMIT_W and chooses the
  target power state. -/
  | powerManagerTick (gated idle : Bool) (est : BitVec 32)
  /-- CPLL_LOCK (R386): The idle CPLL locks to the target frequency, and CORE_CLK switches on the named REFCLK_100 edge when any voltage condition is met. -/
  | cpllLock
  /-- VOUT_SETTLE (R452): READ_VOUT of every VDD_CORE rail lies within 10 mV of the raised voltage, or 250 µs pass and the upward change is abandoned. -/
  | voutSettle (ok : Bool)
  /-- PMBUS_POLL (R489): Every millisecond each PMBus bus reads currents and one rotation of voltage, temperature and status. -/
  | pmbusPoll (reads : List (Fin 15 × Option Nat × Option Nat × Option Nat))
  /-- PMB_ALERT (R489): PMB_ALERT_N asserts and every STATUS_WORD is read within 1 ms. -/
  | pmbAlert
  /-- VRM_TELEMETRY_LOSS (R455): A VRM has not answered for 10 ms; its rail is taken at rated current and the state is capped at PS3. -/
  | vrmTelemetryLoss (rail : Fin 15)
  /-- FUNCTION_READY (R432): A starting function meets its readiness condition and reports READY or DEGRADED. -/
  | functionReady (id : BitVec 16) (cols : List (BitVec 66)) (unloc : List Bool) (enabled repaired : BitVec 24) (fast : Bool) (nb : BitVec 32)
  /-- FUNCTION_STOPPED (R464): A stopping function completes its drain and reports OFF; a deferred enable then starts it. -/
  | functionStopped (id : BitVec 16)
  /-- SQ_NOP (R74): SQ.NOP executes at dispatch once its token wait is met and does nothing else. -/
  | sqNop (lc : Fin 64) (st : Stream) (tok : BitVec 16) (ops : BitVec 96)
  /-- SQ_END (R74): SQ.END ends its stream, which dispatches nothing further. -/
  | sqEnd (lc : Fin 64) (st : Stream) (tok : BitVec 16) (ops : BitVec 96)
  /-- SQ_JUMP (R74): SQ.JUMP continues fetch at instruction-region word TARGET. -/
  | sqJump (lc : Fin 64) (st : Stream) (tok : BitVec 16) (ops : BitVec 96)
  /-- SQ_LOOP (R75): SQ.LOOP pushes a loop entry with its count, refusing a zero count or a fifth entry. -/
  | sqLoop (lc : Fin 64) (st : Stream) (tok : BitVec 16) (ops : BitVec 96)
  /-- SQ_ENDLOOP (R75): SQ.ENDLOOP decrements the top loop entry and returns to the body start or pops the entry. -/
  | sqEndloop (lc : Fin 64) (st : Stream) (tok : BitVec 16) (ops : BitVec 96)
  /-- SQ_XSET (R74): SQ.XSET writes an immediate into an index register. -/
  | sqXset (lc : Fin 64) (st : Stream) (tok : BitVec 16) (ops : BitVec 96)
  /-- SQ_XADD (R74): SQ.XADD adds a signed immediate to an index register modulo 2^32. -/
  | sqXadd (lc : Fin 64) (st : Stream) (tok : BitVec 16) (ops : BitVec 96)
  /-- SQ_IRLOAD (R76): SQ.IRLOAD starts copying 64 KiB from the schedule-image region into an instruction-region page. -/
  | sqIrload (lc : Fin 64) (st : Stream) (tok : BitVec 16) (ops : BitVec 96)
  /-- IRLOAD_COMPLETE (R76): All 64 KiB of an IRLOAD have been written; it raises its signal and may halt its stream on an error. -/
  | irloadComplete (lc : Fin 64) (st : Stream)
  /-- TOKEN_ARRIVAL (R65): A Beryl watch increment reaches its core token 2 to 3 cycles after the fire. -/
  | tokenArrival (lc : Fin 64) (k : Fin 64)
  /-- SOURCE_RELEASE (R59): An issued word has read all its scratchpad and accumulator operands and raises any SMODE 2 signal. -/
  | sourceRelease (lc : Fin 64) (st : Stream) (eng : Engine) (nth : Nat)
  /-- STREAM_END_CHECK (R67): Once both streams have ended and every issued word has completed, the sequencer checks tokens and groups and sets DONE. -/
  | streamEndCheck (lc : Fin 64)
  /-- GO (R141): Writing SEQ_CTRL.GO closes leftover groups, clears tokens, registers and VALID flags, and starts both streams. -/
  | go (pc : Fin 72)
  /-- HALT (R85): Writing SEQ_CTRL.HALT halts every RUNNING or WAITING stream with cause 0x0E. -/
  | halt (pc : Fin 72)
  /-- MX_WLOAD (R97): MX.WLOAD reads one weight tile through SP1 and writes it into a slot of every masked array. -/
  | mxWload (lc : Fin 64) (st : Stream) (ph : Phase) (tok : BitVec 16) (ops : BitVec 96)
  /-- MX_WLOAD_COMPLETE (R97): An MX.WLOAD has written its last read and sets the slot VALID. -/
  | mxWloadComplete (lc : Fin 64) (st : Stream)
  /-- MX_MMA (R96): MX.MMA latches its slot and streams activation rows through the arrays into accumulation groups. -/
  | mxMma (lc : Fin 64) (st : Stream) (ph : Phase) (tok : BitVec 16) (ops : BitVec 96)
  /-- MX_MMA_COMPLETE (R96): The last row of the last array of an MX.MMA has been written and the word completes. -/
  | mxMmaComplete (lc : Fin 64) (st : Stream) (residue : Option (Fin 4))
  /-- MX_PASS2 (R111): The second pass of an MX.MMA or MX.WLOAD covering half-width arrays issues as its own unit. -/
  | mxPass2 (lc : Fin 64) (st : Stream)
  /-- MX_GOPEN (R126): MX.GOPEN opens consecutive accumulation groups with one descriptor in every masked array. -/
  | mxGopen (lc : Fin 64) (st : Stream) (ph : Phase) (tok : BitVec 16) (ops : BitVec 96)
  /-- MX_GCLOSE (R132): MX.GCLOSE closes groups and passes their flags to the core totals. -/
  | mxGclose (lc : Fin 64) (st : Stream) (ph : Phase) (tok : BitVec 16) (ops : BitVec 96)
  /-- MX_GEXPORT (R133): MX.GEXPORT converts groups and writes them to the scratchpad through SP1, optionally closing them. -/
  | mxGexport (lc : Fin 64) (st : Stream) (ph : Phase) (tok : BitVec 16) (ops : BitVec 96)
  /-- MX_GEXPORT_COMPLETE (R138): An export has written its last SP1 cycle and completes. -/
  | mxGexportComplete (lc : Fin 64) (st : Stream)
  /-- SENTINEL_PASS (R348): A sentinel pass replays one array's share of a selected MX.MMA on a sibling array with a different rotation. -/
  | sentinelPass (lc : Fin 64)
  /-- SENTINEL_COMPARE (R349): Six cycles after the pass, the comparator compares the two digests and quarantines both arrays on a mismatch. -/
  | sentinelCompare (lc : Fin 64) (faultO faultS : BitVec 64)
  /-- CTEST (R109): Writing ARR_CTRL.CTEST starts a 4,096-cycle column self-test of one array. -/
  | ctest (pc : Fin 72) (j : Fin 4)
  /-- CTEST_COMPLETE (R109): A column self-test finishes and reports failing columns and UNLOC. -/
  | ctestComplete (pc : Fin 72) (j : Fin 4) (failing : BitVec 66) (unloc : Bool)
  /-- APPLY (R108): Writing ARR_CTRL.APPLY merges ARR_PEND into ARR_BAD and recomputes the column map. -/
  | apply (pc : Fin 72) (j : Fin 4)
  /-- DISABLE (R112): Writing ARR_CTRL.DISABLE sets the array DISABLED. -/
  | disable (pc : Fin 72) (j : Fin 4)
  /-- VSETVL (R149): VX.VSETVL writes VTYPE and sets VL to min(AVL, VLMAX). -/
  | vsetvl (lc : Fin 64) (st : Stream) (ph : Phase) (tok : BitVec 16) (ops : BitVec 96)
  /-- SLI (R153): SLI loads a 32-bit immediate into a scalar register. -/
  | sli (lc : Fin 64) (st : Stream) (ph : Phase) (tok : BitVec 16) (ops : BitVec 96)
  /-- SALU (R153): SALU applies a scalar operation selected by MOD to two scalar registers. -/
  | salu (lc : Fin 64) (st : Stream) (ph : Phase) (tok : BitVec 16) (ops : BitVec 96)
  /-- SMOV (R153): SMOV moves one lane between a vector register and a scalar register. -/
  | smov (lc : Fin 64) (st : Stream) (ph : Phase) (tok : BitVec 16) (ops : BitVec 96)
  /-- VADD (R154): VADD adds two vectors element by element. -/
  | vadd (lc : Fin 64) (st : Stream) (ph : Phase) (tok : BitVec 16) (ops : BitVec 96)
  /-- VSUB (R154): VSUB subtracts two vectors element by element. -/
  | vsub (lc : Fin 64) (st : Stream) (ph : Phase) (tok : BitVec 16) (ops : BitVec 96)
  /-- VMUL (R154): VMUL multiplies two vectors element by element. -/
  | vmul (lc : Fin 64) (st : Stream) (ph : Phase) (tok : BitVec 16) (ops : BitVec 96)
  /-- VFMA (R154): VFMA computes VA × VB + VC with one rounding. -/
  | vfma (lc : Fin 64) (st : Stream) (ph : Phase) (tok : BitVec 16) (ops : BitVec 96)
  /-- VFNMA (R154): VFNMA computes −(VA × VB) + VC with one rounding. -/
  | vfnma (lc : Fin 64) (st : Stream) (ph : Phase) (tok : BitVec 16) (ops : BitVec 96)
  /-- VMAX (R154): VMAX takes the element-wise maximum under R22. -/
  | vmax (lc : Fin 64) (st : Stream) (ph : Phase) (tok : BitVec 16) (ops : BitVec 96)
  /-- VMIN (R154): VMIN takes the element-wise minimum under R22. -/
  | vmin (lc : Fin 64) (st : Stream) (ph : Phase) (tok : BitVec 16) (ops : BitVec 96)
  /-- VBCAST (R153): VBCAST writes the low bits of a scalar into each active element. -/
  | vbcast (lc : Fin 64) (st : Stream) (ph : Phase) (tok : BitVec 16) (ops : BitVec 96)
  /-- VIOTA (R153): VIOTA writes each active element's index into it. -/
  | viota (lc : Fin 64) (st : Stream) (ph : Phase) (tok : BitVec 16) (ops : BitVec 96)
  /-- VIADD (R153): VIADD adds w-bit integer patterns. -/
  | viadd (lc : Fin 64) (st : Stream) (ph : Phase) (tok : BitVec 16) (ops : BitVec 96)
  /-- VISUB (R153): VISUB subtracts w-bit integer patterns. -/
  | visub (lc : Fin 64) (st : Stream) (ph : Phase) (tok : BitVec 16) (ops : BitVec 96)
  /-- VAND (R153): VAND takes the bitwise AND of two vectors. -/
  | vand (lc : Fin 64) (st : Stream) (ph : Phase) (tok : BitVec 16) (ops : BitVec 96)
  /-- VOR (R153): VOR takes the bitwise OR of two vectors. -/
  | vor (lc : Fin 64) (st : Stream) (ph : Phase) (tok : BitVec 16) (ops : BitVec 96)
  /-- VXOR (R153): VXOR takes the bitwise XOR of two vectors. -/
  | vxor (lc : Fin 64) (st : Stream) (ph : Phase) (tok : BitVec 16) (ops : BitVec 96)
  /-- VSHL (R153): VSHL shifts elements left by counts from VB modulo w. -/
  | vshl (lc : Fin 64) (st : Stream) (ph : Phase) (tok : BitVec 16) (ops : BitVec 96)
  /-- VSHR (R153): VSHR shifts elements right logically by counts from VB modulo w. -/
  | vshr (lc : Fin 64) (st : Stream) (ph : Phase) (tok : BitVec 16) (ops : BitVec 96)
  /-- VSRA (R153): VSRA shifts elements right arithmetically by counts from VB modulo w. -/
  | vsra (lc : Fin 64) (st : Stream) (ph : Phase) (tok : BitVec 16) (ops : BitVec 96)
  /-- VNOT (R153): VNOT inverts each element's bits. -/
  | vnot (lc : Fin 64) (st : Stream) (ph : Phase) (tok : BitVec 16) (ops : BitVec 96)
  /-- VCMP (R154): VCMP writes predicate bits from an element-wise IEEE comparison. -/
  | vcmp (lc : Fin 64) (st : Stream) (ph : Phase) (tok : BitVec 16) (ops : BitVec 96)
  /-- PLOGIC (R153): PLOGIC combines two predicate registers over all 512 bits. -/
  | plogic (lc : Fin 64) (st : Stream) (ph : Phase) (tok : BitVec 16) (ops : BitVec 96)
  /-- PCOUNT (R153): PCOUNT writes the number of active elements to a scalar register. -/
  | pcount (lc : Fin 64) (st : Stream) (ph : Phase) (tok : BitVec 16) (ops : BitVec 96)
  /-- VSEL (R153): VSEL selects each element from VA or VB by a predicate. -/
  | vsel (lc : Fin 64) (st : Stream) (ph : Phase) (tok : BitVec 16) (ops : BitVec 96)
  /-- VSF (R156): VSF applies a correctly rounded special function to each active element. -/
  | vsf (lc : Fin 64) (st : Stream) (ph : Phase) (tok : BitVec 16) (ops : BitVec 96)
  /-- VCVT (R157): VCVT narrows or widens elements with one rounding and optional scale. -/
  | vcvt (lc : Fin 64) (st : Stream) (ph : Phase) (tok : BitVec 16) (ops : BitVec 96)
  /-- VMXPACK (R161): VMXPACK packs elements into MX32 blocks with E8M0 scales. -/
  | vmxpack (lc : Fin 64) (st : Stream) (ph : Phase) (tok : BitVec 16) (ops : BitVec 96)
  /-- VRED (R169): VRED combines the active elements in a fixed tree order. -/
  | vred (lc : Fin 64) (st : Stream) (ph : Phase) (tok : BitVec 16) (ops : BitVec 96)
  /-- VPERM (R170): VPERM gathers elements of VA by indices in VB. -/
  | vperm (lc : Fin 64) (st : Stream) (ph : Phase) (tok : BitVec 16) (ops : BitVec 96)
  /-- VSLIDE (R170): VSLIDE slides elements up or down by a scalar count. -/
  | vslide (lc : Fin 64) (st : Stream) (ph : Phase) (tok : BitVec 16) (ops : BitVec 96)
  /-- VSMAX (R171): VSMAX computes a fused softmax of one row and returns its state. -/
  | vsmax (lc : Fin 64) (st : Stream) (ph : Phase) (tok : BitVec 16) (ops : BitVec 96)
  /-- VSMERGE (R177): VSMERGE combines two softmax chunk states. -/
  | vsmerge (lc : Fin 64) (st : Stream) (ph : Phase) (tok : BitVec 16) (ops : BitVec 96)
  /-- VXADD (R166): VXADD adds XA elements exactly modulo 2^N and merges tags. -/
  | vxadd (lc : Fin 64) (st : Stream) (ph : Phase) (tok : BitVec 16) (ops : BitVec 96)
  /-- VXFOLD (R167): VXFOLD moves XA elements to another window and width. -/
  | vxfold (lc : Fin 64) (st : Stream) (ph : Phase) (tok : BitVec 16) (ops : BitVec 96)
  /-- VXCVT (R168): VXCVT converts XA elements to a floating-point type. -/
  | vxcvt (lc : Fin 64) (st : Stream) (ph : Phase) (tok : BitVec 16) (ops : BitVec 96)
  /-- VLD (R162): VLD loads elements and optionally tags from the scratchpad through SP2. -/
  | vld (lc : Fin 64) (st : Stream) (ph : Phase) (tok : BitVec 16) (ops : BitVec 96)
  /-- VST (R162): VST stores active elements and optionally tags to the scratchpad. -/
  | vst (lc : Fin 64) (st : Stream) (ph : Phase) (tok : BitVec 16) (ops : BitVec 96)
  /-- VACC (R165): VACC reads accumulation group elements through AP1 and converts them. -/
  | vacc (lc : Fin 64) (st : Stream) (ph : Phase) (tok : BitVec 16) (ops : BitVec 96)
  /-- VX_WORD_COMPLETE (R151): A vector word's unit latency ends and it writes its results and completes in issue order. -/
  | vxWordComplete (lc : Fin 64) (st : Stream) (fault : VxFault)
  /-- DM_LOAD (R202): DM.LOAD starts copying granules from stack memory, local or fabric, into the scratchpad. -/
  | dmLoad (lc : Fin 64) (st : Stream) (ph : Phase) (tok : BitVec 16) (ops : BitVec 96)
  /-- DM_LOAD_COMPLETE (R202): The last granule of a DM.LOAD has been written, with any error halting the stream. -/
  | dmLoadComplete (lc : Fin 64) (st : Stream)
  /-- DM_STORE (R202): DM.STORE starts copying granules from the scratchpad to stack memory, local or fabric. -/
  | dmStore (lc : Fin 64) (st : Stream) (ph : Phase) (tok : BitVec 16) (ops : BitVec 96)
  /-- DM_STORE_COMPLETE (R202): Every write of a DM.STORE has retired, including the COMPLETION of fabric writes. -/
  | dmStoreComplete (lc : Fin 64) (st : Stream)
  /-- DM_FILL (R203): DM.FILL writes a repeated pattern into whole scratchpad words. -/
  | dmFill (lc : Fin 64) (st : Stream) (ph : Phase) (tok : BitVec 16) (ops : BitVec 96)
  /-- DM_RCLEAR (R204): DM.RCLEAR applies one epoch increment to each of a run of USER regions. -/
  | dmRclear (lc : Fin 64) (st : Stream) (ph : Phase) (tok : BitVec 16) (ops : BitVec 96)
  /-- SY_INC (R233): SY.INC increments a counter of this package or places a remote signal into a flow. -/
  | syInc (lc : Fin 64) (st : Stream) (ph : Phase) (tok : BitVec 16) (ops : BitVec 96)
  /-- SY_DEC (R233): SY.DEC decrements a counter within the package. -/
  | syDec (lc : Fin 64) (st : Stream) (ph : Phase) (tok : BitVec 16) (ops : BitVec 96)
  /-- SY_READ (R234): SY.READ writes a counter's value into a scratchpad granule. -/
  | syRead (lc : Fin 64) (st : Stream) (ph : Phase) (tok : BitVec 16) (ops : BitVec 96)
  /-- SY_WATCH (R224): SY.WATCH registers a watch slot and evaluates it at once. -/
  | syWatch (lc : Fin 64) (st : Stream) (ph : Phase) (tok : BitVec 16) (ops : BitVec 96)
  /-- SY_UNWATCH (R224): SY.UNWATCH releases an armed watch slot. -/
  | syUnwatch (lc : Fin 64) (st : Stream) (ph : Phase) (tok : BitVec 16) (ops : BitVec 96)
  /-- SY_FENCE (R230): SY.FENCE places a fence into a flow and completes on its acknowledgement. -/
  | syFence (lc : Fin 64) (st : Stream) (ph : Phase) (tok : BitVec 16) (ops : BitVec 96)
  /-- SY_QRING (R241): SY.QRING rings a queue's doorbell, adding to PENDING. -/
  | syQring (lc : Fin 64) (st : Stream) (ph : Phase) (tok : BitVec 16) (ops : BitVec 96)
  /-- SY_QCONS (R242): SY.QCONS advances CONS of a queue after its entries were read. -/
  | syQcons (lc : Fin 64) (st : Stream) (ph : Phase) (tok : BitVec 16) (ops : BitVec 96)
  /-- SY_WORD_COMPLETE (R234): An SY word to another die completes on the target die's acknowledgement. -/
  | syWordComplete (lc : Fin 64) (st : Stream)
  /-- BERYL_OPERATION_APPLY (R221): A counter operation reaches its Beryl bank and is applied or refused in port order. -/
  | berylOperationApply (d : Fin 4) (port : Fin 24)
  /-- WATCH_BOUND_EXPIRY (R226): A watch's bound timer reaches its bound and raises a SCHEDULE_OVERRUN INFO record. -/
  | watchBoundExpiry (d : Fin 4) (slot : Fin 16384)
  /-- WATCH_FATAL_EXPIRY (R226): A still unfired watch reaches FATAL_MULT times its bound and the job ends as JOB_FATAL. -/
  | watchFatalExpiry (d : Fin 4) (slot : Fin 16384)
  /-- SET (R220): A write to BERYL_CTR_VAL sets the selected counter and evaluates its watches. -/
  | set (d : Fin 4) (value : BitVec 32)
  /-- ARM (R224): Writing BERYL_WATCH_CTL.ARM registers the selected slot from the staged fields. -/
  | arm (d : Fin 4)
  /-- RELEASE (R224): Writing BERYL_WATCH_CTL.RELEASE releases the selected slot. -/
  | release (d : Fin 4)
  /-- SNAP (R236): Writing BERYL_TASK_CTRL.SNAP copies all counters into the snapshot store. -/
  | snap (d : Fin 4)
  /-- CHECK (R236): Writing BERYL_TASK_CTRL.CHECK compares counters with the snapshot and counts armed slots. -/
  | check (d : Fin 4)
  /-- QUEUE_PROD_ADVANCE (R241): The queue engine moves pending doorbells into PROD as ring room allows and notifies NCTR. -/
  | queueProdAdvance (q : Fin 1048576)
  /-- WATCH_DOORBELL_ARRIVAL (R241): A DOORBELL watch fire reaches a queue's PENDING count, or is refused and sets ERR. -/
  | watchDoorbellArrival (q : Fin 1048576)
  /-- DESCRIPTOR_START (R240): The queue engine starts the next descriptor of a DESC or SEND ring. -/
  | descriptorStart (q : Fin 1048576)
  /-- DESCRIPTOR_COMPLETE (R240): A descriptor's writes retire or its transfers are placed; CONS advances and SAMT is applied, or ERR stops the queue. -/
  | descriptorComplete (q : Fin 1048576)
  /-- LAND_PLACE (R243): A waiting landing transfer is placed into its flow once CREDIT covers its entries. -/
  | landPlace (q : Fin 1048576)
  /-- CREDIT_RETURN (R242): Freed RECV entries are returned to the feeding flow after 16 entries or 2 µs. -/
  | creditReturn (q : Fin 1048576)
  /-- QSTATE_MISS_FILL (R244): A queue state cache miss read returns and waiting operations on that queue proceed. -/
  | qstateMissFill (q : Fin 1048576)
  /-- LOAD (R247): Writing QE_CMD.LOAD copies the selected queue state entry into the view. -/
  | load (d : Fin 4)
  /-- COMMIT (R247): Writing QE_CMD.COMMIT writes the view into the queue state entry or is refused. -/
  | commit (d : Fin 4)
  /-- CLEAR_ERR (R247): Writing QE_CMD.CLEAR_ERR clears ERR of the selected queue outside a running schedule. -/
  | clearErr (d : Fin 4)
  /-- QE_DOORBELL (R241): A write to QE_DOORBELL rings a queue's doorbell. -/
  | qeDoorbell (d : Fin 4) (queue : BitVec 18) (amount : BitVec 16)
  /-- STACK_READ (R196): A memory controller handles a granule read: class, LOST, decode, epoch and CHK. -/
  | stackRead (r : Requester) (gran : BitVec 41) (errs : List SymErr)
  /-- STACK_WRITE (R196): A memory controller handles a full-granule write: class, LOST, CHK check and encode. -/
  | stackWrite (r : Requester) (gran : BitVec 41) (data : BitVec 1024) (chk : BitVec 16)
  /-- NARROW_WRITE (R206): A narrow write arrives, is CRC-checked and merged into a merge buffer entry. -/
  | narrowWrite (r : Requester) (gran : BitVec 41) (mask : BitVec 128) (data : BitVec 1024) (crc : BitVec 16) (flush : Bool)
  /-- MERGE_TIMEOUT (R208): 256 cycles after allocation a merge buffer entry is written out by read-merge-write. -/
  | mergeTimeout (gran : BitVec 41)
  /-- ACC_DIAGNOSTIC_READ (R48): A Jasper or JTAG read of an accumulator bank returns the stored bits when AP0 leaves the word free. -/
  | accDiagnosticRead (lc : Fin 64) (word : Fin 16384)
  /-- STACK_PATROL_SCRUB (R212): The stack patrol reads its next granule and writes back a corrected one. -/
  | stackPatrolScrub (d : Fin 4) (errs : List SymErr)
  /-- SPAD_PATROL_SCRUB (R213): The scratchpad patrol reads a word in a free bank cycle and writes back a single-symbol correction. -/
  | spadPatrolScrub (pc : Fin 72) (word : Fin 196608) (errs : List SymErr)
  /-- INIT_SWEEP (R183): At cold start each controller writes every granule of its stack as zeros before reporting READY. -/
  | initSweep (k : Fin 12)
  /-- INC_EPOCH (R198): MC_REGION_CMD INC_EPOCH raises the epoch of a run of regions. -/
  | incEpoch (d : Fin 4) (region count : BitVec 16)
  /-- SET_CLASS (R197): MC_REGION_CMD SET_CLASS sets the class of a run of regions. -/
  | setClass (d : Fin 4) (region count : BitVec 16) (cls : BitVec 2)
  /-- SET_LOST (R199): MC_REGION_CMD SET_LOST marks a run of regions LOST. -/
  | setLost (d : Fin 4) (region count : BitVec 16)
  /-- CLEAR_LOST (R199): MC_REGION_CMD CLEAR_LOST clears LOST and applies one epoch increment. -/
  | clearLost (d : Fin 4) (region count : BitVec 16)
  /-- REGION_CMD_COMPLETE (R200): Every controller has applied a region command and it completes. -/
  | regionCmdComplete (nth : Nat)
  /-- FIRMWARE_REGION_RESTORE (R214): An uncorrectable FIRMWARE-region read waits while the region is restored from flash, then is served. -/
  | firmwareRegionRestore (region : BitVec 16) (image : List Byte) (verified : Bool)
  /-- WARM_RESET (R215): A compute die drains its controllers, enters self-refresh and resets, its stacks answering with error meanwhile. -/
  | warmReset (d : Fin 4)
  /-- COLD_DIE_LOSS (R217): A die loses clock or supplies before self-refresh; every region is set LOST and the job ends. -/
  | coldDieLoss (d : Fin 4)
  /-- DIE_REJOIN (R393): A die leaving reset rejoins: discovery, training, firmware, and its controllers under R216 or R217. -/
  | dieRejoin (d : Fin 6)
  /-- EW_FLIT_RECEIVE (R255): An Ewerlink flit arrives and is accepted or refused with a NAK, returning ACK and credits. -/
  | ewFlitReceive (p : Fin 12) (flit : BitVec 2160) (hits : List FecHit)
  /-- EW_NAK (R255): A NAK arrives and the sender replays from the named SEQ. -/
  | ewNak (p : Fin 12) (seq : BitVec 10)
  /-- LINK_IDLE_TIMER (R254): With nothing else to send for 4 ns, the receiver sends an IDLE carrying ACK and credits. -/
  | linkIdleTimer (p : Fin 12)
  /-- PORT_RETRAIN (R256): Repeated refusals or FEC failures make an Ewerlink port retrain while holding its replay and credit state. -/
  | portRetrain (p : Fin 12)
  /-- PORT_RETRAIN_DONE (R256): Retraining ends and the port resends from the last ACK, reports READY or DEGRADED, or FAILED after three failures. -/
  | portRetrainDone (p : Fin 12) (width : Fin 4)
  /-- TRANSFER_ORIGINATE (R261): A fabric interface looks up a transfer's route and sends it toward the port die carrying NEXT. -/
  | transferOriginate (d : Fin 4) (src : FiSource)
  /-- TRANSFER_HOP (R261): A port die decrements HOPS, looks up the route and forwards or delivers the transfer. -/
  | transferHop (p : Fin 12) (buf : Fin 8)
  /-- WRITE (R264): A WRITE transfer is written at its destination in flow order. -/
  | write (d : Fin 4)
  /-- LAND (R240): A LAND transfer is appended to its RECV queue and PROD advances once its writes retire. -/
  | land (d : Fin 4)
  /-- SIGNAL (R228): A SIGNAL transfer arrives and is held behind its flow's unretired writes. -/
  | signal (d : Fin 4)
  /-- SIGNAL_RELEASE (R264): Every earlier write of the flow has retired and the held signal passes to its Beryl unit. -/
  | signalRelease (d : Fin 4)
  /-- FENCE (R230): A FENCE transfer arrives and is held behind its flow's earlier writes. -/
  | fence (d : Fin 4)
  /-- FENCE_RELEASE (R230): The flow's earlier writes have retired and FENCE_ACK is sent to the source. -/
  | fenceRelease (d : Fin 4)
  /-- FENCE_ACK (R230): A FENCE_ACK arrives and completes the sender's SY.FENCE. -/
  | fenceAck (d : Fin 4)
  /-- CREDIT (R243): A CREDIT transfer adds AMOUNT to CREDIT of the named SEND queue. -/
  | credit (d : Fin 4)
  /-- COMPLETION (R265): A COMPLETION transfer retires AMOUNT transfers of the flow at the sender. -/
  | completion (d : Fin 4)
  /-- COMPLETION_TIMER (R265): 1 µs after the first unreported retirement the receiver sends a COMPLETION. -/
  | completionTimer (d : Fin 4) (src : BitVec 12) (flow : BitVec 20)
  /-- CHUNK (R281): A collective chunk arrives and is checked against the descriptor in progress, combined or written. -/
  | chunk (d : Fin 4) (rq : Option (BitVec 20)) (residue : Bool)
  /-- READ (R266): A READ transfer is answered with READ_DATA in arrival order. -/
  | read (d : Fin 4)
  /-- READ_DATA (R266): READ_DATA arrives and its granules are written for the requester. -/
  | readData (d : Fin 4)
  /-- JASPER (R289): A JASPER transfer carries a message between Jasper clusters, such as a boundary message. -/
  | jasper (d : Fin 4)
  /-- TIME_SYNC_ENTRY (R271): A time-sync CTRL entry arrives from the time-up port and fabric time is corrected. -/
  | timeSyncEntry (p : Fin 12) (stamp : BitVec 64) (depth : BitVec 6)
  /-- DELAY_MEASUREMENT (R271): Once per millisecond the link's one-way delay is measured as half a round trip. -/
  | delayMeasurement (p : Fin 12) (rtt : BitVec 16)
  /-- FABRIC_TIME_UNLOCK (R272): No sync entry for 10 ms, or the time-up port fails; LOCKED clears and an INFO record is raised. -/
  | fabricTimeUnlock (d : Fin 4)
  /-- CE_DESCRIPTOR_START (R274): A trigger-queue entry lets the collective engine check and start its next descriptor. -/
  | ceDescriptorStart (d : Fin 4) (residue : Bool)
  /-- CE_DESCRIPTOR_COMPLETE (R274): A collective descriptor's writes and sends have completed and it applies INC DAMT to DCTR. -/
  | ceDescriptorComplete (d : Fin 4)
  /-- PACKAGE_FLIT_RECEIVE (R374): A package flit arrives on a die-to-die edge and is accepted in SEQ order or refused with a NAK. -/
  | packageFlitReceive (d : Fin 6) (e : Fin 3) (m : Fin 24) (sent flips : BitVec 2048)
  /-- D2D_NAK (R374): A die-to-die NAK arrives and the sender replays from the named SEQ. -/
  | d2dNak (d : Fin 6) (e : Fin 3) (seq : BitVec 12)
  /-- MODULE_RETRAIN (R375): A module with repeated refusals leaves the striping and retrains with lane repair. -/
  | moduleRetrain (d : Fin 6) (e : Fin 3) (m : Fin 24) (rate : Bool)
  /-- MODULE_RETRAIN_DONE (R375): A module retraining ends; it rejoins the striping or is disabled after three failures. -/
  | moduleRetrainDone (d : Fin 6) (e : Fin 3) (m : Fin 24) (ok repaired beyond : Bool) (lanes : BitVec 8)
  /-- D2D_CTRL_RETRAIN (R375): Writing D2D_CTRL.RETRAIN retrains every enabled module of an edge in turn. -/
  | d2dCtrlRetrain (d : Fin 6) (e : Fin 3)
  /-- FAB_OUT (R372): A FAB_OUT message hands a transfer from a compute die to a port die egress port. -/
  | fabOut (pd : Fin 2)
  /-- FAB_IN (R372): A FAB_IN message hands an arriving transfer from a port die to a compute die, or across to the other port die. -/
  | fabIn (d : Fin 4)
  /-- CFG_RD (R372): A CFG_RD reads a port die configuration register. -/
  | cfgRd (pd : Fin 2)
  /-- CFG_WR (R372): A CFG_WR writes a port die configuration register. -/
  | cfgWr (pd : Fin 2)
  /-- CFG_RSP (R372): A CFG_RSP returns a port die configuration access result. -/
  | cfgRsp (d : Fin 4)
  /-- HELLO (R379): A HELLO discovery message arrives from an edge partner. -/
  | hello (d : Fin 6) (e : Fin 3) (m : BitVec 128)
  /-- HELLO_TIMER (R379): Every 10 µs a die sends HELLO on each edge that has not yet answered. -/
  | helloTimer (d : Fin 6)
  /-- EDGE_SILENT_TIMEOUT (R379): An edge silent for 50 ms is treated as empty. -/
  | edgeSilentTimeout (d : Fin 6) (e : Fin 3)
  /-- POSITION (R379): A POSITION message assigns the receiving die its position. -/
  | position (d : Fin 6) (e : Fin 3) (m : BitVec 128)
  /-- QREC_REQ (R382): A QREC_REQ asks a port die for its qualification record. -/
  | qrecReq (pd : Fin 2) (e : Fin 2)
  /-- QREC (R382): A QREC reply delivers 8 bytes of the qualification record. -/
  | qrec (d : Fin 4) (m : BitVec 128)
  /-- PORT_ADMISSION (R382): After discovery a compute die checks its port die's record, negotiates and trains the edge and sends ADMIT_RESULT. -/
  | portAdmission (d : Fin 4) (at32 at16 : List (Fin 6))
  /-- ADMIT_RESULT (R382): An ADMIT_RESULT arrives at a port die, admitting it or leaving it restricted. -/
  | admitResult (pd : Fin 2) (e : Fin 2) (m : BitVec 128)
  /-- RESET_NOTICE (R391): A RESET_NOTICE arrives; the neighbour fails outstanding requests, steers traffic away and raises DIE_LOST. -/
  | resetNotice (d : Fin 6) (e : Fin 3)
  /-- HEARTBEAT (R391): A HEARTBEAT arrives from an edge partner and is sent every 10 µs. -/
  | heartbeat (d : Fin 6) (e : Fin 3) (m : BitVec 128)
  /-- DIE_LOSS_TIMEOUT (R391): No flit for 1 µs or no HEARTBEAT for 30 µs; the neighbour declares the partner lost cold. -/
  | dieLossTimeout (d : Fin 6) (e : Fin 3)
  /-- PHASE_END_DETECT (R286): A die reaches its end condition for the phase and the lead die combines the four results. -/
  | phaseEndDetect
  /-- PHASE_END (R289): A PHASE_END boundary message arrives from a child and is forwarded once the subtree has ended. -/
  | phaseEnd
  /-- PHASE_GO (R290): A PHASE_GO boundary message arrives; the package forwards it and begins the next phase, rolls back or aborts. -/
  | phaseGo
  /-- COMMIT_BOUNDARY_ACTIONS (R291): At the COMMIT boundary each package applies the decision and runs the actions of Table 9.2. -/
  | commitBoundaryActions (tests : List (Nat × BitVec 66 × Bool))
  /-- NORM_PASS (R302): The update unit squares and sums a parked bucket's gradient elements into the die's NORM sum. -/
  | normPass (d : Fin 4) (ix : Nat) (residue : Bool)
  /-- DIE_RECORD_BUILD (R303): In VERDICT each update unit completes its die record and C0 forms the package record and rings the VERDICT trigger. -/
  | dieRecordBuild (residue : Option (Fin 4))
  /-- DECISION_DERIVE (R305): Once the VERDICT descriptor has completed, every update unit derives the decision and its factors. -/
  | decisionDerive (d : Fin 4)
  /-- CHECKPOINT_RESTORE (R337): A rollback restores the committed state or the last verified stored checkpoint and reloads the STEP registers. -/
  | checkpointRestore
  /-- RULE_START (R312): The update unit starts the next rule descriptor of the phase once its bucket is parked. -/
  | ruleStart (d : Fin 4)
  /-- ITEM_RELEASE (R318): The update unit writes an item record into a core's ring and increments its item counter. -/
  | itemRelease (d : Fin 4)
  /-- REMOTE_TIER_FETCH (R327): The update unit reads an item's remote-tier state into a stage queue entry before releasing it. -/
  | remoteTierFetch (d : Fin 4)
  /-- PXOR (R333): A PXOR rule XORs the staged regions and writes the member's parity slot. -/
  | pxor (d : Fin 4) (faults : List (Nat × BitVec 1024))
  /-- PARITY_VALID_SET (R334): Every COMMIT descriptor has completed on all dies; PAR_STATUS.VALID is set with STEP. -/
  | parityValidSet
  /-- STORED_CHECKPOINT_READOUT (R422): At a period boundary the package streams its protected area on the EGRESS connection and holds UPDATE
  until acknowledged. -/
  | storedCheckpointReadout
  /-- LAYOUT_INSTALL (R329): At the COMMIT boundary of APPLY_STEP the staged layout is installed, migrated and covered by new parity. -/
  | layoutInstall
  /-- RECONSTRUCTION (R338): A standby's update units rebuild every region of the lost member from parity and survivors. -/
  | reconstruction (d : Fin 4) (slot : BitVec 16) (par : List (BitVec 64))
  /-- SELF_REBUILD (R339): After a cold die loss the package clears LOST, restores firmware regions and discards its loaded image. -/
  | selfRebuild
  /-- DIGEST_RUN (R351): In a digest step the die's digest engine reads its ranges and forms the die digest. -/
  | digestRun (d : Fin 4)
  /-- DIGEST_BLOCK_WRITE (R353): C0 writes the package digest block and increments the counter that triggers the ALL_GATHER. -/
  | digestBlockWrite
  /-- DIGEST_COMPARE (R354): The lead die compares the gathered package digests and records AGREE, ODD or SUSPECT. -/
  | digestCompare
  /-- ERROR_RING_WRITE (R366): A buffered record is written into the die's error ring when the ring has room. -/
  | errorRingWrite (d : Fin 4)
  /-- PORT_RECORD_FORWARD (R496): A record raised on a port die crosses to its compute neighbour and is handled there. -/
  | portRecordForward (pd : Fin 2)
  /-- ERROR_FORWARD (R417): The lead die drains the error rings into its forward buffer and sends event messages. -/
  | errorForward
  /-- RETIREMENT_RECORD_WRITE (R362): The lead die writes a retirement entry into flash A in flash order. -/
  | retirementRecordWrite
  /-- FIRMWARE_VERIFY (R429): C0's boot ROM verifies firmware slot A, or slot B on failure, and starts the firmware. -/
  | firmwareVerify (fl : FlashImage) (aOk bOk slow : Bool) (pins : BitVec 3)
  /-- FIRMWARE_DISTRIBUTE (R430): C0 sends the image to the other compute dies, which check it, and the port sections to admitted port dies. -/
  | firmwareDistribute
  /-- ASSEMBLY_CERT_CHECK (R437): The lead die checks the assembly certificate against every die public key and sets ASM_OK. -/
  | assemblyCertCheck
  /-- FIRMWARE_COMMIT (R448): When all dies run slot B, the lead die copies it to slot A, verifies it and raises the SVN. -/
  | firmwareCommit
  /-- KEY_STORE_WRITE (R442): A slot change is written as one record to the key store sector not used last. -/
  | keyStoreWrite
  /-- ENROL (R440): Writing OPKEY_CTL.ENROL enrols the staged public key into the selected slot while ENROL_N is low. -/
  | enrol
  /-- REVOKE (R441): Writing OPKEY_CTL.REVOKE empties the selected slot and closes its sessions. -/
  | revoke
  /-- GET_IDENTITY (R408): Returns the part number, serial, die information, shape and firmware versions. -/
  | getIdentity
  /-- GET_CERTS (R408): Returns the assembly certificate and the six die certificates. -/
  | getCerts
  /-- ATTEST (R438): Returns a signed attestation report over a nonce. -/
  | attest
  /-- GET_KEYS (R408): Returns the enrolled flag and key hash of each operator key slot. -/
  | getKeys
  /-- SESSION_CHALLENGE (R403): Issues a one-use challenge and nonce. -/
  | sessionChallenge
  /-- CHALLENGE_EXPIRY (R403): A challenge expires 10 s after issue. -/
  | challengeExpiry (id : BitVec 32)
  /-- SESSION_OPEN (R404): Opens a session on a valid signature over the challenge. -/
  | sessionOpen
  /-- SESSION_CLOSE (R407): Closes a session and discards its cache. -/
  | sessionClose
  /-- SESSION_IDLE_TIMEOUT (R407): A session without an accepted or duplicate command for IDLE_S seconds closes. -/
  | sessionIdleTimeout (id : BitVec 32)
  /-- SESSION_INFO (R408): Returns the open sessions with key, credits in use and HIGH. -/
  | sessionInfo
  /-- CONFIG_READ (R408): Reads up to 64 configuration registers. -/
  | configRead
  /-- CONFIG_WRITE (R409): Writes a configuration register with a mask, within the limits of a running job. -/
  | configWrite
  /-- SET_NETWORK (R408): Sets a service port's VLAN and addresses and resets its connections. -/
  | setNetwork
  /-- SET_TELEMETRY (R416): Sets the telemetry interval and kinds. -/
  | setTelemetry
  /-- LOAD_IMAGE (R439): Loads a signed schedule image into IMAGE regions over an INGEST connection. -/
  | loadImage
  /-- JOB_START (R410): Checks and loads the image's tables and starts the job at the next COMPUTE GO. -/
  | jobStart
  /-- JOB_STOP (R411): Ends the job at a given applied step, or aborts it at once. -/
  | jobStop
  /-- JOB_STATUS (R408): Returns job state, phase and step registers. -/
  | jobStatus
  /-- LOAD_LAYOUT (R329): Loads a staged layout image of the next generation. -/
  | loadLayout
  /-- LAYOUT_COMMIT (R329): Arms installation of the staged layout at APPLY_STEP. -/
  | layoutCommit
  /-- STREAM_OPEN (R420): Binds an INGEST or EGRESS connection to a stream over stack memory. -/
  | streamOpen
  /-- STREAM_NOTIFY (R420): Each NOTIFY_GR retired granules of an ingest stream's prefix apply INC 1 to NOTIFY_CTR. -/
  | streamNotify (handle : BitVec 32)
  /-- STREAM_CLOSE (R408): Closes a stream and returns bytes moved and the stream CRC. -/
  | streamClose
  /-- MEM_READ (R408): Reads stack memory. -/
  | memRead
  /-- MEM_WRITE (R408): Writes stack memory in USER regions. -/
  | memWrite
  /-- REGION_CMD (R218): Issues a region command as MC_REGION_CMD does. -/
  | regionCmd
  /-- CKPT_CONFIG (R422): Arms the stored-checkpoint read-out with a period and EGRESS connection. -/
  | ckptConfig
  /-- SET_POWER_BUDGET (R454): Sets or removes the command power budget. -/
  | setPowerBudget
  /-- GET_POWER (R462): Returns package power, budgets, state and rail telemetry. -/
  | getPower
  /-- SET_THERMAL (R461): Writes T_HOT and T_CRIT on the selected dies. -/
  | setThermal
  /-- GET_ERRORS (R417): Returns forwarded error records from a forward index. -/
  | getErrors
  /-- EVENT_SUBSCRIBE (R418): Subscribes an EVENT connection to error records and telemetry. -/
  | eventSubscribe
  /-- COMMAND_STATUS (R408): Returns the cached reply of a sequence in the session. -/
  | commandStatus
  /-- GET_COUNTERS (R408): Returns a block's counters without clearing them. -/
  | getCounters
  /-- RUN_SELFTEST (R408): Runs column tests or a patrol scrub pass on selected dies outside a job. -/
  | runSelftest
  /-- FW_STAGE (R446): Writes and verifies a firmware image in slot B. -/
  | fwStage
  /-- FW_ACTIVATE (R447): Restarts one die's firmware from slot B. -/
  | fwActivate
  /-- CAL_READ (R408): Reads bytes of the calibration table. -/
  | calRead
  /-- CAL_WRITE (R444): Checks and overwrites the calibration table in flash. -/
  | calWrite
  /-- FUNC_ENABLE (R465): Enables a function, joining or deferring as its state requires. -/
  | funcEnable
  /-- FUNC_DISABLE (R465): Stops a function and drains it to OFF. -/
  | funcDisable
  /-- FUNC_STATUS (R408): Returns the state of every function. -/
  | funcStatus
  /-- RETIRE_CORE (R361): Marks a physical core for retirement. -/
  | retireCore
  /-- RETRAIN (R408): Retrains a die-to-die edge or an Ewerlink port. -/
  | retrain
  /-- DIE_RESET (R408): Resets a die warm or cold and completes when it has rejoined. -/
  | dieReset
  /-- DOMAIN_JOIN (R273): Sets PKG_ID, the time tree position and the domain tag. -/
  | domainJoin
  /-- DOMAIN_LEAVE (R408): Leaves the domain outside a job. -/
  | domainLeave
  /-- DOMAIN_STATUS (R408): Returns domain membership, fabric time state and port states. -/
  | domainStatus
  /-- RECONSTRUCT (R338): Starts reconstruction of a lost parity-group member. -/
  | reconstruct
  /-- CST_SYN (R420): A SYN opens a CST connection and the package answers SYN_ACK. -/
  | cstSyn
  /-- CST_DATA (R421): A DATA segment is delivered in PSN order into its message or stream. -/
  | cstData
  /-- CST_ACK (R421): An ACK segment with its SACK list advances the send window and triggers fast retransmission. -/
  | cstAck
  /-- CST_FIN (R421): A FIN closes the connection once earlier data is acknowledged. -/
  | cstFin
  /-- CST_RST (R419): An RST segment closes the connection. -/
  | cstRst
  /-- CST_PING (R421): A PING is answered with PONG. -/
  | cstPing
  /-- CST_PONG (R421): A PONG answers the package's PING. -/
  | cstPong
  /-- CST_ACK_TIMER (R421): 20 µs after the first unacknowledged segment the receiver sends ACK. -/
  | cstAckTimer (conn : BitVec 32)
  /-- CST_RETX_TIMER (R421): The retransmission timer expires, a segment is resent and the timer doubles, or the connection resets after 16. -/
  | cstRetxTimer (conn : BitVec 32)
  /-- CST_PING_TIMER (R421): After 10 s without a segment the package sends PING. -/
  | cstPingTimer (conn : BitVec 32)
  /-- CST_IDLE_CLOSE (R421): After 30 s without a segment the connection closes with RST reason 7. -/
  | cstIdleClose (conn : BitVec 32)
  /-- TELEMETRY_SAMPLE (R416): At each telemetry interval a 64 B sample is written to the TELEM queue. -/
  | telemetrySample (kind : Fin 5) (d : Fin 6) (q : BitVec 18)
  /-- SHED_RISE (R415): After 10 ms of command overload, SHED rises by one. -/
  | shedRise
  /-- SHED_FALL (R415): After each second with under 32 queued commands, SHED falls by one. -/
  | shedFall
  /-- FRAME_RECEIVE (R483): A service Ethernet frame arrives and is accepted, answered or dropped by the subset. -/
  | frameReceive (p : Fin 2) (bytes : List Byte) (fcs : Bool)
  /-- SERVICE_LINK_UP (R482): A service port links in a supported form after auto-negotiation or training. -/
  | serviceLinkUp (p : Fin 2) (form : Fin 3)
  /-- REG_READ (R487): SMBus REG_READ returns a register of the SMBus subset with a status. -/
  | regRead (space : BitVec 8) (off : BitVec 24)
  /-- REG_WRITE (R487): SMBus REG_WRITE writes a writable field of the SMBus subset under a mask. -/
  | regWrite (ok : Bool) (space : BitVec 8) (off : BitVec 24) (value mask : BitVec 64)
  /-- LAST_STATUS (R486): SMBus LAST_STATUS returns the status of the last REG_WRITE. -/
  | lastStatus
  /-- SUMMARY (R486): SMBus SUMMARY returns the 32 B package summary. -/
  | summary
  /-- ALERT_RESPONSE (R479): A read of the SMBus Alert Response Address answered with the package address clears the alert latch. -/
  | alertResponse
  /-- JTAG_CFG (R491): Update-DR of the JTAG CFG register makes a configuration read or write. -/
  | jtagCfg (d : Fin 6) (v : BitVec 96)
  /-- IDCODE (R491): The JTAG IDCODE instruction selects the die's identification code. -/
  | idcode (d : Fin 6)
  /-- BYPASS (R491): The JTAG BYPASS instruction selects the one-bit bypass register. -/
  | bypass (d : Fin 6)
  /-- SAMPLE_PRELOAD (R491): The JTAG SAMPLE/PRELOAD instruction samples the 1.8 V contacts. -/
  | samplePreload (d : Fin 6) (pins load : List Bool)
  /-- EXTEST (R491): The JTAG EXTEST instruction drives the 1.8 V contacts. -/
  | extest (d : Fin 6) (pins load : List Bool)
  /-- RC_READ (R12): A read of a register with RC fields returns them and clears them, keeping same-cycle events. -/
  | rcRead (space : Fin 7) (off : BitVec 24)
  /-- REGISTER_WRITE (R13): A write to a register without a row of its own sets its RW fields, clears W1C bits, or is ignored under its rule. -/
  | registerWrite (space : Fin 7) (off : BitVec 24) (v : BitVec 64)
  /-- RESERVED_ENGINE_CODE_OR_OPCODE (R54): An instruction word with a reserved engine code, or an opcode its engine does not execute, is refused
  with halt cause 0x01. -/
  | reservedEngineCodeOrOpcode (lc : Fin 64) (st : Stream) (ph : Phase) (word : BitVec 128)
  /-- DM_FILL_COMPLETE (R203): A DM.FILL has written its last word and completes, raising any signal its TOKENS field names. -/
  | dmFillComplete (lc : Fin 64) (st : Stream)
  /-- TIME_SYNC_SEND (R271): Once per 100 µs a package sends a time-sync CTRL entry, stamped at transmission, to each partner whose time-up port faces it. -/
  | timeSyncSend (ports : List (Fin 12))
  /-- D2D_IDLE_TIMER (R374): With nothing else to send for 4 ns, a die-to-die receiver sends an IDLE package flit carrying ACK and credits. -/
  | d2dIdleTimer (d : Fin 6) (e : Fin 3)
  /-- FLASH_WRITE_COMPLETE (R449): A flash operation (calibration write, key-store record, retirement entry, firmware stage or commit copy) ends
  and the next queued flash operation starts. -/
  | flashWriteComplete (ok : Bool)
  /-- FW_ACTIVATION_DONE (R447): A compute die's firmware restart from slot B ends; the cluster rejoins, FW_UPD_STATUS is updated and the held
  COMMIT boundary and power-state changes proceed. -/
  | fwActivationDone
  /-- SERVICE_LINK_DOWN (R433): A service Ethernet port loses its link and leaves READY, and the package deasserts READY when neither service
  port remains READY. -/
  | serviceLinkDown (p : Fin 2)
deriving DecidableEq, Repr

end Sys2Proof
end

