-- ==== Sys2Proof/Decode.lean ====
section
/-!
DEFINITION. The command that a word of the opcode table spells. The table gives no row any bits: the commands of this block
arrive as events, packets and register accesses, so no word spells one. (The words of the cores' own instructions, R56, are decoded by the
sequencer and engines where they run: `Machine/Seq.lean` and the engines' files.)
-/

namespace Sys2Proof

/-- The command a word spells by the bits of the opcode table: none, since no row of the table has bits. (DESIGN CHOICE, log entry 4.) -/
def decodeTableWord (_nbits _w : Nat) : Option Instr := none

end Sys2Proof
end

