-- ==== Sys2Proof/Machine/Bits.lean ====
section
/-!
DEFINITION. Bit fields, sign extension, packing of elements into bytes (R7, R8, R101), and saturating counts.
-/

namespace Sys2Proof.Machine

/-- Bits `[lo + w - 1 : lo]` of a natural number. -/
def natBits (n lo w : Nat) : Nat := (n >>> lo) % 2 ^ w

/-- `n` with bits `[lo + w - 1 : lo]` replaced by `v`. -/
def natPutBits (n lo w v : Nat) : Nat :=
  n - (natBits n lo w) * 2 ^ lo + (v % 2 ^ w) * 2 ^ lo

/-- Bits `[lo + w - 1 : lo]` of a bit vector, as a number (R7). -/
def fld {n : Nat} (x : BitVec n) (lo w : Nat) : Nat := natBits x.toNat lo w

/-- One bit of a bit vector. -/
def bit {n : Nat} (x : BitVec n) (i : Nat) : Bool := natBits x.toNat i 1 == 1

/-- `x` with bits `[lo + w - 1 : lo]` replaced by `v`. -/
def putFld {n : Nat} (x : BitVec n) (lo w v : Nat) : BitVec n := BitVec.ofNat n (natPutBits x.toNat lo w v)

/-- A `w`-bit pattern read as a two's-complement integer. -/
def signed (w n : Nat) : Int := if n % 2 ^ w < 2 ^ (w - 1) then (n % 2 ^ w : Nat) else (n % 2 ^ w : Nat) - (2 ^ w : Nat)

/-- The `w`-bit two's-complement pattern of an integer, modulo `2 ^ w`. -/
def unsigned (w : Nat) (i : Int) : Nat := (i % (2 ^ w : Nat)).toNat

/-- `true` as 1. -/
def b2n (b : Bool) : Nat := if b then 1 else 0

/-- A saturating count: `n + k`, at most `max`. -/
def satAdd (max n k : Nat) : Nat := min max (n + k)

/-- The numbers `a`, `a + 1`, …, `n` of them. -/
def span (a : Nat) : Nat → List Nat
  | 0 => []
  | n + 1 => a :: span (a + 1) n

/-- `f n`. The number is evaluated first, so that a long fold can be evaluated step by step. -/
def strictly {α : Type} (n : Nat) (f : Nat → α) : α :=
  match n with
  | 0 => f 0
  | k + 1 => f (k + 1)

@[simp] theorem strictly_eq {α : Type} (n : Nat) (f : Nat → α) : strictly n f = f n := by cases n <;> rfl

/-- Bytes, little-endian, as a number (R8). -/
def leNat : List Byte → Nat
  | [] => 0
  | b :: r => b.toNat + 256 * leNat r

/-- The low `n` bytes of a number, little-endian (R8). -/
def leBytes (v : Nat) : Nat → List Byte
  | 0 => []
  | n + 1 => BitVec.ofNat 8 (v % 256) :: leBytes (v / 256) n

/-- Little-endian bytes `off` to `off + n - 1` of a byte list, as a number; bytes past the end read as zero. -/
def leAt (bs : List Byte) (off n : Nat) : Nat := leNat ((bs.drop off).take n)

/-- Big-endian bytes `off` to `off + n - 1`, the order of network headers (R8). -/
def beAt (bs : List Byte) (off n : Nat) : Nat := leNat (((bs.drop off).take n).reverse)

/-- The element of width `w` at position `i` of a packed number (R101, R147). -/
def elemAt (v w i : Nat) : Nat := natBits v (w * i) w

/-- Elements of width `w` packed from bit 0 (R101). -/
def packElems (w : Nat) : List Nat → Nat
  | [] => 0
  | x :: r => x % 2 ^ w + 2 ^ w * packElems w r

/-- The number of bits needed to write `n`: 0 for 0 (by halving, at most `fuel` times). -/
def bitLen (n : Nat) : Nat := if n = 0 then 0 else Nat.log2 n + 1

/-- Integer square root by one result bit at a time: the largest `r` below `2 ^ k` whose square is at most `n`. -/
def isqrtBits (n : Nat) : Nat → Nat → Nat
  | 0, r => r
  | k + 1, r => if (r + 2 ^ k) * (r + 2 ^ k) ≤ n then isqrtBits n k (r + 2 ^ k) else isqrtBits n k r

/-- Round up a division. -/
def ceilDiv (a b : Nat) : Nat := (a + b - 1) / b

/-- The bits of a mask below `n` that are set, ascending. -/
def maskBits (m : Nat) (n : Nat) : List Nat := (span 0 n).filter (fun i => natBits m i 1 == 1)

end Sys2Proof.Machine
end

