-- ==== Sys2Proof/Machine/Float.lean ====
section
/-!
DEFINITION. Element formats (R19, R99, R100, Table 3.3) and the one rounding of an exact value to a format (R134, R157 to
R159, Table 5.6). Exact values are dyadic numbers; every arithmetic result of the part is one of these rounded once.
-/

namespace Sys2Proof.Machine

/-- An exact value: a signed dyadic number `(-1)^neg * m * 2^e`, an infinity or a NaN. Zero keeps its sign. -/
inductive Num
  | fin (neg : Bool) (m : Nat) (e : Int)
  | inf (neg : Bool)
  | nan
deriving DecidableEq, Repr

/-- A floating-point format: exponent bits, mantissa bits, bias, the largest finite pattern, whether it has infinities,
and its canonical NaN where it has one (Tables 3.3 and 5.6). -/
structure Fmt where
  ebits : Nat
  mbits : Nat
  bias : Nat
  maxFin : Nat
  hasInf : Bool
  nanPat : Option Nat
deriving DecidableEq, Repr

/-- The floating-point formats by data-type code (Table 0.5, Table 3.3, Table 5.6). -/
def fmtOf : Nat → Option Fmt
  | 0 => some ⟨8, 23, 127, 0x7F7FFFFF, true, some 0x7FC00000⟩
  | 1 => some ⟨8, 7, 127, 0x7F7F, true, some 0x7FC0⟩
  | 2 => some ⟨5, 10, 15, 0x7BFF, true, some 0x7E00⟩
  | 3 => some ⟨4, 3, 7, 0x7E, false, some 0x7F⟩
  | 4 => some ⟨5, 2, 15, 0x7B, true, some 0x7E⟩
  | 5 => some ⟨3, 2, 3, 0x1F, false, none⟩
  | 6 => some ⟨2, 3, 1, 0x1F, false, none⟩
  | 7 => some ⟨2, 1, 1, 0x7, false, none⟩
  | _ => none

/-- The FP32 format. -/
def fp32 : Fmt := ⟨8, 23, 127, 0x7F7FFFFF, true, some 0x7FC00000⟩

/-- Element width in bits by data-type code (Table 0.5); 0 for a reserved code. -/
def typeWidth : Nat → Nat
  | 0 => 32 | 1 => 16 | 2 => 16 | 3 => 8 | 4 => 8 | 5 => 6 | 6 => 6 | 7 => 4 | 8 => 8 | 9 => 4
  | 10 => 64 | 11 => 128 | 12 => 1 | _ => 0

/-- Sign bit of a pattern. -/
def Fmt.signBit (f : Fmt) : Nat := 2 ^ (f.ebits + f.mbits)

/-- The exponent of the smallest spacing of a format. -/
def Fmt.qMin (f : Fmt) : Int := 1 - (f.bias : Int) - (f.mbits : Int)

/-- The value of a pattern (R100, Table 3.3). -/
def decodeFp (f : Fmt) (b : Nat) : Num :=
  let neg := natBits b (f.ebits + f.mbits) 1 == 1
  let mag := b % f.signBit
  let e := mag / 2 ^ f.mbits
  let m := mag % 2 ^ f.mbits
  if f.hasInf && e == 2 ^ f.ebits - 1 then (if m = 0 then .inf neg else .nan)
  else if !f.hasInf && f.nanPat == some mag then .nan
  else if e = 0 then .fin neg m f.qMin
  else .fin neg (m + 2 ^ f.mbits) (f.qMin + ((e : Int) - 1))

/-- The value of an element of any type the arrays and the vector engine convert: floating point, INT8 or INT4. -/
def decodeElem (t b : Nat) : Num :=
  match fmtOf t with
  | some f => decodeFp f b
  | none =>
    let w := typeWidth t
    let i := signed w b
    .fin (decide (i < 0)) i.natAbs 0

/-- How a discarded part moves the last kept digit: to nearest even, toward zero, stochastic with a 32-bit draw, or to odd
(Table 0.8, R134, R159). -/
inductive Rnd
  | rne
  | rtz
  | sr (r : Nat)
  | odd
deriving DecidableEq, Repr

/-- The multiple of `2^q` that a magnitude `m * 2^e` rounds to, and whether anything was discarded. -/
def roundGrid (md : Rnd) (m : Nat) (e q : Int) : Nat × Bool :=
  if q ≤ e then (m * 2 ^ (e - q).toNat, false)
  else
    let s := (q - e).toNat
    let t := m / 2 ^ s
    let rem := m % 2 ^ s
    let up : Bool := match md with
      | .rne => decide (2 * rem > 2 ^ s) || (decide (2 * rem = 2 ^ s) && t % 2 == 1)
      | .rtz => false
      | .sr r => decide (r < rem * 2 ^ 32 / 2 ^ s)
      | .odd => decide (rem ≠ 0) && t % 2 == 0
    (if up then t + 1 else t, decide (rem ≠ 0))

/-- The spacing exponent of the grid of `f` at a magnitude, taken with an unbounded exponent range above. -/
def gridExp (f : Fmt) (m : Nat) (e : Int) : Int :=
  if m = 0 then f.qMin else max f.qMin ((Nat.log2 m : Int) + e - (f.mbits : Int))

/-- The magnitude pattern a magnitude rounds to; a pattern above `f.maxFin` is an overflow. -/
def roundMag (f : Fmt) (md : Rnd) (m : Nat) (e : Int) : Nat × Bool :=
  let q := gridExp f m e
  let r := roundGrid md m e q
  (((q - f.qMin).toNat) * 2 ^ f.mbits + r.1, r.2)

/-- A pattern with the sign put in. -/
def Fmt.withSign (f : Fmt) (neg : Bool) (mag : Nat) : Nat := if neg then f.signBit + mag else mag

/-- Pattern of infinity. -/
def Fmt.infPat (f : Fmt) (neg : Bool) : Nat := f.withSign neg ((2 ^ f.ebits - 1) * 2 ^ f.mbits)

/-- What a finite overflow delivers (Table 5.6): infinity or NaN where the format has one, or the largest finite value. -/
def overflowPat (f : Fmt) (md : Rnd) (sat : Bool) (neg : Bool) : Nat :=
  if sat then f.withSign neg f.maxFin
  else match md with
    | .rtz => f.withSign neg f.maxFin
    | _ => if f.hasInf then f.infPat neg else match f.nanPat with
        | some p => p
        | none => f.withSign neg f.maxFin

/-- What an infinite source delivers (Table 5.6). -/
def infSrcPat (f : Fmt) (sat : Bool) (neg : Bool) : Nat :=
  if sat then f.withSign neg f.maxFin
  else if f.hasInf then f.infPat neg
  else match f.nanPat with
    | some p => p
    | none => f.withSign neg f.maxFin

/-- Is this pattern a finite value of the format? -/
def Fmt.isFin (f : Fmt) (b : Nat) : Bool := match decodeFp f b with | .fin _ _ _ => true | _ => false

/-- A converted element: its pattern, and whether the conversion sets NONFIN (R155, R158). -/
structure Conv where
  pat : Nat
  nonfin : Bool
deriving DecidableEq, Repr

/-- Round an exact value once to a floating-point format (R158, Table 5.6). -/
def toFp (f : Fmt) (md : Rnd) (sat : Bool) : Num → Conv
  | .nan => match f.nanPat with
    | some p => ⟨p, true⟩
    | none => ⟨0, true⟩
  | .inf neg =>
    let p := infSrcPat f sat neg
    ⟨p, f.isFin p || decide (decodeFp f p = .nan)⟩
  | .fin neg m e =>
    let r := roundMag f md m e
    if r.1 > f.maxFin then
      let p := overflowPat f md sat neg
      ⟨p, !f.isFin p⟩
    else ⟨f.withSign neg r.1, false⟩

/-- Round an exact value once to a two's-complement integer type of width `w`, clamping (Table 5.6). -/
def toInt (w : Nat) (md : Rnd) : Num → Conv
  | .nan => ⟨0, true⟩
  | .inf neg => ⟨if neg then 2 ^ (w - 1) else 2 ^ (w - 1) - 1, true⟩
  | .fin neg m e =>
    let t := (roundGrid md m e 0).1
    if neg then ⟨unsigned w (-(min t (2 ^ (w - 1)) : Nat)), false⟩ else ⟨min t (2 ^ (w - 1) - 1), false⟩

/-- Convert an exact value to the element type of code `t` (R158). -/
def toElem (t : Nat) (md : Rnd) (sat : Bool) (x : Num) : Conv :=
  match fmtOf t with
  | some f => toFp f md sat x
  | none => toInt (typeWidth t) md x

/-- Negation. -/
def Num.neg : Num → Num
  | .fin n m e => .fin (!n) m e
  | .inf n => .inf (!n)
  | .nan => .nan

/-- Exact product (R102, R154). -/
def Num.mul : Num → Num → Num
  | .nan, _ => .nan
  | _, .nan => .nan
  | .inf a, .inf b => .inf (a != b)
  | .inf a, .fin b m _ => if m = 0 then .nan else .inf (a != b)
  | .fin a m _, .inf b => if m = 0 then .nan else .inf (a != b)
  | .fin a m e, .fin b n g => .fin (a != b) (m * n) (e + g)

/-- The signed mantissa of a finite value at a lower exponent. -/
def alignTo (neg : Bool) (m : Nat) (e q : Int) : Int :=
  let v : Int := (m * 2 ^ (e - q).toNat : Nat)
  if neg then -v else v

/-- Exact sum, with the IEEE sign of zero under round to nearest (R154). -/
def Num.add : Num → Num → Num
  | .nan, _ => .nan
  | _, .nan => .nan
  | .inf a, .inf b => if a = b then .inf a else .nan
  | .inf a, .fin _ _ _ => .inf a
  | .fin _ _ _, .inf b => .inf b
  | .fin a m e, .fin b n g =>
    let q := min e g
    let s := alignTo a m e q + alignTo b n g q
    if s = 0 then .fin (a && b) 0 q else .fin (decide (s < 0)) s.natAbs q

/-- Is the value a NaN? -/
def Num.isNan : Num → Bool
  | .nan => true
  | _ => false

/-- Is the value finite? -/
def Num.isFin : Num → Bool
  | .fin _ _ _ => true
  | _ => false

/-- Is the value zero of either sign? -/
def Num.isZero : Num → Bool
  | .fin _ m _ => m == 0
  | _ => false

/-- Strictly less by value, zeros equal; false with a NaN (R154). -/
def Num.lt : Num → Num → Bool
  | .nan, _ => false
  | _, .nan => false
  | .inf a, .inf b => a && !b
  | .inf a, .fin _ _ _ => a
  | .fin _ _ _, .inf b => !b
  | .fin a m e, .fin b n g =>
    let q := min e g
    decide (alignTo a m e q < alignTo b n g q)

/-- Equal by value, zeros equal; false with a NaN (R154). -/
def Num.eqv (x y : Num) : Bool := !x.isNan && !y.isNan && !x.lt y && !y.lt x

/-- Less in the order of MAX and MIN, in which −0 is below +0 (R22). -/
def Num.ltMM (x y : Num) : Bool :=
  x.lt y || (x.isZero && y.isZero && (match x, y with | .fin a _ _, .fin b _ _ => a && !b | _, _ => false))

/-- The larger operand (R22). -/
def Num.maxMM (x y : Num) : Num := if x.isNan || y.isNan then .nan else if x.ltMM y then y else x

/-- The smaller operand (R22). -/
def Num.minMM (x y : Num) : Num := if x.isNan || y.isNan then .nan else if y.ltMM x then y else x

/-- Multiply by a power of two. -/
def Num.scale2 (x : Num) (k : Int) : Num :=
  match x with
  | .fin n m e => .fin n m (e + k)
  | y => y

/-- An integer as an exact value. -/
def Num.ofInt (i : Int) (e : Int) : Num := .fin (decide (i < 0)) i.natAbs e

/-- Round a value to FP32 with round to nearest. -/
def toF32 (x : Num) : Nat := (toFp fp32 .rne false x).pat

/-- The value of an FP32 pattern. -/
def ofF32 (b : Nat) : Num := decodeFp fp32 b

end Sys2Proof.Machine
end

