-- ==== Sys2Proof/Config.lean ====
section
/-!
DEFINITION. The free values of the model: what the spec leaves to the part, to its random number generators, to unwritten
memory, or to an algorithm it names without defining it. Each is opaque: no proof can learn a value of it, so a statement
about it holds whatever it is. Each has a row in the assumption log.
-/

namespace Sys2Proof.Config

/-- The random data and check bytes of an unwritten scratchpad word, 64 bytes and then 4 (R83, R194). The argument names the word and the
reset since which it has not been written. (DESIGN CHOICE, log entry 8.) -/
opaque spadRaw : Nat → BitVec 544

/-- The stored block check of a scratchpad granule that no write has covered (R83, R194). (DESIGN CHOICE, log entry 8.) -/
opaque spadChkNoise : Nat → BitVec 16

/-- The data and check bytes of a bank word that no group update has written since reset; where another part of the word was written, its
unwritten parts keep these data bits (R48). (DESIGN CHOICE, log entry 8.) -/
opaque bankRaw : Nat → BitVec 544

/-- How many more rows of an MX.MMA have reached their groups when a vector word reads one of them (R140). (DESIGN CHOICE, log entry 72.) -/
opaque mmaProgress : Nat → Nat

/-- The result of a special function where interval arithmetic at 256 bits does not fix the rounding (R156). (DESIGN CHOICE, log entry 14.) -/
opaque specialUndecided : Nat → Nat → Nat

/-- The SHA-512 digest, which the spec cites and does not define. (DESIGN CHOICE, log entry 10.) -/
opaque sha512 : List Byte → BitVec 512

/-- Ed25519 verification, which the spec cites and does not define: key, message, signature. (DESIGN CHOICE, log entry 10.) -/
opaque ed25519Ok : BitVec 256 → List Byte → BitVec 512 → Bool

/-- An Ed25519 signature made with the identity key of a die (0 to 5). (DESIGN CHOICE, log entry 10.) -/
opaque ed25519Sign : Nat → List Byte → BitVec 512

/-- The random number generator of a package: its n-th draw. (DESIGN CHOICE, log entry 11.) -/
opaque random : Nat → BitVec 512

/-- Identity public key of a die (0 to 5). (DESIGN CHOICE, log entry 10.) -/
opaque diePubKey : Nat → BitVec 256

/-- An argument of an error record whose coding or packing the spec leaves open (Table 11.8): cause, argument 0 or 1, and the
values it reports. (DESIGN CHOICE, log entry 12.) -/
opaque recordArg : Nat → Nat → List Nat → BitVec 32

/-- What a conversion between BIT1 and another element type gives, which the spec does not state: source type, target type,
element. (DESIGN CHOICE, log entry 15.) -/
opaque bit1Conv : Nat → Nat → Nat → Nat

/-- What the bytes of a schedule image say: the layout beyond the header is Meroram's image format (R439). (DESIGN CHOICE, log entry 13.) -/
opaque imageOf : List Byte → ImageTables

/-- The entry of the event that follows a stored checkpoint: step, byte count and stream CRC, in a layout the spec does not give (R422).
(DESIGN CHOICE, log entry 18.) -/
opaque ckptEntry : Nat → Nat → Nat → BitVec 512

/-- The SHA-512 of the firmware public key of a fuse slot (R431). (DESIGN CHOICE, log entry 10.) -/
opaque fuseKeyHash : Nat → BitVec 512

/-- Does a public key decode as an Ed25519 point (R440)? (DESIGN CHOICE, log entry 10.) -/
opaque ed25519Point : BitVec 256 → Bool

/-- The first of the two regions that the lead die's cluster makes FIRMWARE regions for its image, which the spec does not number (R430).
(DESIGN CHOICE, log entry 19.) -/
opaque fwRegion : Nat

/-- Zormal's manufacturing public key, in the boot ROM (R437). (DESIGN CHOICE, log entry 10.) -/
opaque makerKey : BitVec 256

/-- Zormal's qualification public key, in the boot ROM (R382). (DESIGN CHOICE, log entry 10.) -/
opaque qualKey : BitVec 256

/-- What a byte of flash reads as that no write of the package has covered. (DESIGN CHOICE, log entry 16.) -/
opaque flashByte : Nat → BitVec 8

/-- The value bytes of an SMBus read whose status is not 0 (R486). (DESIGN CHOICE, log entry 17.) -/
opaque smbusNoise : Nat → BitVec 64

/-- The 16 bytes of a link control entry of a CTRL flit, whose layout the spec does not give (R253). (DESIGN CHOICE, log entry 73.) -/
opaque linkEntry : LinkEntry → BitVec 128

/-- The link control entry that 16 bytes of a CTRL flit spell, if any (R253). (DESIGN CHOICE, log entry 73.) -/
opaque linkEntryOf : BitVec 128 → Option LinkEntry

/-- The 8 bytes of an entry of a CTRL package flit, whose layout the spec does not give (Table 12.3). (DESIGN CHOICE, log entry 73.) -/
opaque edgeEntry : EdgeEntry → BitVec 64

/-- The entry that 8 bytes of a CTRL package flit spell, if any (Table 12.3). (DESIGN CHOICE, log entry 73.) -/
opaque edgeEntryOf : BitVec 64 → Option EdgeEntry

/-- Silicon revision and supplier in the IDCODE of a die whose certificate has not been read since reset (R491). (DESIGN CHOICE, log entry 17.) -/
opaque siliconId : Nat → Nat × Nat

end Sys2Proof.Config
end

