-- ==== Sys2Proof/Machine/Crc.lean ====
section
/-!
DEFINITION. The checks and mixing functions the spec defines: the block check CRC-16 (R187), CRC-32C (R252), the mixing
functions of the stochastic-rounding generator (R160) and the granule digest (R352).
-/

namespace Sys2Proof.Machine

/-- One bit of a CRC shifted most significant bit first, width `w`. -/
def crcStepMsb (w poly : Nat) (crc : Nat) (b : Bool) : Nat :=
  let top := natBits crc (w - 1) 1 == 1
  let sh := (crc * 2) % 2 ^ w
  if top != b then sh ^^^ poly else sh

/-- One byte, most significant bit first. -/
def crcByteMsb (w poly crc : Nat) (b : Byte) : Nat :=
  [7, 6, 5, 4, 3, 2, 1, 0].foldl (fun c i => crcStepMsb w poly c (bit b i)) crc

/-- A CRC register after the bytes of a list, each taken in by `f`. -/
def crcBytes (f : Nat → Byte → Nat) : List Byte → Nat → Nat
  | [], c => c
  | b :: r, c => strictly (f c b) (crcBytes f r)

theorem crcBytes_eq (f : Nat → Byte → Nat) (bs : List Byte) (c : Nat) : crcBytes f bs c = bs.foldl f c := by
  induction bs generalizing c with
  | nil => rfl
  | cons b r ih => rw [crcBytes, strictly_eq, ih, List.foldl_cons]

/-- The block check of a byte string: CRC-16, polynomial 0x8BB7, initial value zero, no reflection, no final XOR (R187). -/
def crc16 (bs : List Byte) : BitVec 16 := BitVec.ofNat 16 (crcBytes (crcByteMsb 16 0x8BB7) bs 0)

/-- The block check of a granule's 128 bytes (R187). -/
def chkOf (g : GranBits) : BitVec 16 := crc16 (leBytes g.toNat 128)

/-- One bit of a CRC shifted least significant bit first (the reflected form), 32 bits. -/
def crcStepLsb (poly crc : Nat) : Nat := if crc % 2 == 1 then (crc / 2) ^^^ poly else crc / 2

/-- CRC-32C (R252): reflected polynomial 0x82F63B78, all-ones start, complemented at the end. -/
def crc32c (bs : List Byte) : BitVec 32 :=
  BitVec.ofNat 32 (crcBytes (fun c b => (span 0 8).foldl (fun c _ => crcStepLsb 0x82F63B78 c) (c ^^^ b.toNat)) bs 0xFFFFFFFF ^^^ 0xFFFFFFFF)

/-- Rotate left by `k` (R160). -/
def rotl (x : BitVec 64) (k : Nat) : BitVec 64 := (x <<< k) ||| (x >>> (64 - k))

/-- The mixing function of R160. -/
def mix (z : BitVec 64) : BitVec 64 :=
  let z := z ^^^ (z >>> 31)
  let z := z * 0xD6E8FEB86659FD93#64
  let z := z ^^^ (z >>> 29)
  let z := z * 0xA5CB3A491E62B1C7#64
  z ^^^ (z >>> 32)

/-- The generator value of R160. -/
def srBits (seed : BitVec 64) (step tensor : Nat) (index : BitVec 64) : Nat :=
  let key := mix (seed ^^^ (BitVec.ofNat 64 step <<< 32) ^^^ BitVec.ofNat 64 tensor)
  let ctr := mix (index + 0x632BE59BD9B4E019#64)
  (mix (key ^^^ rotl ctr 17)).toNat >>> 32

/-- The digest of one granule under keys `k0`, `k1` at local address `a` (R352). -/
def granuleDigest (k0 k1 : BitVec 64) (a : Nat) (g : GranBits) : BitVec 128 :=
  let a64 := BitVec.ofNat 64 a
  let h := (span 0 16).foldl (fun (h : BitVec 64 × BitVec 64) i =>
      let w := BitVec.ofNat 64 (fld g (64 * i) 64)
      (mix (h.1 ^^^ w), mix (h.2 + rotl w 23)))
    (mix (k0 ^^^ a64), mix (k1 ^^^ rotl a64 29))
  BitVec.ofNat 128 (h.2.toNat * 2 ^ 64 + h.1.toNat)

/-- One step of the sentinel fold over a block value and its tag (R349). -/
def sentinelFold (d : BitVec 64) (value : Nat) (tag : Nat) : BitVec 64 :=
  let d := mix (d ^^^ BitVec.ofNat 64 (value % 2 ^ 64))
  let d := mix (d ^^^ BitVec.ofNat 64 (value / 2 ^ 64))
  mix (d ^^^ BitVec.ofNat 64 tag)

end Sys2Proof.Machine
end

