-- ==== Sys2Proof/Machine/Garnet.lean ====
section
/-!
DEFINITION. Reed–Solomon codes as the package uses them: the fields, generators and check symbols of Garnet-72 (R189), Garnet-68 (R193) and
the Ewerlink code (R250), and the decoder of at most two wrong symbols beside known erasures (R191, R192).
-/

namespace Sys2Proof.Machine

/-- A Reed–Solomon code: symbol width, field polynomial, symbols in all and check symbols. Its generator has the roots α⁰, α¹, …, one for each
check symbol, and α is 2. `high` says that the first symbol has the highest power of x; else message symbol j has the power j + checks. -/
structure RsCode where
  w : Nat
  poly : Nat
  n : Nat
  checks : Nat
  high : Bool
deriving DecidableEq, Repr

/-- Garnet-72 (R189). -/
def garnet72 : RsCode := ⟨16, 0x1100B, 72, 6, false⟩

/-- Garnet-68 (R193). -/
def garnet68 : RsCode := ⟨8, 0x11D, 68, 4, false⟩

/-- The code of an Ewerlink port (R250). The first symbol sent has the highest power. (DESIGN CHOICE, log entry 73.) -/
def ewerFec : RsCode := ⟨10, 0x409, 144, 8, true⟩

/-! ### The field -/

/-- Multiply by shifting and adding modulo the field polynomial, one bit of `b` at a time. -/
def gfMulFuel (w poly : Nat) : Nat → Nat → Nat → Nat → Nat
  | 0, _, _, acc => acc
  | n + 1, a, b, acc =>
    gfMulFuel w poly n (if 2 * a < 2 ^ w then 2 * a else (2 * a) ^^^ poly) (b / 2) (if b % 2 = 1 then acc ^^^ a else acc)

/-- The product of two field elements. -/
def RsCode.mul (c : RsCode) (a b : Nat) : Nat := gfMulFuel c.w c.poly c.w a b 0

/-- `a` squared `n` times and multiplied up by the bits of `e` (least significant first). -/
def RsCode.powFuel (c : RsCode) : Nat → Nat → Nat → Nat → Nat
  | 0, _, _, acc => acc
  | n + 1, a, e, acc => RsCode.powFuel c n (c.mul a a) (e / 2) (if e % 2 = 1 then c.mul acc a else acc)

/-- A power of a field element. -/
def RsCode.pow (c : RsCode) (a e : Nat) : Nat := c.powFuel (c.w + 1) a e 1

/-- A quotient of field elements; the divisor is not zero. -/
def RsCode.div (c : RsCode) (a b : Nat) : Nat := c.mul a (c.pow b (2 ^ c.w - 2))

/-- The sum of field elements. -/
def gfSum (l : List Nat) : Nat := l.foldl (· ^^^ ·) 0

/-! ### Encoding -/

/-- Multiply a polynomial (lowest coefficient first) by x + r. -/
def RsCode.timesRoot (c : RsCode) (p : List Nat) (r : Nat) : List Nat :=
  ((p.map (c.mul r) ++ [0]).zip (0 :: p)).map (fun (z : Nat × Nat) => z.1 ^^^ z.2)

/-- The generator, lowest coefficient first: monic, of degree `checks`. -/
def RsCode.gen (c : RsCode) : List Nat := (span 0 c.checks).foldl (fun p i => c.timesRoot p (c.pow 2 i)) [1]

/-- One step of the division by the generator: the next message symbol enters. -/
def RsCode.shift (c : RsCode) (g : List Nat) (reg : List Nat) (m : Nat) : List Nat :=
  let fb := m ^^^ reg.getLastD 0
  ((0 :: reg.dropLast).zip g).map (fun (z : Nat × Nat) => z.1 ^^^ c.mul fb z.2)

/-- The check symbols p₀, p₁, … of message symbols m₀, m₁, …: M(x) mod g(x), where M(x) is Σ m_j x^(j + checks). -/
def RsCode.encode (c : RsCode) (msg : List Nat) : List Nat :=
  msg.reverse.foldl (c.shift c.gen) (List.replicate c.checks 0)

/-! ### Decoding -/

/-- The power of x that a symbol has: message symbols first, then the check symbols (R190, R193). -/
def RsCode.expo (c : RsCode) (pos : Nat) : Nat := if c.high then c.n - 1 - pos else if pos + c.checks < c.n then pos + c.checks else pos + c.checks - c.n

/-- The locator of a stored symbol. -/
def RsCode.locator (c : RsCode) (pos : Nat) : Nat := c.pow 2 (c.expo pos)

/-- The syndromes of a pattern of wrong symbols. -/
def RsCode.syndromes (c : RsCode) (l : List SymErr) : List Nat :=
  (span 0 c.checks).map (fun i => gfSum (l.map (fun e => c.mul e.flip (c.pow (c.locator e.pos) i))))

/-- Take a known locator out of a row of syndromes; one fewer is left. -/
def RsCode.reduce (c : RsCode) (x : Nat) (t : List Nat) : List Nat :=
  (t.zip (t.drop 1)).map (fun z => c.mul x z.1 ^^^ z.2)

/-- The value at the locator `x` among the locators `xs` that explains the syndromes. -/
def RsCode.valueAt (c : RsCode) (t xs : List Nat) (x : Nat) : Nat :=
  let p := (xs.filter (· != x)).foldl c.timesRoot [1]
  c.div (gfSum ((p.zip t).map (fun z => c.mul z.1 z.2))) (gfSum ((p.zip (span 0 p.length)).map (fun z => c.mul z.1 (c.pow x z.2))))

/-- The positions other than the erased ones whose symbols, at most two, are wrong: from what is left of the syndromes (R191, R192). -/
def RsCode.findTwo (c : RsCode) (erased : List Nat) (t : List Nat) : Option (List Nat) :=
  let free := (span 0 c.n).filter (fun p => !erased.contains p)
  if t.all (· == 0) then some []
  else
    match free.find? (fun p => (c.reduce (c.locator p) t).all (· == 0)) with
    | some p => some [p]
    | none =>
      let s (i : Nat) : Nat := t.getD i 0
      let det := c.mul (s 0) (s 2) ^^^ c.mul (s 1) (s 1)
      if det = 0 then none
      else
        let b1 := c.div (c.mul (s 0) (s 3) ^^^ c.mul (s 1) (s 2)) det
        let b0 := c.div (c.mul (s 1) (s 3) ^^^ c.mul (s 2) (s 2)) det
        let l := free.filter (fun p => let x := c.locator p; c.mul x (x ^^^ b1) == b0)
        if l.length = 2 && ((l.map c.locator).foldl (fun t x => c.reduce x t) t).all (· == 0) then some l else none

/-- Decode a pattern of wrong symbols, some pins being erasures: the symbols the decoder changes, or nothing where it finds the word
uncorrectable (R191, R192, R193). It sees the syndromes alone, so it can change the word into another code word. -/
def RsCode.decode (c : RsCode) (erased : List Nat) (l : List SymErr) : Option (List SymErr) :=
  if l.isEmpty then some []
  else
    let s := c.syndromes l
    let xe := erased.map c.locator
    (c.findTwo erased (xe.foldl (fun t x => c.reduce x t) s)).map (fun ps =>
      let all := ps ++ erased
      (all.map (fun p => SymErr.mk p (c.valueAt s (all.map c.locator) (c.locator p)))).filter (fun e => e.flip != 0))

/-! ### Up to half as many wrong symbols as check symbols (R250) -/

/-- The state of Berlekamp and Massey's search: the locator polynomial and the one before its last change, lowest coefficient first, its length, how
far back the change lies and the discrepancy then. -/
structure BmState where
  cur : List Nat
  old : List Nat
  len : Nat
  gap : Nat
  was : Nat

/-- Add `k` times `p`, moved up by `m` places, to a polynomial. -/
def RsCode.addMoved (c : RsCode) (a p : List Nat) (k m : Nat) : List Nat :=
  (span 0 (max a.length (p.length + m))).map (fun i => a.getD i 0 ^^^ (if m ≤ i then c.mul k (p.getD (i - m) 0) else 0))

/-- One step of the search: the syndrome numbered `n` enters. -/
def RsCode.bmStep (c : RsCode) (s : List Nat) (b : BmState) (n : Nat) : BmState :=
  let d := gfSum ((span 0 (b.len + 1)).map (fun i => c.mul (b.cur.getD i 0) (s.getD (n - i) 0)))
  if d = 0 then { b with gap := b.gap + 1 }
  else
    let cur := c.addMoved b.cur b.old (c.div d b.was) b.gap
    if 2 * b.len ≤ n then ⟨cur, b.cur, n + 1 - b.len, 1, d⟩ else { b with cur := cur, gap := b.gap + 1 }

/-- The value of a polynomial at a field element. -/
def RsCode.eval (c : RsCode) (p : List Nat) (x : Nat) : Nat := p.foldr (fun a v => a ^^^ c.mul v x) 0

/-- Decode a pattern of at most `checks` / 2 wrong symbols: the symbols the decoder changes, or nothing where it detects that there are more. Like
any decoder of the code it sees the syndromes alone. -/
def RsCode.decodeHalf (c : RsCode) (l : List SymErr) : Option (List SymErr) :=
  let s := c.syndromes l
  if s.all (· == 0) then some []
  else
    let b := (span 0 c.checks).foldl (c.bmStep s) ⟨[1], [1], 0, 1, 1⟩
    let p := (b.cur.take (b.len + 1)).reverse
    let ps := (span 0 c.n).filter (fun i => c.eval p (c.locator i) == 0)
    let fix := ps.map (fun i => SymErr.mk i (c.valueAt s (ps.map c.locator) (c.locator i)))
    if decide (2 * b.len ≤ c.checks) && ps.length == b.len && c.syndromes fix == s then some fix else none

/-- Two patterns of wrong symbols laid over each other. -/
def overlay (a b : List SymErr) : List SymErr :=
  b.foldl (fun l e =>
    match l.find? (fun x => x.pos == e.pos) with
    | none => if e.flip = 0 then l else l ++ [e]
    | some x => if x.flip ^^^ e.flip = 0 then l.filter (fun y => y.pos != e.pos) else l.map (fun y => if y.pos = e.pos then ⟨y.pos, y.flip ^^^ e.flip⟩ else y)) a

/-- A stored word of `w`-bit symbols with the symbols of a pattern changed; check symbols lie beyond its bits. -/
def flipSyms {n : Nat} (w : Nat) (v : BitVec n) (l : List SymErr) : BitVec n :=
  l.foldl (fun x e => x ^^^ BitVec.ofNat n (e.flip * 2 ^ (w * e.pos))) v

/-- A Garnet-68 word and its wrong symbols after more of them: where the word now lies within two symbols of another code word, it is
that code word with those symbols wrong (R193). Afterwards a word with three or more wrong symbols is uncorrectable. -/
def strike (v : SpadBits) (old new : List SymErr) : SpadBits × List SymErr :=
  let l := overlay old new
  if l.length ≤ 2 then (v, l)
  else match garnet68.decode [] l with
    | none => (v, l)
    | some f => (flipSyms 8 v (overlay l f), f)

end Sys2Proof.Machine
end

