-- ==== Sys2Proof/Machine/Map.lean ====
section
/-!
DEFINITION. Reading and writing a sparse table. `d k` is what an unlisted key `k` reads as; a write keeps the list in
its one canonical form (keys rising, no entry equal to its default), so equal tables are equal lists.
-/

namespace Sys2Proof.Machine

variable {α : Type}

/-- The value of key `k`. -/
def mapGet (d : Nat → α) : SMap α → Nat → α
  | [], k => d k
  | (k', v) :: r, k => if k' = k then v else mapGet d r k

/-- The table without key `k`. -/
def mapErase (m : SMap α) (k : Nat) : SMap α := m.filter (fun e => e.1 != k)

/-- The table with the pair `(k, v)` put before the first larger key. -/
def mapInsert (k : Nat) (v : α) : SMap α → SMap α
  | [] => [(k, v)]
  | (k', v') :: r => if k < k' then (k, v) :: (k', v') :: r else (k', v') :: mapInsert k v r

/-- The table in which key `k` reads `v`. -/
def mapSet [DecidableEq α] (d : Nat → α) (m : SMap α) (k : Nat) (v : α) : SMap α :=
  match m with
  | [] => if v = d k then [] else [(k, v)]
  | e :: r => if v = d k then mapErase (e :: r) k else mapInsert k v (mapErase (e :: r) k)

/-- The table in which key `k` is changed by `f`. -/
def mapMod [DecidableEq α] (d : Nat → α) (m : SMap α) (k : Nat) (f : α → α) : SMap α :=
  mapSet d m k (f (mapGet d m k))

/-- The table in which keys `k`, `k + 1`, … read the listed values. -/
def mapSetList [DecidableEq α] (d : Nat → α) (m : SMap α) (k : Nat) : List α → SMap α
  | [] => m
  | v :: r => mapSetList d (mapSet d m k v) (k + 1) r

/-- The table without the keys that `p` picks: they read as their defaults again. -/
def mapDrop (p : Nat → Bool) (m : SMap α) : SMap α := m.filter (fun e => !p e.1)

/-- The canonical form: keys strictly rising and no entry equal to its default. -/
abbrev mapWf (d : Nat → α) (m : SMap α) : Prop :=
  m.Pairwise (fun a b => a.1 < b.1) ∧ ∀ e ∈ m, e.2 ≠ d e.1

end Sys2Proof.Machine
end

