-- ==== Sys2Proof/Machine/CoreState.lean ====
section
/-!
DEFINITION. The state of one physical core: sequencer streams, tokens, engine queues, words in flight, matrix arrays with
their accumulator banks, vector contexts and the scratchpad (chapters Compute core, Matrix arrays, Accumulation, Vector
engine, Stacked memory).
-/

namespace Sys2Proof.Machine

/-- Stream states of SEQ_STATUS (Table 2.11). -/
inductive StreamSt
  | idle | running | waiting | ended | halted
deriving DecidableEq, Repr

/-- An entry of a loop stack: where the body starts and how many runs remain (R75). -/
structure LoopEntry where
  body : Nat
  count : Nat
deriving DecidableEq, Repr

/-- An IRLOAD in progress (R76): its page, source address, word and word index. -/
structure IrLoad where
  page : Nat
  src : Nat
  word : InstrWord
  pc : Nat
deriving DecidableEq, Repr

/-- A 256 B line of instructions in a stream's fetch buffer (R68): its number in the instruction region, and its four scratchpad words. -/
structure FetchLine where
  line : Nat
  words : List SpadBits
deriving DecidableEq, Repr

/-- One instruction stream of a sequencer (R62, R68, R346): state, the word dispatched
next and the one dispatched last, index registers X1 to X15, loop stack (top
first), IRLOADs in progress, the MX.MMA and sentinel counts since GO, and the fetch buffer, oldest line first. -/
structure StreamCtl where
  st : StreamSt
  cur : Nat
  last : Nat
  x : SMap (BitVec 32)
  loops : List LoopEntry
  irloads : List IrLoad
  mmaCount : Nat
  sentPasses : Nat
  sentOwed : Nat
  buf : List FetchLine
deriving DecidableEq, Repr

/-- A stream before any GO. -/
def StreamCtl.reset : StreamCtl := ⟨.idle, 0, 0, [], [], [], 0, 0, 0, []⟩

/-- A word in an engine queue: the word, its index in the instruction region, and the index registers it read at dispatch
(R62). -/
structure QEntry where
  word : InstrWord
  pc : Nat
  x : SMap (BitVec 32)
deriving DecidableEq, Repr

/-- A masked write of a register by a vector word in flight: register, bits written, their new values. -/
structure RegWrite (n : Nat) where
  idx : Nat
  mask : BitVec n
  val : BitVec n
deriving DecidableEq, Repr

/-- What a vector word in flight writes when it completes (R151): vector registers, tag side fields, predicates, scalars, VL with ETYPE and
GRP, scratchpad words with the bits of each it writes, and what it adds to VX_STEP_FLAGS and VX_STEP_OVF. -/
structure VxWrites where
  v : List (RegWrite 2048)
  tag : List (RegWrite 128)
  p : List (RegWrite 512)
  s : List (RegWrite 32)
  vtype : Option (Nat × Nat × Nat)
  spad : List (Nat × SpadBits × SpadBits)
  nonfin : Bool
  ufr : Bool
  wraps : Nat
deriving DecidableEq, Repr

/-- A word that writes no vector register. -/
def VxWrites.none : VxWrites := ⟨[], [], [], [], .none, [], false, false, 0⟩

/-- What a data mover word in flight holds (R202): granules read from the scratchpad and not yet written, transfers or READs to
another package not yet answered, and the first failing address. -/
structure DmXfer where
  data : List DGran
  waiting : Nat
  bad : Option Nat
deriving DecidableEq, Repr

/-- Nothing to move. -/
def DmXfer.none : DmXfer := ⟨[], 0, .none⟩

/-- A weight slot (R86): tile and scales as scratchpad words, data type, scale mode, VALID, the MX.WLOAD that filled it
(R347), an MX.WLOAD in progress, and wrong symbols by word (the tile's words, then the scales'). -/
structure Slot where
  tile : List SpadBits
  scales : List SpadBits
  dtype : Nat
  scale : Nat
  valid : Bool
  fill : Nat
  loading : Bool
  errs : SMap (List SymErr)
deriving DecidableEq, Repr

/-- An empty slot. -/
def Slot.reset : Slot := ⟨[], [], 0, 0, false, 0, false, []⟩

/-- What the running pass of an MX.MMA holds (R87, R91, R111, R140): activation rows and scales as read, each masked array with its copy of the
slot, whether it is the second pass, and how many rows have reached their groups. -/
structure MmaRun where
  acts : Nat
  scs : Nat
  slots : List (Nat × Slot)
  second : Bool
  done : Nat
deriving DecidableEq, Repr

/-- Before an MX.MMA, and for every other word. -/
def MmaRun.none : MmaRun := ⟨0, 0, [], false, 0⟩

/-- A word that has issued and not completed (R59): engine, stream, the queue entry, whether its sources are released,
whether a second pass of half-width arrays is still owed (R111), its number among the core's issued words, the results of a
vector word, what a data mover word holds, and the running pass of an MX.MMA. -/
structure InFlight where
  eng : Engine
  strm : Stream
  ent : QEntry
  released : Bool
  pass2 : Bool
  id : Nat
  vx : VxWrites
  dm : DmXfer
  mma : MmaRun
deriving DecidableEq, Repr

/-- An accumulation group of one array (R126 to R128, R141): descriptor, bank offset in 256 B units, open, owner, fresh rows (for columns 0 to
31, and for columns 32 to 63, which a half-width array reaches in its second pass, R111), flags, and a close that has issued and not yet released
it. -/
structure Group where
  desc : BitVec 32
  base : Nat
  isOpen : Bool
  owner : Stream
  fresh : BitVec 64
  freshHi : BitVec 64
  ovf : Nat
  ufr : Bool
  wrap : Bool
  nonfin : Bool
  closing : Bool
deriving DecidableEq, Repr

/-- A group before any GOPEN. -/
def Group.reset : Group := ⟨0, 0, false, .crit, 0, 0, 0, false, false, false, false⟩

/-- Presentation of an array (Table 3.11). -/
inductive ArrSt
  | full | half | disabled
deriving DecidableEq, Repr

/-- One matrix array: slots, groups, the bank in 8 B units (`none`: no group update has written it since reset), the tag
store, wrong symbols by 64 B bank word, by 64 B word of the tag store and by group-store entry, column sets and self-test state (R86, R107 to R109, R129). -/
structure ArrayState where
  slots : SMap Slot
  groups : SMap Group
  bank : SMap (Option (BitVec 64))
  tags : SMap (BitVec 2)
  bankErrs : SMap (List SymErr)
  tagErrs : SMap (List SymErr)
  groupErrs : SMap (List SymErr)
  st : ArrSt
  quar : Bool
  bad : BitVec 66
  pend : BitVec 66
  ctest : BitVec 66
  ctDone : Bool
  ctUnloc : Bool
  ctRunning : Bool
  cleanCnt : Nat
deriving DecidableEq, Repr

/-- An array that passed its start-up self-test with no failing column. -/
def ArrayState.reset : ArrayState :=
  ⟨[], [], [], [], [], [], [], .full, false, 0, 0, 0, false, false, false, 0⟩

/-- What a retirement of its core leaves of an array: its column state and self-test results, which ARR_STATUS shows (R112, R360). -/
def ArrayState.retired (a : ArrayState) : ArrayState :=
  { ArrayState.reset with st := a.st, quar := a.quar, bad := a.bad, pend := a.pend, ctest := a.ctest, ctDone := a.ctDone, ctUnloc := a.ctUnloc, cleanCnt := a.cleanCnt }

/-- A vector register context (R145): vector registers, tag side fields, predicates p1 to p7, scalars s1 to s31, VL and
VTYPE. -/
structure VCtx where
  v : SMap (BitVec 2048)
  tag : SMap (BitVec 128)
  p : SMap (BitVec 512)
  s : SMap (BitVec 32)
  vl : Nat
  etype : Nat
  grp : Nat
deriving DecidableEq, Repr

/-- A context as GO leaves it (R146). -/
def VCtx.reset : VCtx := ⟨[], [], [], [], 0, 0, 0⟩

/-- A stored scratchpad word: never written since reset, or a code word of some data with some symbols in error (R193,
R194). -/
inductive SpadWord
  | unwritten
  | stored (data : SpadBits) (errs : List SymErr)
deriving DecidableEq, Repr

/-- A column self-test, a sentinel pass or another unit of work of the matrix engine that is owed or running (R348): the
original and sibling arrays, the word, its stream and the two digests. -/
structure Sentinel where
  strm : Stream
  ent : QEntry
  orig : Nat
  sib : Nat
  passed : Bool
  dOrig : BitVec 64
  dSib : BitVec 64
deriving DecidableEq, Repr

/-- One physical core. `queues` is keyed by engine and stream; `arrays` by array number; `spad` and `spadChk` by scratchpad
word and granule, `sideErrs` by word of the block-check store (32 checks each, R193); `issued` numbers
the words issued; `resets` tells one reset's unwritten memory from another's; `recAt` is the die timebase of the last
SPAD_CORRECTED record (R211). -/
structure Core where
  crit : StreamCtl
  defr : StreamCtl
  tokens : SMap Nat
  queues : SMap (List QEntry)
  inflight : List InFlight
  issued : Nat
  arrays : SMap ArrayState
  fills : Nat
  sentinels : List Sentinel
  vcrit : VCtx
  vdefr : VCtx
  spad : SMap SpadWord
  spadChk : SMap (Option (BitVec 16))
  sideErrs : SMap (List SymErr)
  haltInfo : BitVec 64
  done : Bool
  resets : Nat
  recAt : Option Nat
deriving DecidableEq, Repr

/-- A core after a reset of its die. (DESIGN CHOICE, log entry 6.) -/
def Core.reset : Core :=
  ⟨.reset, .reset, [], [], [], 0, [], 0, [], .reset, .reset, [], [], [], 0, false, 0, none⟩

/-- A core as its retirement leaves it (R41, R360): held in reset, with its arrays' column state. (DEDUCED, log entry 49.) -/
def Core.retired (c : Core) : Core :=
  { Core.reset with resets := c.resets + 1, arrays := (c.arrays.map (fun (e : Nat × ArrayState) => (e.1, e.2.retired))).filter (fun (e : Nat × ArrayState) => e.2 != ArrayState.reset) }

/-- The control state of one stream. -/
def Core.stream (c : Core) : Stream → StreamCtl
  | .crit => c.crit
  | .defr => c.defr

/-- Replace the control state of one stream. -/
def Core.setStream (c : Core) (st : Stream) (v : StreamCtl) : Core :=
  match st with
  | .crit => { c with crit := v }
  | .defr => { c with defr := v }

/-- The vector context of one stream (R145). -/
def Core.vctx (c : Core) : Stream → VCtx
  | .crit => c.vcrit
  | .defr => c.vdefr

/-- Replace the vector context of one stream. -/
def Core.setVctx (c : Core) (st : Stream) (v : VCtx) : Core :=
  match st with
  | .crit => { c with vcrit := v }
  | .defr => { c with vdefr := v }

/-- Index register `i` of a stream; X0 reads zero (R60). -/
def StreamCtl.xreg (s : StreamCtl) (i : Nat) : BitVec 32 := if i = 0 then 0 else mapGet (fun _ => 0) s.x i

/-- Write index register `i`; a write to X0 is lost (R60). -/
def StreamCtl.setX (s : StreamCtl) (i : Nat) (v : BitVec 32) : StreamCtl :=
  if i = 0 then s else { s with x := mapSet (fun _ => 0) s.x i v }

/-- Token `i` (R63). -/
def Core.token (c : Core) (i : Nat) : Nat := mapGet (fun _ => 0) c.tokens i

/-- Set token `i`. -/
def Core.setToken (c : Core) (i v : Nat) : Core := { c with tokens := mapSet (fun _ => 0) c.tokens i v }

/-- Array `j` of a core. -/
def Core.array (c : Core) (j : Nat) : ArrayState := mapGet (fun _ => .reset) c.arrays j

/-- Replace array `j`. -/
def Core.setArray (c : Core) (j : Nat) (a : ArrayState) : Core := { c with arrays := mapSet (fun _ => .reset) c.arrays j a }

/-- Slot `k` of an array. -/
def ArrayState.slot (a : ArrayState) (k : Nat) : Slot := mapGet (fun _ => .reset) a.slots k

/-- Replace slot `k`. -/
def ArrayState.setSlot (a : ArrayState) (k : Nat) (v : Slot) : ArrayState :=
  { a with slots := mapSet (fun _ => .reset) a.slots k v }

/-- Group `g` of an array. -/
def ArrayState.group (a : ArrayState) (g : Nat) : Group := mapGet (fun _ => .reset) a.groups g

/-- Replace group `g`. -/
def ArrayState.setGroup (a : ArrayState) (g : Nat) (v : Group) : ArrayState :=
  { a with groups := mapSet (fun _ => .reset) a.groups g v }

/-- The key of an engine queue: one queue for each engine and stream (R53). -/
def queueKey (e : Engine) (st : Stream) : Nat := 2 * e.code + st.code

/-- The depth of an engine queue (Table 2.1). -/
def queueDepth (e : Engine) (st : Stream) : Nat :=
  match e, st with
  | .sy, .crit => 16
  | .sy, .defr => 8
  | _, .crit => 32
  | _, .defr => 16

/-- An engine queue of a core, oldest word first. -/
def Core.queue (c : Core) (e : Engine) (st : Stream) : List QEntry := mapGet (fun _ => []) c.queues (queueKey e st)

/-- Replace an engine queue. -/
def Core.setQueue (c : Core) (e : Engine) (st : Stream) (q : List QEntry) : Core :=
  { c with queues := mapSet (fun _ => []) c.queues (queueKey e st) q }

end Sys2Proof.Machine
end

