-- ==== Sys2Proof/Machine/MemState.lean ====
section
/-!
DEFINITION. The state of stack memory (chapter Stacked memory): bytes, granule metadata, symbols in error, the epoch table,
merge buffers, pin failure counts, region commands being applied, and reads that wait for a firmware restore.
-/

namespace Sys2Proof.Machine

/-- Granule metadata (Table 6.2). -/
structure GranMeta where
  chk : BitVec 16
  epoch : Nat
  writer : Nat
deriving DecidableEq, Repr

/-- Metadata as a sweep of the controllers writes it (R183, R198). (DEDUCED, log entry 7.) -/
def GranMeta.swept (epoch : Nat) : GranMeta := ⟨0, epoch, 0xFE⟩

/-- An epoch table entry (Table 6.4); the EPOCH that the controllers' last sweep of the region left in every granule
that no write has touched since (R198); and a mask of the stacks that an initialisation sweep has rewritten since with EPOCH 0 (R183, R217). -/
structure Region where
  epoch : Nat
  lost : Bool
  cls : Nat
  age : Nat
  swept : Nat
  anew : Nat
deriving DecidableEq, Repr

/-- An entry at cold start (R195). -/
def Region.reset : Region := ⟨0, false, 0, 0, 0, 0⟩

/-- A merge buffer entry (R206, R207): granule, bytes covered, merged bytes, last writer, and the writes merged, each with whether its completion
is to be shown (it came as a command of its own). -/
structure MergeEntry where
  gran : Nat
  mask : BitVec 128
  data : GranBits
  writer : Requester
  writes : List (Requester × Bool)
deriving DecidableEq, Repr

/-- Who gave a region command (R200, R204, R218). -/
inductive RegionSrc
  | word (lc : Nat) (st : Stream)
  | register (d : Nat)
  | command
deriving DecidableEq, Repr

/-- A region command being applied: source, operation, first region, count, class. -/
structure RegionOp where
  src : RegionSrc
  op : Nat
  first : Nat
  count : Nat
  cls : Nat
deriving DecidableEq, Repr

/-- Stack memory. `data` by local address, `gmeta` and `errs` by granule number, `regions` by region number (one table: all replicas hold the
same values, R195; `regionRest` is the entry of every region not listed), `merge` by stack × 32 + channel, `pins` by channel × 72 + symbol (the
times of the corrections of that position within the last millisecond, R192), `erased` and `recAt` by channel, `restoring` the FIRMWARE granules
whose reads wait, `waiters` those reads with their requesters, `coldLost` that a cold loss has not yet been rebuilt (R339). -/
structure MemState where
  data : SMap Byte
  gmeta : SMap GranMeta
  errs : SMap (List SymErr)
  regions : SMap Region
  regionRest : Region
  merge : SMap (List MergeEntry)
  pins : SMap (List Nat)
  erased : SMap (List Nat)
  recAt : SMap (Option Nat)
  regionOps : List RegionOp
  restoring : List Nat
  waiters : List (Nat × Requester)
  coldLost : Bool
deriving DecidableEq, Repr

/-- Stack memory with nothing listed. -/
def MemState.reset : MemState := ⟨[], [], [], [], .reset, [], [], [], [], [], [], [], false⟩

end Sys2Proof.Machine
end

