-- ==== Sys2Proof/Machine/SyncState.lean ====
section
/-!
DEFINITION. The state of the blocks that order work across cores and packages: Beryl units (R219 to R226), queue engines
(R238 to R244), flows and transfers (R227, R258, R259), the tables of fabric interfaces (R260, R264) and Ewerlink ports
(R252 to R257).
-/

namespace Sys2Proof.Machine

/-! ### Beryl -/

/-- A watch slot (R222): counter, condition, threshold, kind, firings left, target, bound class, MET, and whether its bound has
been reported in the present wait (R226). -/
structure Watch where
  ctr : Nat
  cond : Nat
  take : Bool
  n : Nat
  remain : Nat
  tkind : Nat
  target : Nat
  bclass : Nat
  met : Bool
  overran : Bool
deriving DecidableEq, Repr

/-- The counter operations that travel to a bank (Table 7.1). -/
inductive BerKind
  | inc | dec | read
deriving DecidableEq, Repr

/-- Who issued a counter operation: an SY word, another issuer of the package on a die, or a signal from another package. -/
inductive BerOrigin
  | sy (lc : Nat) (st : Stream)
  | unit (die : Nat)
  | fabric (src flow : Nat)
deriving DecidableEq, Repr

/-- A counter operation on its way to its bank, with its input port (R221). -/
structure BerOp where
  port : Nat
  kind : BerKind
  ctr : Nat
  amount : Nat
  org : BerOrigin
deriving DecidableEq, Repr

/-- A Beryl unit: counters, watch slots, the staged BERYL_WATCH_CFG and BERYL_WATCH_TGT values of slots (key 2 × slot, 2 × slot + 1;
Table 7.15), waiting operations. -/
structure Beryl where
  counters : SMap (BitVec 32)
  slots : SMap (Option Watch)
  staged : SMap (BitVec 64)
  ops : List BerOp
deriving DecidableEq, Repr

/-- A unit after cold start (R219). (DESIGN CHOICE, log entry 6.) -/
def Beryl.reset : Beryl := ⟨[], [], [], []⟩

/-- The answer an SY word waits for (R234): nothing more, a value read, or a refusal with the ADDR of its record. -/
inductive SyAnswer
  | done
  | value (v : Nat)
  | refused (addr : Nat)
deriving DecidableEq, Repr

/-- An answer on its way back to a core's SY engine. -/
structure SyAck where
  lc : Nat
  strm : Stream
  ans : SyAnswer
deriving DecidableEq, Repr

/-! ### Queue engine -/

/-- Who asked for a queue state operation. -/
inductive QOrigin
  | sy (lc : Nat) (st : Stream)
  | watch
  | reg
  | unit
deriving DecidableEq, Repr

/-- A queue state operation that can wait on a cache miss (R241, R242, R247). -/
inductive QKind
  | doorbell (n : Nat)
  | cons (n : Nat)
  | load
  | commit (v : BitVec 256)
  | clearErr
deriving DecidableEq, Repr

/-- A waiting queue state operation: local queue index, operation, origin. -/
structure QOp where
  q : Nat
  op : QKind
  org : QOrigin
deriving DecidableEq, Repr

/-- A state cache entry (R244): the queue state, whether it differs from the table, and when it was used. -/
structure QLine where
  v : BitVec 256
  dirty : Bool
  used : Nat
deriving DecidableEq, Repr

/-- A queue engine: cache, use counter, operations waiting on misses, descriptors in progress (local queue and its 32 bytes),
and RECV entries freed and not yet returned (R242). -/
structure QEngine where
  cache : SMap (Option QLine)
  uses : Nat
  waiting : List QOp
  running : SMap (Option (BitVec 256))
  freed : SMap Nat
deriving DecidableEq, Repr

/-- A queue engine after reset. (DESIGN CHOICE, log entry 6.) -/
def QEngine.reset : QEngine := ⟨[], 0, [], [], []⟩

/-! ### Transfers and flows -/

/-- A transfer header (Table 8.5). -/
structure XHead where
  kind : Nat
  plane : Nat
  vl : Nat
  ackreq : Bool
  rdie : Nat
  hops : Nat
  ngr : Nat
  dst : Nat
  src : Nat
  flow : Nat
  peerQ : Nat
  addr : Nat
  amount : Nat
  gen : Nat
  coll : Nat
  chunk : Nat
  ctype : Nat
  cscale : Nat
  status : Nat
  tag : Nat
deriving DecidableEq, Repr

/-- A header with every field zero. -/
def XHead.zero : XHead := ⟨0, 0, 0, false, 0, 0, 0, 0, 0, 0, 0, 0, 0, 0, 0, 0, 0, 0, 0, 0⟩

/-- A transfer (R258) with its traffic class. `bad` says that what arrived breaks Table 8.7's first row. -/
structure Xfer where
  cls : Nat
  h : XHead
  data : List DGran
  bad : Bool
deriving DecidableEq, Repr

/-- Who waits for the COMPLETION of a transfer (R265): nobody, a DM word in flight (physical core, word number, address of
the transfer as the word names it), a ring descriptor of the SEND queue itself, or a collective descriptor (die, index). -/
inductive XOrigin
  | none
  | desc
  | dm (pc id addr : Nat)
  | coll (d ix : Nat)
deriving DecidableEq, Repr

/-- A transfer on its way into a flow: landing entries it needs (0: none) and who waits for it. -/
structure FlowItem where
  x : Xfer
  need : Nat
  org : XOrigin
deriving DecidableEq, Repr

/-- A flow (R227, R243): items that wait behind a landing transfer without credit, transfers placed and not yet sent out, and
the origins of transfers not yet reported retired. -/
structure Flow where
  held : List FlowItem
  placed : List Xfer
  unacked : List XOrigin
deriving DecidableEq, Repr

/-- A flow with nothing in it. -/
def Flow.empty : Flow := ⟨[], [], []⟩

/-- Who waits for READ_DATA (R266): a DM.LOAD in flight (physical core, word number, first scratchpad word), or an item of the
update unit (die, item, and the granule of the stage entry that the next data goes to; R327), or a region under reconstruction (die, number of the
region in the protected area, and its granule that the next data belongs to; R338). -/
inductive ReadFor
  | dm (pc id spa : Nat)
  | item (d item gran : Nat)
  | recon (d slot gran : Nat)
deriving DecidableEq, Repr

/-- An outstanding READ: its tag, who waits, its first address and the granules left. -/
structure ReadOut where
  tag : Nat
  who : ReadFor
  addr : Nat
  left : Nat
deriving DecidableEq, Repr

/-- A transfer held at the receiver until its flow's earlier writes have retired (R264): a signal or a fence. -/
structure HeldX where
  x : Xfer
  after : Nat
deriving DecidableEq, Repr

/-- The tracking of one flow at the receiver (R264, R265): source package, flow, plane of its transfers, transfers retired and not yet
reported, whether one of those failed, and signals and fences held, each behind `after` writes not yet retired. -/
structure Track where
  src : Nat
  flow : Nat
  plane : Nat
  unreported : Nat
  failed : Bool
  held : List HeldX
deriving DecidableEq, Repr

/-- What a message between dies carries (Table 12.5): FAB_OUT with its egress port, FAB_IN with its ingress port and, when it crosses, the
egress port on the other port die, and configuration accesses with their tags. -/
inductive MsgBody
  | fabOut (port : Nat) (x : Xfer)
  | fabIn (port : Nat) (cross : Option Nat) (x : Xfer)
  | cfgRd (tag off : Nat)
  | cfgWr (tag off data : Nat)
  | cfgRsp (tag : Nat) (err : Bool) (data : Nat)
deriving DecidableEq, Repr

/-- A message that has arrived over an edge of a port die: the originating and the final die (Table 12.4), the receiving end (4 × die + edge), its
class and the 64 B units that it holds there (R371), and what it carries. -/
structure DieMsg where
  src : Nat
  dst : Nat
  at_ : Nat
  cls : Nat
  units : Nat
  body : MsgBody
deriving DecidableEq, Repr

/-! ### Collective engine -/

/-- An entry of a peer table (R275): ROLE, PKG, FLOW and RQ. -/
structure CPeer where
  role : Nat
  pkg : Nat
  flow : Nat
  rq : Nat
deriving DecidableEq, Repr

/-- A collective descriptor in progress (R274): its index, its 64 bytes, its peers, the chunks taken whole from each peer (by entry
number), wire granules of a chunk partly taken, and what a tree node or a verdict has combined so far (element bits and tags). -/
structure CRun where
  ix : Nat
  desc : BitVec 512
  peers : List CPeer
  got : SMap Nat
  part : SMap (List DGran)
  acc : List (Nat × Nat)
deriving DecidableEq, Repr

/-! ### Ewerlink ports -/

/-- A flit (Table 8.2), its CRC apart: TYPE, CLASS, SEQ, ACK, CBUF, CCOUNT, IDX, CHK0, CHK1, payload. -/
structure Flit where
  typ : Nat
  cls : Nat
  seq : Nat
  ack : Nat
  cbuf : Nat
  ccount : Nat
  idx : Nat
  chk0 : BitVec 16
  chk1 : BitVec 16
  pay : BitVec 2048
deriving DecidableEq, Repr

/-- A flit that waits to be sent, with the receive buffer (class × 2 + virtual lane) it will take at the partner. -/
structure TxFlit where
  f : Flit
  buf : Nat
deriving DecidableEq, Repr

/-- Where a crossbar sends the transfer in progress of a receive buffer (R261, R263): to a port of the same die, to a compute die as FAB_IN with the
egress port on the other port die if it crosses, or nowhere. -/
inductive HopGoal
  | port (p : Nat)
  | die (n : Nat) (cross : Option Nat)
  | drain
deriving DecidableEq, Repr

/-- The transfer in progress of a receive buffer: where it goes, its header as it goes on, the DATA flits still to come, what has been taken of it
for a message between dies, and whether it is refused. -/
structure HopRun where
  goal : HopGoal
  head : XHead
  left : Nat
  took : List DGran
  bad : Bool
deriving DecidableEq, Repr

/-- An output at which transfers of one class compete (R269): the input whose transfer has it, and the input at which the round robin goes on. -/
structure XOut where
  own : Option Nat
  next : Nat
deriving DecidableEq, Repr

/-- An Ewerlink port's link state (R250 to R257): next SEQ to send, flits sent and not acknowledged, next SEQ expected; while it discards until a
resend, the SEQ of the next flit if none comes; how often the expected SEQ was refused in succession and the kind of the last refusal (1 CRC, 2 FEC,
3 other), send credits by buffer, credits owed by buffer, received flits by buffer, the virtual lane of the transfer in progress by
class, flits waiting by class, the slot of the class rotation, retrainings failed in succession, and the transfers in progress by receive buffer; bits
sent that fill no codeword yet, how many, and the codeword slot that comes next (modulo 4,096); flits received modulo 17, what arrived wrong of the
codeword that goes on into the next flit, and when codewords were found uncorrectable within the last millisecond. -/
structure Port where
  txSeq : Nat
  replay : List TxFlit
  rxSeq : Nat
  skip : Option Nat
  refusals : Nat
  refKind : Nat
  credit : SMap Nat
  owed : SMap Nat
  rx : SMap (List Flit)
  rxVl : SMap Nat
  tx : SMap (List TxFlit)
  turn : Nat
  fails : Nat
  hops : SMap (Option HopRun)
  rest : Nat
  restLen : Nat
  slot : Nat
  rxFlits : Nat
  rxCarry : List FecHit
  fecTimes : List Nat
deriving DecidableEq, Repr

/-- Receive buffer depth by class (Table 8.4). -/
def bufDepth (cls : Nat) : Nat := match cls with | 0 => 160 | 1 => 24 | 2 => 160 | _ => 32

/-- A port after training: full credit, nothing sent or received. (DESIGN CHOICE, log entry 6.) -/
def Port.reset : Port := ⟨0, [], 0, none, 0, 0, [], [], [], [], [], 0, 0, [], 0, 0, 0, 0, [], []⟩

/-- Send credit left for a buffer. -/
def Port.creditOf (p : Port) (buf : Nat) : Nat := mapGet (fun b => bufDepth (b / 2)) p.credit buf

/-! ### Die-to-die edges -/

/-- One end of an edge between two dies (R370 to R375): next SEQ to send, MSG flits sent and not acknowledged (as whole flits), next SEQ
expected; while it discards until a resend, the SEQ of the next flit if none comes; bytes of a message partly received, refusals in succession by
module, retrainings failed in succession by module, modules retraining, modules still to retrain by D2D_CTRL (R375); in 64 B units by class, what
the receive buffers hold or have not yet returned, what has left them and is owed as credit, and what has been sent and not yet credited (R371);
the messages that wait for credit, with their classes; and the traffic classes of the FAB messages sent and not yet taken whole, oldest first.
(DESIGN CHOICE, log entry 51.) -/
structure Edge where
  txSeq : Nat
  replay : List (BitVec 2048)
  rxSeq : Nat
  skip : Option Nat
  part : List Byte
  refusals : SMap Nat
  fails : SMap Nat
  retraining : List Nat
  turn : List Nat
  held : SMap Nat
  owed : SMap Nat
  spent : SMap Nat
  waits : List (Nat × List Byte)
  kinds : List Nat
deriving DecidableEq, Repr

/-- An edge after training. (DESIGN CHOICE, log entry 6.) -/
def Edge.reset : Edge := ⟨0, [], 0, none, [], [], [], [], [], [], [], [], [], []⟩

/-- An edge that trains anew, or waits to: the messages that have not been sent still wait. (DESIGN CHOICE, log entry 51.) -/
def Edge.afresh (x : Edge) : Edge :=
  { Edge.reset with waits := x.waits, kinds := x.kinds.drop (x.kinds.length - (x.waits.filter (fun w => w.1 == 3)).length) }

end Sys2Proof.Machine
end

