-- ==== Sys2Proof/Machine/CtlState.lean ====
section
/-!
DEFINITION. The state of what steers the package: the job and its step (chapter Mapping a training step), the update units (chapter
Optimiser updates), and the Jasper cluster's commands, sessions, connections and streams (chapter Jasper control).
-/

namespace Sys2Proof.Machine

/-! ### The step -/

/-- A boundary message (Table 9.3). -/
structure BMsg where
  step : Nat
  phase : Nat
  kind : Nat
  status : Nat
  src : Nat
deriving DecidableEq, Repr

/-- The job and its place in the step (R286 to R290, R410, R411): running; starting (before its first COMPUTE GO); phase; whether this package
has ended the phase, and has passed PHASE_END on; its status; children's PHASE_ENDs (source, status); ended as JOB_FATAL; a restore is due; the
COMMIT boundary's actions are due; a JOB_STOP's step; a digest has disagreed since the state was committed; the records of the step's VERDICT
have been built (R303); the next UPDATE is held until a stored checkpoint has been read out (R422); the installation of a layout: 0 none, 1 due,
2 its migration task runs, 3 its parity generation runs (R329); dies whose digest is complete, the package digest block written, the digests
compared, and the status that gave (R353, R354). -/
structure Job where
  running : Bool
  starting : Bool
  phase : Nat
  ended : Bool
  sent : Bool
  status : Nat
  childEnds : List (Nat × Nat)
  fatal : Bool
  rollback : Bool
  atCommit : Bool
  stopAt : Option Nat
  digestBad : Bool
  recorded : Bool
  held : Bool
  install : Nat
  digs : List Nat
  digBlock : Bool
  compared : Bool
  digStatus : Nat
deriving DecidableEq, Repr

/-- No job. -/
def Job.none : Job := ⟨false, false, 0, false, false, 0, [], false, false, false, .none, false, false, false, 0, [], false, false, 0⟩

/-- A capture window of one die (R288, R300): over-range products and wraps; NONFIN, WRAP, RESIDUE and TAINTED findings. -/
structure Win where
  ovf : Nat
  nonfin : Bool
  wrap : Bool
  residue : Bool
  taint : Bool
deriving DecidableEq, Repr

/-- An empty window. -/
def Win.none : Win := ⟨0, false, false, false, false⟩

/-- A rule descriptor in progress (R312, R317, R327): index, its granule, the next item to release, and for the remote tier the items whose
state is being fetched or has been (item, READs outstanding). -/
structure RuleRun where
  ix : Nat
  desc : BitVec 1024
  next : Nat
  fetch : List (Nat × Nat)
deriving DecidableEq, Repr

/-- An update unit: rule in progress; items released to each local core in the task (R318); the NORM ranges squared, their sum and
findings (R302); whether it stopped on a remote-tier error (R328); whether PHASE 1 descriptors of the last COMMIT task are owed (R312, R334); whether the
first item of an UPDATE has been released. -/
structure Upd where
  rule : Option RuleRun
  released : SMap Nat
  normDone : List Nat
  sumsq : BitVec 128
  normOvf : Nat
  normWrap : Bool
  normNonfin : Bool
  stopped : Bool
  late : Bool
  begun : Bool
deriving DecidableEq, Repr

/-- An update unit after reset. -/
def Upd.reset : Upd := ⟨.none, [], [], 0, 0, false, false, false, false, false⟩

/-! ### Service transport (R419 to R422) -/

/-- A remote end: service port, address and UDP port, whether the address is IPv6; its link-layer address as its last frame gave it (R484), and the package's
own address and UDP port toward it. -/
structure NetEnd where
  port : Nat
  v6 : Bool
  ip : Nat
  udp : Nat
  mac : Nat
  lip : Nat
  lport : Nat
deriving DecidableEq, Repr

/-- Do two frames come from one remote end: service port, remote address and port (R420)? -/
def NetEnd.same (a b : NetEnd) : Bool := a.port == b.port && a.v6 == b.v6 && a.ip == b.ip && a.udp == b.udp

/-- A CST segment (Table 13.12), MAGIC, VERSION and CRC apart. -/
structure Seg where
  typ : Nat
  conn : Nat
  kind : Nat
  flags : Nat
  psn : Nat
  ack : Nat
  window : Nat
  offset : Nat
  data : List Byte
deriving DecidableEq, Repr

/-- A CST connection (R420, R421): ID, KIND, remote end, open; the PSN of the SYN and of the SYN_ACK; next PSN expected, segments received
beyond it, bytes of the message being received, DATA segments not yet acknowledged; next PSN to send, segments waiting for window, segments
in flight; send window and acknowledgements counted toward its growth, the partner's window; timer expiries in succession; PSNs resent on a SACK. -/
structure Conn where
  id : Nat
  kind : Nat
  peer : NetEnd
  opened : Bool
  synPsn : Nat
  myPsn : Nat
  rxNext : Nat
  rxHeld : List Seg
  msg : List Byte
  owed : Nat
  txNext : Nat
  queue : List Seg
  flight : List Seg
  cwnd : Nat
  grown : Nat
  peerWin : Nat
  expiries : Nat
  fast : List Nat
deriving DecidableEq, Repr

/-- What a bulk stream is for. -/
inductive StreamUse
  | user
  | image
  | layout
  | firmware
  | calibration
  | checkpoint
deriving DecidableEq, Repr

/-- A bulk stream (R420): handle, connection, direction, use, address and length in bytes, notification; received parts by offset; bytes
sent; INCs applied. -/
structure Bulk where
  handle : Nat
  conn : Nat
  ingest : Bool
  use : StreamUse
  addr : Nat
  length : Nat
  nctr : Nat
  ngr : Nat
  parts : List (Nat × List Byte)
  sent : Nat
  notified : Nat
deriving DecidableEq, Repr

/-! ### Commands (R396 to R415) -/

/-- A command packet accepted or being checked: the connection it came on, its 32 header bytes, its payload, and the lead die's timebase
when it came (R414). -/
structure Cmd where
  conn : Nat
  head : List Byte
  payload : List Byte
  time : Nat
deriving DecidableEq, Repr

/-- A cached reply (R406). -/
structure Reply where
  seq : Nat
  status : Nat
  body : List Byte
deriving DecidableEq, Repr

/-- An open session (R404 to R407): ID, key slot, nonce, last accepted SEQUENCE, cached replies, credits in use and granted when it was opened,
reply connection. -/
structure Session where
  id : Nat
  key : Nat
  nonce : BitVec 256
  high : Nat
  cache : List Reply
  used : Nat
  limit : Nat
  conn : Nat
deriving DecidableEq, Repr

/-- What a command in progress waits for (R400). -/
inductive Waits
  | jobStart
  | jobStop
  | layoutCommit
  | stream (handle : Nat)
  | flash
  | region (op first count cls : Nat)
  | selftest (dies kind : Nat)
  | activate (die : Nat)
  | func (id : Nat) (up : Bool)
  | retire (die core : Nat)
  | retrain (kind die n : Nat)
  | dieReset (die : Nat)
  | reconstruct
deriving DecidableEq, Repr

/-- A command that has been answered IN_PROGRESS or ACCEPTED_DEFERRED. -/
structure Prog where
  cmd : Cmd
  waits : Waits
deriving DecidableEq, Repr

/-- The network settings of a service port (SET_NETWORK): VLAN, IPv6 address and prefix, IPv4 address, mask and gateway; and the gateway's MAC
address once ARP has resolved it (Table 16.5). -/
structure NetCfg where
  vlan : Nat
  ip6 : Nat
  prefix6 : Nat
  ip4 : Nat
  mask4 : Nat
  gw4 : Nat
  gwMac : Option Nat
deriving DecidableEq, Repr

/-- An event subscription (R418): connection, mask, lowest class. -/
structure Subscription where
  conn : Nat
  mask : Nat
  minCls : Nat
deriving DecidableEq, Repr

/-- A granule under reconstruction (R338): the XOR of what has arrived, of its block checks (R344), and how many sources that was. -/
structure XorAcc where
  v : BitVec 1024
  chk : BitVec 16
  n : Nat
deriving DecidableEq, Repr

/-- The Jasper cluster of the lead die: connections and the next IDs; unexpired challenges (ID, nonce); sessions; accepted commands by class;
commands in progress; credits of session 0 in use by connection; segments that have arrived and wait to be taken; streams; the loaded image, the
layout installed since and the staged layout; telemetry interval, kinds and sequence; subscription; forwarded records and their count;
stored-checkpoint period, connection and whether a read-out is due; the step of a LAYOUT_COMMIT, whole; regions reconstructed, regions under
reconstruction with their granules written, and their granules under way, by region × 2^17 + granule; domain tag; network settings; the firmware
image that runs (R430), and whether its copy lies in a FIRMWARE region; the array that the rotation of column tests reaches next (R109), and
whether a SUSPECT package tests every array at the next boundary (R356). -/
structure Ctl where
  conns : List Conn
  nextConn : Nat
  challenges : List (Nat × BitVec 256)
  nextChal : Nat
  sessions : List Session
  nextSess : Nat
  cmds : SMap (List Cmd)
  progs : List Prog
  s0 : SMap Nat
  segsIn : List (NetEnd × Seg)
  bulks : List Bulk
  nextBulk : Nat
  image : Option (List Byte)
  installed : Option (List Byte)
  layout : Option (List Byte)
  telInterval : Nat
  telMask : Nat
  telSeq : Nat
  sub : Option Subscription
  forward : List (BitVec 512)
  forwarded : Nat
  ckptPeriod : Nat
  ckptConn : Nat
  reading : Bool
  applyStep : Nat
  recon : List Nat
  reconRun : List (Nat × Nat)
  reconAcc : SMap XorAcc
  tag : BitVec 64
  net : SMap NetCfg
  fw : List Byte
  fwCopied : Bool
  rot : Nat
  testAll : Bool
deriving DecidableEq, Repr

/-- The cluster after a reset of the lead die. (DESIGN CHOICE, log entry 6.) -/
def Ctl.reset : Ctl :=
  ⟨[], 1, [], 1, [], 1, [], [], [], [], [], 1, none, none, none, 0, 0, 0, none, [], 0, 0, 0, false, 0, [], [], [], 0, [], [], false, 0, false⟩

/-! ### Power and thermal (R450 to R460) -/

/-- What the power manager last measured on a rail (R489): voltage in mV, current in mA, VRM temperature in 1/16 °C, and whether its telemetry is
lost (R455). -/
structure Rail where
  mv : Nat
  ma : Nat
  temp : Nat
  lost : Bool
deriving DecidableEq, Repr

/-- A power state change in progress (R452): whether it goes up, its target, whether the voltage stands within 10 mV, whether the idle CPLL has locked. -/
structure PwrChange where
  up : Bool
  goal : Nat
  volt : Bool
  locked : Bool
deriving DecidableEq, Repr

/-- Power and thermal state beside the registers: the last samples of PWR_BUDGET[2:0]; the rails in the order of R462; the thermal cap of each compute
die; the change in progress; BROWNOUT_N low; its hold running; the upward step due at the end of a hold; the port dies' hottest readings; a latched
thermal trip (R460); and whether the debounced ENROL_N is low (R478). -/
structure Pwr where
  pins : List Nat
  rails : SMap Rail
  caps : SMap Nat
  change : Option PwrChange
  low : Bool
  hold : Bool
  upDue : Bool
  portTemp : SMap Nat
  tripped : Bool
  enrol : Bool
deriving DecidableEq, Repr

/-- Nothing measured. (DESIGN CHOICE, log entry 6.) -/
def Pwr.reset : Pwr := ⟨[], [], [], none, false, false, false, [], false, false⟩

/-! ### JTAG (R491) -/

/-- The JTAG state of one die: the selected instruction, the CFG register as the last access left it, and the boundary register. -/
structure Tap where
  ir : Nat
  cfg : BitVec 96
  bnd : List Bool
deriving DecidableEq, Repr

/-- A TAP after reset: IDCODE. (DESIGN CHOICE, log entry 6.) -/
def Tap.reset : Tap := ⟨1, 0, []⟩

/-! ### Flash (R427) -/

/-- A flash operation that waits its turn or is under way (R449); a FIRMWARE region is restored from its flash copy (R214); a key or retirement record that is being written is given by its bytes. A
retirement carries the time at which it was made (R362). -/
inductive FlashOp
  | cal (table : List Byte)
  | key (slot : Nat) (enrol : Bool) (key : BitVec 256)
  | retire (die core cause time : Nat)
  | stage (image : List Byte)
  | commit
  | keyRec (slot : Nat) (bytes : List Byte)
  | retireRec (bytes : List Byte)
  | restore (region : Nat)
deriving DecidableEq, Repr

/-- The contents of the two flash devices (Table 14.2) and of the fuses: presence of A and B, empty until they have first been read;
assembly certificates; the key records in force (R442), newest last; calibration table, retirement record, firmware slots; the operations waiting, the oldest
under way; the key store as it stands in flash (128 B records, oldest first); and FUSE_STATE of each die that has left reset (R431). -/
structure Flash where
  present : List Bool
  asmA : List Byte
  asmB : List Byte
  keys : List (List Byte)
  cal : List Byte
  retired : List (List Byte)
  slotA : List Byte
  slotB : List Byte
  ops : List FlashOp
  stored : List (List Byte)
  fuses : SMap (Option (BitVec 64))
deriving DecidableEq, Repr

/-- Erased devices. -/
def Flash.reset : Flash := ⟨[], [], [], [], [], [], [], [], [], [], []⟩

end Sys2Proof.Machine
end

