-- ==== Sys2Proof/Machine/RegTable.lean ====
section
/-!
DEFINITION. The register tables of the spec (Tables 1.8 to 16.7) as data: where each register lies, what it holds
after reset, and the access code of each of its fields (R11). A field whose reset column reads FW holds the value of R497 where that rule
gives one (SEQ_IR_CFG.PAGES 1, ERR_CFG.ALERT_MIN 4); D2D_DISC.POS holds 7, PWR_STATUS.STATE and TARGET hold 5, and every other such field
holds zero until firmware writes it (log entry 5). PWR_BUDGET_CFG.BO_HOLD_US has its own reset value, 0x3E8.
-/

namespace Sys2Proof.Machine

/-- Access codes (R11, Table 0.2). -/
inductive Access
  | rw | ro | w1c | wo | rc
deriving DecidableEq, Repr

/-- Which configuration spaces hold a register: every die, compute dies, port dies, or package-common. -/
inductive Site
  | all | compute | port | common
deriving DecidableEq, Repr

/-- A named field: offset of its register (first instance), least significant bit, width. -/
structure Fld where
  off : Nat
  lo : Nat
  width : Nat
deriving DecidableEq, Repr

/-- One field of a register with its access code. -/
structure FieldSpec where
  lo : Nat
  width : Nat
  acc : Access
deriving DecidableEq, Repr

/-- One row of a register table: `dims` are the strides and counts of its instances. -/
structure RegSpec where
  name : String
  site : Site
  off : Nat
  dims : List (Nat × Nat)
  reset : BitVec 64
  fields : List FieldSpec
deriving DecidableEq, Repr

/-- DIE_INFO (Table 1.8): 0x000. -/
def oDieInfo : Nat := 0x0
def fDieInfoPos : Fld := ⟨0x0, 0, 3⟩
def fDieInfoLead : Fld := ⟨0x0, 3, 1⟩
def fDieInfoSiliconRev : Fld := ⟨0x0, 8, 8⟩
def fDieInfoSupplier : Fld := ⟨0x0, 16, 4⟩
/-- CORE_STATUS (Table 1.8): 0x008. -/
def oCoreStatus : Nat := 0x8
def fCoreStatusRetired : Fld := ⟨0x8, 0, 18⟩
def fCoreStatusSpares : Fld := ⟨0x8, 20, 2⟩
def fCoreStatusLogicalCount : Fld := ⟨0x8, 24, 5⟩
/-- CORE_MAP_LO (Table 1.8): 0x010. -/
def oCoreMapLo : Nat := 0x10
def fCoreMapLoMap : Fld := ⟨0x10, 0, 64⟩
/-- CORE_MAP_HI (Table 1.8): 0x018. -/
def oCoreMapHi : Nat := 0x18
def fCoreMapHiMap : Fld := ⟨0x18, 0, 64⟩
/-- PKG_SHAPE (Table 1.12): 0x000. -/
def oPkgShape : Nat := 0x0
def fPkgShapeClass : Fld := ⟨0x0, 0, 1⟩
def fPkgShapeLogicalCores : Fld := ⟨0x0, 8, 7⟩
/-- PKG_CORE_MASK (Table 1.12): 0x008. -/
def oPkgCoreMask : Nat := 0x8
def fPkgCoreMaskMask : Fld := ⟨0x8, 0, 64⟩
/-- PKG_ID (Table 1.12): 0x010. -/
def oPkgId : Nat := 0x10
def fPkgIdId : Fld := ⟨0x10, 0, 12⟩
def fPkgIdIdValid : Fld := ⟨0x10, 12, 1⟩
/-- SEQ_CTRL (Table 2.9): 0x000. -/
def oSeqCtrl : Nat := 0x100000
def fSeqCtrlGo : Fld := ⟨0x100000, 0, 1⟩
def fSeqCtrlHalt : Fld := ⟨0x100000, 1, 1⟩
/-- SEQ_STATUS (Table 2.9): 0x008. -/
def oSeqStatus : Nat := 0x100008
def fSeqStatusCrit : Fld := ⟨0x100008, 0, 3⟩
def fSeqStatusDef : Fld := ⟨0x100008, 4, 3⟩
def fSeqStatusDone : Fld := ⟨0x100008, 8, 1⟩
def fSeqStatusBusyMx : Fld := ⟨0x100008, 9, 1⟩
def fSeqStatusBusyVx : Fld := ⟨0x100008, 10, 1⟩
def fSeqStatusBusyDm : Fld := ⟨0x100008, 11, 1⟩
def fSeqStatusBusySy : Fld := ⟨0x100008, 12, 1⟩
def fSeqStatusBusyIr : Fld := ⟨0x100008, 13, 1⟩
/-- SEQ_IR_CFG (Table 2.9): 0x010. -/
def oSeqIrCfg : Nat := 0x100010
def fSeqIrCfgPages : Fld := ⟨0x100010, 0, 6⟩
/-- SEQ_PC_CRIT (Table 2.9): 0x018. -/
def oSeqPcCrit : Nat := 0x100018
def fSeqPcCritStart : Fld := ⟨0x100018, 0, 17⟩
def fSeqPcCritCurrent : Fld := ⟨0x100018, 32, 17⟩
/-- SEQ_PC_DEF (Table 2.9): 0x020. -/
def oSeqPcDef : Nat := 0x100020
def fSeqPcDefStart : Fld := ⟨0x100020, 0, 17⟩
def fSeqPcDefCurrent : Fld := ⟨0x100020, 32, 17⟩
/-- SEQ_HALT_INFO (Table 2.9): 0x028. -/
def oSeqHaltInfo : Nat := 0x100028
def fSeqHaltInfoCause : Fld := ⟨0x100028, 0, 8⟩
def fSeqHaltInfoStream : Fld := ⟨0x100028, 8, 1⟩
def fSeqHaltInfoBoth : Fld := ⟨0x100028, 9, 1⟩
def fSeqHaltInfoEngine : Fld := ⟨0x100028, 12, 4⟩
def fSeqHaltInfoWord : Fld := ⟨0x100028, 16, 17⟩
/-- SPAD_CONFLICT_CNT (Table 2.9): 0x030. -/
def oSpadConflictCnt : Nat := 0x100030
def fSpadConflictCntCount : Fld := ⟨0x100030, 0, 48⟩
/-- DEFER_ISSUE_CNT (Table 2.9): 0x038. -/
def oDeferIssueCnt : Nat := 0x100038
def fDeferIssueCntCount : Fld := ⟨0x100038, 0, 48⟩
/-- CRIT_WAIT_CNT (Table 2.9): 0x040. -/
def oCritWaitCnt : Nat := 0x100040
def fCritWaitCntCount : Fld := ⟨0x100040, 0, 48⟩
/-- TOKEN_k (Table 2.9): 0x100 + 8k, k = 0 to 15. -/
def oToken : Nat := 0x100100
def fTokenT0 : Fld := ⟨0x100100, 0, 16⟩
def fTokenT1 : Fld := ⟨0x100100, 16, 16⟩
def fTokenT2 : Fld := ⟨0x100100, 32, 16⟩
def fTokenT3 : Fld := ⟨0x100100, 48, 16⟩
/-- ARR_STATUS_j (Table 3.10): 0x200 + 0x40j. -/
def oArrStatus : Nat := 0x100200
def fArrStatusState : Fld := ⟨0x100200, 0, 2⟩
def fArrStatusQuar : Fld := ⟨0x100200, 2, 1⟩
def fArrStatusSpares : Fld := ⟨0x100200, 8, 2⟩
def fArrStatusGood : Fld := ⟨0x100200, 16, 7⟩
def fArrStatusCleanCnt : Fld := ⟨0x100200, 32, 16⟩
/-- ARR_CTRL_j (Table 3.10): 0x208 + 0x40j. -/
def oArrCtrl : Nat := 0x100208
def fArrCtrlCtest : Fld := ⟨0x100208, 0, 1⟩
def fArrCtrlApply : Fld := ⟨0x100208, 1, 1⟩
def fArrCtrlDisable : Fld := ⟨0x100208, 2, 1⟩
/-- ARR_BAD_LO_j (Table 3.10): 0x210 + 0x40j. -/
def oArrBadLo : Nat := 0x100210
def fArrBadLoCol : Fld := ⟨0x100210, 0, 64⟩
/-- ARR_BAD_HI_j (Table 3.10): 0x218 + 0x40j. -/
def oArrBadHi : Nat := 0x100218
def fArrBadHiCol : Fld := ⟨0x100218, 0, 2⟩
/-- ARR_PEND_LO_j (Table 3.10): 0x220 + 0x40j. -/
def oArrPendLo : Nat := 0x100220
def fArrPendLoCol : Fld := ⟨0x100220, 0, 64⟩
/-- ARR_PEND_HI_j (Table 3.10): 0x228 + 0x40j. -/
def oArrPendHi : Nat := 0x100228
def fArrPendHiCol : Fld := ⟨0x100228, 0, 2⟩
/-- ARR_CTEST_LO_j (Table 3.10): 0x230 + 0x40j. -/
def oArrCtestLo : Nat := 0x100230
def fArrCtestLoCol : Fld := ⟨0x100230, 0, 64⟩
/-- ARR_CTEST_HI_j (Table 3.10): 0x238 + 0x40j. -/
def oArrCtestHi : Nat := 0x100238
def fArrCtestHiCol : Fld := ⟨0x100238, 0, 2⟩
def fArrCtestHiDone : Fld := ⟨0x100238, 8, 1⟩
def fArrCtestHiUnloc : Fld := ⟨0x100238, 9, 1⟩
def fArrCtestHiRunning : Fld := ⟨0x100238, 10, 1⟩
/-- MX_STREAM_CNT (Table 3.10): 0x300. -/
def oMxStreamCnt : Nat := 0x100300
def fMxStreamCntCount : Fld := ⟨0x100300, 0, 48⟩
/-- MX_PASS2_CNT (Table 3.10): 0x308. -/
def oMxPass2Cnt : Nat := 0x100308
def fMxPass2CntCount : Fld := ⟨0x100308, 0, 48⟩
/-- ACC_STEP_OVF (Table 4.10): 0x310. -/
def oAccStepOvf : Nat := 0x100310
def fAccStepOvfCount : Fld := ⟨0x100310, 0, 48⟩
/-- ACC_STEP_FLAGS (Table 4.10): 0x318. -/
def oAccStepFlags : Nat := 0x100318
def fAccStepFlagsUfr : Fld := ⟨0x100318, 0, 1⟩
def fAccStepFlagsWrap : Fld := ⟨0x100318, 1, 1⟩
def fAccStepFlagsNonfin : Fld := ⟨0x100318, 2, 1⟩
/-- ACC_GRP_DESC_j_g (Table 4.10): 0x400 + 0x200j + 0x10g. -/
def oAccGrpDesc : Nat := 0x100400
def fAccGrpDescDesc : Fld := ⟨0x100400, 0, 32⟩
def fAccGrpDescBase : Fld := ⟨0x100400, 32, 10⟩
def fAccGrpDescOpen : Fld := ⟨0x100400, 48, 1⟩
def fAccGrpDescStream : Fld := ⟨0x100400, 49, 1⟩
/-- ACC_GRP_STAT_j_g (Table 4.10): 0x408 + 0x200j + 0x10g. -/
def oAccGrpStat : Nat := 0x100408
def fAccGrpStatOvfCnt : Fld := ⟨0x100408, 0, 32⟩
def fAccGrpStatUfr : Fld := ⟨0x100408, 32, 1⟩
def fAccGrpStatWrap : Fld := ⟨0x100408, 33, 1⟩
def fAccGrpStatNonfin : Fld := ⟨0x100408, 34, 1⟩
/-- VX_SR_SEED (Table 5.9): 0xC00. -/
def oVxSrSeed : Nat := 0x100c00
def fVxSrSeedSeed : Fld := ⟨0x100c00, 0, 64⟩
/-- VX_SR_STEP (Table 5.9): 0xC08. -/
def oVxSrStep : Nat := 0x100c08
def fVxSrStepStep : Fld := ⟨0x100c08, 0, 32⟩
/-- VX_STEP_OVF (Table 5.9): 0xC10. -/
def oVxStepOvf : Nat := 0x100c10
def fVxStepOvfCount : Fld := ⟨0x100c10, 0, 48⟩
/-- VX_STEP_FLAGS (Table 5.9): 0xC18. -/
def oVxStepFlags : Nat := 0x100c18
def fVxStepFlagsUfr : Fld := ⟨0x100c18, 0, 1⟩
def fVxStepFlagsWrap : Fld := ⟨0x100c18, 1, 1⟩
def fVxStepFlagsNonfin : Fld := ⟨0x100c18, 2, 1⟩
def fVxStepFlagsResidue : Fld := ⟨0x100c18, 3, 1⟩
/-- VX_RESIDUE_CNT (Table 5.9): 0xC20. -/
def oVxResidueCnt : Nat := 0x100c20
def fVxResidueCntCount : Fld := ⟨0x100c20, 0, 48⟩
/-- VX_STATUS (Table 5.9): 0xC28. -/
def oVxStatus : Nat := 0x100c28
def fVxStatusVlCrit : Fld := ⟨0x100c28, 0, 10⟩
def fVxStatusEtypeCrit : Fld := ⟨0x100c28, 10, 4⟩
def fVxStatusGrpCrit : Fld := ⟨0x100c28, 14, 2⟩
def fVxStatusVlDef : Fld := ⟨0x100c28, 32, 10⟩
def fVxStatusEtypeDef : Fld := ⟨0x100c28, 42, 4⟩
def fVxStatusGrpDef : Fld := ⟨0x100c28, 46, 2⟩
/-- MC_CFG (Table 6.11): 0x000. -/
def oMcCfg : Nat := 0x20000
def fMcCfgScrubHours : Fld := ⟨0x20000, 0, 8⟩
def fMcCfgSpadScrubHours : Fld := ⟨0x20000, 8, 8⟩
def fMcCfgCrecMs : Fld := ⟨0x20000, 16, 4⟩
/-- MC_REGION_CMD (Table 6.11): 0x008. -/
def oMcRegionCmd : Nat := 0x20008
def fMcRegionCmdRegion : Fld := ⟨0x20008, 0, 16⟩
def fMcRegionCmdCount : Fld := ⟨0x20008, 16, 16⟩
def fMcRegionCmdOp : Fld := ⟨0x20008, 32, 3⟩
def fMcRegionCmdClass : Fld := ⟨0x20008, 35, 2⟩
/-- MC_REGION_CMD_STAT (Table 6.11): 0x010. -/
def oMcRegionCmdStat : Nat := 0x20010
def fMcRegionCmdStatBusy : Fld := ⟨0x20010, 0, 1⟩
def fMcRegionCmdStatRefused : Fld := ⟨0x20010, 1, 1⟩
/-- MC_REGION_SEL (Table 6.11): 0x018. -/
def oMcRegionSel : Nat := 0x20018
def fMcRegionSelRegion : Fld := ⟨0x20018, 0, 16⟩
/-- MC_REGION_ENTRY (Table 6.11): 0x020. -/
def oMcRegionEntry : Nat := 0x20020
def fMcRegionEntryEntry : Fld := ⟨0x20020, 0, 16⟩
/-- MC_SCRUB_STATUS (Table 6.11): 0x028. -/
def oMcScrubStatus : Nat := 0x20028
def fMcScrubStatusPosition : Fld := ⟨0x20028, 0, 31⟩
def fMcScrubStatusPasses : Fld := ⟨0x20028, 32, 16⟩
/-- MC_STK_STATUS_k (Table 6.11): 0x100 + 0x40k. -/
def oMcStkStatus : Nat := 0x20100
def fMcStkStatusState : Fld := ⟨0x20100, 0, 3⟩
def fMcStkStatusSref : Fld := ⟨0x20100, 3, 1⟩
def fMcStkStatusSwept : Fld := ⟨0x20100, 4, 1⟩
/-- MC_CORR_CNT_k (Table 6.11): 0x108 + 0x40k. -/
def oMcCorrCnt : Nat := 0x20108
def fMcCorrCntCount : Fld := ⟨0x20108, 0, 48⟩
/-- MC_UNCORR_CNT_k (Table 6.11): 0x110 + 0x40k. -/
def oMcUncorrCnt : Nat := 0x20110
def fMcUncorrCntCount : Fld := ⟨0x20110, 0, 48⟩
/-- MC_RMW_CNT_k (Table 6.11): 0x118 + 0x40k. -/
def oMcRmwCnt : Nat := 0x20118
def fMcRmwCntCount : Fld := ⟨0x20118, 0, 48⟩
/-- MC_MERGE_FULL_CNT_k (Table 6.11): 0x120 + 0x40k. -/
def oMcMergeFullCnt : Nat := 0x20120
def fMcMergeFullCntCount : Fld := ⟨0x20120, 0, 48⟩
/-- MC_LAST_ERR_k (Table 6.11): 0x128 + 0x40k. -/
def oMcLastErr : Nat := 0x20128
def fMcLastErrAddr : Fld := ⟨0x20128, 0, 48⟩
def fMcLastErrWriter : Fld := ⟨0x20128, 48, 8⟩
def fMcLastErrKind : Fld := ⟨0x20128, 56, 3⟩
/-- MC_PINFAIL_k (Table 6.11): 0x130 + 0x40k. -/
def oMcPinfail : Nat := 0x20130
def fMcPinfailOne : Fld := ⟨0x20130, 0, 6⟩
def fMcPinfailTwo : Fld := ⟨0x20130, 6, 6⟩
def fMcPinfailLastCh : Fld := ⟨0x20130, 12, 5⟩
def fMcPinfailLastSym : Fld := ⟨0x20130, 17, 7⟩
/-- SPAD_CORR_CNT (Table 6.21): 0xD00. -/
def oSpadCorrCnt : Nat := 0x100d00
def fSpadCorrCntCount : Fld := ⟨0x100d00, 0, 48⟩
/-- SPAD_UNCORR_CNT (Table 6.21): 0xD08. -/
def oSpadUncorrCnt : Nat := 0x100d08
def fSpadUncorrCntCount : Fld := ⟨0x100d08, 0, 48⟩
/-- BERYL_CFG (Table 7.9): 0x000. -/
def oBerylCfg : Nat := 0x60000
def fBerylCfgFatalMult : Fld := ⟨0x60000, 0, 8⟩
def fBerylCfgSetRefused : Fld := ⟨0x60000, 8, 1⟩
def fBerylCfgWatchRefused : Fld := ⟨0x60000, 9, 1⟩
/-- BERYL_BOUND_k (Table 7.9): 0x008 + 8(k − 1), k = 1 to 3. -/
def oBerylBound : Nat := 0x60008
def fBerylBoundUs : Fld := ⟨0x60008, 0, 32⟩
/-- BERYL_BACKING (Table 7.9): 0x020. -/
def oBerylBacking : Nat := 0x60020
def fBerylBackingAddr : Fld := ⟨0x60020, 18, 30⟩
/-- BERYL_TASK_CTRL (Table 7.9): 0x028. -/
def oBerylTaskCtrl : Nat := 0x60028
def fBerylTaskCtrlSnap : Fld := ⟨0x60028, 0, 1⟩
def fBerylTaskCtrlCheck : Fld := ⟨0x60028, 1, 1⟩
/-- BERYL_TASK_STAT (Table 7.9): 0x030. -/
def oBerylTaskStat : Nat := 0x60030
def fBerylTaskStatBusy : Fld := ⟨0x60030, 0, 1⟩
def fBerylTaskStatDone : Fld := ⟨0x60030, 1, 1⟩
def fBerylTaskStatFail : Fld := ⟨0x60030, 2, 1⟩
def fBerylTaskStatDiffs : Fld := ⟨0x60030, 4, 17⟩
def fBerylTaskStatArmed : Fld := ⟨0x60030, 21, 15⟩
def fBerylTaskStatFirst : Fld := ⟨0x60030, 36, 16⟩
/-- BERYL_CTR_SEL (Table 7.9): 0x038. -/
def oBerylCtrSel : Nat := 0x60038
def fBerylCtrSelIndex : Fld := ⟨0x60038, 0, 16⟩
/-- BERYL_CTR_VAL (Table 7.9): 0x040. -/
def oBerylCtrVal : Nat := 0x60040
def fBerylCtrValValue : Fld := ⟨0x60040, 0, 32⟩
/-- BERYL_WATCH_SEL (Table 7.9): 0x048. -/
def oBerylWatchSel : Nat := 0x60048
def fBerylWatchSelSlot : Fld := ⟨0x60048, 0, 14⟩
/-- BERYL_WATCH_CFG (Table 7.9): 0x050. -/
def oBerylWatchCfg : Nat := 0x60050
def fBerylWatchCfgCtr : Fld := ⟨0x60050, 0, 16⟩
def fBerylWatchCfgCond : Fld := ⟨0x60050, 16, 2⟩
def fBerylWatchCfgKind : Fld := ⟨0x60050, 18, 1⟩
def fBerylWatchCfgArmed : Fld := ⟨0x60050, 20, 1⟩
def fBerylWatchCfgMet : Fld := ⟨0x60050, 21, 1⟩
def fBerylWatchCfgN : Fld := ⟨0x60050, 32, 16⟩
def fBerylWatchCfgRemain : Fld := ⟨0x60050, 48, 16⟩
/-- BERYL_WATCH_TGT (Table 7.9): 0x058. -/
def oBerylWatchTgt : Nat := 0x60058
def fBerylWatchTgtTkind : Fld := ⟨0x60058, 0, 2⟩
def fBerylWatchTgtTarget : Fld := ⟨0x60058, 8, 20⟩
def fBerylWatchTgtBclass : Fld := ⟨0x60058, 28, 2⟩
/-- BERYL_WATCH_CTL (Table 7.9): 0x060. -/
def oBerylWatchCtl : Nat := 0x60060
def fBerylWatchCtlArm : Fld := ⟨0x60060, 0, 1⟩
def fBerylWatchCtlRelease : Fld := ⟨0x60060, 1, 1⟩
/-- BERYL_ARMED (Table 7.9): 0x068. -/
def oBerylArmed : Nat := 0x60068
def fBerylArmedCount : Fld := ⟨0x60068, 0, 15⟩
/-- BERYL_OVERRUN_CNT (Table 7.9): 0x070. -/
def oBerylOverrunCnt : Nat := 0x60070
def fBerylOverrunCntCount : Fld := ⟨0x60070, 0, 48⟩
/-- BERYL_REJECT_CNT (Table 7.9): 0x078. -/
def oBerylRejectCnt : Nat := 0x60078
def fBerylRejectCntCount : Fld := ⟨0x60078, 0, 48⟩
/-- BERYL_CONFLICT_CNT (Table 7.9): 0x080. -/
def oBerylConflictCnt : Nat := 0x60080
def fBerylConflictCntCount : Fld := ⟨0x60080, 0, 48⟩
/-- BERYL_RTGT_n (Table 7.9): 0x1000 + 8n, n = 0 to 1,023. -/
def oBerylRtgt : Nat := 0x61000
def fBerylRtgtPkg : Fld := ⟨0x61000, 0, 12⟩
def fBerylRtgtCtr : Fld := ⟨0x61000, 12, 18⟩
def fBerylRtgtFlow : Fld := ⟨0x61000, 30, 20⟩
/-- QE_CFG (Table 7.19): 0x000. -/
def oQeCfg : Nat := 0x80000
def fQeCfgQstBase : Fld := ⟨0x80000, 0, 25⟩
/-- QE_QSEL (Table 7.19): 0x008. -/
def oQeQsel : Nat := 0x80008
def fQeQselQueue : Fld := ⟨0x80008, 0, 18⟩
/-- QE_QSTATE_k (Table 7.19): 0x010 + 8k, k = 0 to 3. -/
def oQeQstate : Nat := 0x80010
def fQeQstateState : Fld := ⟨0x80010, 0, 64⟩
/-- QE_CMD (Table 7.19): 0x030. -/
def oQeCmd : Nat := 0x80030
def fQeCmdLoad : Fld := ⟨0x80030, 0, 1⟩
def fQeCmdCommit : Fld := ⟨0x80030, 1, 1⟩
def fQeCmdClearErr : Fld := ⟨0x80030, 2, 1⟩
/-- QE_CMD_STAT (Table 7.19): 0x038. -/
def oQeCmdStat : Nat := 0x80038
def fQeCmdStatBusy : Fld := ⟨0x80038, 0, 1⟩
def fQeCmdStatRefused : Fld := ⟨0x80038, 1, 1⟩
/-- QE_DOORBELL (Table 7.19): 0x040. -/
def oQeDoorbell : Nat := 0x80040
def fQeDoorbellQueue : Fld := ⟨0x80040, 0, 18⟩
def fQeDoorbellAmount : Fld := ⟨0x80040, 32, 16⟩
/-- QE_PIN_STATUS (Table 7.19): 0x048. -/
def oQePinStatus : Nat := 0x80048
def fQePinStatusPinned : Fld := ⟨0x80048, 0, 13⟩
/-- QE_CACHE_HIT_CNT (Table 7.19): 0x050. -/
def oQeCacheHitCnt : Nat := 0x80050
def fQeCacheHitCntCount : Fld := ⟨0x80050, 0, 48⟩
/-- QE_CACHE_MISS_CNT (Table 7.19): 0x058. -/
def oQeCacheMissCnt : Nat := 0x80058
def fQeCacheMissCntCount : Fld := ⟨0x80058, 0, 48⟩
/-- QE_CACHE_WB_CNT (Table 7.19): 0x060. -/
def oQeCacheWbCnt : Nat := 0x80060
def fQeCacheWbCntCount : Fld := ⟨0x80060, 0, 48⟩
/-- QE_STALL_CNT (Table 7.19): 0x068. -/
def oQeStallCnt : Nat := 0x80068
def fQeStallCntCount : Fld := ⟨0x80068, 0, 48⟩
/-- EW_PORT_STATUS_p (Table 8.13): 0x1000p + 0x000. -/
def oEwPortStatus : Nat := 0xa0000
def fEwPortStatusState : Fld := ⟨0xa0000, 0, 3⟩
def fEwPortStatusHalf : Fld := ⟨0xa0000, 3, 1⟩
def fEwPortStatusUpper : Fld := ⟨0xa0000, 4, 1⟩
def fEwPortStatusNbPkg : Fld := ⟨0xa0000, 8, 12⟩
def fEwPortStatusNbValid : Fld := ⟨0xa0000, 20, 1⟩
def fEwPortStatusNbPort : Fld := ⟨0xa0000, 24, 4⟩
def fEwPortStatusRtt : Fld := ⟨0xa0000, 32, 8⟩
/-- EW_PORT_CFG_p (Table 8.13): 0x1000p + 0x008. -/
def oEwPortCfg : Nat := 0xa0008
def fEwPortCfgWData : Fld := ⟨0xa0008, 0, 4⟩
def fEwPortCfgWColl : Fld := ⟨0xa0008, 4, 4⟩
def fEwPortCfgWSvc : Fld := ⟨0xa0008, 8, 4⟩
/-- EW_FEC_CORR_CNT_p (Table 8.13): 0x1000p + 0x010. -/
def oEwFecCorrCnt : Nat := 0xa0010
def fEwFecCorrCntCount : Fld := ⟨0xa0010, 0, 48⟩
/-- EW_FEC_UNCORR_CNT_p (Table 8.13): 0x1000p + 0x018. -/
def oEwFecUncorrCnt : Nat := 0xa0018
def fEwFecUncorrCntCount : Fld := ⟨0xa0018, 0, 48⟩
/-- EW_CRC_ERR_CNT_p (Table 8.13): 0x1000p + 0x020. -/
def oEwCrcErrCnt : Nat := 0xa0020
def fEwCrcErrCntCount : Fld := ⟨0xa0020, 0, 48⟩
/-- EW_REPLAY_CNT_p (Table 8.13): 0x1000p + 0x028. -/
def oEwReplayCnt : Nat := 0xa0028
def fEwReplayCntCount : Fld := ⟨0xa0028, 0, 48⟩
/-- EW_RETRAIN_CNT_p (Table 8.13): 0x1000p + 0x030. -/
def oEwRetrainCnt : Nat := 0xa0030
def fEwRetrainCntCount : Fld := ⟨0xa0030, 0, 48⟩
/-- EW_MALFORMED_CNT_p (Table 8.13): 0x1000p + 0x038. -/
def oEwMalformedCnt : Nat := 0xa0038
def fEwMalformedCntCount : Fld := ⟨0xa0038, 0, 48⟩
/-- EW_RT_SEL (Table 8.13): 0x8000. -/
def oEwRtSel : Nat := 0xa8000
def fEwRtSelDest : Fld := ⟨0xa8000, 0, 12⟩
def fEwRtSelPlane : Fld := ⟨0xa8000, 12, 2⟩
/-- EW_RT_ENTRY (Table 8.13): 0x8008. -/
def oEwRtEntry : Nat := 0xa8008
def fEwRtEntryNext : Fld := ⟨0xa8008, 0, 12⟩
def fEwRtEntryDl : Fld := ⟨0xa8008, 12, 1⟩
/-- EW_MISROUTE_CNT (Table 8.13): 0x8010. -/
def oEwMisrouteCnt : Nat := 0xa8010
def fEwMisrouteCntCount : Fld := ⟨0xa8010, 0, 48⟩
/-- FI_CFG (Table 8.18): 0x000. -/
def oFiCfg : Nat := 0xa0000
def fFiCfgTimeUp : Fld := ⟨0xa0000, 0, 4⟩
def fFiCfgTimeRoot : Fld := ⟨0xa0000, 4, 1⟩
/-- FI_TIME (Table 8.18): 0x008. -/
def oFiTime : Nat := 0xa0008
def fFiTimeTime : Fld := ⟨0xa0008, 0, 64⟩
/-- FI_TIME_STAT (Table 8.18): 0x010. -/
def oFiTimeStat : Nat := 0xa0010
def fFiTimeStatLocked : Fld := ⟨0xa0010, 0, 1⟩
def fFiTimeStatDepth : Fld := ⟨0xa0010, 8, 6⟩
def fFiTimeStatLastAdj : Fld := ⟨0xa0010, 16, 16⟩
/-- FI_RT_SEL (Table 8.18): 0x018. -/
def oFiRtSel : Nat := 0xa0018
def fFiRtSelDest : Fld := ⟨0xa0018, 0, 12⟩
def fFiRtSelPlane : Fld := ⟨0xa0018, 12, 2⟩
/-- FI_RT_ENTRY (Table 8.18): 0x020. -/
def oFiRtEntry : Nat := 0xa0020
def fFiRtEntryNext : Fld := ⟨0xa0020, 0, 12⟩
def fFiRtEntryDl : Fld := ⟨0xa0020, 12, 1⟩
/-- FI_FP_SEL (Table 8.18): 0x028. -/
def oFiFpSel : Nat := 0xa0028
def fFiFpSelQueue : Fld := ⟨0xa0028, 0, 18⟩
/-- FI_FP_ENTRY (Table 8.18): 0x030. -/
def oFiFpEntry : Nat := 0xa0030
def fFiFpEntryPlane : Fld := ⟨0xa0030, 0, 2⟩
/-- FI_MISROUTE_CNT (Table 8.18): 0x038. -/
def oFiMisrouteCnt : Nat := 0xa0038
def fFiMisrouteCntCount : Fld := ⟨0xa0038, 0, 48⟩
/-- FI_TRACK_WAIT_CNT (Table 8.18): 0x040. -/
def oFiTrackWaitCnt : Nat := 0xa0040
def fFiTrackWaitCntCount : Fld := ⟨0xa0040, 0, 48⟩
/-- CE_CFG (Table 8.18): 0x100. -/
def oCeCfg : Nat := 0xa0100
def fCeCfgTrigq : Fld := ⟨0xa0100, 0, 18⟩
def fCeCfgProg : Fld := ⟨0xa0100, 20, 32⟩
/-- CE_STATUS (Table 8.18): 0x108. -/
def oCeStatus : Nat := 0xa0108
def fCeStatusNext : Fld := ⟨0xa0108, 0, 12⟩
def fCeStatusInflight : Fld := ⟨0xa0108, 12, 4⟩
def fCeStatusHalted : Fld := ⟨0xa0108, 16, 1⟩
/-- CE_LAYOUT_GEN (Table 8.18): 0x110. -/
def oCeLayoutGen : Nat := 0xa0110
def fCeLayoutGenGen : Fld := ⟨0xa0110, 0, 16⟩
/-- CE_STALE_CNT (Table 8.18): 0x118. -/
def oCeStaleCnt : Nat := 0xa0118
def fCeStaleCntCount : Fld := ⟨0xa0118, 0, 48⟩
/-- CE_STEP_OVF (Table 8.18): 0x120. -/
def oCeStepOvf : Nat := 0xa0120
def fCeStepOvfCount : Fld := ⟨0xa0120, 0, 48⟩
/-- STEP_INDEX (Table 9.10): 0x000. -/
def oStepIndex : Nat := 0xe0000
def fStepIndexIndex : Fld := ⟨0xe0000, 0, 64⟩
/-- STEP_SKIP (Table 9.10): 0x008. -/
def oStepSkip : Nat := 0xe0008
def fStepSkipTotal : Fld := ⟨0xe0008, 0, 32⟩
def fStepSkipConsec : Fld := ⟨0xe0008, 32, 16⟩
/-- STEP_LSCALE (Table 9.10): 0x010. -/
def oStepLscale : Nat := 0xe0010
def fStepLscaleE : Fld := ⟨0xe0010, 0, 8⟩
def fStepLscaleGood : Fld := ⟨0xe0010, 16, 16⟩
/-- STEP_LSCFG (Table 9.10): 0x018. -/
def oStepLscfg : Nat := 0xe0018
def fStepLscfgEMin : Fld := ⟨0xe0018, 0, 8⟩
def fStepLscfgEMax : Fld := ⟨0xe0018, 8, 8⟩
def fStepLscfgGrowEvery : Fld := ⟨0xe0018, 16, 16⟩
def fStepLscfgSkipLimit : Fld := ⟨0xe0018, 32, 8⟩
/-- STEP_LIMITS (Table 9.10): 0x020. -/
def oStepLimits : Nat := 0xe0020
def fStepLimitsClipMax : Fld := ⟨0xe0020, 0, 32⟩
def fStepLimitsOvfLimit : Fld := ⟨0xe0020, 32, 16⟩
/-- STEP_WINDOWS (Table 9.10): 0x028. -/
def oStepWindows : Nat := 0xe0028
def fStepWindowsLSs : Fld := ⟨0xe0028, 0, 10⟩
def fStepWindowsLLoss : Fld := ⟨0xe0028, 16, 10⟩
/-- STEP_PARAM_ADDR (Table 9.10): 0x030. -/
def oStepParamAddr : Nat := 0xe0030
def fStepParamAddrAddr : Fld := ⟨0xe0030, 7, 41⟩
/-- STEP_VREC_ADDR (Table 9.10): 0x038. -/
def oStepVrecAddr : Nat := 0xe0038
def fStepVrecAddrRegion : Fld := ⟨0xe0038, 24, 24⟩
/-- STEP_CURSOR (Table 9.10): 0x040. -/
def oStepCursor : Nat := 0xe0040
def fStepCursorCursor : Fld := ⟨0xe0040, 0, 64⟩
/-- STEP_BATCH (Table 9.10): 0x048. -/
def oStepBatch : Nat := 0xe0048
def fStepBatchBatch : Fld := ⟨0xe0048, 0, 32⟩
/-- STEP_RESULT (Table 9.10): 0x050. -/
def oStepResult : Nat := 0xe0050
def fStepResultDecision : Fld := ⟨0xe0050, 0, 2⟩
def fStepResultValid : Fld := ⟨0xe0050, 2, 1⟩
def fStepResultCTaint : Fld := ⟨0xe0050, 4, 1⟩
def fStepResultCNonfin : Fld := ⟨0xe0050, 5, 1⟩
def fStepResultCWrap : Fld := ⟨0xe0050, 6, 1⟩
def fStepResultCOvf : Fld := ⟨0xe0050, 7, 1⟩
def fStepResultCNormOvf : Fld := ⟨0xe0050, 8, 1⟩
/-- STEP_NORM (Table 9.10): 0x058. -/
def oStepNorm : Nat := 0xe0058
def fStepNormNorm : Fld := ⟨0xe0058, 0, 32⟩
def fStepNormClip : Fld := ⟨0xe0058, 32, 32⟩
/-- STEP_UNSCALE (Table 9.10): 0x060. -/
def oStepUnscale : Nat := 0xe0060
def fStepUnscaleUnscale : Fld := ⟨0xe0060, 0, 32⟩
def fStepUnscaleLossMean : Fld := ⟨0xe0060, 32, 32⟩
/-- STEP_POST (Table 9.10): 0x068. -/
def oStepPost : Nat := 0xe0068
def fStepPostNonfin : Fld := ⟨0xe0068, 0, 1⟩
def fStepPostWrap : Fld := ⟨0xe0068, 1, 1⟩
def fStepPostTaint : Fld := ⟨0xe0068, 2, 1⟩
def fStepPostOvf : Fld := ⟨0xe0068, 3, 1⟩
/-- UPD_PROG (Table 10.5): 0x100. -/
def oUpdProg : Nat := 0xe0100
def fUpdProgCount : Fld := ⟨0xe0100, 0, 15⟩
def fUpdProgAddr : Fld := ⟨0xe0100, 16, 32⟩
/-- UPD_IRING (Table 10.5): 0x108. -/
def oUpdIring : Nat := 0xe0108
def fUpdIringBase : Fld := ⟨0xe0108, 0, 41⟩
def fUpdIringItems : Fld := ⟨0xe0108, 44, 20⟩
/-- UPD_ICTR (Table 10.5): 0x110. -/
def oUpdIctr : Nat := 0xe0110
def fUpdIctrCtr : Fld := ⟨0xe0110, 0, 16⟩
def fUpdIctrSq : Fld := ⟨0xe0110, 32, 18⟩
/-- UPD_LRT (Table 10.5): 0x118. -/
def oUpdLrt : Nat := 0xe0118
def fUpdLrtAddr : Fld := ⟨0xe0118, 0, 41⟩
def fUpdLrtLen : Fld := ⟨0xe0118, 44, 20⟩
/-- UPD_STATUS (Table 10.5): 0x120. -/
def oUpdStatus : Nat := 0xe0120
def fUpdStatusNext : Fld := ⟨0xe0120, 0, 15⟩
def fUpdStatusBusy : Fld := ⟨0xe0120, 16, 1⟩
def fUpdStatusRecon : Fld := ⟨0xe0120, 17, 1⟩
/-- UPD_PARK_WAIT_CNT (Table 10.5): 0x128. -/
def oUpdParkWaitCnt : Nat := 0xe0128
def fUpdParkWaitCntCount : Fld := ⟨0xe0128, 0, 48⟩
/-- UPD_FETCH_CNT (Table 10.5): 0x130. -/
def oUpdFetchCnt : Nat := 0xe0130
def fUpdFetchCntCount : Fld := ⟨0xe0130, 0, 48⟩
/-- PAR_CFG (Table 10.5): 0x140. -/
def oParCfg : Nat := 0xe0140
def fParCfgG : Fld := ⟨0xe0140, 0, 5⟩
def fParCfgMember : Fld := ⟨0xe0140, 8, 4⟩
def fParCfgBase : Fld := ⟨0xe0140, 16, 16⟩
def fParCfgNblk : Fld := ⟨0xe0140, 32, 16⟩
/-- PAR_MEMBERS_k (Table 10.5): 0x148 + 8k, k = 0 to 3. -/
def oParMembers : Nat := 0xe0148
def fParMembersPkg0 : Fld := ⟨0xe0148, 0, 12⟩
def fParMembersPkg1 : Fld := ⟨0xe0148, 16, 12⟩
def fParMembersPkg2 : Fld := ⟨0xe0148, 32, 12⟩
def fParMembersPkg3 : Fld := ⟨0xe0148, 48, 12⟩
/-- PAR_STATUS (Table 10.5): 0x168. -/
def oParStatus : Nat := 0xe0168
def fParStatusValid : Fld := ⟨0xe0168, 0, 1⟩
def fParStatusGenRun : Fld := ⟨0xe0168, 1, 1⟩
def fParStatusStep : Fld := ⟨0xe0168, 8, 56⟩
/-- LAYOUT_STATUS (Table 10.5): 0x170. -/
def oLayoutStatus : Nat := 0xe0170
def fLayoutStatusGen : Fld := ⟨0xe0170, 0, 16⟩
def fLayoutStatusStaged : Fld := ⟨0xe0170, 16, 1⟩
def fLayoutStatusPending : Fld := ⟨0xe0170, 17, 1⟩
def fLayoutStatusMigrating : Fld := ⟨0xe0170, 18, 1⟩
def fLayoutStatusApplyStep : Fld := ⟨0xe0170, 24, 40⟩
/-- ERR_CFG (Table 11.11): 0x000. -/
def oErrCfg : Nat := 0xc0000
def fErrCfgQueue : Fld := ⟨0xc0000, 0, 18⟩
def fErrCfgAlertMin : Fld := ⟨0xc0000, 18, 3⟩
/-- ERR_STATUS (Table 11.11): 0x008. -/
def oErrStatus : Nat := 0xc0008
def fErrStatusNextSeq : Fld := ⟨0xc0008, 0, 16⟩
def fErrStatusHeld : Fld := ⟨0xc0008, 16, 9⟩
def fErrStatusDropped : Fld := ⟨0xc0008, 32, 16⟩
/-- ERR_CNT_c (Table 11.11): 0x010 + 8c, c = 0 to 5. -/
def oErrCnt : Nat := 0xc0010
def fErrCntCount : Fld := ⟨0xc0010, 0, 48⟩
/-- AGATE_SENT_CFG (Table 11.11): 0x040. -/
def oAgateSentCfg : Nat := 0xc0040
def fAgateSentCfgEn : Fld := ⟨0xc0040, 0, 1⟩
def fAgateSentCfgLog2p : Fld := ⟨0xc0040, 1, 4⟩
def fAgateSentCfgSrot : Fld := ⟨0xc0040, 8, 7⟩
/-- AGATE_SENT_CNT (Table 11.11): 0x048. -/
def oAgateSentCnt : Nat := 0xc0048
def fAgateSentCntCount : Fld := ⟨0xc0048, 0, 48⟩
/-- AGATE_SENT_MISS_CNT (Table 11.11): 0x050. -/
def oAgateSentMissCnt : Nat := 0xc0050
def fAgateSentMissCntCount : Fld := ⟨0xc0050, 0, 48⟩
/-- AGATE_SENT_SKIP_CNT (Table 11.11): 0x058. -/
def oAgateSentSkipCnt : Nat := 0xc0058
def fAgateSentSkipCntCount : Fld := ⟨0xc0058, 0, 48⟩
/-- AGATE_DIG_CFG (Table 11.11): 0x060. -/
def oAgateDigCfg : Nat := 0xc0060
def fAgateDigCfgK : Fld := ⟨0xc0060, 0, 8⟩
def fAgateDigCfgR : Fld := ⟨0xc0060, 8, 5⟩
def fAgateDigCfgRank : Fld := ⟨0xc0060, 16, 4⟩
def fAgateDigCfgCtr : Fld := ⟨0xc0060, 20, 16⟩
/-- AGATE_DIG_RANGES (Table 11.11): 0x068. -/
def oAgateDigRanges : Nat := 0xc0068
def fAgateDigRangesCount : Fld := ⟨0xc0068, 0, 11⟩
def fAgateDigRangesAddr : Fld := ⟨0xc0068, 12, 36⟩
/-- AGATE_DIG_OUT (Table 11.11): 0x070. -/
def oAgateDigOut : Nat := 0xc0070
def fAgateDigOutAddr : Fld := ⟨0xc0070, 12, 36⟩
/-- AGATE_DIG_GATH (Table 11.11): 0x078. -/
def oAgateDigGath : Nat := 0xc0078
def fAgateDigGathAddr : Fld := ⟨0xc0078, 12, 36⟩
/-- AGATE_DIG_KEY_LO (Table 11.11): 0x080. -/
def oAgateDigKeyLo : Nat := 0xc0080
def fAgateDigKeyLoKey : Fld := ⟨0xc0080, 0, 64⟩
/-- AGATE_DIG_KEY_HI (Table 11.11): 0x088. -/
def oAgateDigKeyHi : Nat := 0xc0088
def fAgateDigKeyHiKey : Fld := ⟨0xc0088, 0, 64⟩
/-- AGATE_DIG_VAL_LO (Table 11.11): 0x090. -/
def oAgateDigValLo : Nat := 0xc0090
def fAgateDigValLoDigest : Fld := ⟨0xc0090, 0, 64⟩
/-- AGATE_DIG_VAL_HI (Table 11.11): 0x098. -/
def oAgateDigValHi : Nat := 0xc0098
def fAgateDigValHiDigest : Fld := ⟨0xc0098, 0, 64⟩
/-- AGATE_DIG_STATUS (Table 11.11): 0x0A0. -/
def oAgateDigStatus : Nat := 0xc00a0
def fAgateDigStatusAgree : Fld := ⟨0xc00a0, 0, 1⟩
def fAgateDigStatusOdd : Fld := ⟨0xc00a0, 1, 1⟩
def fAgateDigStatusSuspect : Fld := ⟨0xc00a0, 2, 1⟩
def fAgateDigStatusVotes : Fld := ⟨0xc00a0, 4, 5⟩
def fAgateDigStatusStep : Fld := ⟨0xc00a0, 16, 48⟩
/-- RETIRE_CFG (Table 11.11): 0x0A8. -/
def oRetireCfg : Nat := 0xc00a8
def fRetireCfgResidLimit : Fld := ⟨0xc00a8, 0, 4⟩
def fRetireCfgResidWindow : Fld := ⟨0xc00a8, 4, 16⟩
def fRetireCfgQuarLimit : Fld := ⟨0xc00a8, 20, 4⟩
/-- RETIRE_PEND (Table 11.11): 0x0B0. -/
def oRetirePend : Nat := 0xc00b0
def fRetirePendCores : Fld := ⟨0xc00b0, 0, 18⟩
/-- D2D_DISC (Table 12.14): 0x000. -/
def oD2dDisc : Nat := 0x40000
def fD2dDiscPos : Fld := ⟨0x40000, 0, 3⟩
def fD2dDiscDone : Fld := ⟨0x40000, 3, 1⟩
def fD2dDiscFail : Fld := ⟨0x40000, 4, 1⟩
def fD2dDiscFound : Fld := ⟨0x40000, 8, 4⟩
def fD2dDiscStacks : Fld := ⟨0x40000, 12, 2⟩
def fD2dDiscFailReason : Fld := ⟨0x40000, 16, 3⟩
/-- D2D_CTRL (Table 12.14): 0x008. -/
def oD2dCtrl : Nat := 0x40008
def fD2dCtrlRetrain : Fld := ⟨0x40008, 0, 4⟩
/-- CLK_STATUS (Table 12.14): 0x010. -/
def oClkStatus : Nat := 0x40010
def fClkStatusCpllA : Fld := ⟨0x40010, 0, 1⟩
def fClkStatusCpllB : Fld := ⟨0x40010, 1, 1⟩
def fClkStatusCpllSel : Fld := ⟨0x40010, 2, 1⟩
def fClkStatusJpll : Fld := ⟨0x40010, 3, 1⟩
def fClkStatusMpll : Fld := ⟨0x40010, 4, 1⟩
def fClkStatusDpll : Fld := ⟨0x40010, 5, 1⟩
def fClkStatusSpll : Fld := ⟨0x40010, 6, 1⟩
def fClkStatusRefOk : Fld := ⟨0x40010, 7, 1⟩
/-- DIE_TIMEBASE (Table 12.14): 0x018. -/
def oDieTimebase : Nat := 0x40018
def fDieTimebaseNs : Fld := ⟨0x40018, 0, 64⟩
/-- D2D_ADMIT (Table 12.14): 0x020. -/
def oD2dAdmit : Nat := 0x40020
def fD2dAdmitAdmitted : Fld := ⟨0x40020, 0, 1⟩
def fD2dAdmitChecked : Fld := ⟨0x40020, 1, 1⟩
def fD2dAdmitRestricted : Fld := ⟨0x40020, 2, 1⟩
def fD2dAdmitReason : Fld := ⟨0x40020, 4, 4⟩
def fD2dAdmitRate : Fld := ⟨0x40020, 8, 2⟩
def fD2dAdmitSupplier : Fld := ⟨0x40020, 12, 4⟩
def fD2dAdmitSiliconRev : Fld := ⟨0x40020, 16, 8⟩
/-- D2D_QREC_k (Table 12.14): 0x040 + 8k, k = 0 to 15. -/
def oD2dQrec : Nat := 0x40040
def fD2dQrecBytes : Fld := ⟨0x40040, 0, 64⟩
/-- D2D_EDGE_STATUS_e (Table 12.14): 0x100 + 0x40e. -/
def oD2dEdgeStatus : Nat := 0x40100
def fD2dEdgeStatusState : Fld := ⟨0x40100, 0, 3⟩
def fD2dEdgeStatusPresent : Fld := ⟨0x40100, 3, 1⟩
def fD2dEdgeStatusPeerPos : Fld := ⟨0x40100, 4, 3⟩
def fD2dEdgeStatusRate : Fld := ⟨0x40100, 7, 1⟩
def fD2dEdgeStatusModulesUp : Fld := ⟨0x40100, 8, 5⟩
def fD2dEdgeStatusLanesRepaired : Fld := ⟨0x40100, 16, 8⟩
def fD2dEdgeStatusRtt : Fld := ⟨0x40100, 24, 8⟩
/-- D2D_MODULES_e (Table 12.14): 0x108 + 0x40e. -/
def oD2dModules : Nat := 0x40108
def fD2dModulesEnabled : Fld := ⟨0x40108, 0, 24⟩
def fD2dModulesRepaired : Fld := ⟨0x40108, 24, 24⟩
/-- D2D_CRC_ERR_CNT_e (Table 12.14): 0x110 + 0x40e. -/
def oD2dCrcErrCnt : Nat := 0x40110
def fD2dCrcErrCntCount : Fld := ⟨0x40110, 0, 48⟩
/-- D2D_MALFORMED_CNT_e (Table 12.14): 0x118 + 0x40e. -/
def oD2dMalformedCnt : Nat := 0x40118
def fD2dMalformedCntCount : Fld := ⟨0x40118, 0, 48⟩
/-- D2D_REPLAY_CNT_e (Table 12.14): 0x120 + 0x40e. -/
def oD2dReplayCnt : Nat := 0x40120
def fD2dReplayCntCount : Fld := ⟨0x40120, 0, 48⟩
/-- D2D_RETRAIN_CNT_e (Table 12.14): 0x128 + 0x40e. -/
def oD2dRetrainCnt : Nat := 0x40128
def fD2dRetrainCntCount : Fld := ⟨0x40128, 0, 48⟩
/-- CMD_CFG (Table 13.16): 0x1000. -/
def oCmdCfg : Nat := 0x1000
def fCmdCfgSessCredits : Fld := ⟨0x1000, 0, 8⟩
def fCmdCfgS0Credits : Fld := ⟨0x1000, 8, 4⟩
def fCmdCfgIdleS : Fld := ⟨0x1000, 16, 16⟩
def fCmdCfgCstPort : Fld := ⟨0x1000, 32, 16⟩
/-- CMD_STATUS (Table 13.16): 0x1008. -/
def oCmdStatus : Nat := 0x1008
def fCmdStatusSessions : Fld := ⟨0x1008, 0, 5⟩
def fCmdStatusConns : Fld := ⟨0x1008, 8, 7⟩
def fCmdStatusShed : Fld := ⟨0x1008, 16, 3⟩
/-- CMD_DEPTH (Table 13.16): 0x1010. -/
def oCmdDepth : Nat := 0x1010
def fCmdDepthClass0 : Fld := ⟨0x1010, 0, 9⟩
def fCmdDepthClass1 : Fld := ⟨0x1010, 16, 9⟩
def fCmdDepthClass2 : Fld := ⟨0x1010, 32, 9⟩
/-- CMD_MALFORMED_CNT (Table 13.16): 0x1018. -/
def oCmdMalformedCnt : Nat := 0x1018
def fCmdMalformedCntCount : Fld := ⟨0x1018, 0, 48⟩
/-- CMD_UNSUPPORTED_CNT (Table 13.16): 0x1020. -/
def oCmdUnsupportedCnt : Nat := 0x1020
def fCmdUnsupportedCntCount : Fld := ⟨0x1020, 0, 48⟩
/-- CMD_DUPLICATE_CNT (Table 13.16): 0x1028. -/
def oCmdDuplicateCnt : Nat := 0x1028
def fCmdDuplicateCntCount : Fld := ⟨0x1028, 0, 48⟩
/-- CMD_NOTAUTH_CNT (Table 13.16): 0x1030. -/
def oCmdNotauthCnt : Nat := 0x1030
def fCmdNotauthCntCount : Fld := ⟨0x1030, 0, 48⟩
/-- CMD_EXHAUSTED_CNT (Table 13.16): 0x1038. -/
def oCmdExhaustedCnt : Nat := 0x1038
def fCmdExhaustedCntCount : Fld := ⟨0x1038, 0, 48⟩
/-- CST_RETX_CNT (Table 13.16): 0x1040. -/
def oCstRetxCnt : Nat := 0x1040
def fCstRetxCntCount : Fld := ⟨0x1040, 0, 48⟩
/-- CST_DROP_CNT (Table 13.16): 0x1048. -/
def oCstDropCnt : Nat := 0x1048
def fCstDropCntCount : Fld := ⟨0x1048, 0, 48⟩
/-- CST_RST_CNT (Table 13.16): 0x1050. -/
def oCstRstCnt : Nat := 0x1050
def fCstRstCntCount : Fld := ⟨0x1050, 0, 48⟩
/-- DIE_PUBKEY_k (Table 14.12): 0x100 + 8k, k = 0 to 3. -/
def oDiePubkey : Nat := 0x100
def fDiePubkeyValue : Fld := ⟨0x100, 0, 64⟩
/-- DIE_SERIAL (Table 14.12): 0x120. -/
def oDieSerial : Nat := 0x120
def fDieSerialValue : Fld := ⟨0x120, 0, 64⟩
/-- BOOT_STATUS (Table 14.12): 0x128. -/
def oBootStatus : Nat := 0x128
def fBootStatusStage : Fld := ⟨0x128, 0, 3⟩
def fBootStatusFallback : Fld := ⟨0x128, 3, 1⟩
def fBootStatusFailA : Fld := ⟨0x128, 4, 4⟩
def fBootStatusFailB : Fld := ⟨0x128, 8, 4⟩
def fBootStatusAsmOk : Fld := ⟨0x128, 12, 1⟩
def fBootStatusCalValid : Fld := ⟨0x128, 13, 1⟩
def fBootStatusXspiSlow : Fld := ⟨0x128, 14, 1⟩
/-- FW_VERSION (Table 14.12): 0x130. -/
def oFwVersion : Nat := 0x130
def fFwVersionVersion : Fld := ⟨0x130, 0, 32⟩
def fFwVersionCompat : Fld := ⟨0x130, 32, 16⟩
def fFwVersionSvn : Fld := ⟨0x130, 48, 7⟩
def fFwVersionSlot : Fld := ⟨0x130, 55, 1⟩
/-- FUSE_STATE (Table 14.12): 0x138. -/
def oFuseState : Nat := 0x138
def fFuseStateSvn : Fld := ⟨0x138, 0, 8⟩
def fFuseStateRevoked : Fld := ⟨0x138, 8, 4⟩
def fFuseStateLocked : Fld := ⟨0x138, 12, 1⟩
/-- FW_MEAS_k (Table 14.12): 0x140 + 8k, k = 0 to 7. -/
def oFwMeas : Nat := 0x140
def fFwMeasValue : Fld := ⟨0x140, 0, 64⟩
/-- OPKEY_SEL (Table 14.16): 0x2000. -/
def oOpkeySel : Nat := 0x2000
def fOpkeySelSlot : Fld := ⟨0x2000, 0, 3⟩
/-- OPKEY_CTL (Table 14.16): 0x2008. -/
def oOpkeyCtl : Nat := 0x2008
def fOpkeyCtlEnrol : Fld := ⟨0x2008, 0, 1⟩
def fOpkeyCtlRevoke : Fld := ⟨0x2008, 1, 1⟩
/-- OPKEY_STATUS (Table 14.16): 0x2010. -/
def oOpkeyStatus : Nat := 0x2010
def fOpkeyStatusEnrolled : Fld := ⟨0x2010, 0, 8⟩
def fOpkeyStatusPin : Fld := ⟨0x2010, 8, 1⟩
def fOpkeyStatusBusy : Fld := ⟨0x2010, 9, 1⟩
def fOpkeyStatusResult : Fld := ⟨0x2010, 12, 4⟩
/-- OPKEY_DATA_k (Table 14.16): 0x2018 + 8k, k = 0 to 3. -/
def oOpkeyData : Nat := 0x2018
def fOpkeyDataKey : Fld := ⟨0x2018, 0, 64⟩
/-- FW_UPD_STATUS (Table 14.16): 0x2040. -/
def oFwUpdStatus : Nat := 0x2040
def fFwUpdStatusBValid : Fld := ⟨0x2040, 0, 1⟩
def fFwUpdStatusOnB : Fld := ⟨0x2040, 1, 6⟩
def fFwUpdStatusCommitting : Fld := ⟨0x2040, 7, 1⟩
def fFwUpdStatusActDie : Fld := ⟨0x2040, 8, 3⟩
def fFwUpdStatusActBusy : Fld := ⟨0x2040, 11, 1⟩
def fFwUpdStatusActResult : Fld := ⟨0x2040, 12, 4⟩
def fFwUpdStatusActReason : Fld := ⟨0x2040, 16, 4⟩
/-- PWR_STATUS (Table 15.9): 0x000. -/
def oPwrStatus : Nat := 0x10000
def fPwrStatusState : Fld := ⟨0x10000, 0, 3⟩
def fPwrStatusTarget : Fld := ⟨0x10000, 3, 3⟩
def fPwrStatusSwitching : Fld := ⟨0x10000, 6, 1⟩
def fPwrStatusGate : Fld := ⟨0x10000, 8, 5⟩
def fPwrStatusBrownout : Fld := ⟨0x10000, 13, 1⟩
def fPwrStatusHot : Fld := ⟨0x10000, 14, 1⟩
def fPwrStatusCrit : Fld := ⟨0x10000, 15, 1⟩
def fPwrStatusSource : Fld := ⟨0x10000, 16, 3⟩
/-- PWR_BUDGET_CFG (Table 15.9): 0x008. -/
def oPwrBudgetCfg : Nat := 0x10008
def fPwrBudgetCfgCmdW : Fld := ⟨0x10008, 0, 12⟩
def fPwrBudgetCfgCapW : Fld := ⟨0x10008, 12, 12⟩
def fPwrBudgetCfgPinCode : Fld := ⟨0x10008, 24, 3⟩
def fPwrBudgetCfgEffectiveW : Fld := ⟨0x10008, 28, 12⟩
def fPwrBudgetCfgBoHoldUs : Fld := ⟨0x10008, 40, 16⟩
/-- PWR_MEAS (Table 15.9): 0x010. -/
def oPwrMeas : Nat := 0x10010
def fPwrMeasPkgMw : Fld := ⟨0x10010, 0, 32⟩
def fPwrMeasDieMw : Fld := ⟨0x10010, 32, 32⟩
/-- PWR_GOV (Table 15.9): 0x018. -/
def oPwrGov : Nat := 0x10018
def fPwrGovIccLimit : Fld := ⟨0x10018, 0, 16⟩
def fPwrGovPwrLimitW : Fld := ⟨0x10018, 16, 16⟩
/-- THERM_CFG (Table 15.9): 0x020. -/
def oThermCfg : Nat := 0x10020
def fThermCfgTHot : Fld := ⟨0x10020, 0, 12⟩
def fThermCfgTCrit : Fld := ⟨0x10020, 16, 12⟩
/-- THERM_STATUS (Table 15.9): 0x028. -/
def oThermStatus : Nat := 0x10028
def fThermStatusTmax : Fld := ⟨0x10028, 0, 12⟩
def fThermStatusSensor : Fld := ⟨0x10028, 12, 6⟩
def fThermStatusHot : Fld := ⟨0x10028, 18, 1⟩
def fThermStatusCrit : Fld := ⟨0x10028, 19, 1⟩
def fThermStatusPort : Fld := ⟨0x10028, 20, 1⟩
/-- PWR_STATE_CNT (Table 15.9): 0x030. -/
def oPwrStateCnt : Nat := 0x10030
def fPwrStateCntCount : Fld := ⟨0x10030, 0, 48⟩
/-- PWR_GATE_CNT (Table 15.9): 0x038. -/
def oPwrGateCnt : Nat := 0x10038
def fPwrGateCntCount : Fld := ⟨0x10038, 0, 48⟩
/-- BROWNOUT_CNT (Table 15.9): 0x040. -/
def oBrownoutCnt : Nat := 0x10040
def fBrownoutCntCount : Fld := ⟨0x10040, 0, 48⟩
/-- THERM_THROTTLE_CNT (Table 15.9): 0x048. -/
def oThermThrottleCnt : Nat := 0x10048
def fThermThrottleCntCount : Fld := ⟨0x10048, 0, 48⟩
/-- SVC_STATUS (Table 16.6): 0x9000. -/
def oSvcStatus : Nat := 0xa9000
def fSvcStatusState : Fld := ⟨0xa9000, 0, 3⟩
def fSvcStatusForm : Fld := ⟨0xa9000, 3, 2⟩
def fSvcStatusLink : Fld := ⟨0xa9000, 5, 1⟩
def fSvcStatusAnDone : Fld := ⟨0xa9000, 6, 1⟩
def fSvcStatusVlan : Fld := ⟨0xa9000, 8, 12⟩
def fSvcStatusIpv4 : Fld := ⟨0xa9000, 20, 1⟩
def fSvcStatusConns : Fld := ⟨0xa9000, 24, 7⟩
/-- SVC_MAC (Table 16.6): 0x9008. -/
def oSvcMac : Nat := 0xa9008
def fSvcMacMac : Fld := ⟨0xa9008, 0, 48⟩
/-- SVC_CFG (Table 16.6): 0x9010. -/
def oSvcCfg : Nat := 0xa9010
def fSvcCfgModeSel : Fld := ⟨0xa9010, 0, 1⟩
/-- SVC_FEC_CORR_CNT (Table 16.6): 0x9018. -/
def oSvcFecCorrCnt : Nat := 0xa9018
def fSvcFecCorrCntCount : Fld := ⟨0xa9018, 0, 48⟩
/-- SVC_FEC_UNCORR_CNT (Table 16.6): 0x9020. -/
def oSvcFecUncorrCnt : Nat := 0xa9020
def fSvcFecUncorrCntCount : Fld := ⟨0xa9020, 0, 48⟩
/-- SVC_RX_FRAMES_CNT (Table 16.6): 0x9028. -/
def oSvcRxFramesCnt : Nat := 0xa9028
def fSvcRxFramesCntCount : Fld := ⟨0xa9028, 0, 48⟩
/-- SVC_TX_FRAMES_CNT (Table 16.6): 0x9030. -/
def oSvcTxFramesCnt : Nat := 0xa9030
def fSvcTxFramesCntCount : Fld := ⟨0xa9030, 0, 48⟩
/-- SVC_RX_DROP_CNT (Table 16.6): 0x9038. -/
def oSvcRxDropCnt : Nat := 0xa9038
def fSvcRxDropCntCount : Fld := ⟨0xa9038, 0, 48⟩
/-- SVC_IP_DROP_CNT (Table 16.6): 0x9040. -/
def oSvcIpDropCnt : Nat := 0xa9040
def fSvcIpDropCntCount : Fld := ⟨0xa9040, 0, 48⟩

/-- Rows 0 to 24 of the register tables. -/
def regRows0 : List RegSpec := [
  ⟨"DIE_INFO", .all, 0x0, [], 0x0, [⟨0, 3, .ro⟩, ⟨3, 1, .ro⟩, ⟨8, 8, .ro⟩, ⟨16, 4, .ro⟩]⟩,
  ⟨"CORE_STATUS", .all, 0x8, [], 0x0, [⟨0, 18, .ro⟩, ⟨20, 2, .ro⟩, ⟨24, 5, .ro⟩]⟩,
  ⟨"CORE_MAP_LO", .all, 0x10, [], 0x0, [⟨0, 64, .ro⟩]⟩,
  ⟨"CORE_MAP_HI", .all, 0x18, [], 0x0, [⟨0, 64, .ro⟩]⟩,
  ⟨"PKG_SHAPE", .common, 0x0, [], 0x0, [⟨0, 1, .ro⟩, ⟨8, 7, .ro⟩]⟩,
  ⟨"PKG_CORE_MASK", .common, 0x8, [], 0x0, [⟨0, 64, .ro⟩]⟩,
  ⟨"PKG_ID", .common, 0x10, [], 0x0, [⟨0, 12, .ro⟩, ⟨12, 1, .ro⟩]⟩,
  ⟨"SEQ_CTRL", .compute, 0x100000, [(0x10000, 18)], 0x0, [⟨0, 1, .wo⟩, ⟨1, 1, .wo⟩]⟩,
  ⟨"SEQ_STATUS", .compute, 0x100008, [(0x10000, 18)], 0x0, [⟨0, 3, .ro⟩, ⟨4, 3, .ro⟩, ⟨8, 1, .ro⟩, ⟨9, 1, .ro⟩, ⟨10, 1, .ro⟩, ⟨11, 1, .ro⟩, ⟨12, 1, .ro⟩, ⟨13, 1, .ro⟩]⟩,
  ⟨"SEQ_IR_CFG", .compute, 0x100010, [(0x10000, 18)], 0x1, [⟨0, 6, .rw⟩]⟩,
  ⟨"SEQ_PC_CRIT", .compute, 0x100018, [(0x10000, 18)], 0x0, [⟨0, 17, .rw⟩, ⟨32, 17, .ro⟩]⟩,
  ⟨"SEQ_PC_DEF", .compute, 0x100020, [(0x10000, 18)], 0x0, [⟨0, 17, .rw⟩, ⟨32, 17, .ro⟩]⟩,
  ⟨"SEQ_HALT_INFO", .compute, 0x100028, [(0x10000, 18)], 0x0, [⟨0, 8, .ro⟩, ⟨8, 1, .ro⟩, ⟨9, 1, .ro⟩, ⟨12, 4, .ro⟩, ⟨16, 17, .ro⟩]⟩,
  ⟨"SPAD_CONFLICT_CNT", .compute, 0x100030, [(0x10000, 18)], 0x0, [⟨0, 48, .rc⟩]⟩,
  ⟨"DEFER_ISSUE_CNT", .compute, 0x100038, [(0x10000, 18)], 0x0, [⟨0, 48, .rc⟩]⟩,
  ⟨"CRIT_WAIT_CNT", .compute, 0x100040, [(0x10000, 18)], 0x0, [⟨0, 48, .rc⟩]⟩,
  ⟨"TOKEN", .compute, 0x100100, [(0x10000, 18), (0x8, 16)], 0x0, [⟨0, 16, .ro⟩, ⟨16, 16, .ro⟩, ⟨32, 16, .ro⟩, ⟨48, 16, .ro⟩]⟩,
  ⟨"ARR_STATUS", .compute, 0x100200, [(0x10000, 18), (0x40, 4)], 0x0, [⟨0, 2, .ro⟩, ⟨2, 1, .ro⟩, ⟨8, 2, .ro⟩, ⟨16, 7, .ro⟩, ⟨32, 16, .rc⟩]⟩,
  ⟨"ARR_CTRL", .compute, 0x100208, [(0x10000, 18), (0x40, 4)], 0x0, [⟨0, 1, .wo⟩, ⟨1, 1, .wo⟩, ⟨2, 1, .wo⟩]⟩,
  ⟨"ARR_BAD_LO", .compute, 0x100210, [(0x10000, 18), (0x40, 4)], 0x0, [⟨0, 64, .ro⟩]⟩,
  ⟨"ARR_BAD_HI", .compute, 0x100218, [(0x10000, 18), (0x40, 4)], 0x0, [⟨0, 2, .ro⟩]⟩,
  ⟨"ARR_PEND_LO", .compute, 0x100220, [(0x10000, 18), (0x40, 4)], 0x0, [⟨0, 64, .rw⟩]⟩,
  ⟨"ARR_PEND_HI", .compute, 0x100228, [(0x10000, 18), (0x40, 4)], 0x0, [⟨0, 2, .rw⟩]⟩,
  ⟨"ARR_CTEST_LO", .compute, 0x100230, [(0x10000, 18), (0x40, 4)], 0x0, [⟨0, 64, .ro⟩]⟩,
  ⟨"ARR_CTEST_HI", .compute, 0x100238, [(0x10000, 18), (0x40, 4)], 0x0, [⟨0, 2, .ro⟩, ⟨8, 1, .ro⟩, ⟨9, 1, .ro⟩, ⟨10, 1, .ro⟩]⟩]

/-- Rows 25 to 49 of the register tables. -/
def regRows1 : List RegSpec := [
  ⟨"MX_STREAM_CNT", .compute, 0x100300, [(0x10000, 18)], 0x0, [⟨0, 48, .rc⟩]⟩,
  ⟨"MX_PASS2_CNT", .compute, 0x100308, [(0x10000, 18)], 0x0, [⟨0, 48, .rc⟩]⟩,
  ⟨"ACC_STEP_OVF", .compute, 0x100310, [(0x10000, 18)], 0x0, [⟨0, 48, .rc⟩]⟩,
  ⟨"ACC_STEP_FLAGS", .compute, 0x100318, [(0x10000, 18)], 0x0, [⟨0, 1, .w1c⟩, ⟨1, 1, .w1c⟩, ⟨2, 1, .w1c⟩]⟩,
  ⟨"ACC_GRP_DESC", .compute, 0x100400, [(0x10000, 18), (0x200, 4), (0x10, 32)], 0x0, [⟨0, 32, .ro⟩, ⟨32, 10, .ro⟩, ⟨48, 1, .ro⟩, ⟨49, 1, .ro⟩]⟩,
  ⟨"ACC_GRP_STAT", .compute, 0x100408, [(0x10000, 18), (0x200, 4), (0x10, 32)], 0x0, [⟨0, 32, .ro⟩, ⟨32, 1, .ro⟩, ⟨33, 1, .ro⟩, ⟨34, 1, .ro⟩]⟩,
  ⟨"VX_SR_SEED", .compute, 0x100c00, [(0x10000, 18)], 0x0, [⟨0, 64, .rw⟩]⟩,
  ⟨"VX_SR_STEP", .compute, 0x100c08, [(0x10000, 18)], 0x0, [⟨0, 32, .rw⟩]⟩,
  ⟨"VX_STEP_OVF", .compute, 0x100c10, [(0x10000, 18)], 0x0, [⟨0, 48, .rc⟩]⟩,
  ⟨"VX_STEP_FLAGS", .compute, 0x100c18, [(0x10000, 18)], 0x0, [⟨0, 1, .w1c⟩, ⟨1, 1, .w1c⟩, ⟨2, 1, .w1c⟩, ⟨3, 1, .w1c⟩]⟩,
  ⟨"VX_RESIDUE_CNT", .compute, 0x100c20, [(0x10000, 18)], 0x0, [⟨0, 48, .rc⟩]⟩,
  ⟨"VX_STATUS", .compute, 0x100c28, [(0x10000, 18)], 0x0, [⟨0, 10, .ro⟩, ⟨10, 4, .ro⟩, ⟨14, 2, .ro⟩, ⟨32, 10, .ro⟩, ⟨42, 4, .ro⟩, ⟨46, 2, .ro⟩]⟩,
  ⟨"MC_CFG", .compute, 0x20000, [], 0x10c0c, [⟨0, 8, .rw⟩, ⟨8, 8, .rw⟩, ⟨16, 4, .rw⟩]⟩,
  ⟨"MC_REGION_CMD", .compute, 0x20008, [], 0x0, [⟨0, 16, .wo⟩, ⟨16, 16, .wo⟩, ⟨32, 3, .wo⟩, ⟨35, 2, .wo⟩]⟩,
  ⟨"MC_REGION_CMD_STAT", .compute, 0x20010, [], 0x0, [⟨0, 1, .ro⟩, ⟨1, 1, .w1c⟩]⟩,
  ⟨"MC_REGION_SEL", .compute, 0x20018, [], 0x0, [⟨0, 16, .rw⟩]⟩,
  ⟨"MC_REGION_ENTRY", .compute, 0x20020, [], 0x0, [⟨0, 16, .ro⟩]⟩,
  ⟨"MC_SCRUB_STATUS", .compute, 0x20028, [], 0x0, [⟨0, 31, .ro⟩, ⟨32, 16, .ro⟩]⟩,
  ⟨"MC_STK_STATUS", .compute, 0x20100, [(0x40, 3)], 0x0, [⟨0, 3, .ro⟩, ⟨3, 1, .ro⟩, ⟨4, 1, .ro⟩]⟩,
  ⟨"MC_CORR_CNT", .compute, 0x20108, [(0x40, 3)], 0x0, [⟨0, 48, .rc⟩]⟩,
  ⟨"MC_UNCORR_CNT", .compute, 0x20110, [(0x40, 3)], 0x0, [⟨0, 48, .rc⟩]⟩,
  ⟨"MC_RMW_CNT", .compute, 0x20118, [(0x40, 3)], 0x0, [⟨0, 48, .rc⟩]⟩,
  ⟨"MC_MERGE_FULL_CNT", .compute, 0x20120, [(0x40, 3)], 0x0, [⟨0, 48, .rc⟩]⟩,
  ⟨"MC_LAST_ERR", .compute, 0x20128, [(0x40, 3)], 0x0, [⟨0, 48, .ro⟩, ⟨48, 8, .ro⟩, ⟨56, 3, .ro⟩]⟩,
  ⟨"MC_PINFAIL", .compute, 0x20130, [(0x40, 3)], 0x0, [⟨0, 6, .ro⟩, ⟨6, 6, .ro⟩, ⟨12, 5, .ro⟩, ⟨17, 7, .ro⟩]⟩]

/-- Rows 50 to 74 of the register tables. -/
def regRows2 : List RegSpec := [
  ⟨"SPAD_CORR_CNT", .compute, 0x100d00, [(0x10000, 18)], 0x0, [⟨0, 48, .rc⟩]⟩,
  ⟨"SPAD_UNCORR_CNT", .compute, 0x100d08, [(0x10000, 18)], 0x0, [⟨0, 48, .rc⟩]⟩,
  ⟨"BERYL_CFG", .compute, 0x60000, [], 0x40, [⟨0, 8, .rw⟩, ⟨8, 1, .w1c⟩, ⟨9, 1, .w1c⟩]⟩,
  ⟨"BERYL_BOUND", .compute, 0x60008, [(0x8, 3)], 0x0, [⟨0, 32, .rw⟩]⟩,
  ⟨"BERYL_BACKING", .compute, 0x60020, [], 0x0, [⟨18, 30, .rw⟩]⟩,
  ⟨"BERYL_TASK_CTRL", .compute, 0x60028, [], 0x0, [⟨0, 1, .wo⟩, ⟨1, 1, .wo⟩]⟩,
  ⟨"BERYL_TASK_STAT", .compute, 0x60030, [], 0x0, [⟨0, 1, .ro⟩, ⟨1, 1, .ro⟩, ⟨2, 1, .ro⟩, ⟨4, 17, .ro⟩, ⟨21, 15, .ro⟩, ⟨36, 16, .ro⟩]⟩,
  ⟨"BERYL_CTR_SEL", .compute, 0x60038, [], 0x0, [⟨0, 16, .rw⟩]⟩,
  ⟨"BERYL_CTR_VAL", .compute, 0x60040, [], 0x0, [⟨0, 32, .rw⟩]⟩,
  ⟨"BERYL_WATCH_SEL", .compute, 0x60048, [], 0x0, [⟨0, 14, .rw⟩]⟩,
  ⟨"BERYL_WATCH_CFG", .compute, 0x60050, [], 0x0, [⟨0, 16, .rw⟩, ⟨16, 2, .rw⟩, ⟨18, 1, .rw⟩, ⟨20, 1, .ro⟩, ⟨21, 1, .ro⟩, ⟨32, 16, .rw⟩, ⟨48, 16, .rw⟩]⟩,
  ⟨"BERYL_WATCH_TGT", .compute, 0x60058, [], 0x0, [⟨0, 2, .rw⟩, ⟨8, 20, .rw⟩, ⟨28, 2, .rw⟩]⟩,
  ⟨"BERYL_WATCH_CTL", .compute, 0x60060, [], 0x0, [⟨0, 1, .wo⟩, ⟨1, 1, .wo⟩]⟩,
  ⟨"BERYL_ARMED", .compute, 0x60068, [], 0x0, [⟨0, 15, .ro⟩]⟩,
  ⟨"BERYL_OVERRUN_CNT", .compute, 0x60070, [], 0x0, [⟨0, 48, .rc⟩]⟩,
  ⟨"BERYL_REJECT_CNT", .compute, 0x60078, [], 0x0, [⟨0, 48, .rc⟩]⟩,
  ⟨"BERYL_CONFLICT_CNT", .compute, 0x60080, [], 0x0, [⟨0, 48, .rc⟩]⟩,
  ⟨"BERYL_RTGT", .compute, 0x61000, [(0x8, 1024)], 0x0, [⟨0, 12, .rw⟩, ⟨12, 18, .rw⟩, ⟨30, 20, .rw⟩]⟩,
  ⟨"QE_CFG", .compute, 0x80000, [], 0x0, [⟨0, 25, .rw⟩]⟩,
  ⟨"QE_QSEL", .compute, 0x80008, [], 0x0, [⟨0, 18, .rw⟩]⟩,
  ⟨"QE_QSTATE", .compute, 0x80010, [(0x8, 4)], 0x0, [⟨0, 64, .rw⟩]⟩,
  ⟨"QE_CMD", .compute, 0x80030, [], 0x0, [⟨0, 1, .wo⟩, ⟨1, 1, .wo⟩, ⟨2, 1, .wo⟩]⟩,
  ⟨"QE_CMD_STAT", .compute, 0x80038, [], 0x0, [⟨0, 1, .ro⟩, ⟨1, 1, .w1c⟩]⟩,
  ⟨"QE_DOORBELL", .compute, 0x80040, [], 0x0, [⟨0, 18, .wo⟩, ⟨32, 16, .wo⟩]⟩,
  ⟨"QE_PIN_STATUS", .compute, 0x80048, [], 0x0, [⟨0, 13, .ro⟩]⟩]

/-- Rows 75 to 99 of the register tables. -/
def regRows3 : List RegSpec := [
  ⟨"QE_CACHE_HIT_CNT", .compute, 0x80050, [], 0x0, [⟨0, 48, .rc⟩]⟩,
  ⟨"QE_CACHE_MISS_CNT", .compute, 0x80058, [], 0x0, [⟨0, 48, .rc⟩]⟩,
  ⟨"QE_CACHE_WB_CNT", .compute, 0x80060, [], 0x0, [⟨0, 48, .rc⟩]⟩,
  ⟨"QE_STALL_CNT", .compute, 0x80068, [], 0x0, [⟨0, 48, .rc⟩]⟩,
  ⟨"EW_PORT_STATUS", .port, 0xa0000, [(0x1000, 6)], 0x0, [⟨0, 3, .ro⟩, ⟨3, 1, .ro⟩, ⟨4, 1, .ro⟩, ⟨8, 12, .ro⟩, ⟨20, 1, .ro⟩, ⟨24, 4, .ro⟩, ⟨32, 8, .ro⟩]⟩,
  ⟨"EW_PORT_CFG", .port, 0xa0008, [(0x1000, 6)], 0x188, [⟨0, 4, .rw⟩, ⟨4, 4, .rw⟩, ⟨8, 4, .rw⟩]⟩,
  ⟨"EW_FEC_CORR_CNT", .port, 0xa0010, [(0x1000, 6)], 0x0, [⟨0, 48, .rc⟩]⟩,
  ⟨"EW_FEC_UNCORR_CNT", .port, 0xa0018, [(0x1000, 6)], 0x0, [⟨0, 48, .rc⟩]⟩,
  ⟨"EW_CRC_ERR_CNT", .port, 0xa0020, [(0x1000, 6)], 0x0, [⟨0, 48, .rc⟩]⟩,
  ⟨"EW_REPLAY_CNT", .port, 0xa0028, [(0x1000, 6)], 0x0, [⟨0, 48, .rc⟩]⟩,
  ⟨"EW_RETRAIN_CNT", .port, 0xa0030, [(0x1000, 6)], 0x0, [⟨0, 48, .rc⟩]⟩,
  ⟨"EW_MALFORMED_CNT", .port, 0xa0038, [(0x1000, 6)], 0x0, [⟨0, 48, .rc⟩]⟩,
  ⟨"EW_RT_SEL", .port, 0xa8000, [], 0x0, [⟨0, 12, .rw⟩, ⟨12, 2, .rw⟩]⟩,
  ⟨"EW_RT_ENTRY", .port, 0xa8008, [], 0x0, [⟨0, 12, .rw⟩, ⟨12, 1, .rw⟩]⟩,
  ⟨"EW_MISROUTE_CNT", .port, 0xa8010, [], 0x0, [⟨0, 48, .rc⟩]⟩,
  ⟨"FI_CFG", .compute, 0xa0000, [], 0x0, [⟨0, 4, .rw⟩, ⟨4, 1, .rw⟩]⟩,
  ⟨"FI_TIME", .compute, 0xa0008, [], 0x0, [⟨0, 64, .ro⟩]⟩,
  ⟨"FI_TIME_STAT", .compute, 0xa0010, [], 0x0, [⟨0, 1, .ro⟩, ⟨8, 6, .ro⟩, ⟨16, 16, .ro⟩]⟩,
  ⟨"FI_RT_SEL", .compute, 0xa0018, [], 0x0, [⟨0, 12, .rw⟩, ⟨12, 2, .rw⟩]⟩,
  ⟨"FI_RT_ENTRY", .compute, 0xa0020, [], 0x0, [⟨0, 12, .rw⟩, ⟨12, 1, .rw⟩]⟩,
  ⟨"FI_FP_SEL", .compute, 0xa0028, [], 0x0, [⟨0, 18, .rw⟩]⟩,
  ⟨"FI_FP_ENTRY", .compute, 0xa0030, [], 0x0, [⟨0, 2, .rw⟩]⟩,
  ⟨"FI_MISROUTE_CNT", .compute, 0xa0038, [], 0x0, [⟨0, 48, .rc⟩]⟩,
  ⟨"FI_TRACK_WAIT_CNT", .compute, 0xa0040, [], 0x0, [⟨0, 48, .rc⟩]⟩,
  ⟨"CE_CFG", .compute, 0xa0100, [], 0x0, [⟨0, 18, .rw⟩, ⟨20, 32, .rw⟩]⟩]

/-- Rows 100 to 124 of the register tables. -/
def regRows4 : List RegSpec := [
  ⟨"CE_STATUS", .compute, 0xa0108, [], 0x0, [⟨0, 12, .ro⟩, ⟨12, 4, .ro⟩, ⟨16, 1, .ro⟩]⟩,
  ⟨"CE_LAYOUT_GEN", .compute, 0xa0110, [], 0x0, [⟨0, 16, .ro⟩]⟩,
  ⟨"CE_STALE_CNT", .compute, 0xa0118, [], 0x0, [⟨0, 48, .rc⟩]⟩,
  ⟨"CE_STEP_OVF", .compute, 0xa0120, [], 0x0, [⟨0, 48, .rc⟩]⟩,
  ⟨"STEP_INDEX", .compute, 0xe0000, [], 0x0, [⟨0, 64, .rw⟩]⟩,
  ⟨"STEP_SKIP", .compute, 0xe0008, [], 0x0, [⟨0, 32, .rw⟩, ⟨32, 16, .rw⟩]⟩,
  ⟨"STEP_LSCALE", .compute, 0xe0010, [], 0x0, [⟨0, 8, .rw⟩, ⟨16, 16, .rw⟩]⟩,
  ⟨"STEP_LSCFG", .compute, 0xe0018, [], 0x0, [⟨0, 8, .rw⟩, ⟨8, 8, .rw⟩, ⟨16, 16, .rw⟩, ⟨32, 8, .rw⟩]⟩,
  ⟨"STEP_LIMITS", .compute, 0xe0020, [], 0x0, [⟨0, 32, .rw⟩, ⟨32, 16, .rw⟩]⟩,
  ⟨"STEP_WINDOWS", .compute, 0xe0028, [], 0x0, [⟨0, 10, .rw⟩, ⟨16, 10, .rw⟩]⟩,
  ⟨"STEP_PARAM_ADDR", .compute, 0xe0030, [], 0x0, [⟨7, 41, .rw⟩]⟩,
  ⟨"STEP_VREC_ADDR", .compute, 0xe0038, [], 0x0, [⟨24, 24, .rw⟩]⟩,
  ⟨"STEP_CURSOR", .compute, 0xe0040, [], 0x0, [⟨0, 64, .rw⟩]⟩,
  ⟨"STEP_BATCH", .compute, 0xe0048, [], 0x0, [⟨0, 32, .rw⟩]⟩,
  ⟨"STEP_RESULT", .compute, 0xe0050, [], 0x0, [⟨0, 2, .ro⟩, ⟨2, 1, .ro⟩, ⟨4, 1, .ro⟩, ⟨5, 1, .ro⟩, ⟨6, 1, .ro⟩, ⟨7, 1, .ro⟩, ⟨8, 1, .ro⟩]⟩,
  ⟨"STEP_NORM", .compute, 0xe0058, [], 0x0, [⟨0, 32, .ro⟩, ⟨32, 32, .ro⟩]⟩,
  ⟨"STEP_UNSCALE", .compute, 0xe0060, [], 0x0, [⟨0, 32, .ro⟩, ⟨32, 32, .ro⟩]⟩,
  ⟨"STEP_POST", .compute, 0xe0068, [], 0x0, [⟨0, 1, .ro⟩, ⟨1, 1, .ro⟩, ⟨2, 1, .ro⟩, ⟨3, 1, .ro⟩]⟩,
  ⟨"UPD_PROG", .compute, 0xe0100, [], 0x0, [⟨0, 15, .rw⟩, ⟨16, 32, .rw⟩]⟩,
  ⟨"UPD_IRING", .compute, 0xe0108, [], 0x0, [⟨0, 41, .rw⟩, ⟨44, 20, .rw⟩]⟩,
  ⟨"UPD_ICTR", .compute, 0xe0110, [], 0x0, [⟨0, 16, .rw⟩, ⟨32, 18, .rw⟩]⟩,
  ⟨"UPD_LRT", .compute, 0xe0118, [], 0x0, [⟨0, 41, .rw⟩, ⟨44, 20, .rw⟩]⟩,
  ⟨"UPD_STATUS", .compute, 0xe0120, [], 0x0, [⟨0, 15, .ro⟩, ⟨16, 1, .ro⟩, ⟨17, 1, .ro⟩]⟩,
  ⟨"UPD_PARK_WAIT_CNT", .compute, 0xe0128, [], 0x0, [⟨0, 48, .rc⟩]⟩,
  ⟨"UPD_FETCH_CNT", .compute, 0xe0130, [], 0x0, [⟨0, 48, .rc⟩]⟩]

/-- Rows 125 to 149 of the register tables. -/
def regRows5 : List RegSpec := [
  ⟨"PAR_CFG", .compute, 0xe0140, [], 0x0, [⟨0, 5, .rw⟩, ⟨8, 4, .rw⟩, ⟨16, 16, .rw⟩, ⟨32, 16, .rw⟩]⟩,
  ⟨"PAR_MEMBERS", .compute, 0xe0148, [(0x8, 4)], 0x0, [⟨0, 12, .rw⟩, ⟨16, 12, .rw⟩, ⟨32, 12, .rw⟩, ⟨48, 12, .rw⟩]⟩,
  ⟨"PAR_STATUS", .compute, 0xe0168, [], 0x0, [⟨0, 1, .ro⟩, ⟨1, 1, .ro⟩, ⟨8, 56, .ro⟩]⟩,
  ⟨"LAYOUT_STATUS", .compute, 0xe0170, [], 0x0, [⟨0, 16, .ro⟩, ⟨16, 1, .ro⟩, ⟨17, 1, .ro⟩, ⟨18, 1, .ro⟩, ⟨24, 40, .ro⟩]⟩,
  ⟨"ERR_CFG", .compute, 0xc0000, [], 0x100000, [⟨0, 18, .rw⟩, ⟨18, 3, .rw⟩]⟩,
  ⟨"ERR_STATUS", .compute, 0xc0008, [], 0x0, [⟨0, 16, .ro⟩, ⟨16, 9, .ro⟩, ⟨32, 16, .rc⟩]⟩,
  ⟨"ERR_CNT", .compute, 0xc0010, [(0x8, 6)], 0x0, [⟨0, 48, .rc⟩]⟩,
  ⟨"AGATE_SENT_CFG", .compute, 0xc0040, [], 0x110d, [⟨0, 1, .rw⟩, ⟨1, 4, .rw⟩, ⟨8, 7, .rw⟩]⟩,
  ⟨"AGATE_SENT_CNT", .compute, 0xc0048, [], 0x0, [⟨0, 48, .rc⟩]⟩,
  ⟨"AGATE_SENT_MISS_CNT", .compute, 0xc0050, [], 0x0, [⟨0, 48, .rc⟩]⟩,
  ⟨"AGATE_SENT_SKIP_CNT", .compute, 0xc0058, [], 0x0, [⟨0, 48, .rc⟩]⟩,
  ⟨"AGATE_DIG_CFG", .compute, 0xc0060, [], 0x0, [⟨0, 8, .rw⟩, ⟨8, 5, .rw⟩, ⟨16, 4, .rw⟩, ⟨20, 16, .rw⟩]⟩,
  ⟨"AGATE_DIG_RANGES", .compute, 0xc0068, [], 0x0, [⟨0, 11, .rw⟩, ⟨12, 36, .rw⟩]⟩,
  ⟨"AGATE_DIG_OUT", .compute, 0xc0070, [], 0x0, [⟨12, 36, .rw⟩]⟩,
  ⟨"AGATE_DIG_GATH", .compute, 0xc0078, [], 0x0, [⟨12, 36, .rw⟩]⟩,
  ⟨"AGATE_DIG_KEY_LO", .compute, 0xc0080, [], 0x0, [⟨0, 64, .wo⟩]⟩,
  ⟨"AGATE_DIG_KEY_HI", .compute, 0xc0088, [], 0x0, [⟨0, 64, .wo⟩]⟩,
  ⟨"AGATE_DIG_VAL_LO", .compute, 0xc0090, [], 0x0, [⟨0, 64, .ro⟩]⟩,
  ⟨"AGATE_DIG_VAL_HI", .compute, 0xc0098, [], 0x0, [⟨0, 64, .ro⟩]⟩,
  ⟨"AGATE_DIG_STATUS", .compute, 0xc00a0, [], 0x0, [⟨0, 1, .ro⟩, ⟨1, 1, .ro⟩, ⟨2, 1, .ro⟩, ⟨4, 5, .ro⟩, ⟨16, 48, .ro⟩]⟩,
  ⟨"RETIRE_CFG", .compute, 0xc00a8, [], 0x304002, [⟨0, 4, .rw⟩, ⟨4, 16, .rw⟩, ⟨20, 4, .rw⟩]⟩,
  ⟨"RETIRE_PEND", .compute, 0xc00b0, [], 0x0, [⟨0, 18, .ro⟩]⟩,
  ⟨"D2D_DISC", .all, 0x40000, [], 0x7, [⟨0, 3, .ro⟩, ⟨3, 1, .ro⟩, ⟨4, 1, .ro⟩, ⟨8, 4, .ro⟩, ⟨12, 2, .ro⟩, ⟨16, 3, .ro⟩]⟩,
  ⟨"D2D_CTRL", .all, 0x40008, [], 0x0, [⟨0, 4, .wo⟩]⟩,
  ⟨"CLK_STATUS", .all, 0x40010, [], 0x0, [⟨0, 1, .ro⟩, ⟨1, 1, .ro⟩, ⟨2, 1, .ro⟩, ⟨3, 1, .ro⟩, ⟨4, 1, .ro⟩, ⟨5, 1, .ro⟩, ⟨6, 1, .ro⟩, ⟨7, 1, .ro⟩]⟩]

/-- Rows 150 to 174 of the register tables. -/
def regRows6 : List RegSpec := [
  ⟨"DIE_TIMEBASE", .all, 0x40018, [], 0x0, [⟨0, 64, .ro⟩]⟩,
  ⟨"D2D_ADMIT", .all, 0x40020, [], 0x0, [⟨0, 1, .ro⟩, ⟨1, 1, .ro⟩, ⟨2, 1, .ro⟩, ⟨4, 4, .ro⟩, ⟨8, 2, .ro⟩, ⟨12, 4, .ro⟩, ⟨16, 8, .ro⟩]⟩,
  ⟨"D2D_QREC", .all, 0x40040, [(0x8, 16)], 0x0, [⟨0, 64, .ro⟩]⟩,
  ⟨"D2D_EDGE_STATUS", .all, 0x40100, [(0x40, 3)], 0x0, [⟨0, 3, .ro⟩, ⟨3, 1, .ro⟩, ⟨4, 3, .ro⟩, ⟨7, 1, .ro⟩, ⟨8, 5, .ro⟩, ⟨16, 8, .ro⟩, ⟨24, 8, .ro⟩]⟩,
  ⟨"D2D_MODULES", .all, 0x40108, [(0x40, 3)], 0x0, [⟨0, 24, .ro⟩, ⟨24, 24, .ro⟩]⟩,
  ⟨"D2D_CRC_ERR_CNT", .all, 0x40110, [(0x40, 3)], 0x0, [⟨0, 48, .rc⟩]⟩,
  ⟨"D2D_MALFORMED_CNT", .all, 0x40118, [(0x40, 3)], 0x0, [⟨0, 48, .rc⟩]⟩,
  ⟨"D2D_REPLAY_CNT", .all, 0x40120, [(0x40, 3)], 0x0, [⟨0, 48, .rc⟩]⟩,
  ⟨"D2D_RETRAIN_CNT", .all, 0x40128, [(0x40, 3)], 0x0, [⟨0, 48, .rc⟩]⟩,
  ⟨"CMD_CFG", .common, 0x1000, [], 0xbac202580410, [⟨0, 8, .rw⟩, ⟨8, 4, .rw⟩, ⟨16, 16, .rw⟩, ⟨32, 16, .rw⟩]⟩,
  ⟨"CMD_STATUS", .common, 0x1008, [], 0x0, [⟨0, 5, .ro⟩, ⟨8, 7, .ro⟩, ⟨16, 3, .ro⟩]⟩,
  ⟨"CMD_DEPTH", .common, 0x1010, [], 0x0, [⟨0, 9, .ro⟩, ⟨16, 9, .ro⟩, ⟨32, 9, .ro⟩]⟩,
  ⟨"CMD_MALFORMED_CNT", .common, 0x1018, [], 0x0, [⟨0, 48, .rc⟩]⟩,
  ⟨"CMD_UNSUPPORTED_CNT", .common, 0x1020, [], 0x0, [⟨0, 48, .rc⟩]⟩,
  ⟨"CMD_DUPLICATE_CNT", .common, 0x1028, [], 0x0, [⟨0, 48, .rc⟩]⟩,
  ⟨"CMD_NOTAUTH_CNT", .common, 0x1030, [], 0x0, [⟨0, 48, .rc⟩]⟩,
  ⟨"CMD_EXHAUSTED_CNT", .common, 0x1038, [], 0x0, [⟨0, 48, .rc⟩]⟩,
  ⟨"CST_RETX_CNT", .common, 0x1040, [], 0x0, [⟨0, 48, .rc⟩]⟩,
  ⟨"CST_DROP_CNT", .common, 0x1048, [], 0x0, [⟨0, 48, .rc⟩]⟩,
  ⟨"CST_RST_CNT", .common, 0x1050, [], 0x0, [⟨0, 48, .rc⟩]⟩,
  ⟨"DIE_PUBKEY", .all, 0x100, [(0x8, 4)], 0x0, [⟨0, 64, .ro⟩]⟩,
  ⟨"DIE_SERIAL", .all, 0x120, [], 0x0, [⟨0, 64, .ro⟩]⟩,
  ⟨"BOOT_STATUS", .all, 0x128, [], 0x0, [⟨0, 3, .ro⟩, ⟨3, 1, .ro⟩, ⟨4, 4, .ro⟩, ⟨8, 4, .ro⟩, ⟨12, 1, .ro⟩, ⟨13, 1, .ro⟩, ⟨14, 1, .ro⟩]⟩,
  ⟨"FW_VERSION", .all, 0x130, [], 0x0, [⟨0, 32, .ro⟩, ⟨32, 16, .ro⟩, ⟨48, 7, .ro⟩, ⟨55, 1, .ro⟩]⟩,
  ⟨"FUSE_STATE", .all, 0x138, [], 0x0, [⟨0, 8, .ro⟩, ⟨8, 4, .ro⟩, ⟨12, 1, .ro⟩]⟩]

/-- Rows 175 to 199 of the register tables. -/
def regRows7 : List RegSpec := [
  ⟨"FW_MEAS", .all, 0x140, [(0x8, 8)], 0x0, [⟨0, 64, .ro⟩]⟩,
  ⟨"OPKEY_SEL", .common, 0x2000, [], 0x0, [⟨0, 3, .rw⟩]⟩,
  ⟨"OPKEY_CTL", .common, 0x2008, [], 0x0, [⟨0, 1, .wo⟩, ⟨1, 1, .wo⟩]⟩,
  ⟨"OPKEY_STATUS", .common, 0x2010, [], 0x0, [⟨0, 8, .ro⟩, ⟨8, 1, .ro⟩, ⟨9, 1, .ro⟩, ⟨12, 4, .ro⟩]⟩,
  ⟨"OPKEY_DATA", .common, 0x2018, [(0x8, 4)], 0x0, [⟨0, 64, .rw⟩]⟩,
  ⟨"FW_UPD_STATUS", .common, 0x2040, [], 0x0, [⟨0, 1, .ro⟩, ⟨1, 6, .ro⟩, ⟨7, 1, .ro⟩, ⟨8, 3, .ro⟩, ⟨11, 1, .ro⟩, ⟨12, 4, .ro⟩, ⟨16, 4, .ro⟩]⟩,
  ⟨"PWR_STATUS", .compute, 0x10000, [], 0x2d, [⟨0, 3, .ro⟩, ⟨3, 3, .ro⟩, ⟨6, 1, .ro⟩, ⟨8, 5, .ro⟩, ⟨13, 1, .ro⟩, ⟨14, 1, .ro⟩, ⟨15, 1, .ro⟩, ⟨16, 3, .ro⟩]⟩,
  ⟨"PWR_BUDGET_CFG", .compute, 0x10008, [], 0x3e80000000000, [⟨0, 12, .ro⟩, ⟨12, 12, .rw⟩, ⟨24, 3, .ro⟩, ⟨28, 12, .ro⟩, ⟨40, 16, .rw⟩]⟩,
  ⟨"PWR_MEAS", .compute, 0x10010, [], 0x0, [⟨0, 32, .ro⟩, ⟨32, 32, .ro⟩]⟩,
  ⟨"PWR_GOV", .compute, 0x10018, [], 0x0, [⟨0, 16, .ro⟩, ⟨16, 16, .ro⟩]⟩,
  ⟨"THERM_CFG", .compute, 0x10020, [], 0x6700620, [⟨0, 12, .rw⟩, ⟨16, 12, .rw⟩]⟩,
  ⟨"THERM_STATUS", .compute, 0x10028, [], 0x0, [⟨0, 12, .ro⟩, ⟨12, 6, .ro⟩, ⟨18, 1, .ro⟩, ⟨19, 1, .ro⟩, ⟨20, 1, .ro⟩]⟩,
  ⟨"PWR_STATE_CNT", .compute, 0x10030, [], 0x0, [⟨0, 48, .rc⟩]⟩,
  ⟨"PWR_GATE_CNT", .compute, 0x10038, [], 0x0, [⟨0, 48, .rc⟩]⟩,
  ⟨"BROWNOUT_CNT", .compute, 0x10040, [], 0x0, [⟨0, 48, .rc⟩]⟩,
  ⟨"THERM_THROTTLE_CNT", .compute, 0x10048, [], 0x0, [⟨0, 48, .rc⟩]⟩,
  ⟨"SVC_STATUS", .port, 0xa9000, [], 0x0, [⟨0, 3, .ro⟩, ⟨3, 2, .ro⟩, ⟨5, 1, .ro⟩, ⟨6, 1, .ro⟩, ⟨8, 12, .ro⟩, ⟨20, 1, .ro⟩, ⟨24, 7, .ro⟩]⟩,
  ⟨"SVC_MAC", .port, 0xa9008, [], 0x0, [⟨0, 48, .ro⟩]⟩,
  ⟨"SVC_CFG", .port, 0xa9010, [], 0x0, [⟨0, 1, .rw⟩]⟩,
  ⟨"SVC_FEC_CORR_CNT", .port, 0xa9018, [], 0x0, [⟨0, 48, .rc⟩]⟩,
  ⟨"SVC_FEC_UNCORR_CNT", .port, 0xa9020, [], 0x0, [⟨0, 48, .rc⟩]⟩,
  ⟨"SVC_RX_FRAMES_CNT", .port, 0xa9028, [], 0x0, [⟨0, 48, .rc⟩]⟩,
  ⟨"SVC_TX_FRAMES_CNT", .port, 0xa9030, [], 0x0, [⟨0, 48, .rc⟩]⟩,
  ⟨"SVC_RX_DROP_CNT", .port, 0xa9038, [], 0x0, [⟨0, 48, .rc⟩]⟩,
  ⟨"SVC_IP_DROP_CNT", .port, 0xa9040, [], 0x0, [⟨0, 48, .rc⟩]⟩]

/-- Every register of the spec. (DESIGN CHOICE, log entry 5.) -/
def regTable : List RegSpec :=
  regRows0 ++ regRows1 ++ regRows2 ++ regRows3 ++ regRows4 ++ regRows5 ++ regRows6 ++ regRows7

end Sys2Proof.Machine
end

