-- ==== Sys2Proof/Machine/State.lean ====
section
/-!
DEFINITION. The state of the package, as plain data, and its state right after reset.
-/

namespace Sys2Proof.Machine

/-- Why a step stops with a fault. No command of this block does: every event the spec describes has its effect, and an
event that cannot occur in a state leaves that state unchanged. -/
inductive Fault
  /-- Raised by no meaning; a step that answered it would stop safely. -/
  | unreachable
deriving DecidableEq, Repr

/-- Why a step is refused. -/
inductive Refusal
  /-- Raised by an arm of `exec` whose command has no meaning yet (safe: the model stops). -/
  | notModelled (mnemonic : String)
deriving DecidableEq, Repr

/-- An error record (Table 11.7) without its CRC, which is computed when the record is written out. -/
structure ErrRec where
  time : Nat
  seq : Nat
  cls : Nat
  locked : Bool
  die : Nat
  phase : Nat
  cause : Nat
  unit : Nat
  inst : Nat
  step : Nat
  pkg : Nat
  idValid : Bool
  dropped : Nat
  addr : Nat
  arg0 : Nat
  arg1 : Nat
  arg2 : Nat
deriving DecidableEq, Repr

/-- What the package sends out. (DESIGN CHOICE, log entry 21.) -/
inductive OutMsg
  /-- The answer to a stack memory read or write (R196): requester, local address, KIND of an error completion, data, and the metadata delivered. -/
  | memAnswer (q : Requester) (addr : Nat) (err : Option Nat) (data : GranBits) (gm : GranMeta)
  /-- A narrow write completes (R209): requester, local address of the granule, KIND of an error completion. -/
  | narrowDone (q : Requester) (addr : Nat) (err : Option Nat)
  /-- A flit leaves an Ewerlink port: the whole 270 B (R252), and the codeword slots that its bits fill (R250, R251). -/
  | ewFlit (port : Nat) (bits : BitVec 2160) (words : List LineWord)
  /-- A link control entry leaves an Ewerlink port, in the CTRL flit that follows (Table 8.3, R255, R271). -/
  | ewCtrl (port : Nat) (e : LinkEntry)
  /-- A package flit leaves an edge of a die on a module (R370). -/
  | pkgFlit (die edge module : Nat) (bits : BitVec 2048)
  /-- A NAK entry leaves an edge of a die: the expected SEQ (R374). -/
  | d2dNak (die edge seq : Nat)
  /-- Bytes are written to a flash device: device (false A, true B), offset, bytes (R427). -/
  | flashWrite (b : Bool) (offset : Nat) (data : List Byte)
  /-- A discovery message goes out on the sideband of a module of an edge of a die (R378, Table 12.7). -/
  | sideband (die edge module : Nat) (bits : BitVec 128)
  /-- VOUT_COMMAND to the VDD_CORE rail of a compute die, in mV (R452). -/
  | vout (die mv : Nat)
  /-- A frame leaves a service port, FCS apart (R483). -/
  | frame (port : Nat) (bytes : List Byte)
  /-- The answer to an SMBus transaction (Table 16.8). -/
  | smbus (data : List Byte)
  /-- What a die shifts out on JTAG at Capture-DR (R491). -/
  | jtag (die : Nat) (bits : List Bool)
  /-- The answer to a diagnostic or register read: requester, address, value; no value is an error completion (R48, R50). -/
  | readAnswer (addr : Nat) (v : Option Nat)
deriving DecidableEq, Repr

/-- The presence of a die: held in reset, or released and running; lost warm or cold until it rejoins (R391, R217). -/
inductive DieSt
  | held | up | lostWarm | lostCold
deriving DecidableEq, Repr

/-- State of one die beside its registers: presence; records that wait for the ring and how many were dropped; on a port die, records that wait
for a neighbour and how many were dropped; TAINTED records since the last boundary; physical core of each local logical core; whether fabric
time has been set, and what is left of a slew; physical cores that passed test, as a mask; why a marked core is to be retired (row of Table
11.6); and the steps at which retirement evidence was found (R360), by core × 8 + array 0 to 3, 4 for residue, 5 for uncorrectable reads; the
HELLO last received on each edge and edges found silent (R379); whether its flash answered and how many stacks it found; its certificate, and a port
die's qualification record (R381); QREC replies received; POSITION values received; ADMIT_RESULTs received by a port die (edge,
admitted, reason); the voltages the calibration table in force gives it and whether that table is valid (R444, R445); and the rate correction of
fabric time in parts in 10⁹, what it has gathered in 10⁻⁶ ns, and root time and timebase at the last entry (R271); the module whose sideband each edge
uses (R378); whether it has come back from a loss and traffic between other dies has not moved back onto its paths (R393); and on a port die the form that
SVC_CFG selected at its service port's last start (R485). -/
structure Die where
  st : DieSt
  recs : List ErrRec
  recDropped : Nat
  portRecs : List ErrRec
  portDropped : Nat
  taints : Nat
  coreMap : SMap (Option Nat)
  timed : Bool
  slew : Int
  good : Nat
  retireWhy : SMap Nat
  retHist : SMap (List Nat)
  hello : SMap (Option (BitVec 128))
  silent : List Nat
  xspi : Bool
  nstacks : Nat
  cert : List Byte
  record : List Byte
  qgot : List Nat
  claims : List Nat
  verdicts : List (Nat × Bool × Nat)
  cal : List Byte
  rate : Int
  frac : Int
  syncAt : Option (Nat × Nat)
  side : SMap Nat
  back : Bool
  svcMode : Nat
deriving DecidableEq, Repr

/-- A die held in reset. -/
def Die.reset : Die := ⟨.held, [], 0, [], 0, 0, [], false, 0, 0, [], [], [], [], false, 0, [], [], [], [], [], [], 0, 0, none, [], false, 0⟩

/-- The package. `regs` holds every configuration register by die × 2^24 + offset (die 6 is package-common configuration); `cores` by physical
core (die × 18 + PC); `dies` by die number; `arrivals` holds token increments on their way to a core (logical core, token; R65); `funcs` the
state of each function by its ID (Tables 0.10 and 13.11); `beryls` and `qes` by die; `doorbells` watch fires on their way to a queue; `syAcks`
answers on their way back to an SY engine; `fences` the SY.FENCEs not yet acknowledged (flow, logical core, stream); `flows` by queue number;
`resp` by die, the transfers a fabric interface answers with; `routes` by die (6: none) × 2^14 + plane × 2^12 + destination; `planes` by queue
number; `defFlows` by logical core × 2^12 + package; `msgs` the messages between dies that have not arrived; `ports` the Ewerlink ports; `edges`
by die × 4 + edge; `fiIn` the transfers that have reached a die's fabric interface and await their action, `tracks` its flow tracking table;
`collSent` by die × 4096 + descriptor the transfers of collective descriptors not yet reported retired; `ces` by die the collective descriptors
in progress, oldest first; `landHeads` by queue number the headers of landed transfers with the ring entry each began at; `rtts` the measured
round trip of each port's link in ns, `xbars` the outputs at which transfers compete, by (die × 8 + output) × 4 + class, `cfgOuts` the CFG
accesses not yet answered (port die, tag, local address), `timeKids` the ports whose partner takes its time from this package; `bounds` the
boundary messages that have arrived; `wins` the capture windows by die (verdict) and 4 + die (post-verdict); `upds` by die; `ctl` and `flash` the
lead die's cluster and the flash devices; `pwr` power and thermal; `smb` SMBus LAST_STATUS, `smbAddr` SMB_ADDR[1:0] as sampled (R478), and `taps`
the JTAG port by die; `reads` the READs outstanding and `tags` the next tag; `out` is what has been sent, oldest first; `freeIx` counts the free
values drawn; `pending` is the queue of commands. -/
structure State where
  regs : SMap (BitVec 64)
  mem : MemState
  cores : SMap Core
  dies : SMap Die
  arrivals : List (Nat × Nat)
  funcs : SMap Nat
  beryls : SMap Beryl
  qes : SMap QEngine
  doorbells : List Nat
  syAcks : List SyAck
  fences : List (Nat × Nat × Stream)
  flows : SMap Flow
  resp : SMap (List Xfer)
  routes : SMap (BitVec 16)
  planes : SMap Nat
  defFlows : SMap (Option Nat)
  msgs : List DieMsg
  ports : SMap Port
  edges : SMap Edge
  fiIn : SMap (List Xfer)
  tracks : SMap (List Track)
  collSent : SMap Nat
  ces : SMap (List CRun)
  landHeads : SMap (List (Nat × XHead))
  rtts : SMap Nat
  xbars : SMap XOut
  cfgOuts : List (Nat × Nat × Nat)
  timeKids : List Nat
  bounds : List BMsg
  wins : SMap Win
  upds : SMap Upd
  ctl : Ctl
  flash : Flash
  pwr : Pwr
  smb : Nat
  smbAddr : Nat
  taps : SMap Tap
  reads : List ReadOut
  tags : Nat
  job : Job
  alert : Bool
  pkgFatal : Bool
  out : List OutMsg
  freeIx : Nat
  pending : List Instr
deriving DecidableEq, Repr

/-- The package right after reset: every register at its reset value, nothing in memory, every die just held in reset.
(DESIGN CHOICE, log entries 4 and 5 and 6.) -/
def State.reset : State :=
  { regs := [], mem := .reset, cores := [], dies := [], arrivals := [], funcs := [], beryls := [],
    qes := [], doorbells := [], syAcks := [], fences := [], flows := [], resp := [], routes := [], planes := [], defFlows := [], msgs := [], ports := [], edges := [], fiIn := [], tracks := [], collSent := [], ces := [], landHeads := [], rtts := [], xbars := [], cfgOuts := [], timeKids := [], bounds := [], wins := [], upds := [], ctl := .reset, flash := .reset, pwr := .reset, smb := 0, smbAddr := 0, taps := [], reads := [], tags := 0, job := .none, alert := false, pkgFatal := false, out := [],
    freeIx := 0, pending := [] }

end Sys2Proof.Machine
end

