-- ==== Sys2Proof/Machine/Base.lean ====
section
/-!
DEFINITION. The shared operations over registers, dies, cores and functions, on which every other file rests.
-/

namespace Sys2Proof.Machine

/-! ### Registers -/

/-- The key of a register: die (6 is package-common) and offset. -/
def regKey (d off : Nat) : Nat := d * 0x1000000 + off

/-- Does offset `x` from a register's first instance name one of its instances? -/
def inDims : Nat → List (Nat × Nat) → Bool
  | x, [] => x == 0
  | x, (st, n) :: r => decide (x / st < n) && inDims (x % st) r

/-- Is a register with this site present on die `d`? Dies 0 to 3 are compute dies, 4 and 5 port dies, 6 package-common
configuration (R49, Table 1.17). -/
def Site.on (s : Site) (d : Nat) : Bool :=
  match s with
  | .all => decide (d < 6)
  | .compute => decide (d < 4)
  | .port => decide (d = 4 ∨ d = 5)
  | .common => decide (d = 6)

/-- The register table row of an offset on a die, if the spec has one there. -/
def regSpecOf (d off : Nat) : Option RegSpec :=
  regTable.find? (fun r => r.site.on d && decide (r.off ≤ off) && inDims (off - r.off) r.dims)

/-- What a register reads after reset (R14, R497); zero where the spec has no register. (DESIGN CHOICE, log entry 5.) -/
def regReset (k : Nat) : BitVec 64 :=
  match regSpecOf (k / 0x1000000) (k % 0x1000000) with
  | some r => r.reset
  | none => 0

/-- A value of a register with every bit outside its fields zero (R9), and without the fields that `p` leaves out. -/
def RegSpec.keep (r : RegSpec) (p : FieldSpec → Bool) (v : BitVec 64) : BitVec 64 :=
  r.fields.foldl (fun (x : BitVec 64) f => if p f then putFld x f.lo f.width (fld v f.lo f.width) else x) 0

/-- A value as a register of a die can hold it: reserved bits read as zero (R9). -/
def regValue (d off : Nat) (v : BitVec 64) : BitVec 64 :=
  match regSpecOf d off with
  | some r => r.keep (fun _ => true) v
  | none => 0

/-- What a register holds once a schedule image has set it to `v` from `old`: its RW fields (R497), ERR_CFG.ALERT_MIN apart, which only
CONFIG_WRITE, SMBus and JTAG write. (DESIGN CHOICE, log entry 13.) -/
def imageValue (d off : Nat) (old v : BitVec 64) : BitVec 64 :=
  match regSpecOf d off with
  | some r => r.fields.foldl (fun (x : BitVec 64) f =>
      if f.acc = .rw && !(r.off == fErrCfgAlertMin.off && f.lo == fErrCfgAlertMin.lo) then putFld x f.lo f.width (fld v f.lo f.width) else x) old
  | none => old

/-- The stored value of a register. -/
def State.reg (s : State) (d off : Nat) : BitVec 64 := mapGet regReset s.regs (regKey d off)

/-- Store a register. -/
def State.setReg (s : State) (d off : Nat) (v : BitVec 64) : State := { s with regs := mapSet regReset s.regs (regKey d off) v }

/-- The same field of an instance `k` bytes further on. -/
def Fld.at (f : Fld) (k : Nat) : Fld := { f with off := f.off + k }

/-- A field of a register of die `d`. -/
def State.getF (s : State) (d : Nat) (f : Fld) : Nat := fld (s.reg d f.off) f.lo f.width

/-- Write a field of a register of die `d`. -/
def State.setF (s : State) (d : Nat) (f : Fld) (v : Nat) : State := s.setReg d f.off (putFld (s.reg d f.off) f.lo f.width v)

/-- Add to a counting field, which saturates at its largest value. -/
def State.bump (s : State) (d : Nat) (f : Fld) (k : Nat) : State := s.setF d f (satAdd (2 ^ f.width - 1) (s.getF d f) k)

/-- A flag field of a register. -/
def State.flag (s : State) (d : Nat) (f : Fld) : Bool := s.getF d f == 1

/-- The number of the package-common configuration space. -/
def common : Nat := 6

/-! ### Dies and cores -/

/-- State of die `d`. -/
def State.die (s : State) (d : Nat) : Die := mapGet (fun _ => Die.reset) s.dies d

/-- Replace the state of die `d`. -/
def State.setDie (s : State) (d : Nat) (v : Die) : State := { s with dies := mapSet (fun _ => Die.reset) s.dies d v }

/-- Change the state of die `d`. -/
def State.modDie (s : State) (d : Nat) (f : Die → Die) : State := s.setDie d (f (s.die d))

/-- Is die `d` released from reset and running? -/
def State.dieUp (s : State) (d : Nat) : Bool := (s.die d).st == .up

/-- Physical core `pc` (die × 18 + PC). -/
def State.core (s : State) (pc : Nat) : Core := mapGet (fun _ => Core.reset) s.cores pc

/-- Replace a physical core. -/
def State.setCore (s : State) (pc : Nat) (c : Core) : State := { s with cores := mapSet (fun _ => Core.reset) s.cores pc c }

/-- Change a physical core. -/
def State.modCore (s : State) (pc : Nat) (f : Core → Core) : State := s.setCore pc (f (s.core pc))

/-- The physical core that holds logical core `lc` (R40, R41), if the package presents it (R42). -/
def State.physOf (s : State) (lc : Nat) : Option Nat :=
  if s.dieUp (lc / 16) then
    (mapGet (fun _ => none) (s.die (lc / 16)).coreMap (lc % 16)).map (fun p => 18 * (lc / 16) + p)
  else none

/-- The logical core that a physical core holds, if any. -/
def State.logicalOf (s : State) (pc : Nat) : Option Nat :=
  (span 0 16).find? (fun i => mapGet (fun _ => none) (s.die (pc / 18)).coreMap i == some (pc % 18)) |>.map (fun i => 16 * (pc / 18) + i)

/-- The die of a physical core. -/
def pcDie (pc : Nat) : Nat := pc / 18

/-- A field of the core block of a physical core (R49). -/
def coreF (pc : Nat) (f : Fld) : Fld := f.at ((pc % 18) * 0x10000)

/-- A core register field. -/
def State.coreGet (s : State) (pc : Nat) (f : Fld) : Nat := s.getF (pcDie pc) (coreF pc f)

/-- Write a core register field. -/
def State.coreSet (s : State) (pc : Nat) (f : Fld) (v : Nat) : State := s.setF (pcDie pc) (coreF pc f) v

/-- Count in a core register field. -/
def State.coreBump (s : State) (pc : Nat) (f : Fld) (k : Nat) : State := if k = 0 then s else s.bump (pcDie pc) (coreF pc f) k

/-- Does a stream hold dispatch, that is, is it RUNNING or WAITING? -/
def StreamSt.live : StreamSt → Bool
  | .running => true
  | .waiting => true
  | _ => false

/-- Is any stream of any core of the package RUNNING or WAITING? -/
def State.anyLive (s : State) : Bool := s.cores.any (fun e => e.2.crit.st.live || e.2.defr.st.live)

/-- The package's ID and membership (Table 1.15). -/
def State.pkgId (s : State) : Nat := s.getF common fPkgIdId

/-- Is the package a member of a domain? -/
def State.idValid (s : State) : Bool := s.flag common fPkgIdIdValid

/-- Send a message. (DESIGN CHOICE, log entry 21.) -/
def State.send (s : State) (m : OutMsg) : State := { s with out := s.out ++ [m] }

/-- Draw a fresh index for a free value. (DESIGN CHOICE, log entry 11.) -/
def State.draw (s : State) : Nat × State := (s.freeIx, { s with freeIx := s.freeIx + 1 })

/-- The lead die: the compute die whose DIE_INFO.LEAD is set (R39, Table 1.9); C0 before discovery. -/
def State.lead (s : State) : Nat := ((span 0 4).find? (fun d => s.flag d fDieInfoLead)).getD 0

/-! ### Functions -/

/-- A function ID (Table 13.11). -/
def funcId (kind die inst : Nat) : Nat := kind * 4096 + die * 256 + inst

/-- The state of a function (Table 0.10): 0 OFF, 1 STARTING, 2 READY, 3 DEGRADED, 4 STOPPING, 5 FAILED. -/
def State.func (s : State) (id : Nat) : Nat := mapGet (fun _ => 0) s.funcs id

/-- Set the state of a function. -/
def State.setFunc (s : State) (id v : Nat) : State := { s with funcs := mapSet (fun _ => 0) s.funcs id v }

/-- Is a function READY or DEGRADED? -/
def State.funcUp (s : State) (id : Nat) : Bool := s.func id == 2 || s.func id == 3

/-- The function of stack `k` (0 to 11). -/
def stackFunc (k : Nat) : Nat := funcId 0 (k / 3) (k % 3)

/-- Compute dies that run. -/
def State.upCompute (s : State) : List Nat := (span 0 4).filter s.dieUp

/-- Show whether the idle CPLL of every running compute die is locked (R386, R388). -/
def State.showIdle (s : State) (v : Nat) : State :=
  s.upCompute.foldl (fun (s : State) d => s.setF d (if s.getF d fClkStatusCpllSel = 0 then fClkStatusCpllB else fClkStatusCpllA) v) s

end Sys2Proof.Machine
end

