-- ==== Sys2Proof/Machine/Net.lean ====
section
/-!
DEFINITION. Frames of the service ports (R483, R484): addresses, checksums, and what goes out over Ethernet, IPv6, IPv4 and UDP.
-/

namespace Sys2Proof.Machine

/-- Bytes of a number, the most significant first, the order of network headers (R8). -/
def beBytes (v n : Nat) : List Byte := (leBytes v n).reverse

/-- The 16-bit one's complement sum of bytes; an odd last byte is the upper half of its word. -/
def onesSum (bs : List Byte) : Nat :=
  let n := (span 0 (ceilDiv bs.length 2)).foldl (fun (a : Nat) i => a + (beAt (bs ++ [0]) (2 * i) 2)) 0
  let n := n % 65536 + n / 65536
  n % 65536 + n / 65536

/-- The Internet checksum of bytes. -/
def inetSum (bs : List Byte) : Nat := 65535 - onesSum bs

/-- MAC address of service port `p` (R484). -/
def State.mac (s : State) (p : Nat) : Nat := s.getF (4 + p) fSvcMacMac

/-- The IPv6 link-local address of a MAC (R484): fe80::/64 with the modified EUI-64. -/
def linkLocal (mac : Nat) : Nat := 0xFE80 * 2 ^ 112 + (mac / 2 ^ 24 ^^^ 0x020000) * 2 ^ 40 + 0xFFFE * 2 ^ 24 + mac % 2 ^ 24

/-- Network settings of a service port; none of SET_NETWORK's after a reset. -/
def State.netOf (s : State) (p : Nat) : NetCfg := mapGet (fun _ => NetCfg.mk 0 0 0 0 0 0 none) s.ctl.net p

/-- Is an IPv6 address one of a port's? -/
def State.ownIp6 (s : State) (p ip : Nat) : Bool := ip == linkLocal (s.mac p) || (ip != 0 && ip == (s.netOf p).ip6)

/-- Send an Ethernet frame, tagged with the port's VLAN when one is set, padded to the shortest frame, FCS apart; nothing leaves a port without a
link. (DEDUCED, log entry 59.) -/
def State.ethOut (s : State) (p dst etype : Nat) (payload : List Byte) : State :=
  let d := 4 + p
  let vlan := (s.netOf p).vlan
  let b := beBytes dst 6 ++ beBytes (s.mac p) 6 ++ (if vlan = 0 then [] else beBytes 0x8100 2 ++ beBytes vlan 2) ++ beBytes etype 2 ++ payload
  if s.flag d fSvcStatusLink then (s.bump d fSvcTxFramesCntCount 1).send (.frame p (b ++ List.replicate (60 - b.length) 0)) else s

/-- The pseudo header of IPv6. -/
def pseudo6 (src dst n next : Nat) : List Byte := beBytes src 16 ++ beBytes dst 16 ++ beBytes n 4 ++ beBytes next 4

/-- The pseudo header of IPv4. -/
def pseudo4 (src dst n proto : Nat) : List Byte := beBytes src 4 ++ beBytes dst 4 ++ beBytes proto 2 ++ beBytes n 2

/-- Send an IPv6 packet with hop limit 64 (Table 16.5). -/
def State.ip6Out (s : State) (p mac src dst next : Nat) (payload : List Byte) : State :=
  s.ethOut p mac 0x86DD (beBytes 0x60000000 4 ++ beBytes payload.length 2 ++ beBytes next 1 ++ beBytes 64 1 ++ beBytes src 16 ++ beBytes dst 16 ++ payload)

/-- Send an ICMPv6 message. (DEDUCED, log entry 59.) -/
def State.icmp6Out (s : State) (p mac src dst typ : Nat) (rest : List Byte) : State :=
  let m (sum : Nat) : List Byte := beBytes typ 1 ++ beBytes 0 1 ++ beBytes sum 2 ++ rest
  s.ip6Out p mac src dst 58 (m (inetSum (pseudo6 src dst (m 0).length 58 ++ m 0)))

/-- An ARP message (Table 16.5). -/
def State.arpOut (s : State) (p dmac op tmac tip : Nat) : State :=
  s.ethOut p dmac 0x0806 (beBytes 1 2 ++ beBytes 0x0800 2 ++ beBytes 6 1 ++ beBytes 4 1 ++ beBytes op 2 ++ beBytes (s.mac p) 6 ++ beBytes (s.netOf p).ip4 4
    ++ beBytes tmac 6 ++ beBytes tip 4)

/-- The link-layer address that an IPv4 packet goes to (R484): its destination's, known from the frame it sent, on the configured subnet, and the gateway's
otherwise. (DEDUCED, log entry 59.) -/
def State.hop4 (s : State) (p dst mac : Nat) : Option Nat :=
  let n := s.netOf p
  if dst &&& n.mask4 = n.ip4 &&& n.mask4 then some mac else n.gwMac

/-- Send an IPv4 packet with DF set and TTL 64; while the gateway's address is not known, an ARP request for it goes out instead. -/
def State.ip4Out (s : State) (p mac src dst proto : Nat) (payload : List Byte) : State :=
  let h (sum : Nat) : List Byte := beBytes 0x4500 2 ++ beBytes (20 + payload.length) 2 ++ beBytes 0 2 ++ beBytes 0x4000 2 ++ beBytes 64 1 ++ beBytes proto 1 ++ beBytes sum 2
    ++ beBytes src 4 ++ beBytes dst 4
  match s.hop4 p dst mac with
  | some m => s.ethOut p m 0x0800 (h (inetSum (h 0)) ++ payload)
  | none => s.arpOut p (2 ^ 48 - 1) 1 0 (s.netOf p).gw4

/-- Send bytes to a remote end over UDP (R419). -/
def State.udpOut (s : State) (e : NetEnd) (bs : List Byte) : State :=
  let n := 8 + bs.length
  let u (sum : Nat) : List Byte := beBytes e.lport 2 ++ beBytes e.udp 2 ++ beBytes n 2 ++ beBytes sum 2 ++ bs
  let sum := inetSum ((if e.v6 then pseudo6 e.lip e.ip n 17 else pseudo4 e.lip e.ip n 17) ++ u 0)
  let d := u (if sum = 0 then 65535 else sum)
  if e.v6 then s.ip6Out e.port e.mac e.lip e.ip 17 d else s.ip4Out e.port e.mac e.lip e.ip 17 d

end Sys2Proof.Machine
end

