-- ==== Sys2Proof/Machine/Cst.lean ====
section
/-!
DEFINITION. Ceska Service Transport below the rows that use it (R419 to R421, R423): segments as bytes, connections, windows, and closing.
-/

namespace Sys2Proof.Machine

/-! ### Segments -/

/-- Modulus of packet sequence numbers. -/
def psnMod : Nat := 2 ^ 32

/-- How far PSN `a` lies beyond PSN `b`. -/
def psnDist (a b : Nat) : Nat := (a + psnMod - b % psnMod) % psnMod

/-- Is PSN `a` before `b`, on the shorter way round? -/
def psnLt (a b : Nat) : Bool := decide (0 < psnDist b a ∧ psnDist b a < 2 ^ 31)

/-- What a segment's bytes are (Table 13.12, Table 13.14). -/
inductive SegRead
  | dropped
  | malformed (conn : Nat)
  | seg (s : Seg)
deriving DecidableEq, Repr

/-- Does a TYPE carry data? -/
def segHasData (typ : Nat) : Bool := typ == 2 || typ == 3 || typ == 5

/-- Is the data of a segment right for its TYPE (Table 13.13)? -/
def segDataOk (typ : Nat) (data : List Byte) : Bool :=
  match typ with
  | 2 => decide (data.length ≤ 8192)
  | 3 => decide (data.length ≥ 4) && leAt data 2 2 == 0 && decide (leAt data 0 2 ≤ 64) && data.length == 4 + 8 * leAt data 0 2
  | 5 => data.length == 2
  | _ => data.isEmpty

/-- Read a segment (Table 13.12): dropped without a right CRC, MAGIC or VERSION; malformed with a reserved TYPE or field or a wrong
DLEN. -/
def readSeg (bs : List Byte) : SegRead :=
  let n := bs.length
  if n < 36 ∨ leAt bs 0 2 ≠ 0x5443 ∨ leAt bs 2 1 ≠ 1 ∨ (crc32c (bs.take (n - 4))).toNat ≠ leAt bs (n - 4) 4 then .dropped
  else
    let s : Seg := ⟨leAt bs 3 1, leAt bs 4 4, leAt bs 8 1, leAt bs 9 1, leAt bs 12 4, leAt bs 16 4, leAt bs 20 4, leAt bs 24 8, (bs.drop 32).take (n - 36)⟩
    if s.typ > 7 ∨ s.flags > 3 ∨ leAt bs 10 2 ≠ n - 36 ∨ (s.typ ≠ 0 ∧ s.kind ≠ 0) ∨ s.kind > 3 ∨ (s.typ = 0 ∧ s.conn ≠ 0)
        ∨ segDataOk s.typ s.data = false then .malformed s.conn
    else .seg s

/-- A segment as bytes (Table 13.12). -/
def Seg.bytes (s : Seg) : List Byte :=
  let b := leBytes 0x5443 2 ++ [1] ++ leBytes s.typ 1 ++ leBytes s.conn 4 ++ leBytes s.kind 1 ++ leBytes s.flags 1 ++ leBytes s.data.length 2
    ++ leBytes s.psn 4 ++ leBytes s.ack 4 ++ leBytes s.window 4 ++ leBytes s.offset 8 ++ s.data
  b ++ leBytes (crc32c b).toNat 4

/-! ### Connections -/

/-- A connection. -/
def State.conn (s : State) (id : Nat) : Option Conn := s.ctl.conns.find? (fun c => c.id == id)

/-- Change the cluster's state. -/
def State.modCtl (s : State) (f : Ctl → Ctl) : State := { s with ctl := f s.ctl }

/-- Show the numbers of sessions and connections in CMD_STATUS. -/
def State.showCtl (s : State) : State :=
  ((s.setF common fCmdStatusConns s.ctl.conns.length).setF common fCmdStatusSessions s.ctl.sessions.length)

/-- Replace a connection. -/
def State.setConn (s : State) (c : Conn) : State := s.modCtl (fun x => { x with conns := x.conns.map (fun (y : Conn) => if y.id = c.id then c else y) })

/-- DATA segments the package accepts beyond ACK (R421). (DEDUCED, log entry 58.) -/
def Conn.offer (c : Conn) : Nat := if c.kind = 2 then 16384 else 64

/-- Send a segment of a connection, with ACK and WINDOW filled in. -/
def State.segOut (s : State) (c : Conn) (g : Seg) : State :=
  let g : Seg := { g with conn := c.id, ack := c.rxNext, window := c.offer }
  s.udpOut c.peer g.bytes

/-- Send a segment that takes no PSN. -/
def State.segPlain (s : State) (c : Conn) (typ : Nat) (data : List Byte) : State := s.segOut c ⟨typ, c.id, 0, 0, c.txNext, 0, 0, 0, data⟩

/-- Ranges of PSNs received beyond ACK, at most 64 (Table 13.13). -/
def sackRanges : List Nat → List (Nat × Nat)
  | [] => []
  | p :: r =>
    match sackRanges r with
    | (a, b) :: t => if a = (p + 1) % psnMod then (p, b) :: t else (p, p) :: (a, b) :: t
    | [] => [(p, p)]

/-- The SACK list of a connection. -/
def Conn.sack (c : Conn) : List Byte :=
  let rs := (sackRanges (c.rxHeld.map Seg.psn)).take 64
  leBytes rs.length 2 ++ leBytes 0 2 ++ rs.flatMap (fun r => leBytes r.1 4 ++ leBytes r.2 4)

/-- Send ACK (R421). -/
def State.sendAck (s : State) (c : Conn) : State :=
  (s.setConn { c with owed := 0 }).segPlain c 3 c.sack

/-- RST to a remote end, for a connection or an unknown one. -/
def State.rstTo (s : State) (to_ : NetEnd) (id reason : Nat) : State :=
  (s.bump common fCstRstCntCount 1).udpOut to_ (Seg.mk 5 id 0 0 0 0 0 0 (leBytes reason 2)).bytes

/-- A connection is gone: it is forgotten, with what was to be sent on it. -/
def State.dropConn (s : State) (id : Nat) : State :=
  (s.modCtl (fun x => { x with
    conns := x.conns.filter (fun c => c.id != id), s0 := mapErase x.s0 id
    segsIn := x.segsIn.filter (fun g => g.2.conn != id) })).showCtl

/-- Reset a connection with a reason (Table 13.13). -/
def State.resetConn (s : State) (c : Conn) (reason : Nat) : State := (s.rstTo c.peer c.id reason).dropConn c.id

/-- Send what the windows allow from a connection's waiting segments (R421). -/
def State.pumpConn (id : Nat) : Nat → State → State
  | 0, s => s
  | n + 1, s =>
    match s.conn id with
    | none => s
    | some c =>
      match c.queue with
      | [] => s
      | g :: r =>
        if c.opened && decide (c.flight.length < min (min c.cwnd c.peerWin) 16384) then
          let g' := { g with psn := c.txNext }
          let c' := { c with queue := r, txNext := (c.txNext + 1) % psnMod, flight := c.flight ++ [g'] }
          State.pumpConn id n ((s.setConn c').segOut c' g')
        else s

/-- Add segments to a connection and send what may go. -/
def State.queueSegs (s : State) (id : Nat) (l : List Seg) : State :=
  match s.conn id with
  | none => s
  | some c => State.pumpConn id (c.queue.length + l.length) (s.setConn { c with queue := c.queue ++ l })

/-- A message as DATA segments (R420): consecutive, MSG_END on the last. -/
def msgSegs (bs : List Byte) : List Seg :=
  let n := max 1 (ceilDiv bs.length 8192)
  (span 0 n).map (fun i => ⟨2, 0, 0, if i + 1 = n then 1 else 0, 0, 0, 0, 8192 * i, (bs.drop (8192 * i)).take 8192⟩)

/-- Send a message on a connection; nothing where it is closed. -/
def State.sendMsg (s : State) (id : Nat) (bs : List Byte) : State := s.queueSegs id (msgSegs bs)

/-- Segments in flight have been acknowledged, by ACK or in a SACK range, and `left` are still in flight: the send window grows by one segment for each
window acknowledged (R421). -/
def Conn.acked (c : Conn) (left : List Seg) : Conn :=
  let grown := c.grown + (c.flight.length - left.length)
  if grown ≥ c.cwnd then { c with flight := left, cwnd := min 16384 (c.cwnd + 1), grown := grown - c.cwnd } else { c with flight := left, grown := grown }

/-- Take ACK and WINDOW of a segment (R421): acknowledged segments leave flight, the send window grows by one for each window
acknowledged, and what may now go is sent. A segment that acknowledges the SYN_ACK opens the connection (R420). -/
def State.takeAck (s : State) (id ack window : Nat) : State :=
  match s.conn id with
  | none => s
  | some c =>
    let left := c.flight.filter (fun g => !psnLt g.psn ack)
    let c' : Conn := { c.acked left with
      opened := c.opened || psnLt c.myPsn ack, peerWin := window
      expiries := if left.length = c.flight.length then c.expiries else 0, fast := c.fast.filter (fun p => !psnLt p ack) }
    State.pumpConn id c.queue.length (s.setConn c')

/-- Send a segment in flight again: counted, and the send window halves (R421). -/
def State.resendSeg (s : State) (c : Conn) (g : Seg) : State :=
  let c' := { c with cwnd := max 1 (c.cwnd / 2), grown := 0 }
  ((s.setConn c').bump common fCstRetxCntCount 1).segOut c' g

/-- A segment arrives from a remote end (R419, R420, Table 13.14): dropped, answered with RST, or kept for its row. (DEDUCED, log entry 58.) -/
def State.segArrive (s : State) (from_ : NetEnd) (bs : List Byte) : State :=
  match readSeg bs with
  | .dropped => s.bump common fCstDropCntCount 1
  | .malformed id => match s.conn id with
    | some c => if c.peer.same from_ then s.resetConn { c with peer := from_ } 1 else s
    | none => s.rstTo from_ id 1
  | .seg g =>
    if g.typ = 0 then s.modCtl (fun x => { x with segsIn := x.segsIn ++ [(from_, g)] })
    else match s.conn g.conn with
      | none => if g.typ = 5 then s else s.rstTo from_ g.conn 2
      | some c => if c.peer.same from_ then (s.setConn { c with peer := from_ }).modCtl (fun x => { x with segsIn := x.segsIn ++ [(from_, g)] }) else s

/-- The first arrived segment of a TYPE with none of its connection before it, and the segments without it. -/
def takeSeg (typ : Nat) : List Nat → List (NetEnd × Seg) → Option ((NetEnd × Seg) × List (NetEnd × Seg))
  | _, [] => none
  | seen, x :: r =>
    if x.2.typ = typ ∧ !seen.contains x.2.conn then some (x, r)
    else (takeSeg typ (x.2.conn :: seen) r).map (fun y => (y.1, x :: y.2))

/-- Take the next segment of a TYPE whose connection is known; its ACK and WINDOW are taken first. -/
def State.withSeg (s : State) (typ : Nat) (k : Conn → Seg → State → State) : State :=
  match takeSeg typ [] s.ctl.segsIn with
  | none => s
  | some ((_, g), r) =>
    let s := (s.modCtl (fun x => { x with segsIn := r })).takeAck g.conn g.ack g.window
    match s.conn g.conn with
    | none => s
    | some c => k c g s

end Sys2Proof.Machine
end

