-- ==== Sys2Proof/Machine/Cmd.lean ====
section
/-!
DEFINITION. Command packets (R396 to R407, R413): headers, the order of checks, replies and their cache, and taking a command from its class
queue.
-/

namespace Sys2Proof.Machine

/-! ### Headers -/

/-- FLAGS of a packet. -/
def Cmd.flags (c : Cmd) : Nat := leAt c.head 5 1
/-- OPCODE. -/
def Cmd.opcode (c : Cmd) : Nat := leAt c.head 6 2
/-- SESSION. -/
def Cmd.session (c : Cmd) : Nat := leAt c.head 8 4
/-- SEQUENCE. -/
def Cmd.seq (c : Cmd) : Nat := leAt c.head 12 8
/-- SIGNED. -/
def Cmd.signed (c : Cmd) : Bool := natBits c.flags 1 1 == 1
/-- CONFIRM. -/
def Cmd.confirm (c : Cmd) : Bool := natBits c.flags 3 1 == 1
/-- The payload without the signature trailer (R405). -/
def Cmd.body (c : Cmd) : List Byte := if c.signed then c.payload.take (c.payload.length - 64) else c.payload

/-- A row of Table 13.7: opcode, auth (0, 1 for S, 2 for C), class, and the payload lengths it takes, trailer apart. -/
structure OpRow where
  code : Nat
  auth : Nat
  cls : Nat
  len : Nat
deriving DecidableEq, Repr

/-- Table 13.7; a length of 65535 stands for MEM_WRITE's own rule. -/
def opRows : List OpRow :=
  [⟨0x0101, 0, 2, 0⟩, ⟨0x0102, 0, 2, 0⟩, ⟨0x0103, 0, 2, 32⟩, ⟨0x0104, 0, 2, 0⟩, ⟨0x0201, 0, 2, 0⟩, ⟨0x0202, 0, 1, 72⟩, ⟨0x0203, 1, 1, 0⟩,
   ⟨0x0204, 0, 2, 0⟩, ⟨0x0301, 0, 2, 10⟩, ⟨0x0302, 1, 1, 24⟩, ⟨0x0303, 1, 1, 34⟩, ⟨0x0304, 1, 1, 8⟩, ⟨0x0401, 1, 1, 12⟩, ⟨0x0402, 1, 1, 72⟩,
   ⟨0x0403, 1, 0, 9⟩, ⟨0x0404, 0, 2, 0⟩, ⟨0x0405, 1, 1, 12⟩, ⟨0x0406, 1, 1, 8⟩] ++
  [⟨0x0501, 1, 1, 32⟩, ⟨0x0502, 1, 1, 4⟩, ⟨0x0503, 1, 2, 12⟩, ⟨0x0504, 1, 1, 65535⟩, ⟨0x0505, 1, 1, 6⟩, ⟨0x0506, 1, 1, 8⟩, ⟨0x0601, 1, 0, 4⟩,
   ⟨0x0602, 0, 2, 0⟩, ⟨0x0603, 1, 0, 8⟩, ⟨0x0701, 0, 2, 10⟩, ⟨0x0702, 1, 1, 6⟩, ⟨0x0703, 1, 2, 8⟩, ⟨0x0704, 0, 2, 1⟩, ⟨0x0705, 1, 1, 2⟩,
   ⟨0x0801, 1, 1, 12⟩, ⟨0x0802, 1, 1, 1⟩, ⟨0x0803, 0, 2, 8⟩, ⟨0x0804, 2, 1, 12⟩] ++
  [⟨0x0901, 1, 1, 2⟩, ⟨0x0902, 1, 0, 2⟩, ⟨0x0903, 0, 2, 0⟩, ⟨0x0904, 1, 1, 2⟩, ⟨0x0905, 1, 1, 3⟩, ⟨0x0906, 2, 0, 2⟩, ⟨0x0A01, 1, 1, 12⟩,
   ⟨0x0A02, 1, 1, 0⟩, ⟨0x0A03, 0, 2, 0⟩, ⟨0x0A04, 1, 1, 1⟩]

/-- The row of an opcode. -/
def opRow (code : Nat) : Option OpRow := opRows.find? (fun r => r.code == code)

/-- Is the payload length right for the opcode? MEM_WRITE carries an address and 128 to 32,768 bytes in granules. -/
def OpRow.lenOk (r : OpRow) (n : Nat) : Bool :=
  if r.len = 65535 then decide (136 ≤ n ∧ n ≤ 32776) && n % 128 == 8 else n == r.len

/-! ### Sessions and replies -/

/-- An open session. -/
def State.session (s : State) (id : Nat) : Option Session := s.ctl.sessions.find? (fun x => x.id == id)

/-- Change a session. -/
def State.modSession (s : State) (id : Nat) (f : Session → Session) : State :=
  s.modCtl (fun x => { x with sessions := x.sessions.map (fun (y : Session) => if y.id = id then f y else y) })

/-- Credits left to the sender of a command (R413). -/
def State.credits (s : State) (c : Cmd) : Nat :=
  if c.session = 0 then s.getF common fCmdCfgS0Credits - mapGet (fun _ => 0) s.ctl.s0 c.conn
  else match s.session c.session with
    | some x => x.limit - x.used
    | none => 0

/-- A reply header and prefix (Table 13.2, Table 13.4) with a body. -/
def replyBytes (head : List Byte) (final : Bool) (status orig credits detail : Nat) (body : List Byte) : List Byte :=
  let pre := leBytes status 2 ++ leBytes orig 2 ++ leBytes credits 2 ++ leBytes detail 2 ++ leBytes 0 8 ++ body
  let h := head.take 5 ++ [BitVec.ofNat 8 (1 + 4 * b2n final)] ++ (head.drop 6).take 14 ++ leBytes pre.length 4 ++ leBytes 0 4
  h ++ leBytes (crc32c h).toNat 4 ++ pre

/-- Count a refusal. -/
def State.countStatus (s : State) (status : Nat) : State :=
  match status with
  | 0x100 => s.bump common fCmdMalformedCntCount 1
  | 0x101 => s.bump common fCmdUnsupportedCntCount 1
  | 0x102 => s.bump common fCmdDuplicateCntCount 1
  | 0x103 => s.bump common fCmdNotauthCntCount 1
  | 0x106 => s.bump common fCmdExhaustedCntCount 1
  | _ => s

/-- The connection a reply goes out on (R400): the session's reply connection, or the command's own. -/
def State.replyConn (s : State) (c : Cmd) : Nat :=
  match s.session c.session with
  | some x => x.conn
  | none => c.conn

/-- Send a reply that enters no cache: a refusal at checks 1 to 7, or a duplicate. (DEDUCED, log entry 53.) -/
def State.refusePacket (s : State) (conn : Nat) (c : Cmd) (status orig detail : Nat) (body : List Byte) : State :=
  (s.countStatus status).sendMsg conn (replyBytes c.head true status orig (s.credits c) detail body)

/-- Give back the credit of a command with its final reply (R413). -/
def State.giveCredit (s : State) (c : Cmd) : State :=
  if c.session = 0 then s.modCtl (fun x => { x with s0 := mapMod (fun _ => 0) x.s0 c.conn (fun n => n - 1) })
  else s.modSession c.session (fun x => { x with used := x.used - 1 })

/-- Put a reply into its session's cache, in the place of an earlier one; the last 256 commands stay (R406). -/
def Session.remember (x : Session) (seq status : Nat) (body : List Byte) : Session :=
  let l := x.cache.filter (fun r => r.seq != seq) ++ [⟨seq, status, body⟩]
  { x with cache := l.filter (fun r => decide (x.high < r.seq + 256)) }

/-- Reply to an accepted command (R397, R400, R406). -/
def State.reply (s : State) (c : Cmd) (final : Bool) (status detail : Nat) (body : List Byte) : State :=
  let s := if final then s.giveCredit c else s
  let s := s.modSession c.session (fun x => x.remember c.seq status body)
  let s := s.countStatus status
  if c.session ≠ 0 ∧ (s.session c.session).isNone then s
  else s.sendMsg (s.replyConn c) (replyBytes c.head final status 0 (s.credits c) detail body)

/-- A final reply of OK with a body. -/
def State.replyOk (s : State) (c : Cmd) (body : List Byte) : State := s.reply c true 0 0 body

/-- A final refusal. -/
def State.refuse (s : State) (c : Cmd) (status detail : Nat) : State := s.reply c true status detail []

/-- Answer IN_PROGRESS (or ACCEPTED_DEFERRED) and remember what the command waits for. -/
def State.progress (s : State) (c : Cmd) (status : Nat) (w : Waits) : State :=
  (s.reply c false status 0 []).modCtl (fun x => { x with progs := x.progs ++ [⟨c, w⟩] })

/-- Give the final reply of every command in progress that `p` picks. -/
def State.finish (s : State) (p : Waits → Bool) (status detail : Nat) : State :=
  let mine := s.ctl.progs.filter (fun g => p g.waits)
  mine.foldl (fun s g => s.reply g.cmd true status detail []) (s.modCtl (fun x => { x with progs := x.progs.filter (fun (g : Prog) => !p g.waits) }))

/-! ### Admission (R399) -/

/-- The message a signed command signs (R405). -/
def signedMsg (x : Session) (c : Cmd) : List Byte := leBytes x.nonce.toNat 32 ++ c.head.take 28 ++ c.payload.take (c.payload.length - 64)

/-- The enrolled public key of an operator slot (R442): the record of highest GEN for the slot, kept newest last. -/
def Flash.opKey (f : Flash) (slot : Nat) : Option (BitVec 256) :=
  match (f.keys.filter (fun r => leAt r 4 1 == slot)).getLast? with
  | some r => if leAt r 5 1 = 1 then some (BitVec.ofNat 256 (leAt r 16 32)) else none
  | none => none

/-- Does a signature trailer verify under the session's operator key? -/
def State.sigOk (s : State) (x : Session) (c : Cmd) : Bool :=
  decide (c.payload.length ≥ 64) &&
    match s.flash.opKey x.key with
    | some k => Config.ed25519Ok k (signedMsg x c) (BitVec.ofNat 512 (leAt c.payload (c.payload.length - 64) 64))
    | none => false

/-- Show the depths of the class queues. -/
def State.showDepth (s : State) : State :=
  let n (k : Nat) : Nat := (mapGet (fun _ => []) s.ctl.cmds k).length
  ((s.setF common fCmdDepthClass0 (n 0)).setF common fCmdDepthClass1 (n 1)).setF common fCmdDepthClass2 (n 2)

/-- Accept a command (R399, R406, R413): a credit is taken, the sequence recorded, and the command waits in its class queue.
(DEDUCED, log entry 53.) -/
def State.accept (s : State) (c : Cmd) (cls : Nat) : State :=
  let s := if c.session = 0 then s.modCtl (fun x => { x with s0 := mapMod (fun _ => 0) x.s0 c.conn (fun n => n + 1) })
    else s.modSession c.session (fun x => { x with high := c.seq, used := x.used + 1, conn := c.conn })
  (s.modCtl (fun x => { x with cmds := mapMod (fun _ => []) x.cmds cls (fun l => l ++ [c]) })).showDepth

/-- Offset of the first header field that check 1 finds wrong (R397). -/
def headFault (bs : List Byte) : Option Nat :=
  if bs.length < 32 then some 0
  else if leAt bs 0 4 ≠ 0x314B435A then some 0
  else if leAt bs 28 4 ≠ (crc32c (bs.take 28)).toNat then some 28
  else if leAt bs 20 4 > 65536 ∨ leAt bs 20 4 ≠ bs.length - 32 then some 20
  else none

/-- A command packet arrives whole on a connection (R399, Table 13.6). (DEDUCED, log entry 53.) -/
def State.packet (s : State) (conn : Nat) (bs : List Byte) : State :=
  let c : Cmd := ⟨conn, (bs ++ List.replicate 32 0).take 32, bs.drop 32, (s.reg s.lead oDieTimebase).toNat⟩
  match headFault bs with
  | some off => s.refusePacket conn c 0x100 0 off []
  | none =>
    match (if leAt bs 4 1 = 1 then opRow c.opcode else none) with
    | none => s.refusePacket conn c 0x101 0 0 []
    | some row =>
      if leAt bs 24 4 ≠ 0 ∨ c.flags ≥ 16 ∨ natBits c.flags 0 1 = 1 ∨ natBits c.flags 2 1 = 1 then
        s.refusePacket conn c 0x100 0 (if leAt bs 24 4 ≠ 0 then (if c.flags ≥ 16 ∨ natBits c.flags 0 1 = 1 ∨ natBits c.flags 2 1 = 1 then 5 else 24) else 5) []
      else
        let sess := s.session c.session
        let ok : Bool := match sess with
          | some x => (!c.signed && row.auth == 0) || (c.signed && s.sigOk x c)
          | none => c.session == 0 && row.auth == 0 && !c.signed
        if !ok then s.refusePacket conn c 0x103 0 0 []
        else match sess with
          | some x =>
            if c.seq ≤ x.high then
              let s := s.modSession x.id (fun y => { y with conn := conn })
              (match x.cache.find? (fun r => r.seq == c.seq) with
               | some r => s.refusePacket conn c 0x102 r.status 0 r.body
               | none => s.refusePacket conn c 0x102 0xFFFF 0 [])
            else if c.seq > x.high + 1 then s.refusePacket conn c 0x107 0 12 []
            else if s.credits c = 0 ∨ (mapGet (fun _ => []) s.ctl.cmds row.cls).length ≥ 256 then s.refusePacket conn c 0x106 0 0 []
            else s.accept c row.cls
          | none =>
            if s.credits c = 0 ∨ (mapGet (fun _ => []) s.ctl.cmds row.cls).length ≥ 256 then s.refusePacket conn c 0x106 0 0 []
            else s.accept c row.cls

/-! ### Serving (R401, R414) -/

/-- Is the lead die's cluster running, so that it serves commands? -/
def State.jasperUp (s : State) : Bool := s.dieUp s.lead && s.getF s.lead fBootStatusStage == 4

/-- Has the head of a class queue of class 1 or 2 waited 50 ms (R414)? -/
def State.overdue (s : State) (cls : Nat) : Bool :=
  match mapGet (fun _ => []) s.ctl.cmds cls with
  | c :: _ => decide (1 ≤ cls ∧ c.time + 50000000 ≤ (s.reg s.lead oDieTimebase).toNat)
  | [] => false

/-- The class that is served next (R401, R414): one whose head has waited 50 ms, else the highest whose queue is not empty. (DEDUCED, log entry 53.) -/
def State.nextClass (s : State) : Option Nat :=
  match [1, 2].find? s.overdue with
  | some k => some k
  | none => [0, 1, 2].find? (fun k => !(mapGet (fun _ => []) s.ctl.cmds k).isEmpty)

/-- The command at the head of the class queue that is served next starts, if it has this opcode: length and CONFIRM are checked (checks 8 and 9), then `k` acts. -/
def State.serve (s : State) (code : Nat) (k : Cmd → List Byte → State → State) : State :=
  match opRow code with
  | none => s
  | some row =>
    match mapGet (fun _ => []) s.ctl.cmds row.cls with
    | [] => s
    | c :: r =>
      if c.opcode ≠ code ∨ s.jasperUp = false ∨ s.nextClass ≠ some row.cls then s
      else
        let s := (s.modCtl (fun x => { x with cmds := mapSet (fun _ => []) x.cmds row.cls r })).showDepth
        if !row.lenOk c.body.length then s.refuse c 0x100 20
        else if row.auth = 2 ∧ c.confirm = false then s.refuse c 0x107 5
        else k c c.body s

/-- A refusal of a command when a condition holds, else go on. -/
def State.orElse (s : State) (c : Cmd) (bad : Bool) (status detail : Nat) (k : State → State) : State :=
  if bad then s.refuse c status detail else k s

end Sys2Proof.Machine
end

