-- ==== Sys2Proof/Machine/Ops.lean ====
section
/-!
DEFINITION. The shared operations over error records, tokens and halts. Raising an error record with
its consequences (R363 to R366, R496) and halting a stream (R85, R359, R498) are each one operation here.
-/

namespace Sys2Proof.Machine

/-! ### Error records -/

/-- Error classes (Table 0.9). -/
inductive ErrClass
  | info | corrected | contained | tainted | jobFatal | packageFatal
deriving DecidableEq, Repr

/-- The code of an error class (Table 0.9). -/
def ErrClass.code : ErrClass → Nat
  | .info => 0 | .corrected => 1 | .contained => 2 | .tainted => 3 | .jobFatal => 4 | .packageFatal => 5

/-- What an event supplies to its record: class, cause (Table 11.8), UNIT and INSTANCE (Table 11.9), ADDR and arguments. -/
structure ErrInfo where
  cls : ErrClass
  cause : Nat
  unit : Nat
  inst : Nat
  addr : Nat
  arg0 : Nat
  arg1 : Nat
  arg2 : Nat
deriving DecidableEq, Repr

/-- The compute die that handles a record of die `d` (R496): itself, or a port die's northern neighbour, or its southern one
while the northern is away. -/
def State.recordHandler (s : State) (d : Nat) : Option Nat :=
  if d < 4 then some d
  else
    let n := d - 4
    if s.dieUp n then some n else if s.dieUp (n + 2) then some (n + 2) else none

/-- The step phase a record carries: 0 to 4, or 7 outside a job (Table 11.7). -/
def State.recPhase (s : State) : Nat := if s.job.running then s.job.phase else 7

/-- The time a die stamps: fabric time, or its timebase when unlocked (Table 11.7, R362). -/
def State.stamp (s : State) (h : Nat) : Nat := if s.flag h fFiTimeStatLocked then (s.reg h oFiTime).toNat else (s.reg h oDieTimebase).toNat

/-- Build a record raised on die `d` and handled by compute die `h` (Table 11.7). -/
def State.mkRec (s : State) (d h : Nat) (i : ErrInfo) : ErrRec :=
  { time := s.stamp h
    seq := s.getF h fErrStatusNextSeq, cls := i.cls.code, locked := s.flag h fFiTimeStatLocked, die := d, phase := s.recPhase
    cause := i.cause, unit := i.unit, inst := i.inst, step := (s.reg h oStepIndex).toNat
    pkg := s.pkgId, idValid := s.idValid, dropped := 0
    addr := i.addr, arg0 := i.arg0, arg1 := i.arg1, arg2 := i.arg2 }

/-- The number of the last buffered record that `p` picks. -/
def lastIdx (p : ErrRec → Bool) (l : List ErrRec) : Option Nat :=
  ((span 0 l.length).filter (fun i => match l[i]? with | some r => p r | none => false)).getLast?

/-- Remove the record at a position. -/
def dropAt (l : List ErrRec) (i : Nat) : List ErrRec := l.take i ++ l.drop (i + 1)

/-- Put a record into a die's 256-entry buffer; when it is full, one record gives way by class (R366). The second result
says that a record was dropped. -/
def bufferRec (l : List ErrRec) (r : ErrRec) : List ErrRec × Bool :=
  if l.length < 256 then (l ++ [r], false)
  else if r.cls ≤ 1 then (l, true)
  else if r.cls ≤ 3 then
    match lastIdx (fun x => decide (x.cls ≤ 1)) l with
    | some i => (dropAt l i ++ [r], true)
    | none => (l, true)
  else
    let low := l.foldl (fun m x => min m x.cls) r.cls
    if low < r.cls then
      match lastIdx (fun x => x.cls == low) l with
      | some i => (dropAt l i ++ [r], true)
      | none => (l, true)
    else (l, true)

/-- The die of a port (R248). -/
def portDie (p : Nat) : Nat := 4 + p / 6

/-- A port's registers (Table 8.13). -/
def portF (p : Nat) (f : Fld) : Fld := f.at (0x1000 * (p % 6))

/-- Add a transfer that a fabric interface sends of itself: an answer, a credit or a message between clusters. -/
def State.respond (s : State) (d : Nat) (x : Xfer) : State :=
  { s with resp := mapSet (fun _ => []) s.resp d (mapGet (fun _ => []) s.resp d ++ [x]) }

/-- The granule of a boundary message (Table 9.3). -/
def boundGran (step phase kind status src : Nat) : GranBits :=
  BitVec.ofNat 1024 (step + 2 ^ 64 * phase + 2 ^ 72 * kind + 2 ^ 80 * status + 2 ^ 96 * src)

/-- Send a boundary message to the partners on ports, each in one JASPER transfer of the lead die (R289). (DEDUCED, log entry 41.) -/
def State.sendBound (s : State) (ports : List Nat) (kind step phase status : Nat) : State :=
  ports.foldl (fun (s : State) p =>
    let v := boundGran step phase kind status s.pkgId
    s.respond s.lead ⟨3, { XHead.zero with kind := 10, hops := 63, ngr := 1, dst := s.getF (portDie p) (portF p fEwPortStatusNbPkg), src := s.pkgId }, [⟨v, chkOf v⟩], false⟩) s

/-- Send a boundary message up the tree (R289). -/
def State.boundUp (s : State) (kind step phase status : Nat) : State := s.sendBound [s.getF s.lead fFiCfgTimeUp] kind step phase status

/-- Send a boundary message to every child (R289). -/
def State.boundDown (s : State) (kind step phase status : Nat) : State := s.sendBound s.timeKids kind step phase status

/-- The step that a boundary message names: STEP_INDEX, and one less while a job starts (R410). -/
def State.boundStep (s : State) : Nat :=
  let n := (s.reg s.lead oStepIndex).toNat
  if s.job.starting then (n + 2 ^ 64 - 1) % 2 ^ 64 else n

/-- Is this package the root of the boundary tree (R289)? A package outside a domain stands alone. (DEDUCED, log entry 38.) -/
def State.treeRoot (s : State) : Bool := !s.idValid || s.flag s.lead fFiCfgTimeRoot

/-- The update unit of a die. -/
def State.upd (s : State) (d : Nat) : Upd := mapGet (fun _ => Upd.reset) s.upds d

/-- Replace it. -/
def State.setUpd (s : State) (d : Nat) (u : Upd) : State := { s with upds := mapSet (fun _ => Upd.reset) s.upds d u }

/-- The rule programs stop where they stand: no rule is in progress and none is owed, and UPD_STATUS and PAR_STATUS show so. -/
def State.stopRules (s : State) : State :=
  (span 0 4).foldl (fun (s : State) d =>
    let s := (s.setUpd d { s.upd d with rule := .none, late := false }).setF d fParStatusGenRun 0
    if s.flag d fUpdStatusRecon then s else s.setF d fUpdStatusBusy 0) s

/-- The job ends as JOB_FATAL (R290, R410, R411): a JOB_START still waiting is answered DEVICE_FAULT with the cause of the ending record, a
JOB_STOP OK. -/
def State.endFatal (s : State) (cause : Nat) : State :=
  let s := { s with job := { Job.none with phase := s.job.phase, status := 2, fatal := true, digestBad := s.job.digestBad }, bounds := [] }.stopRules
  (s.finish (fun w => w == .jobStart) 0x200 cause).finish (fun w => w == .jobStop) 0 0

/-- The ABORT of R290: a boundary message up the tree, and at the root PHASE_GO to every child; the job ends as JOB_FATAL. -/
def State.abortJob (s : State) (cause : Nat) : State :=
  if s.job.running then
    (if s.treeRoot then s.boundDown 1 s.boundStep s.job.phase 2 else s.boundUp 0 s.boundStep s.job.phase 2).endFatal cause
  else s

/-- What a class does beside its record (Table 0.9): TAINTED marks the die's window, JOB_FATAL aborts the job,
PACKAGE_FATAL also takes the package out of its domain; with cause DIGEST_ODD it leaves once PHASE_GO has reached it (R355). -/
def State.classEffect (s : State) (h cause : Nat) : ErrClass → State
  | .tainted => s.modDie h (fun x => { x with taints := x.taints + 1 })
  | .jobFatal => s.abortJob cause
  | .packageFatal =>
    if cause = 0x23 then { s with pkgFatal := true }
    else
    let s := s.abortJob cause
    { (s.setF common fPkgIdIdValid 0) with pkgFatal := true }
  | _ => s

/-- Handle a record on compute die `h`: sequence number, class count, alert, buffer and the class's consequence take effect now, whenever the record
is written (R364, R366, R496, R479). -/
def State.fileRec (s : State) (h : Nat) (r : ErrRec) (cls : ErrClass) : State :=
  let b := bufferRec (s.die h).recs r
  let s1 := s.setF h fErrStatusNextSeq ((r.seq + 1) % 65536)
  let s2 := s1.bump h (fErrCntCount.at (8 * cls.code)) 1
  let s3 := s2.modDie h (fun x => { x with recs := b.1, recDropped := satAdd 65535 x.recDropped (b2n b.2) })
  let s4 := if b.2 then s3.bump h fErrStatusDropped 1 else s3
  let s5 := if cls.code ≥ s.getF h fErrCfgAlertMin ∧ s.getF h fErrCfgAlertMin < 6 then { s4 with alert := true } else s4
  s5.classEffect h r.cause cls

/-- Raise an error record on die `d` (R364). A port die's record waits while no compute neighbour is available, and behind those that wait: up to 16,
further ones are dropped and counted (R496). -/
def State.raise (s : State) (d : Nat) (i : ErrInfo) : State :=
  let x := s.die d
  match (if 4 ≤ d ∧ x.portRecs ≠ [] then none else s.recordHandler d) with
  | none =>
    if x.portRecs.length < 16 then s.setDie d { x with portRecs := x.portRecs ++ [s.mkRec d s.lead i] }
    else s.setDie d { x with portDropped := x.portDropped + 1 }
  | some h => s.fileRec h (s.mkRec d h i) i.cls

/-! ### Cores and shape (R40 to R44, R361) -/

/-- Is a physical core of a die good (R42)? -/
def Die.isGood (x : Die) (p : Nat) : Bool := natBits x.good p 1 == 1

/-- Good physical cores of a die. -/
def Die.goodCores (x : Die) : List Nat := maskBits x.good 18

/-- The local logical cores that a die presents, with their physical cores. -/
def Die.held (x : Die) : List (Nat × Nat) :=
  (span 0 16).filterMap (fun i => (mapGet (fun _ => none) x.coreMap i).map (fun p => (i, p)))

/-- At every start of a die its logical cores take the lowest-numbered good physical cores (R40). -/
def Die.assign (x : Die) : Die :=
  { x with coreMap := ((span 0 16).zip (x.goodCores.take 16)).foldl (fun (m : SMap (Option Nat)) e => mapSet (fun _ => none) m e.1 (some e.2)) [] }

/-- CORE_MAP_LO or CORE_MAP_HI (Table 1.11) of a die: eight logical cores from `i` on. -/
def Die.mapReg (x : Die) (i : Nat) : BitVec 64 :=
  BitVec.ofNat 64 (packElems 8 ((span i 8).map (fun k => match mapGet (fun _ => none) x.coreMap k with | some p => p + 128 | none => 0)))

/-- Show a die's cores (Tables 1.10, 1.11). -/
def State.showCores (s : State) (d : Nat) : State :=
  let x := s.die d
  let n := x.held.length
  let s := ((s.setF d fCoreStatusRetired (2 ^ 18 - 1 - x.good % 2 ^ 18)).setF d fCoreStatusSpares (min 2 (x.goodCores.length - n))).setF d fCoreStatusLogicalCount n
  (s.setReg d oCoreMapLo (x.mapReg 0)).setReg d oCoreMapHi (x.mapReg 8)

/-- Show the shape (Tables 1.13, 1.14): class B once a running compute die has fewer than 16 good cores (R42). (DEDUCED, log entry 49.) -/
def State.showShape (s : State) : State :=
  let up := (span 0 4).filter s.dieUp
  let mask := (span 0 64).foldl (fun (m : Nat) lc => if (s.physOf lc).isSome then m + 2 ^ lc else m) 0
  let classB := up.any (fun d => decide ((s.die d).goodCores.length < 16))
  ((up.foldl (fun (s : State) d => s.showCores d) s).setReg common oPkgShape (BitVec.ofNat 64 (b2n classB + 256 * (maskBits mask 64).length))).setReg common
    oPkgCoreMask (BitVec.ofNat 64 mask)

/-- The cause that DETAIL names for a FAILED function: LINK_FAILED of an edge or port, CORE_RETIRED of a core. -/
def failCause (id : Nat) : Nat :=
  match id / 4096 with
  | 1 => 0x41
  | 2 => 0x60
  | 3 => 0x41
  | k => (Config.recordArg 0 7 [k]).toNat % 65536

/-- The cause that DETAIL names for a failed flash operation or a part that is not there, which the spec does not give.
(DESIGN CHOICE, log entry 12.) -/
def openCause (k : Nat) : Nat := (Config.recordArg 0 k []).toNat % 65536

/-- A function fails: enables that wait for it are answered DEVICE_FAULT (R463, R466). -/
def State.failFunc (s : State) (id : Nat) : State := (s.setFunc id 5).finish (fun w => w == .func id true) 0x200 (failCause id)

/-- Retire a physical core (R41, R361): the lowest-numbered spare of its die takes its logical ID. A retirement that leaves the
package in shape class B ends a running job (R44), also where the class came from another die. `save` asks for an entry
of the retirement record (R362). (DEDUCED, log entry 49.) -/
def State.retireCore (s : State) (d p why : Nat) (save : Bool) : State :=
  let x := s.die d
  let held := x.held
  let good := x.good - (if x.isGood p then 2 ^ p else 0)
  let spare := (maskBits good 18).find? (fun q => held.all (fun e => e.2 != q))
  let map' := match held.find? (fun e => e.2 == p) with
    | some e => mapSet (fun _ => none) x.coreMap e.1 spare
    | none => x.coreMap
  let s := (s.setDie d { x with good := good, coreMap := map', retireWhy := mapErase x.retireWhy p }).failFunc (funcId 2 d p)
  let s := (s.setF d fRetirePendCores (natPutBits (s.getF d fRetirePendCores) p 1 0)).modCore (18 * d + p) Core.retired
  let s := s.showShape.raise d ⟨.info, 0x0060, 0x0A, d, 0, p, why, 0⟩
  let s := if save then { s with flash := { s.flash with ops := s.flash.ops ++ [.retire d p why (s.stamp s.lead)] } } else s
  let s := s.finish (fun w => w == .retire d p) 0 0
  if s.job.running && (span 0 4).any (fun e => s.dieUp e && decide ((s.die e).goodCores.length < 16)) then s.raise d ⟨.jobFatal, 0x0062, 0x0A, d, 0, d, s.getF d fCoreStatusLogicalCount, 0⟩ else s

/-! ### Retirement evidence (R360, Table 11.6) -/

/-- Mark a physical core for retirement under a row of Table 11.6; without a running job it is retired at once (R361). -/
def State.markRetire (s : State) (pc why : Nat) : State :=
  let d := pcDie pc
  if !(s.die d).isGood (pc % 18) then s
  else if !s.job.running then s.retireCore d (pc % 18) why true
  else (s.setF d fRetirePendCores (s.getF d fRetirePendCores ||| 2 ^ (pc % 18))).modDie d (fun x => { x with retireWhy := mapSet (fun _ => 0) x.retireWhy (pc % 18) why })

/-- Note one piece of evidence against a physical core in the step in hand: how many steps within RESID_WINDOW now carry it, counting every
finding unless `once`. (DEDUCED, log entry 49.) -/
def State.evidence (s : State) (pc kind : Nat) (once : Bool) : Nat × State :=
  let d := pcDie pc
  let k := 8 * (pc % 18) + kind
  let now := (s.reg d oStepIndex).toNat
  let old := (mapGet (fun _ => []) (s.die d).retHist k).filter (fun t => decide (now < t + s.getF d fRetireCfgResidWindow))
  let l := if once && old.contains now then old else old ++ [now]
  (l.length, s.modDie d (fun x => { x with retHist := mapSet (fun _ => []) x.retHist k l }))

/-- Two uncorrectable reads of a core's own stores within the window mark it (Table 11.6): its instruction region, weight store, and
accumulator tag and group stores. -/
def State.noteUncorrRead (s : State) (pc : Nat) : State :=
  let r := s.evidence pc 5 false
  if r.1 ≥ 2 then r.2.markRetire pc 4 else r.2

/-! ### Halts -/

/-- A halt of a stream (R85): cause, both streams, engine code, word index, word, ADDR and the extra bits of ARG0 (R498). -/
structure Halt where
  cause : Nat
  both : Bool
  eng : Nat
  pc : Nat
  word : InstrWord
  addr : Nat
  extra : Nat
deriving DecidableEq, Repr

/-- The operation that ARG0 of a 0x0D halt names for an SY word (Table 11.18). -/
def syOpCode (w : InstrWord) : Nat :=
  match fld w 124 4, fld w 112 12 with
  | 4, 0x001 => 1
  | 4, 0x002 => 2
  | 4, 0x010 => 3
  | 4, 0x011 => 4
  | 4, 0x020 => 5
  | 4, 0x030 => 6
  | 4, 0x031 => 7
  | _, _ => 0

/-- A halt by a refused word. -/
def haltBy (cause : Nat) (e : QEntry) (addr : Nat) : Halt :=
  ⟨cause, false, fld e.word 124 4, e.pc, e.word, addr, if cause = 0x0D then 2 ^ 22 * syOpCode e.word else 0⟩

/-- Stop a stream in a state: its queued words are discarded (R73), its loop stack and index registers stay, its fetch buffer is emptied (R76), and
CURRENT shows the word dispatched last (Table 2.13). -/
def Core.stopStream (c : Core) (st : Stream) (fin : StreamSt) : Core :=
  let c := c.setStream st { c.stream st with st := fin, cur := (c.stream st).last, buf := [] }
  [Engine.mx, .vx, .dm, .sy].foldl (fun c e => c.setQueue e st []) c

/-- The SEQ_HALT_INFO value of a halt (Table 2.14). -/
def haltInfoOf (st : Stream) (h : Halt) : BitVec 64 :=
  BitVec.ofNat 64 (h.cause + 2 ^ 8 * st.code + 2 ^ 9 * b2n h.both + 2 ^ 12 * h.eng + 2 ^ 16 * h.pc)

/-- The STREAM_HALT record of a halt, CONTAINED or JOB_FATAL (R498). -/
def haltRec (lc : Nat) (st : Stream) (h : Halt) (cls : ErrClass) : ErrInfo :=
  { cls := cls, cause := 0x0001, unit := 0x01, inst := lc, addr := h.addr
    arg0 := h.cause + 2 ^ 8 * st.code + 2 ^ 9 * b2n h.both + 2 ^ 12 * h.eng + h.extra
    arg1 := h.pc, arg2 := h.word.toNat }

/-- Halt a stream, or both, of the physical core `pc` that holds logical core `lc` (R73, R85, R359). (DEDUCED, log entry 27.) -/
def State.halt (s : State) (pc lc : Nat) (st : Stream) (h : Halt) : State :=
  let c := s.core pc
  let c1 := if h.both then (c.stopStream .crit .halted).stopStream .defr .halted else c.stopStream st .halted
  let c2 := if fld c.haltInfo 0 8 = 0 then { c1 with haltInfo := haltInfoOf st h } else c1
  let d := pcDie pc
  ((s.setCore pc c2).raise d (haltRec lc st h .contained)).raise d (haltRec lc st h .jobFatal)

/-! ### Tokens -/

/-- Add to a token; an increment that would pass 65,535 saturates it and halts both streams (R66). A halt of both streams shows STREAM 0.
(DESIGN CHOICE, log entry 72.) -/
def State.addToken (s : State) (pc lc k n : Nat) : State :=
  let v := (s.core pc).token k
  if v + n > 65535 then
    (s.modCore pc (fun c => c.setToken k 65535)).halt pc lc .crit ⟨0x06, true, 0, 0, 0, 0, 2 ^ 16 * k⟩
  else s.modCore pc (fun c => c.setToken k (v + n))

/-- The fields of TOKENS (Table 2.3). -/
structure Toks where
  wtok : Nat
  wmode : Nat
  stok : Nat
  smode : Nat
deriving DecidableEq, Repr

/-- The TOKENS field of a word. -/
def toksOf (w : InstrWord) : Toks := ⟨fld w 106 6, fld w 104 2, fld w 98 6, fld w 96 2⟩

/-- Is the TOKENS field legal (R57, R58)? SMODE 2 is reserved on an SQ word. -/
def Toks.ok (t : Toks) (sq : Bool) : Bool :=
  decide (t.wmode ≤ 2) && decide (t.smode ≤ 2) && (t.wmode != 0 || t.wtok == 0) && (t.smode != 0 || t.stok == 0)
    && !(sq && t.smode == 2)

/-- Is a word's token wait met (R57)? A reserved WMODE waits for nothing: the word is refused. -/
def Core.waitMet (c : Core) (w : InstrWord) : Bool :=
  let t := toksOf w
  t.wmode == 0 || t.wmode == 3 || decide (c.token t.wtok ≥ 1)

/-- Take one from the waited token under WMODE 1 (R57). -/
def Core.takeToken (c : Core) (w : InstrWord) : Core :=
  let t := toksOf w
  if t.wmode = 1 then c.setToken t.wtok (c.token t.wtok - 1) else c

/-- The signal of a word at completion or, for `atRelease`, at source release (R57, R59). -/
def State.signal (s : State) (pc lc : Nat) (w : InstrWord) (mode : Nat) : State :=
  let t := toksOf w
  if t.smode = mode then s.addToken pc lc t.stok 1 else s

/-- An instruction word from its parts (Table 2.2). -/
def mkWord (eng opc : Nat) (tok : BitVec 16) (ops : BitVec 96) : InstrWord :=
  BitVec.ofNat 128 (eng * 2 ^ 124 + opc * 2 ^ 112 + tok.toNat * 2 ^ 96 + ops.toNat)

end Sys2Proof.Machine
end

