-- ==== Sys2Proof/Machine/Spad.lean ====
section
/-!
DEFINITION. The scratchpad: reads with their Garnet-68 outcomes (R81, R193, R194), whole and partial writes with the block
check of each granule (R82, R83), and the counts and records of corrections (R211).
-/

namespace Sys2Proof.Machine

/-- Names a word of a core's unwritten memory between two resets. (DESIGN CHOICE, log entry 8.) -/
def spadKey (pc : Nat) (c : Core) (w : Nat) : Nat := (c.resets * 128 + pc) * 0x40000 + w

/-- Word `w` as stored. -/
def Core.spadWord (c : Core) (w : Nat) : SpadWord := mapGet (fun _ => .unwritten) c.spad w

/-- One word as Garnet-68 decodes it: its value unless uncorrectable, and the symbols changed. -/
structure SpadRd where
  val : Option SpadBits
  fixes : List SymErr
deriving DecidableEq, Repr

/-- The symbol a record of a correction names: the first changed, if any. -/
def SpadRd.corr (x : SpadRd) : Option Nat := x.fixes.head?.map SymErr.pos

/-- The 68 symbols of a stored word that are not zero: how it differs from the code word of zeros. -/
def symsOf (raw : BitVec 544) : List SymErr :=
  ((span 0 68).map (fun i => SymErr.mk i (fld raw (8 * i) 8))).filter (fun e => e.flip != 0)

/-- Decode a 64 B word with its four check bytes, as stored (R193). -/
def decodeRaw (raw : BitVec 544) : SpadRd :=
  match garnet68.decode [] (symsOf raw) with
  | none => ⟨none, []⟩
  | some f => ⟨some (flipSyms 8 (raw.setWidth 512) f), f⟩

/-- Decode scratchpad word `w` (R193, R194): up to two wrong symbols are corrected. A word with more is kept beside the code word it is near, if
any (`strike`), so what is left is uncorrectable. An unwritten word is decoded as its random bits stand. (DESIGN CHOICE, log entry 8.) -/
def spadDecode (pc : Nat) (c : Core) (w : Nat) : SpadRd :=
  match c.spadWord w with
  | .unwritten => decodeRaw (Config.spadRaw (spadKey pc c w))
  | .stored d errs => if errs.length ≤ 2 then ⟨some d, errs⟩ else ⟨none, []⟩

/-- The stored bits of a word, errors included (R83). -/
def spadRawBits (pc : Nat) (c : Core) (w : Nat) : SpadBits :=
  match c.spadWord w with
  | .unwritten => (Config.spadRaw (spadKey pc c w)).setWidth 512
  | .stored d errs => flipSyms 8 d errs

/-- What reading a list of words found: values in order, the first uncorrectable word, and corrected words with symbols. -/
structure SpadRds where
  vals : List SpadBits
  bad : Option Nat
  corrs : List (Nat × Nat)
deriving DecidableEq, Repr

/-- Read words in order; reading stops at the first uncorrectable one (R81). -/
def spadReads (pc : Nat) (c : Core) : List Nat → SpadRds
  | [] => ⟨[], none, []⟩
  | w :: r =>
    let x := spadDecode pc c w
    match x.val with
    | none => ⟨[], some w, []⟩
    | some v =>
      let y := spadReads pc c r
      ⟨v :: y.vals, y.bad, (match x.corr with | some k => [(w, k)] | none => []) ++ y.corrs⟩

/-- Count the corrections and the uncorrectable word of a read, and raise the SPAD_CORRECTED record of the first of them when none was raised
within CREC_MS milliseconds (R211). -/
def State.noteSpad (s : State) (pc lc : Nat) (corrs : List (Nat × Nat)) (nbad : Nat) : State :=
  let s := s.coreBump pc fSpadCorrCntCount corrs.length
  let s := s.coreBump pc fSpadUncorrCntCount nbad
  match corrs.head? with
  | none => s
  | some (w, k) =>
    let d := pcDie pc
    let now := (s.reg d oDieTimebase).toNat
    let due : Bool := match (s.core pc).recAt with
      | none => true
      | some t => decide (now ≥ t + s.getF d fMcCfgCrecMs * 1000000)
    if due then
      (s.modCore pc (fun c => { c with recAt := some now })).raise d
        ⟨.corrected, 0x0014, 0x01, lc, w, w % 16, k, 0⟩
    else s

/-- The block check of granule `g` of a scratchpad as it was stored (R83). (DESIGN CHOICE, log entry 8.) -/
def spadChkStored (pc : Nat) (c : Core) (g : Nat) : BitVec 16 :=
  match mapGet (fun _ => none) c.spadChk g with
  | some x => x
  | none => Config.spadChkNoise (spadKey pc c g)

/-- Wrong symbols of the word of block checks that holds the check of granule `g` (R193). -/
def Core.sideOf (c : Core) (g : Nat) : List SymErr := mapGet (fun _ => []) c.sideErrs (g / 32)

/-- A block check with the wrong symbols of its word laid over it. -/
def sideFlip (g : Nat) (k : BitVec 16) (l : List SymErr) : BitVec 16 := k ^^^ BitVec.ofNat 16 (fld (flipSyms 8 (0 : SpadBits) l) (16 * (g % 32)) 16)

/-- The block check of granule `g` as it is read (R83, R193): corrected; used as stored where its word is uncorrectable.
(DESIGN CHOICE, log entry 72.) -/
def spadChkOf (pc : Nat) (c : Core) (g : Nat) : BitVec 16 :=
  let l := c.sideOf g
  if l.length ≤ 2 then spadChkStored pc c g else sideFlip g (spadChkStored pc c g) l

/-- Store the block check of a granule: its word of 32 checks is merged and written whole, uncorrectable ones as they stand. -/
def Core.putChk (pc : Nat) (c : Core) (g : Nat) (k : BitVec 16) : Core :=
  let l := c.sideOf g
  let c := if l.length ≤ 2 then c
    else (span (g / 32 * 32) 32).foldl (fun (c : Core) i =>
      { c with spadChk := mapSet (fun _ => none) c.spadChk i (some (sideFlip i (spadChkStored pc c i) l)) }) c
  { c with spadChk := mapSet (fun _ => none) c.spadChk g (some k), sideErrs := mapErase c.sideErrs (g / 32) }

/-- A granule from its two words. -/
def granOf (lo hi : SpadBits) : GranBits := BitVec.ofNat 1024 (lo.toNat + hi.toNat * 2 ^ 512)

/-- One word of a granule: 0 or 1. -/
def granWord (g : GranBits) (i : Nat) : SpadBits := BitVec.ofNat 512 (g.toNat >>> (512 * i))

/-- Store one word without touching its block check. -/
def Core.putWord (c : Core) (w : Nat) (v : SpadBits) : Core :=
  { c with spad := mapSet (fun _ => .unwritten) c.spad w (.stored v []) }

/-- The bits a block check is taken over for a word that the write does not touch: corrected, or as stored (R83). -/
def spadForChk (pc : Nat) (c : Core) (w : Nat) : SpadBits :=
  match (spadDecode pc c w).val with
  | some v => v
  | none => spadRawBits pc c w

/-- Recompute the block check of granule `g` from what it holds (R83). -/
def spadReChk (pc : Nat) (c : Core) (g : Nat) : Core :=
  c.putChk pc g (chkOf (granOf (spadForChk pc c (2 * g)) (spadForChk pc c (2 * g + 1))))

/-- Granules touched by a list of words, each once, ascending for ascending words. -/
def granulesOf (ws : List Nat) : List Nat := (ws.map (· / 2)).dedup

/-- Words that a write leaves untouched in granules it covers only in part, and which decode with a correction (R83). -/
def sideCorrs (pc : Nat) (c : Core) (ws : List Nat) : List (Nat × Nat) :=
  ((granulesOf ws).flatMap (fun g => [2 * g, 2 * g + 1])).filterMap (fun w =>
    if ws.contains w then none else (spadDecode pc c w).corr.map (fun k => (w, k)))

/-- Write whole words (R82, R83): data first, then the block check of each granule. -/
def spadWrite (pc : Nat) (c : Core) (ws : List (Nat × SpadBits)) : Core :=
  let c1 := ws.foldl (fun c e => c.putWord e.1 e.2) c
  (granulesOf (ws.map Prod.fst)).foldl (spadReChk pc) c1

/-- Write a granule together with the block check it carries, not recomputed (R202). -/
def spadPutGran (pc : Nat) (c : Core) (g : Nat) (v : GranBits) (chk : BitVec 16) : Core :=
  ((c.putWord (2 * g) (granWord v 0)).putWord (2 * g + 1) (granWord v 1)).putChk pc g chk

/-- Merge the bits of `new` that `mask` picks into `old`. -/
def mergeBits {n : Nat} (old new mask : BitVec n) : BitVec n := (old &&& ~~~mask) ||| (new &&& mask)

/-- Writes of bits of words one after another, those of one word joined. -/
def joinWrites (l : List (Nat × SpadBits × SpadBits)) : List (Nat × SpadBits × SpadBits) :=
  l.foldl (fun a x => match a.find? (fun y => y.1 == x.1) with
    | none => a ++ [x]
    | some _ => a.map (fun y => if y.1 = x.1 then (y.1, mergeBits y.2.1 x.2.1 x.2.2, y.2.2 ||| x.2.2) else y)) []

/-- A write of some bits of some words: (word, new bits, mask). A word covered in part is read first; if that read is
uncorrectable nothing is written and the word is answered (R82). -/
def spadMerge (pc : Nat) (c : Core) (ws : List (Nat × SpadBits × SpadBits)) : Except Nat (Core × List (Nat × Nat)) :=
  let part := (ws.filter (fun e => e.2.2 != BitVec.allOnes 512)).map Prod.fst
  let rd := spadReads pc c part
  match rd.bad with
  | some w => .error w
  | none =>
    let full := ws.map (fun e => (e.1, mergeBits ((spadDecode pc c e.1).val.getD 0) e.2.1 e.2.2))
    .ok (spadWrite pc c full, rd.corrs ++ sideCorrs pc c (ws.map Prod.fst))

/-- Granules of a word span that one instruction reads whole and whose block check fails (R342): stored and computed
checks. -/
def badChks (pc : Nat) (c : Core) (ws : List Nat) : List (Nat × BitVec 16 × BitVec 16) :=
  (granulesOf ws).filterMap (fun g =>
    if ws.contains (2 * g) && ws.contains (2 * g + 1) then
      match (spadDecode pc c (2 * g)).val, (spadDecode pc c (2 * g + 1)).val with
      | some a, some b =>
        let k := chkOf (granOf a b)
        let st := spadChkOf pc c g
        if k = st then none else some (g, st, k)
      | _, _ => none
    else none)

/-- Words of block checks that are read with a correction for the granules that one instruction reads whole (R193, R211). -/
def chkCorrs (c : Core) (ws : List Nat) : Nat :=
  ((((granulesOf ws).filter (fun g => ws.contains (2 * g) && ws.contains (2 * g + 1))).map (· / 32)).dedup.filter (fun k =>
    let n := (mapGet (fun _ => ([] : List SymErr)) c.sideErrs k).length
    decide (1 ≤ n ∧ n ≤ 2))).length

/-- What the block checks of the granules that an MX or VLD word reads whole come to (R342, R343): a TAINTED record for each that fails, which
names the granule, both checks and the word; and the corrections of the checks' own words. -/
def State.checkRead (s : State) (pc lc : Nat) (c : Core) (ws : List Nat) (w : InstrWord) : State :=
  let s := (badChks pc c ws).foldl (fun s b => s.raise (pcDie pc) ⟨.tainted, 0x0022, 0x01, lc, b.1, b.2.1.toNat, b.2.2.toNat, w.toNat⟩) s
  if chkCorrs c ws = 0 then s else s.coreBump pc fSpadCorrCntCount (chkCorrs c ws)

/-- Words joined into one little-endian number. -/
def wordsNat : List SpadBits → Nat
  | [] => 0
  | w :: r => w.toNat + 2 ^ 512 * wordsNat r

/-- The base word of the instruction region: IR_PAGES pages of 64 KiB below 0xC0_0000 (R79). -/
def State.irBase (s : State) (pc : Nat) : Nat := 196608 - s.coreGet pc fSeqIrCfgPages * 1024

end Sys2Proof.Machine
end

