-- ==== Sys2Proof/Machine/Paths.lean ====
section
/-!
DEFINITION. The edges between dies (R369) and the paths of traffic between them (R261, R262, R376, R377).
-/

namespace Sys2Proof.Machine

/-! ### Edges (R369) -/

/-- The partner of an edge: die and its edge number. -/
def edgePeer (d e : Nat) : Option (Nat × Nat) :=
  match d, e with
  | 0, 0 => some (1, 0) | 0, 1 => some (2, 1) | 0, 2 => some (4, 0)
  | 1, 0 => some (0, 0) | 1, 1 => some (3, 1) | 1, 2 => some (5, 0)
  | 2, 0 => some (3, 0) | 2, 1 => some (0, 1) | 2, 2 => some (4, 1)
  | 3, 0 => some (2, 0) | 3, 1 => some (1, 1) | 3, 2 => some (5, 1)
  | 4, 0 => some (0, 2) | 4, 1 => some (2, 2)
  | 5, 0 => some (1, 2) | 5, 1 => some (3, 2)
  | _, _ => none

/-- The function of an edge. -/
def edgeFunc (d e : Nat) : Nat := funcId 1 d e

/-- Registers of an edge (Table 12.14). -/
def edgeF (e : Nat) (f : Fld) : Fld := f.at (0x40 * e)

/-- Does an edge join a port die? -/
def portEdge (d e : Nat) : Bool := decide (d ≥ 4) || e == 2

/-- Modules of an edge, and the fewest it needs (Table 12.2). -/
def edgeModules (d e : Nat) : Nat := if portEdge d e then 6 else 24
/-- The fewest modules that keep an edge in service (Table 12.2). -/
def edgeMin (d e : Nat) : Nat := if portEdge d e then 3 else 12

/-- One end of an edge. -/
def State.edge (s : State) (d e : Nat) : Edge := mapGet (fun _ => .reset) s.edges (4 * d + e)

/-- Replace it. -/
def State.setEdge (s : State) (d e : Nat) (x : Edge) : State := { s with edges := mapSet (fun _ => .reset) s.edges (4 * d + e) x }

/-! ### Paths (R376, R377) -/

/-- The H neighbour of a compute die, in the same stack row (R369). -/
def hNext (d : Nat) : Nat := if d % 2 = 0 then d + 1 else d - 1

/-- The V neighbour of a compute die: the one beside the same port die (R369). -/
def vNext (d : Nat) : Nat := (d + 2) % 4

/-- The edge of a die that leads to a neighbour. -/
def edgeTo (d n : Nat) : Option Nat := (span 0 3).find? (fun e => (edgePeer d e).map Prod.fst == some n)

/-- May traffic use an end of an edge: not FAILED, and not OFF, which acts as FAILED (R376, Table 15.6)? One that is STARTING delays it. -/
def State.endOk (s : State) (d e : Nat) : Bool := s.dieUp d && s.func (edgeFunc d e) != 0 && s.func (edgeFunc d e) != 5

/-- May traffic cross from a die to its neighbour? -/
def State.linkOk (s : State) (d n : Nat) : Bool :=
  match edgeTo d n, edgeTo n d with
  | some e, some f => s.endOk d e && s.endOk n f
  | _, _ => false

/-- May traffic follow a list of dies? -/
def State.pathOk (s : State) : List Nat → Bool
  | a :: b :: r => s.linkOk a b && s.pathOk (b :: r)
  | _ => true

/-- Is every edge of a die READY or DEGRADED? (DESIGN CHOICE, log entry 69.) -/
def State.edgesReady (s : State) (d : Nat) : Bool := (span 0 3).all (fun e => (edgePeer d e).isNone || s.funcUp (edgeFunc d e))

/-- May traffic between other dies cross a die: not one that has come back, until every edge of it is READY and a phase boundary has passed, or no job is
running (R393)? (DESIGN CHOICE, log entry 69.) -/
def State.through (s : State) (d : Nat) : Bool := !(s.die d).back || (!(s.job.running && !s.job.starting) && s.edgesReady d)

/-- Traffic moves back onto the paths of the dies that have come back and whose edges are all READY (R393). -/
def State.moveBack (s : State) : State :=
  { s with dies := ((span 0 6).filter (fun d => (s.die d).back && s.edgesReady d)).foldl (fun (m : SMap Die) d => mapMod (fun _ => Die.reset) m d (fun x => { x with back := false })) s.dies }

/-- The ways from one compute die to another, best first: over their edge, else round the other three; between diagonal dies by the neighbour that bit
`t` picks, else by the other (R376, R377). -/
def waysTo (a b t : Nat) : List (List Nat) :=
  if a = b then [[a]]
  else if b = hNext a then [[a, b], [a, vNext a, vNext b, b]]
  else if b = vNext a then [[a, b], [a, hNext a, hNext b, b]]
  else if t % 2 = 0 then [[a, hNext a, b], [a, vNext a, b]]
  else [[a, vNext a, b], [a, hNext a, b]]

/-- The path that traffic from one compute die to another takes now, from its first die to its last (R377). -/
def State.way (s : State) (a b t : Nat) : Option (List Nat) := (waysTo a b t).find? (fun l => s.pathOk l && (l.drop 1).dropLast.all s.through)

/-- Can a compute die reach another? -/
def State.reaches (s : State) (a b t : Nat) : Bool := (s.way a b t).isSome

/-- The compute die that hands traffic of compute die `a` to port die `pd`: `a` itself beside it; else its H neighbour; with an edge lost the
other compute die beside the port die (R261, R376). -/
def State.gateTo (s : State) (a pd : Nat) : Option Nat :=
  let beside : List Nat := [pd - 4, pd - 2]
  let order := if beside.contains a then [a, vNext a] else [hNext a, vNext (hNext a)]
  order.find? (fun n => s.reaches a n 0 && s.linkOk n pd && (n == a || s.through n))

/-- The two compute dies that a transfer crosses from port die `pd` to the other (R261, R262): the pair of the parity of DST, or the other pair. -/
def State.crossing (s : State) (pd parity : Nat) : Option (Nat × Nat) :=
  let pair (k : Nat) : Nat × Nat := ((pd - 4) + 2 * (k % 2), hNext ((pd - 4) + 2 * (k % 2)))
  let ok (p : Nat × Nat) : Bool := s.linkOk pd p.1 && s.linkOk p.1 p.2 && s.linkOk p.2 (9 - pd) && s.through p.1 && s.through p.2
  [pair parity, pair (parity + 1)].find? ok

/-- The compute die beside port die `pd` through which a delivery reaches compute die `b` (R261, R262). -/
def State.entryFor (s : State) (pd b : Nat) : Option Nat :=
  let order := if b = pd - 4 ∨ b = pd - 2 then [b, vNext b] else [hNext b, vNext (hNext b)]
  order.find? (fun n => s.linkOk pd n && s.reaches n b 0 && (n == b || s.through n))

end Sys2Proof.Machine
end

