-- ==== Sys2Proof/Machine/Mem.lean ====
section
/-!
DEFINITION. Stack memory: the stripe map (R184), decoding a granule (R191, R192), reads and full-granule writes in the order
of R196, epoch increments and sweeps (R198), narrow writes and the merge buffer (R206 to R209), and what an uncorrectable
result leads to (R214, Table 6.10).
-/

namespace Sys2Proof.Machine

/-- Bytes of stack memory (R45). -/
def stackBytes : Nat := 0xC000000000

/-- Number of regions (R46). -/
def nRegions : Nat := 49152

/-- The stack, the channel within it and the channel address of a local address (R184). -/
def stripeMap (a : Nat) : Nat × Nat × Nat :=
  let c := a / 512
  let t := c / 12
  (c % 12, (t % 32) ^^^ ((t / 1024) % 32), (t / 32) * 512 + a % 512)

/-- Where a channel address leads (Table 6.1): bank group, bank, row, chunk in the row, granule in the chunk, byte in the granule. -/
structure ChanAddr where
  group : Nat
  bank : Nat
  row : Nat
  chunk : Nat
  gran : Nat
  byte : Nat
deriving DecidableEq, Repr

/-- The fields of a channel address (Table 6.1). -/
def chanAddr (ca : Nat) : ChanAddr :=
  ⟨natBits ca 9 2 ^^^ natBits ca 19 2, natBits ca 11 2 ^^^ natBits ca 21 2, natBits ca 15 16, natBits ca 13 2, natBits ca 7 2, natBits ca 0 7⟩

/-- The cell of its channel that a granule lies in. -/
def granCell (g : Nat) : ChanAddr := chanAddr (stripeMap (g * 128)).2.2

/-- The stack of a granule. -/
def granStack (g : Nat) : Nat := (stripeMap (g * 128)).1

/-- The channel of a granule, numbered over all stacks. -/
def granChan (g : Nat) : Nat := 32 * (stripeMap (g * 128)).1 + (stripeMap (g * 128)).2.1

/-- The region of a granule (R46). -/
def granRegion (g : Nat) : Nat := g / 131072

/-- The epoch table entry of a region. -/
def MemState.region (m : MemState) (r : Nat) : Region := mapGet (fun _ => m.regionRest) m.regions r

/-- Replace the entry of a region. -/
def MemState.setRegion (m : MemState) (r : Nat) (v : Region) : MemState :=
  { m with regions := mapSet (fun _ => m.regionRest) m.regions r v }

/-- Change the entry of every region. -/
def MemState.allRegions (m : MemState) (f : Region → Region) : MemState :=
  let rest := f m.regionRest
  { m with regions := (m.regions.map (fun e => (e.1, f e.2))).filter (fun e => e.2 != rest), regionRest := rest }

/-- What a granule's metadata reads as where no write has touched it since its region's last sweep (R183, R198). (DEDUCED, log entry 7.) -/
def MemState.metaRest (m : MemState) (g : Nat) : GranMeta :=
  let r := m.region (granRegion g)
  .swept (if natBits r.anew (granStack g) 1 = 1 then 0 else r.swept)

/-- A granule's metadata. (DEDUCED, log entry 7.) -/
def MemState.metaOf (m : MemState) (g : Nat) : GranMeta := mapGet m.metaRest m.gmeta g

/-- A granule's data as it was stored, without its wrong symbols. (DEDUCED, log entry 7.) -/
def MemState.gran (m : MemState) (g : Nat) : GranBits :=
  BitVec.ofNat 1024 (leNat ((span (128 * g) 128).map (mapGet (fun _ => 0) m.data)))

/-- A granule's symbols in error. -/
def MemState.errsOf (m : MemState) (g : Nat) : List SymErr := mapGet (fun _ => []) m.errs g

/-- The canonical form of stack memory: in the tables of bytes, metadata, wrong symbols and regions the keys rise strictly and no entry equals
what an unlisted key reads as, so equal memories are equal data. -/
abbrev MemState.wf (m : MemState) : Prop :=
  mapWf (fun _ => (0 : Byte)) m.data ∧ mapWf m.metaRest m.gmeta ∧ mapWf (fun _ => ([] : List SymErr)) m.errs ∧
    mapWf (fun _ => m.regionRest) m.regions

/-- Store a granule with its metadata; the code word written is whole (R189). -/
def MemState.put (m : MemState) (g : Nat) (v : GranBits) (k : GranMeta) : MemState :=
  { m with data := mapSetList (fun _ => 0) m.data (128 * g) (leBytes v.toNat 128)
           gmeta := mapSet m.metaRest m.gmeta g k
           errs := mapErase m.errs g }

/-- The metadata with the wrong symbols of a pattern laid over it (R189): the symbol on CB0 is CHK, the one on CB1 EPOCH and WRITER. -/
def GranMeta.flip (k : GranMeta) (l : List SymErr) : GranMeta :=
  let x (p : Nat) : Nat := gfSum ((l.filter (fun e => e.pos == p)).map SymErr.flip)
  ⟨k.chk ^^^ BitVec.ofNat 16 (x 64), k.epoch ^^^ natBits (x 65) 0 6, k.writer ^^^ natBits (x 65) 8 8⟩

/-- What Garnet-72 makes of a granule (R191, R192). -/
inductive Decode
  | clean (v : GranBits) (k : GranMeta)
  | corrected (fixes : List SymErr) (v : GranBits) (k : GranMeta)
  | bad
deriving DecidableEq, Repr

/-- Decode a granule with its channel's erased pins (R189 to R192). The decoder sees the stored symbols only: a pattern beyond its strength that
lies within it of another code word comes out as that code word. -/
def MemState.decode (m : MemState) (g : Nat) : Decode :=
  let errs := m.errsOf g
  if errs.isEmpty then .clean (m.gran g) (m.metaOf g)
  else match garnet72.decode (mapGet (fun _ => []) m.erased (granChan g)) errs with
    | none => .bad
    | some f =>
      let d := overlay errs f
      let v := flipSyms 16 (m.gran g) d
      let k := (m.metaOf g).flip d
      if f.isEmpty then .clean v k else .corrected f v k

/-- May a requester read a region of this class (Table 6.5)? -/
def mayRead (cls : Nat) (q : Requester) : Bool :=
  match cls, q with
  | 0, _ => true
  | 1, .queueEngine _ => true
  | 1, .beryl _ => true
  | 1, .jasper _ => true
  | 2, .core _ => true
  | 2, .update _ => true
  | 2, .collective _ => true
  | 2, .integrity _ => true
  | 2, .jasper _ => true
  | 3, .jasper _ => true
  | _, _ => false

/-- May a requester write a region of this class (Table 6.5)? -/
def mayWrite (cls : Nat) (q : Requester) : Bool :=
  match cls, q with
  | 0, _ => true
  | 1, .queueEngine _ => true
  | 1, .beryl _ => true
  | 1, .jasper _ => true
  | 2, .jasper _ => true
  | 3, .jasper _ => true
  | _, _ => false

/-- The result of a memory access: data with its metadata, an error completion with its KIND (Table 6.19; 0 for an access
that never reached a stack), or a read that waits for a firmware restore. -/
inductive MemRes
  | ok (v : GranBits) (k : GranMeta)
  | err (kind : Nat)
  | wait
deriving DecidableEq, Repr

/-- Registers of the controller of stack `k`: die and instance offset. -/
def stackF (k : Nat) (f : Fld) : Fld := f.at (0x40 * (k % 3))

/-- Is the function of stack `k` READY or DEGRADED, so that it answers (R52, R183)? -/
def State.stackUp (s : State) (k : Nat) : Bool :=
  s.dieUp (k / 3) && s.funcUp (stackFunc k)

/-- Note an uncorrectable result in MC_LAST_ERR and MC_UNCORR_CNT (R214, Table 6.19). -/
def State.noteUncorr (s : State) (g kind writer : Nat) : State :=
  let k := granStack g
  let d := k / 3
  let s := s.bump d (stackF k fMcUncorrCntCount) 1
  s.setReg d (oMcLastErr + 0x40 * (k % 3)) (BitVec.ofNat 64 (g * 128 + 2 ^ 48 * writer + 2 ^ 56 * kind))

/-- The record of an uncorrectable result (Table 11.8). -/
def memRec (cls : ErrClass) (g kind writer : Nat) : ErrInfo :=
  ⟨cls, 0x0011, 0x04, granStack g, g * 128, kind, writer, 0⟩

/-- The die of a requester. -/
def requesterDie : Requester → Nat
  | .core n => n / 16 % 4
  | .queueEngine d => d % 4
  | .beryl d => d % 4
  | .collective d => d % 4
  | .update d => d % 4
  | .jasper d => d % 4
  | .fabric d => d % 4
  | .integrity d => d % 4

/-- Is a granule's stack at hand to a requester: up, with a path to its die, by bit 0 of its chunk's t (R377)? -/
def State.stackNear (s : State) (r : Requester) (g : Nat) : Bool :=
  s.stackUp (granStack g) && s.reaches (requesterDie r) (granStack g / 3) (g / 4 / 12)

/-- A requester's access to a granule has completed with error of a KIND: the requester raises CONTAINED, with the WRITER that MC_LAST_ERR
holds, unless Table 6.10 gives the uncorrectable granule another consequence; of a peer package's access the target records a refusal as INFO
(R50, R51, R214). -/
def State.accessFailed (s : State) (r : Requester) (g kind : Nat) : State :=
  match r with
  | .fabric d =>
    if kind = 0 then s.raise (d % 4) ⟨.info, 0x0048, 0x08, d % 4, g * 128, (Config.recordArg 0x48 0 [g]).toNat, (Config.recordArg 0x48 1 [g]).toNat, 0⟩ else s
  | _ =>
    if (kind = 1 ∨ kind = 2) ∧ (s.mem.region (granRegion g)).cls ≠ 0 then s
    else
      let k := granStack g
      let w := if kind = 0 then 0xFF else fld (s.reg (k / 3) (oMcLastErr + 0x40 * (k % 3))) 48 8
      s.raise (requesterDie r) (memRec .contained g kind w)

/-- An access of a Jasper cluster outside the stacks completes with error: the lead die's cluster raises CONTAINED with the address; the
spec gives the record no cause (R50). (DEDUCED, log entry 55.) -/
def State.clusterFailed (s : State) (addr : Nat) : State :=
  s.raise s.lead ⟨.contained, (Config.recordArg 0 4 [addr]).toNat % 65536, 0x0A, s.lead, addr, 0, 0, 0⟩

/-- Set LOST on every region, as a cold loss does (R217). -/
def State.loseRegions (s : State) : State :=
  { s with mem := { s.mem.allRegions (fun r => { r with lost := true }) with coldLost := true } }

/-- Record a pin as failed (R192): an erasure, DEGRADED from the first one; a third pin of one channel fails the stack, which
is handled as a cold loss and takes the package out of its domain. -/
def State.erasePin (s : State) (ch sym : Nat) : State :=
  let k := ch / 32
  let d := k / 3
  let old := mapGet (fun _ => []) s.mem.erased ch
  let s := { s with mem := { s.mem with erased := mapSet (fun _ => []) s.mem.erased ch (old ++ [sym]) } }
  let s := s.setF d (stackF k fMcPinfailLastCh) (ch % 32)
  let s := s.setF d (stackF k fMcPinfailLastSym) sym
  let s := s.raise d ⟨.info, 0x0012, 0x04, k, 0, ch % 32, sym, 0⟩
  match old.length with
  | 0 => (s.bump d (stackF k fMcPinfailOne) 1).setFunc (stackFunc k) 3
  | 1 => (s.setF d (stackF k fMcPinfailOne) (s.getF d (stackF k fMcPinfailOne) - 1)).bump d (stackF k fMcPinfailTwo) 1
  | _ =>
    let s := s.setFunc (stackFunc k) 5
    s.loseRegions.raise d ⟨.packageFatal, 0x0063, 0x04, k, 0, d, 1, 0⟩

/-- Has a stack an erased pin (R192)? Its function then reports DEGRADED until a reset of the die. -/
def State.pinsErased (s : State) (k : Nat) : Bool := s.mem.erased.any (fun (e : Nat × List Nat) => e.1 / 32 == k && !e.2.isEmpty)

/-- Count the correction of one symbol position; 256 within one millisecond erase its pin (R192). -/
def State.countPin (s : State) (ch : Nat) (sym : Nat) : State :=
  let now := (s.reg (ch / 96) oDieTimebase).toNat
  let key := 72 * ch + sym
  let l := (mapGet (fun _ => []) s.mem.pins key).filter (fun t => decide (now < t + 1000000)) ++ [now]
  let set (l : List Nat) : State := { s with mem := { s.mem with pins := mapSet (fun _ => []) s.mem.pins key l } }
  if l.length ≥ 256 && !(mapGet (fun _ => []) s.mem.erased ch).contains sym then (set []).erasePin ch sym else set l

/-- Count a corrected read of a granule and raise its record under R211. `fixes` are the symbols corrected. -/
def State.noteCorr (s : State) (g : Nat) (fixes : List SymErr) : State :=
  let ch := granChan g
  let k := ch / 32
  let d := k / 3
  let s := s.bump d (stackF k fMcCorrCntCount) 1
  let erased := mapGet (fun _ => []) s.mem.erased ch
  let s := (fixes.filter (fun e => !erased.contains e.pos)).foldl (fun s e => s.countPin ch e.pos) s
  let now := (s.reg d oDieTimebase).toNat
  let due : Bool := match mapGet (fun _ => none) s.mem.recAt ch with
    | none => true
    | some t => decide (now ≥ t + s.getF d fMcCfgCrecMs * 1000000)
  if due then
    ({ s with mem := { s.mem with recAt := mapSet (fun _ => none) s.mem.recAt ch (some now) } }).raise d
      ⟨.corrected, 0x0010, 0x04, k, g * 128, ch % 32, (fixes.head?.map SymErr.pos).getD 0, 0⟩
  else s

/-- A FIRMWARE granule waits until its region has been restored from flash, which is asked for once (R214, R449). (DEDUCED, log entry 32.) -/
def State.restoreAsk (s : State) (g : Nat) : State :=
  let o : FlashOp := .restore (granRegion g)
  { s with
    mem := { s.mem with restoring := s.mem.restoring ++ [g] }
    flash := if s.flash.ops.contains o then s.flash else { s.flash with ops := s.flash.ops ++ [o] } }

/-- What an uncorrectable granule leads to by its region's class (Table 6.10), the requester's own record apart. -/
def State.uncorrEffect (s : State) (g kind writer : Nat) : MemRes × State :=
  let s := s.noteUncorr g kind writer
  match (s.mem.region (granRegion g)).cls with
  | 0 => (.err kind, s)
  | 3 => (.wait, s.restoreAsk g)
  | _ => (.err kind, s.raise (granStack g / 3) (memRec .jobFatal g kind writer))

/-- The merge buffer of a channel, oldest entry first (R206). -/
def MemState.mergeBuf (m : MemState) (ch : Nat) : List MergeEntry := mapGet (fun _ => []) m.merge ch

/-- Replace the merge buffer of a channel. -/
def MemState.setMerge (m : MemState) (ch : Nat) (l : List MergeEntry) : MemState :=
  { m with merge := mapSet (fun _ => []) m.merge ch l }

/-- The merge entry of a granule. -/
def MemState.entryOf (m : MemState) (g : Nat) : Option MergeEntry := (m.mergeBuf (granChan g)).find? (fun e => e.gran == g)

/-- Remove the merge entry of a granule. -/
def MemState.dropEntry (m : MemState) (g : Nat) : MemState :=
  m.setMerge (granChan g) ((m.mergeBuf (granChan g)).filter (fun e => e.gran != g))

/-- A granule as steps 3 to 6 of R196 deliver it, merge buffer apart: an earlier-epoch granule as zeros with the region's EPOCH and no writer.
(DEDUCED, log entry 32.) -/
def State.readStack (s : State) (g : Nat) : MemRes × State :=
  let r := s.mem.region (granRegion g)
  let deliver (s : State) (v : GranBits) (k : GranMeta) : MemRes × State :=
    if k.epoch ≠ r.epoch then (.ok 0 ⟨0, r.epoch, 0xFF⟩, s)
    else if chkOf v = k.chk then (.ok v k, s)
    else s.uncorrEffect g 2 k.writer
  match s.mem.decode g with
  | .clean v k => deliver s v k
  | .corrected f v k =>
    let s := s.noteCorr g f
    deliver (if r.cls = 0 then s else { s with mem := s.mem.put g v k }) v k
  | .bad => s.uncorrEffect g 1 0xFF

/-- The bits a byte mask covers. -/
def maskToBits (mask : BitVec 128) : GranBits :=
  BitVec.ofNat 1024 (leNat ((span 0 128).map (fun i => if bit mask i then 0xFF else 0)))

/-- A granule as a read would find it, without reading it: of the current epoch, with what its merge entry holds. -/
def MemState.view (m : MemState) (g : Nat) : GranBits :=
  let v := if (m.metaOf g).epoch = (m.region (granRegion g)).epoch then m.gran g else 0
  match m.entryOf g with
  | none => v
  | some e => mergeBits v e.data (maskToBits e.mask)

/-- The writes of an entry complete (R209): those that came as commands of their own are shown to. -/
def State.answerWrites (s : State) (e : MergeEntry) (err : Option Nat) : State :=
  (e.writes.filter (fun w => w.2)).foldl (fun s w => s.send (.narrowDone w.1 (e.gran * 128) err)) s

/-- Write a merge entry out (R208, R209): refused where the region is LOST; a full write without a read, or a read-merge-write; the second result
is the KIND of a failed write-out, which completes every write of the entry with error. While a FIRMWARE granule waits to be restored the
entry waits too. (DEDUCED, log entry 32.) -/
def State.flushEntry (s : State) (e : MergeEntry) : Option Nat × State :=
  let k := granStack e.gran
  let d := k / 3
  let gone (s : State) : State := { s with mem := s.mem.dropEntry e.gran }
  let put (s : State) (v : GranBits) : State :=
    ({ s with mem := s.mem.put e.gran v ⟨chkOf v, (s.mem.region (granRegion e.gran)).epoch, e.writer.code⟩ }).answerWrites e none
  if (s.mem.region (granRegion e.gran)).lost then (some 3, ((gone s).noteUncorr e.gran 3 0xFF).answerWrites e (some 3))
  else if e.mask = BitVec.allOnes 128 then (none, put ((gone s).bump d (stackF k fMcMergeFullCntCount) 1) e.data)
  else
    let count (s : State) : State := s.bump d (stackF k fMcRmwCntCount) 1
    match s.readStack e.gran with
    | (.ok v _, s) => (none, put (gone (count s)) (mergeBits v e.data (maskToBits e.mask)))
    | (.err kind, s) => (some kind, (gone (count s)).answerWrites e (some kind))
    | (.wait, s) => (none, s)

/-- Raise the records of writes merged into an entry whose write-out failed (R209); streams and engines that must stop on
it are handled where they wait. -/
def State.failWrites (s : State) (l : List (Requester × Bool)) (g kind : Nat) : State := l.foldl (fun s q => s.accessFailed q.1 g kind) s

/-- Write out the merge entry of a granule, if it has one. -/
def State.flushGran (s : State) (g : Nat) : State :=
  match s.mem.entryOf g with
  | none => s
  | some e => match s.flushEntry e with
    | (none, s) => s
    | (some k, s) => s.failWrites e.writes e.gran k

/-- Discard the merge entry of a granule, if it has one: its writes are complete (R209). -/
def State.dropMerge (s : State) (g : Nat) : State :=
  match s.mem.entryOf g with
  | none => s
  | some e => ({ s with mem := s.mem.dropEntry g }).answerWrites e none

/-- A stack-memory read of one granule in the order of R196. (DESIGN CHOICE, log entry 69.) -/
def State.memRead (s : State) (q : Requester) (g : Nat) : MemRes × State :=
  let r := s.mem.region (granRegion g)
  if g ≥ stackBytes / 128 then (.err 0, s)
  else if !s.stackNear q g then (.err 0, s)
  else if !mayRead r.cls q then (.err 0, s)
  else if r.lost then (.err 3, s.noteUncorr g 3 0xFF)
  else (s.flushGran g).readStack g

/-- A full-granule write in the order of R196. -/
def State.memWrite (s : State) (q : Requester) (g : Nat) (v : GranBits) (chk : BitVec 16) : MemRes × State :=
  let r := s.mem.region (granRegion g)
  if g ≥ stackBytes / 128 then (.err 0, s)
  else if !s.stackNear q g then (.err 0, s)
  else if !mayWrite r.cls q then (.err 0, s)
  else if r.lost then (.err 3, s.noteUncorr g 3 0xFF)
  else if chkOf v ≠ chk then (.err 4, s.noteUncorr g 4 0xFF)
  else
    let s := s.dropMerge g
    (.ok v ⟨chk, r.epoch, q.code⟩, { s with mem := s.mem.put g v ⟨chk, r.epoch, q.code⟩ })

/-- A full-granule write whose block check the writer computes. -/
def State.memPut (s : State) (q : Requester) (g : Nat) (v : GranBits) : MemRes × State := s.memWrite q g v (chkOf v)

/-- A narrow write (R206, R207): checked, merged into the granule's entry or a new one, and written out where Table 6.9 says
so. `own` says that it came as a command of its own. The first result is the KIND of an error completion. -/
def State.narrow (s : State) (q : Requester) (g : Nat) (mask : BitVec 128) (v : GranBits) (crc : BitVec 16) (flush own : Bool) :
    Option Nat × State :=
  let r := s.mem.region (granRegion g)
  let view := v &&& maskToBits mask
  if g ≥ stackBytes / 128 then (some 0, s)
  else if !s.stackNear q g then (some 0, s)
  else if !mayWrite r.cls q then (some 0, s)
  else if r.lost then (some 3, s.noteUncorr g 3 0xFF)
  else if chkOf view ≠ crc then (some 5, s.noteUncorr g 5 0xFF)
  else
    let ch := granChan g
    let buf := s.mem.mergeBuf ch
    let s := match s.mem.entryOf g with
      | some e =>
        let e' : MergeEntry := { e with mask := e.mask ||| mask, data := mergeBits e.data v (maskToBits mask), writer := q, writes := e.writes ++ [(q, own)] }
        { s with mem := s.mem.setMerge ch (buf.map (fun (x : MergeEntry) => if x.gran = g then e' else x)) }
      | none =>
        let s := if buf.length ≥ 64 then (match buf.head? with | some o => s.flushGran o.gran | none => s) else s
        let e' : MergeEntry := ⟨g, mask, view, q, [(q, own)]⟩
        { s with mem := s.mem.setMerge ch (s.mem.mergeBuf ch ++ [e']) }
    match s.mem.entryOf g with
    | none => (none, s)
    | some e =>
      if flush || e.mask == BitVec.allOnes 128 then (match s.flushEntry e with
        | (none, s) => (none, s)
        | (some k, s) => (some k, s.failWrites e.writes.dropLast g k))
      else (none, s)

/-- The granule view of bytes written at an offset. -/
def narrowView (off : Nat) (bs : List Byte) : GranBits := BitVec.ofNat 1024 (leNat bs * 2 ^ (8 * off))

/-- The byte mask of `n` bytes at an offset. -/
def narrowMask (off n : Nat) : BitVec 128 := BitVec.ofNat 128 ((2 ^ n - 1) * 2 ^ off)

/-- Does a requester set FLUSH on every narrow write: Beryl units and Jasper clusters (R209)? -/
def alwaysFlushes : Requester → Bool
  | .beryl _ => true
  | .jasper _ => true
  | _ => false

/-- A narrow write of bytes at a local address within one granule, with a right CRC. -/
def State.narrowAt (s : State) (q : Requester) (a : Nat) (bs : List Byte) (flush : Bool) : Option Nat × State :=
  s.narrow q (a / 128) (narrowMask (a % 128) bs.length) (narrowView (a % 128) bs) (chkOf (narrowView (a % 128) bs)) (flush || alwaysFlushes q) false

/-- Bytes of a granule read by a requester at a local address; none on an error completion. -/
def State.readBytes (s : State) (q : Requester) (a n : Nat) : Option (List Byte) × State :=
  match s.memRead q (a / 128) with
  | (.ok v _, s) => (some (((leBytes v.toNat 128).drop (a % 128)).take n), s)
  | (_, s) => (none, s)

/-- The EPOCH a sweep finds in a granule, unless it is uncorrectable (R198). -/
def MemState.epochSeen (m : MemState) (g : Nat) : Option Nat :=
  match m.decode g with
  | .clean _ k => some k.epoch
  | .corrected _ _ k => some k.epoch
  | .bad => none

/-- The epoch sweep of a region (R198, step 1): granules of another EPOCH become zeros of the current one; a granule that is
uncorrectable is left as it is. (DEDUCED, log entry 7.) -/
def MemState.sweepRegion (m : MemState) (r : Nat) : MemState :=
  let cur := m.region r
  let stale (g : Nat) : Bool := granRegion g == r && (match m.epochSeen g with | some e => e != cur.epoch | none => false)
  let keep : List (Nat × GranMeta) := (m.errs.map Prod.fst).filterMap (fun g => if granRegion g == r && !stale g then some (g, m.metaOf g) else none)
  let m1 := { m with data := mapDrop (fun a => stale (a / 128)) m.data, gmeta := mapDrop stale m.gmeta, errs := mapDrop stale m.errs }
  let m2 := m1.setRegion r { cur with age := 0, swept := cur.epoch, anew := 0 }
  let m3 := { m2 with gmeta := m2.gmeta.filter (fun e => e.2 != m2.metaRest e.1) }
  keep.foldl (fun (m : MemState) (e : Nat × GranMeta) => { m with gmeta := mapSet m.metaRest m.gmeta e.1 e.2 }) m3

/-- One epoch increment of a region (R198); merge entries of the region are discarded first (Table 6.9). -/
def MemState.incEpoch (m : MemState) (r : Nat) : MemState :=
  let m := { m with merge := (m.merge.map (fun (e : Nat × List MergeEntry) => (e.1, e.2.filter (fun (x : MergeEntry) => granRegion x.gran != r)))).filter (fun (e : Nat × List MergeEntry) => !e.2.isEmpty) }
  let m := if (m.region r).age ≥ 63 then m.sweepRegion r else m
  let e := m.region r
  m.setRegion r { e with epoch := (e.epoch + 1) % 64, age := e.age + 1 }

/-- Apply a region operation (Table 6.13) to one region. -/
def MemState.regionOp (m : MemState) (op cls : Nat) (r : Nat) : MemState :=
  match op with
  | 0 => m.incEpoch r
  | 1 => m.setRegion r { m.region r with cls := cls }
  | 2 => m.setRegion r { m.region r with lost := true }
  | _ => (m.setRegion r { m.region r with lost := false }).incEpoch r

/-- Apply a region operation to a run of regions. -/
def MemState.regionRun (m : MemState) (op cls first count : Nat) : MemState :=
  (span first count).foldl (fun m r => m.regionOp op cls r) m

/-- What the controllers note as they apply a region operation to a run of regions (R198, R209, R211, R214): the merge entries that an increment
discards are complete, and a sweep's corrections and uncorrectable granules count. -/
def State.regionNotes (s : State) (op first count : Nat) : State :=
  if op = 1 ∨ op = 2 then s
  else
    let mine (g : Nat) : Bool := decide (first ≤ granRegion g ∧ granRegion g < first + count)
    let s := ((s.mem.merge.flatMap Prod.snd).filter (fun e => mine e.gran)).foldl (fun (s : State) e => s.answerWrites e none) s
    ((s.mem.errs.map Prod.fst).filter (fun g => mine g && decide ((s.mem.region (granRegion g)).age ≥ 63))).foldl (fun (s : State) g =>
      match s.mem.decode g with
      | .clean _ _ => s
      | .corrected f _ _ => s.noteCorr g f
      | .bad => s.noteUncorr g 1 0xFF) s

/-- Apply a region operation to a run of regions (R198, R199). -/
def State.regionRun (s : State) (op cls first count : Nat) : State :=
  let s := s.regionNotes op first count
  { s with mem := s.mem.regionRun op cls first count }

end Sys2Proof.Machine
end

