-- ==== Sys2Proof/Machine/Operands.lean ====
section
/-!
DEFINITION. Operand forms every engine shares: the scratchpad address operand and its span checks (R60, R61, R80), the
sequencer's fetch (R68, R79, R80, R342, R343), and global addresses (R17).
-/

namespace Sys2Proof.Machine

/-- A field of a word's OPERANDS (bits [95:0] of the word). -/
def opf (e : QEntry) (lo w : Nat) : Nat := fld e.word lo w

/-- The opcode of a word (Table 2.2). -/
def opcodeOf (w : InstrWord) : Nat := fld w 112 12

/-- Index register `i` as the word read it at dispatch (R62); X0 reads zero (R60). -/
def QEntry.xreg (e : QEntry) (i : Nat) : BitVec 32 := if i = 0 then 0 else mapGet (fun _ => 0) e.x i

/-- The effective word address of the scratchpad address operand at bit `lo` (R60). -/
def spaAddr (e : QEntry) (lo : Nat) : Nat := (opf e lo 18 + (e.xreg (opf e (lo + 18) 4)).toNat) % 2 ^ 32

/-- The reserved bits of a scratchpad address operand (Table 2.4). -/
def spaReserved (e : QEntry) (lo : Nat) : Nat := opf e (lo + 22) 2

/-- Populated words of a scratchpad (R61). -/
def spadWords : Nat := 196608

/-- A refusal found by a check: its halt cause, the address its record names (R498), and whether it is an uncorrectable read of a weight
store, tag store or group store (Table 11.6). -/
structure Refuse where
  cause : Nat
  addr : Nat
  own : Bool
deriving DecidableEq, Repr

/-- Why a span of words may not be accessed, if it may not (R61, R80, R164): beyond the populated range, or reaching the
instruction region. -/
def State.spanFault (s : State) (pc start n : Nat) : Option Refuse :=
  if n = 0 then none
  else if start + n > spadWords then some ⟨0x03, max start spadWords, false⟩
  else if start + n > s.irBase pc then some ⟨0x05, max start (s.irBase pc), false⟩
  else none

/-- The first refusal of a list of checks. (DEDUCED, log entry 25.) -/
def firstRefuse : List (Option Refuse) → Option Refuse
  | [] => none
  | some r :: _ => some r
  | none :: l => firstRefuse l

/-- A check that refuses with a cause when a condition holds. -/
def refuseIf (b : Bool) (cause : Nat) : Option Refuse := if b then some ⟨cause, 0, false⟩ else none

/-- Where a global address leads (R17): local, another package, or an address that completes with error. -/
inductive GAddr
  | loc (a : Nat)
  | remote (pkg a : Nat)
  | bad
deriving DecidableEq, Repr

/-- Resolve a global address (R17). -/
def State.resolve (s : State) (g : Nat) : GAddr :=
  let sp := natBits g 60 4
  let pk := natBits g 48 12
  let a := natBits g 0 48
  if sp = 0 then (if pk = 0 then .loc a else .bad)
  else if sp = 1 then (if !s.idValid then .bad else if pk = s.pkgId then .loc a else .remote pk a)
  else .bad

/-- What fetching a stream's next word finds: the word, the corrections made and the line it came in; a refusal; or a wait. -/
inductive Fetched
  | word (w : InstrWord) (corrs : List (Nat × Nat)) (line : FetchLine)
  | refused (addr : Nat) (corrs : List (Nat × Nat)) (nbad : Nat)
  | held
deriving DecidableEq, Repr

/-- Instruction-region words of a core (R80). -/
def State.irWords (s : State) (pc : Nat) : Nat := s.coreGet pc fSeqIrCfgPages * 4096

/-- The scratchpad words of a line of the instruction region. -/
def State.lineWords (s : State) (pc line : Nat) : List Nat := span (s.irBase pc + line * 4) 4

/-- One of the sixteen words of a line. -/
def FetchLine.at (l : FetchLine) (cur : Nat) : InstrWord := BitVec.ofNat 128 (wordsNat l.words >>> (128 * (cur % 16)))

/-- Fetch the word at a stream's CURRENT address (R68): from a line of the fetch buffer, or from its 256 B line in the scratchpad. It is refused
beyond the region (R80), on an uncorrectable word, and on a granule of the line that fails its block check (R343); held while an IRLOAD
writes the page (R76). -/
def State.fetch (s : State) (pc : Nat) (st : Stream) : Fetched :=
  let c := s.core pc
  let cur := (c.stream st).cur
  if cur ≥ s.irWords pc then .refused cur [] 0
  else if (c.crit.irloads ++ c.defr.irloads).any (fun i => i.page == cur / 4096) then .held
  else match (c.stream st).buf.find? (fun l => l.line == cur / 16) with
  | some l => .word (l.at cur) [] l
  | none =>
    let ws := s.lineWords pc (cur / 16)
    let rd := spadReads pc c ws
    match rd.bad with
    | some w => .refused ((w - s.irBase pc) * 4) rd.corrs 1
    | none =>
      match badChks pc c ws with
      | (g, _, _) :: _ => .refused ((2 * g - s.irBase pc) * 4) rd.corrs 0
      | [] => .word (FetchLine.at ⟨cur / 16, rd.vals⟩ cur) rd.corrs ⟨cur / 16, rd.vals⟩

/-- Keep a line in a fetch buffer of four, the oldest giving way (R68). -/
def StreamCtl.keepLine (x : StreamCtl) (l : FetchLine) : StreamCtl :=
  if x.buf.contains l then x else { x with buf := (x.buf ++ [l]).drop (x.buf.length - 3) }

/-- Instruction-region words are corrected and written back at once (R79, R210). -/
def State.fixIr (s : State) (pc : Nat) (corrs : List (Nat × Nat)) : State :=
  if corrs.isEmpty then s
  else s.modCore pc (fun c => corrs.foldl (fun c e =>
    match c.spadWord e.1 with
    | .stored d _ => c.putWord e.1 d
    | .unwritten => match (spadDecode pc c e.1).val with
      | some v => c.putWord e.1 v
      | none => c) c)

end Sys2Proof.Machine
end

