-- ==== Sys2Proof/Machine/Upset.lean ====
section
/-!
DEFINITION. Upsets of a core's on-die memory (R87, R129, R193): wrong symbols in scratchpad words, weight slots, accumulator banks and their
tag and group stores, and how an uncorrectable one refuses the word that reads it.
-/

namespace Sys2Proof.Machine

/-- More symbols of a stored scratchpad word are wrong. -/
def Core.damageWord (c : Core) (w : Nat) (errs : List SymErr) : Core :=
  match c.spadWord w with
  | .stored v old =>
    let r := strike v old errs
    { c with spad := mapSet (fun _ => .unwritten) c.spad w (.stored r.1 r.2) }
  | .unwritten => c

/-- The wrong symbols that a table lists under a key. -/
def errsAt (m : SMap (List SymErr)) (k : Nat) : List SymErr := mapGet (fun _ => []) m k

/-- List the wrong symbols of a word under a key. -/
def setErrs (m : SMap (List SymErr)) (k : Nat) (l : List SymErr) : SMap (List SymErr) := mapSet (fun _ => []) m k l

/-- Is a word with these wrong symbols beyond correction (R193)? -/
def lostWord (l : List SymErr) : Bool := decide (3 ≤ l.length)

/-- Is a word with these wrong symbols corrected as it is read (R193)? -/
def fixedWord (l : List SymErr) : Bool := decide (1 ≤ l.length ∧ l.length ≤ 2)

/-- The word of block checks `k` of a core (R193), 32 checks. (DESIGN CHOICE, log entry 9.) -/
def sideWord (pc : Nat) (c : Core) (k : Nat) : SpadBits :=
  BitVec.ofNat 512 (packElems 16 ((span (32 * k) 32).map (fun g => (spadChkStored pc c g).toNat)))

/-- The bits of a group-store entry (R129): descriptor, over-range count, fresh bits, owner and flags. (DESIGN CHOICE, log entry 9.) -/
def Group.bits (g : Group) : SpadBits :=
  BitVec.ofNat 512 (g.desc.toNat + 2 ^ 32 * (g.ovf % 2 ^ 32) + 2 ^ 64 * g.fresh.toNat + 2 ^ 128 * g.freshHi.toNat
    + 2 ^ 192 * (g.owner.code + 2 * b2n g.ufr + 4 * b2n g.wrap + 8 * b2n g.nonfin))

/-- A group-store entry as a wrong word gives it (R129): descriptor, owner, fresh bits and flags; its number and its bytes are not in the
store. (DESIGN CHOICE, log entry 9.) -/
def Group.garbled (g : Group) (v : SpadBits) : Group :=
  { g with desc := BitVec.ofNat 32 (fld v 0 32), ovf := fld v 32 32, fresh := BitVec.ofNat 64 (fld v 64 64), freshHi := BitVec.ofNat 64 (fld v 128 64)
           owner := if bit v 192 then .defr else .crit, ufr := bit v 193, wrap := bit v 194, nonfin := bit v 195 }

/-- A word of a weight slot: the tile's words, then the scales'. -/
def Slot.word (x : Slot) (w : Nat) : SpadBits := (x.tile ++ x.scales).getD w 0

/-- Put a word into a weight slot. -/
def Slot.putWord (x : Slot) (w : Nat) (v : SpadBits) : Slot :=
  { x with tile := x.tile.set w v, scales := if w < x.tile.length then x.scales else x.scales.set (w - x.tile.length) v }

/-- A word of an accumulator bank as its eight 8 B units hold it. -/
def ArrayState.bankWord (a : ArrayState) (w : Nat) : SpadBits :=
  BitVec.ofNat 512 (packElems 64 ((span (8 * w) 8).map (fun i => ((mapGet (fun _ => none) a.bank i).map BitVec.toNat).getD 0)))

/-- A word of the tag store of an accumulator bank: 256 tags. (DESIGN CHOICE, log entry 9.) -/
def ArrayState.tagWord (a : ArrayState) (w : Nat) : SpadBits :=
  BitVec.ofNat 512 (packElems 2 ((span (256 * w) 256).map (fun i => (mapGet (fun _ => (0 : BitVec 2)) a.tags i).toNat)))

/-- The effect of one upset on a core (R193): the symbol's bits flip, and a word that comes to lie near another code word becomes that word with
its symbols wrong. (DESIGN CHOICE, log entry 20.) -/
def Core.upset (pc : Nat) (c : Core) (u : Upset) : Core :=
  match u with
  | .spad w p f => if f = 0 then c else c.damageWord w.toNat [⟨p, f.toNat⟩]
  | .side k p f =>
    let r := strike (sideWord pc c k) (errsAt c.sideErrs k) [⟨p, f.toNat⟩]
    let c := if r.1 = sideWord pc c k then c
      else { c with spadChk := (span 0 32).foldl (fun m i => mapSet (fun _ => none) m (32 * k + i) (some (BitVec.ofNat 16 (fld r.1 (16 * i) 16)))) c.spadChk }
    { c with sideErrs := setErrs c.sideErrs k r.2 }
  | .slot j k w p f =>
    let a := c.array j
    let x := a.slot k
    if x.tile.length + x.scales.length ≤ w then c
    else
      let r := strike (x.word w) (errsAt x.errs w) [⟨p, f.toNat⟩]
      c.setArray j (a.setSlot k { x.putWord w r.1 with errs := setErrs x.errs w r.2 })
  | .bank j w p f =>
    let a := c.array j
    if (span (8 * w) 8).all (fun i => (mapGet (fun _ => none) a.bank i).isNone) then c
    else
      let r := strike (a.bankWord w) (errsAt a.bankErrs w) [⟨p, f.toNat⟩]
      let b := if r.1 = a.bankWord w then a.bank
        else (span 0 8).foldl (fun m i => mapSet (fun _ => none) m (8 * w + i) (some (BitVec.ofNat 64 (fld r.1 (64 * i) 64)))) a.bank
      c.setArray j { a with bank := b, bankErrs := setErrs a.bankErrs w r.2 }
  | .tags j w p f =>
    let a := c.array j
    let r := strike (a.tagWord w) (errsAt a.tagErrs w) [⟨p, f.toNat⟩]
    let t := if r.1 = a.tagWord w then a.tags
      else (span 0 256).foldl (fun m i => mapSet (fun _ => 0) m (256 * w + i) (BitVec.ofNat 2 (fld r.1 (2 * i) 2))) a.tags
    c.setArray j { a with tags := t, tagErrs := setErrs a.tagErrs w r.2 }
  | .group j g p f =>
    let a := c.array j
    let r := strike (a.group g).bits (errsAt a.groupErrs g) [⟨p, f.toNat⟩]
    let a := if r.1 = (a.group g).bits then a else a.setGroup g ((a.group g).garbled r.1)
    c.setArray j { a with groupErrs := setErrs a.groupErrs g r.2 }

/-- Upsets of the core that holds a logical core. (DESIGN CHOICE, log entry 20.) -/
def State.upsetCore (s : State) (lc : Nat) (hits : List Upset) : State :=
  match s.physOf lc with
  | none => s
  | some pc => s.modCore pc (fun c => hits.foldl (Core.upset pc) c)

/-! ### Reads of the stores (R129) -/

/-- The refusal of a word that reads a store of array `j` beyond correction (R87, R129): `w` numbers the bank's words, from 4,096 on those of
the tag store, from 8,192 on the slots and from 16,384 on the groups. How the record names them is open. (DESIGN CHOICE, log entry 12.) -/
def storeRefuse (j w : Nat) : Refuse := ⟨0x04, (Config.recordArg 1 1 [j, w]).toNat, decide (4096 ≤ w)⟩

/-- Words of the bank (if `bank`) and of the tag store (if `tag`) that a byte range touches: the first beyond correction, and how many are
corrected (R129, R210). -/
def ArrayState.bankScan (a : ArrayState) (bank tag : Bool) (off n : Nat) : Option Nat × Nat :=
  let ws := if bank then span (off / 64) ((off + n + 63) / 64 - off / 64) else []
  let ts := if tag then span (off / 2048) ((off + n + 2047) / 2048 - off / 2048) else []
  ((ws.find? (fun w => lostWord (errsAt a.bankErrs w))).orElse (fun _ => (ts.find? (fun w => lostWord (errsAt a.tagErrs w))).map (· + 4096)),
   (ws.filter (fun w => fixedWord (errsAt a.bankErrs w))).length + (ts.filter (fun w => fixedWord (errsAt a.tagErrs w))).length)

/-- The first of some groups of array `j` that is open and whose group-store entry cannot be read. -/
def ArrayState.groupsLost (a : ArrayState) (j : Nat) (gs : List Nat) : Option Refuse :=
  (gs.find? (fun g => (a.group g).isOpen && lostWord (errsAt a.groupErrs g))).map (fun g => storeRefuse j (16384 + g))

/-- How many of some groups have an entry that is corrected as it is read. -/
def ArrayState.groupsFixed (a : ArrayState) (gs : List Nat) : Nat :=
  (gs.filter (fun g => fixedWord (errsAt a.groupErrs g))).length

end Sys2Proof.Machine
end

