-- ==== Sys2Proof/Machine/Accum.lean ====
section
/-!
DEFINITION. Accumulation groups: block values (R95, R118, R119, R122), the combine operations (R120, R123 to R125), reading
and writing group elements in the bank, closing a group (R141), and conversion on export and read (R134, R135, R139).
-/

namespace Sys2Proof.Machine

/-- Format code of a descriptor (Table 4.5). -/
def gFormat (d : BitVec 32) : Nat := fld d 0 4
/-- Window exponent L of a descriptor, signed (R116). -/
def gLsb (d : BitVec 32) : Int := signed 10 (fld d 4 10)
/-- Combine operation of a descriptor. -/
def gComb (d : BitVec 32) : Nat := fld d 14 3
/-- Rounding of products of a descriptor (R118). -/
def gRnd (d : BitVec 32) : Rnd := if fld d 17 2 = 1 then .rtz else .rne
/-- Height H of a descriptor. -/
def gHeight (d : BitVec 32) : Nat := 8 * 2 ^ fld d 19 2
/-- Width B of a descriptor. -/
def gWidth (d : BitVec 32) : Nat := 8 * 2 ^ fld d 21 2
/-- Element size z in bytes (R127). -/
def gSize (d : BitVec 32) : Nat := match gFormat d with | 0 => 4 | 10 => 8 | _ => 16
/-- Integer width N of an XA format (R115), 32 for FP32. -/
def gBits (d : BitVec 32) : Nat := 8 * gSize d
/-- Bytes a group occupies (R127). -/
def gBytes (d : BitVec 32) : Nat := gHeight d * gWidth d * gSize d
/-- Is the format FP32? -/
def gIsF32 (d : BitVec 32) : Bool := gFormat d == 0

/-- Merge two non-finite tags (R117). -/
def tagMerge (a b : Nat) : Nat :=
  if a = 3 ∨ b = 3 then 3
  else if (a = 1 ∧ b = 2) ∨ (a = 2 ∧ b = 1) then 3
  else if a = 1 ∨ b = 1 then 1
  else if a = 2 ∨ b = 2 then 2
  else 0

/-- The tag a product carries (R95). -/
def tagOf : Num → Nat
  | .fin _ _ _ => 0
  | .inf n => if n then 2 else 1
  | .nan => 3

/-- A block value: its integer (or FP32 pattern), its tag, the over-range products, and whether a product was rounded. -/
structure BlockVal where
  val : Int
  tag : Nat
  ovf : Nat
  ufr : Bool
deriving DecidableEq, Repr

/-- Bring one product into an XA window (R118, R119) and add it. -/
def alignAdd (md : Rnd) (l : Int) (t : Int) (acc : BlockVal) (p : Num) : BlockVal :=
  match p with
  | .fin neg m e =>
    let r := roundGrid md m e l
    let ov := decide ((r.1 : Int) ≥ t)
    let q : Int := if ov then t - 1 else r.1
    { val := acc.val + (if neg then -q else q), tag := acc.tag, ovf := acc.ovf + b2n ov, ufr := acc.ufr || r.2 }
  | p => { acc with tag := tagMerge acc.tag (tagOf p) }

/-- The largest exponent of the finite non-zero products (R122, step 1). -/
def maxExp (ps : List Num) : Option Int :=
  ps.foldl (fun a p => match p with
    | .fin _ m e => if m = 0 then a else
      let x : Int := (Nat.log2 m : Int) + e
      some (match a with | none => x | some y => max x y)
    | _ => a) none

/-- The block value of the products of one element for a group (R95, R118, R119, R122). -/
def blockValue (d : BitVec 32) (ps : List Num) : BlockVal :=
  if gIsF32 d then
    let tag := ps.foldl (fun t p => tagMerge t (tagOf p)) 0
    match tag with
    | 0 =>
      let q : Int := match maxExp ps with | none => 0 | some e => e - 48
      let s : Int := ps.foldl (fun (a : Int) p => match p with
        | .fin neg m e => let t : Int := ((roundGrid .rtz m e q).1 : Nat); a + (if neg then -t else t)
        | _ => a) 0
      let v := toFp fp32 .rne false (.fin (decide (s < 0)) s.natAbs q)
      ⟨(v.pat : Nat), 0, 0, false⟩
    | 1 => ⟨(fp32.infPat false : Nat), 1, 0, false⟩
    | 2 => ⟨(fp32.infPat true : Nat), 2, 0, false⟩
    | _ => ⟨0x7FC00000, 3, 0, false⟩
  else
    let t : Int := if gFormat d = 10 then 2 ^ 43 else 2 ^ 87
    ps.foldl (alignAdd (gRnd d) (gLsb d) t) ⟨0, 0, 0, false⟩

/-- An element of a group: the integer bits or FP32 pattern, and the tag. -/
structure Elem where
  bits : Nat
  tag : Nat
deriving DecidableEq, Repr

/-- Order of XA operands for MAX: −∞ below finite below +∞ below NaN (Table 4.3). -/
def xaKey (n : Nat) (e : Elem) : Int × Int :=
  match e.tag with
  | 0 => (1, signed n e.bits)
  | 1 => (2, 0)
  | 2 => (0, 0)
  | _ => (3, 0)

/-- Lexicographic less on order keys. -/
def keyLt (a b : Int × Int) : Bool := decide (a.1 < b.1) || (decide (a.1 = b.1) && decide (a.2 < b.2))

/-- A bitwise combine operation (codes 3 to 5). -/
def bitComb (op a b : Nat) : Nat := match op with | 3 => a &&& b | 4 => a ||| b | _ => a ^^^ b

/-- FP32 combination by code (R22, R123). -/
def combF32 (op a b : Nat) : Nat :=
  match op with
  | 0 => toF32 ((ofF32 a).add (ofF32 b))
  | 1 => toF32 ((ofF32 a).maxMM (ofF32 b))
  | 2 => toF32 ((ofF32 a).minMM (ofF32 b))
  | _ => bitComb op a b

/-- XA combination of a stored and a new element of width `n`, with the count of wraps (R117, R120, R124). -/
def combXa (op n : Nat) (st nw : Elem) : Elem × Nat :=
  match op with
  | 0 =>
    let s := signed n st.bits + signed n nw.bits
    (⟨unsigned n s, tagMerge st.tag nw.tag⟩, b2n (decide (s < -(2 ^ (n - 1) : Nat) ∨ s ≥ (2 ^ (n - 1) : Nat))))
  | 1 => (if keyLt (xaKey n st) (xaKey n nw) then nw else st, 0)
  | 2 =>
    let win := if st.tag = 3 then st else if nw.tag = 3 then nw else if keyLt (xaKey n nw) (xaKey n st) then nw else st
    (win, 0)
  | _ => (⟨bitComb op st.bits nw.bits, tagMerge st.tag nw.tag⟩, 0)

/-- The identity of a combine operation, finite (R125). -/
def identElem (f32 : Bool) (n op : Nat) : Elem :=
  match op with
  | 1 => ⟨if f32 then 0xFF800000 else 2 ^ (n - 1), 0⟩
  | 2 => ⟨if f32 then 0x7F800000 else 2 ^ (n - 1) - 1, 0⟩
  | 3 => ⟨2 ^ n - 1, 0⟩
  | _ => ⟨0, 0⟩

/-- The 8 B unit in which element `i` of a group starts, and for FP32 the half of it. -/
def unitOf (d : BitVec 32) (base i : Nat) : Nat × Nat :=
  let off := base * 256 + i * gSize d
  (off / 8, off % 8 / 4)

/-- The stored bits of a bank unit. -/
def ArrayState.unit (a : ArrayState) (u : Nat) : Nat := ((mapGet (fun _ => none) a.bank u).map BitVec.toNat).getD 0

/-- Read element `i` of a group as stored (R127, R129). -/
def ArrayState.readElem (a : ArrayState) (d : BitVec 32) (base i : Nat) : Elem :=
  let u := unitOf d base i
  match gFormat d with
  | 0 => ⟨natBits (a.unit u.1) (32 * u.2) 32, 0⟩
  | 10 => ⟨a.unit u.1, (mapGet (fun _ => 0) a.tags u.1).toNat⟩
  | _ => ⟨a.unit u.1 + 2 ^ 64 * a.unit (u.1 + 1), (mapGet (fun _ => 0) a.tags u.1).toNat⟩

/-- Write one bank unit; the code word written is whole. -/
def ArrayState.putUnit (a : ArrayState) (u v : Nat) : ArrayState :=
  { a with bank := mapSet (fun _ => none) a.bank u (some (BitVec.ofNat 64 v)), bankErrs := mapErase a.bankErrs (u / 8) }

/-- Write the tag of a bank unit; the word of the tag store is corrected as it is merged. -/
def ArrayState.putTag (a : ArrayState) (u t : Nat) : ArrayState :=
  { a with tags := mapSet (fun _ => 0) a.tags u (BitVec.ofNat 2 t), tagErrs := mapErase a.tagErrs (u / 256) }

/-- Write element `i` of a group. -/
def ArrayState.writeElem (a : ArrayState) (d : BitVec 32) (base i : Nat) (e : Elem) : ArrayState :=
  let u := unitOf d base i
  match gFormat d with
  | 0 => a.putUnit u.1 (natPutBits (a.unit u.1) (32 * u.2) 32 e.bits)
  | 10 =>
    (a.putUnit u.1 e.bits).putTag u.1 e.tag
  | _ =>
    ((a.putUnit u.1 (e.bits % 2 ^ 64)).putUnit (u.1 + 1) (e.bits / 2 ^ 64)).putTag u.1 e.tag

/-- Is element (r, c) of a group still fresh (R125)? -/
def Group.isFresh (g : Group) (r c : Nat) : Bool := if c < 32 then bit g.fresh r else bit g.freshHi r

/-- Element (r, c) of a group as an export or a vector read sees it: the identity while the row is fresh (R125). -/
def ArrayState.seenElem (a : ArrayState) (gi r c : Nat) : Elem :=
  let g := a.group gi
  if g.isFresh r c then identElem (gIsF32 g.desc) (gBits g.desc) (gComb g.desc)
  else a.readElem g.desc g.base (r * gWidth g.desc + c)

/-- Combine a block value into element (r, c) of a group, with its flags (R119, R120, R123 to R125, R141). -/
def ArrayState.combine (a : ArrayState) (gi r c : Nat) (b : BlockVal) : ArrayState :=
  let g := a.group gi
  let d := g.desc
  let n := gBits d
  let i := r * gWidth d + c
  let nw : Elem := ⟨unsigned n b.val, if gIsF32 d then 0 else b.tag⟩
  let x : Elem × Nat :=
    if g.isFresh r c then (nw, 0)
    else if gIsF32 d then (⟨combF32 (gComb d) (a.readElem d g.base i).bits nw.bits, 0⟩, 0)
    else combXa (gComb d) n (a.readElem d g.base i) nw
  let non : Bool := if gIsF32 d then !fp32.isFin x.1.bits else x.1.tag != 0
  let g' := { g with ovf := satAdd (2 ^ 32 - 1) g.ovf (b.ovf + x.2), ufr := g.ufr || b.ufr, wrap := g.wrap || x.2 != 0, nonfin := g.nonfin || non }
  (a.writeElem d g.base i x.1).setGroup gi g'

/-- Mark a row of a group as no longer fresh in the columns a pass wrote; its group-store entry is rewritten. -/
def ArrayState.unfresh (a : ArrayState) (gi r : Nat) (lo hi : Bool) : ArrayState :=
  let g := a.group gi
  let a := a.setGroup gi { g with fresh := if lo then putFld g.fresh r 1 0 else g.fresh, freshHi := if hi then putFld g.freshHi r 1 0 else g.freshHi }
  { a with groupErrs := mapErase a.groupErrs gi }

/-- Close group `gi` of array `j`: its flags pass to the core totals and its number and bytes become free; its descriptor and
flags stay readable (R132, R141, R144). -/
def State.closeGroup (s : State) (pc j gi : Nat) : State :=
  let c := s.core pc
  let a := c.array j
  let g := a.group gi
  let s := s.setCore pc (c.setArray j (a.setGroup gi { g with isOpen := false, closing := false }))
  let s := s.coreBump pc fAccStepOvfCount g.ovf
  let s := if g.ufr then s.coreSet pc fAccStepFlagsUfr 1 else s
  let s := if g.wrap then s.coreSet pc fAccStepFlagsWrap 1 else s
  if g.nonfin then s.coreSet pc fAccStepFlagsNonfin 1 else s

/-- Close a run of groups in every array of a mask. -/
def State.closeGroups (s : State) (pc mask first n : Nat) : State :=
  (maskBits mask 4).foldl (fun s j => (span first n).foldl (fun s g => if ((s.core pc).array j |>.group g).isOpen then s.closeGroup pc j g else s) s) s

/-- Close every open group of a core, and give the mask of the groups closed, 32 bits for each array (R67, Table 11.18). -/
def State.closeAll (s : State) (pc : Nat) : Nat × State :=
  (span 0 128).foldl (fun (r : Nat × State) k =>
    if ((r.2.core pc).array (k / 32) |>.group (k % 32)).isOpen then (r.1 + 2 ^ k, r.2.closeGroup pc (k / 32) (k % 32)) else r) (0, s)

/-- The exact value of an element for conversion (R134, R139): I × 2^L or the stored FP32 value, or what its tag names. -/
def elemNum (d : BitVec 32) (e : Elem) : Num :=
  if gIsF32 d then ofF32 e.bits
  else match e.tag with
    | 0 => Num.ofInt (signed (gBits d) e.bits) (gLsb d)
    | 1 => .inf false
    | 2 => .inf true
    | _ => .nan

/-- The exact value of a group element or an XA element under an optional FP32 scale (R134): the scale is part of the exact value, and an XA zero
stays +0 whatever its sign. -/
def scaledElem (f32 : Bool) (scale : Option Nat) (x : Num) : Num :=
  let y := match scale with | some b => x.mul (ofF32 b) | none => x
  match f32, x, y with
  | false, .fin _ 0 _, .fin _ 0 e => .fin false 0 e
  | _, _, y => y

/-- Convert an exact value with an optional FP32 scale (R134); the flag says that a finite element was delivered as ±∞ or
NaN. -/
def exportConv (t : Nat) (md : Rnd) (f32 : Bool) (scale : Option Nat) (x : Num) : Conv :=
  let c := toElem t md false (scaledElem f32 scale x)
  ⟨c.pat, x.isFin && (match fmtOf t with | some f => !f.isFin c.pat | none => false)⟩

/-- What reading columns `c0` up to `c1` of row `r` of a group finds in the bank and the tag store: the first word beyond correction, and the
corrected ones. A fresh row is not read (R125), but a write merges its tags into words of the tag store. (DEDUCED, log entry 26.) -/
def ArrayState.scanRow (a : ArrayState) (wr : Bool) (gi r c0 c1 : Nat) : Option Nat × Nat :=
  let g := a.group gi
  let part (lo hi : Nat) (fresh : Bool) : Option Nat × Nat :=
    if hi ≤ lo then (none, 0)
    else a.bankScan (!fresh) (!gIsF32 g.desc && (wr || !fresh)) (g.base * 256 + (r * gWidth g.desc + lo) * gSize g.desc) ((hi - lo) * gSize g.desc)
  let x := part c0 (min c1 32) (bit g.fresh r)
  let y := part (max c0 32) c1 (bit g.freshHi r)
  (x.1.orElse (fun _ => y.1), x.2 + y.2)

/-- The same for `n` elements of a group from element `i` on, in row-major order. -/
def ArrayState.scanEls (a : ArrayState) (gi i n : Nat) : Option Nat × Nat :=
  let w := gWidth (a.group gi).desc
  if n = 0 then (none, 0)
  else (span (i / w) ((i + n - 1) / w + 1 - i / w)).foldl (fun (z : Option Nat × Nat) r =>
    let b := a.scanRow false gi r (i - r * w) (min w (i + n - r * w))
    (z.1.orElse (fun _ => b.1), z.2 + b.2)) (none, 0)

end Sys2Proof.Machine
end

