-- ==== Sys2Proof/Machine/VxRegs.lean ====
section
/-!
DEFINITION. The vector engine's register contexts (R145 to R150), the operand fields of its words (Tables 5.3, 5.4), and the registers each word
reads, which hold it until they are written (R152).
-/

namespace Sys2Proof.Machine

/-! ### Reading a context -/

/-- Vector register `i`. -/
def VCtx.vreg (c : VCtx) (i : Nat) : BitVec 2048 := mapGet (fun _ => 0) c.v i

/-- Predicate register `i`; p0 reads as all ones (R146). -/
def VCtx.pred (c : VCtx) (i : Nat) : BitVec 512 := if i = 0 then BitVec.allOnes 512 else mapGet (fun _ => 0) c.p i

/-- Scalar register `i`; s0 reads as zero (R146). -/
def VCtx.sreg (c : VCtx) (i : Nat) : Nat := if i = 0 then 0 else (mapGet (fun _ => 0) c.s i).toNat

/-- Registers of an operand (R148). -/
def VCtx.ngrp (c : VCtx) : Nat := 2 ^ c.grp

/-- Element width of ETYPE. -/
def VCtx.width (c : VCtx) : Nat := typeWidth c.etype

/-- The maximum vector length (Table 5.1). -/
def VCtx.vlmax (c : VCtx) : Nat := 2048 * c.ngrp / c.width

/-- Is ETYPE an XA type? -/
def VCtx.xa (c : VCtx) : Bool := decide (c.etype ≥ 10)

/-- A register group of `n` registers as one number (R147). -/
def VCtx.group (c : VCtx) (r : Nat) : Nat → Nat
  | 0 => 0
  | n + 1 => (c.vreg r).toNat + 2 ^ 2048 * c.group (r + 1) n

/-- Tag of the element that starts in lane `lane` of the group at `r` (R147). -/
def VCtx.tagAt (c : VCtx) (r lane : Nat) : Nat := fld (mapGet (fun _ => (0 : BitVec 128)) c.tag (r + lane / 64)) (2 * (lane % 64)) 2

/-- Lane in which element `e` of width `w` starts (R147). -/
def laneOf (w e : Nat) : Nat := w * e / 32

/-- Elements a word acts on: below VL, and with their bit set in the mask predicate (R150). -/
def VCtx.active (c : VCtx) (pm : Nat) : List Nat := (span 0 c.vl).filter (fun e => bit (c.pred pm) e)

/-- Registers that `bits` bits occupy. -/
def regsFor (bits : Nat) : Nat := ceilDiv bits 2048

/-! ### Operand fields of layout R (Table 5.3) -/

/-- VD, or SD of layout I, or VR of layout M. -/
def fVD (e : QEntry) : Nat := opf e 0 5
/-- VA. -/
def fVA (e : QEntry) : Nat := opf e 5 5
/-- VB. -/
def fVB (e : QEntry) : Nat := opf e 10 5
/-- VC. -/
def fVC (e : QEntry) : Nat := opf e 15 5
/-- PM. -/
def fPM (e : QEntry) : Nat := opf e 20 3
/-- A field of MOD. -/
def fMOD (e : QEntry) (lo w : Nat) : Nat := opf e (24 + lo) w
/-- SA. -/
def fSA (e : QEntry) : Nat := opf e 32 5
/-- SB. -/
def fSB (e : QEntry) : Nat := opf e 37 5
/-- SD. -/
def fSD (e : QEntry) : Nat := opf e 42 5
/-- SC. -/
def fSC (e : QEntry) : Nat := opf e 47 5

/-! ### Fields of layouts M and A -/

/-- PM of layout M. -/
def lmPM (e : QEntry) : Nat := opf e 5 3
/-- NARROW. -/
def lmNarrow (e : QEntry) : Bool := opf e 77 1 == 1
/-- TAGS. -/
def lmTags (e : QEntry) : Bool := opf e 48 1 == 1
/-- Width of the elements a load or store counts (R162). -/
def lmWidth (c : VCtx) (e : QEntry) : Nat := if lmNarrow e then typeWidth (opf e 73 4) else c.width

/-- The segments of the group below VL, in order: first word and number of words (R162). Without a stride they are one run. -/
def lmSegs (c : VCtx) (e : QEntry) : List (Nat × Nat) :=
  let n := ceilDiv (c.vl * lmWidth c e) 512
  if opf e 32 16 = 0 then [(spaAddr e 8, n)]
  else (span 0 (ceilDiv n 4)).map (fun i => (spaAddr e 8 + i * opf e 32 16, min 4 (n - 4 * i)))

/-- The words of the group's segments below VL, in order (R162). -/
def lmWords (c : VCtx) (e : QEntry) : List Nat := (lmSegs c e).flatMap (fun g => span g.1 g.2)

/-- The words of the tag plane below VL (R163). -/
def lmTagWords (c : VCtx) (e : QEntry) : List Nat := if lmTags e then span (spaAddr e 49) (ceilDiv (2 * c.vl) 512) else []

/-- The array and group a VACC names. -/
def accArray (e : QEntry) : Nat := opf e 5 2
/-- The group. -/
def accGroup (e : QEntry) : Nat := opf e 7 5
/-! ### Registers read -/

/-- The registers a word reads: vector, predicate and scalar ones, and whether VL or VTYPE. -/
structure VxReads where
  v : List Nat
  p : List Nat
  s : List Nat
  vt : Bool := true
deriving DecidableEq, Repr

/-- Registers of the groups at `rs`, `n` each. -/
def vGroups (n : Nat) (rs : List Nat) : List Nat := rs.flatMap (fun r => span r n)

/-- Has every register a word reads been written by the earlier words of its context (R152)? VL and VTYPE, which R149 calls registers, are held to
it too. (DESIGN CHOICE, log entry 72.) -/
def Core.vxReady (c : Core) (st : Stream) (r : VxReads) : Bool :=
  (c.inflight.filter (fun f => f.eng == .vx && f.strm == st)).all (fun f =>
    f.vx.v.all (fun x => !r.v.contains x.idx) && f.vx.tag.all (fun x => !r.v.contains x.idx)
      && f.vx.p.all (fun x => !r.p.contains x.idx) && f.vx.s.all (fun x => !r.s.contains x.idx)
      && !(r.vt && f.vx.vtype.isSome))

/-- The registers each vector word reads (R152, Table 5.4). A word that rounds stochastically also reads its index base and its tensor
(R160). -/
def vxReads (opc : Nat) (c : VCtx) (e : QEntry) : VxReads :=
  let vs (l : List Nat) : List Nat := vGroups c.ngrp l
  let sr (code : Nat) (l : List Nat) : List Nat := if code = 2 then l else []
  match opc with
  | 0x001 => { v := [], p := [], s := [fVA e], vt := false }
  | 0x002 => { v := [], p := [], s := [], vt := false }
  | 0x003 => { v := [], p := [], s := [fSA e, fSB e], vt := false }
  | 0x004 => if fMOD e 0 1 = 1 then ⟨[], [], [fSA e, fSB e], true⟩ else ⟨[fVA e], [], [fSB e], true⟩
  | 0x010 | 0x011 | 0x012 | 0x015 | 0x016 => ⟨vs [fVA e, fVB e], [fPM e], [], true⟩
  | 0x013 | 0x014 => ⟨vs [fVA e, fVB e, fVC e], [fPM e], [], true⟩
  | 0x017 => ⟨[], [fPM e], [fSA e], true⟩
  | 0x018 | 0x032 => ⟨[], [fPM e], [], true⟩
  | 0x020 | 0x021 | 0x022 | 0x023 | 0x024 | 0x025 | 0x026 | 0x027 => ⟨vs [fVA e, fVB e], [fPM e], [], true⟩
  | 0x028 | 0x040 | 0x060 => ⟨vs [fVA e], [fPM e], [], true⟩
  | 0x030 | 0x068 | 0x078 => ⟨vs [fVA e, fVB e], [fPM e], [], true⟩
  | 0x031 => { v := [], p := [fVA e, fVB e], s := [], vt := false }
  | 0x033 => ⟨vs [fVA e, fVB e], [fPM e, fVC e], [], true⟩
  | 0x050 => ⟨span (fVA e) (if fMOD e 7 1 = 0 then c.ngrp else regsFor (c.vlmax * typeWidth (fMOD e 0 4))), [fPM e],
      fSC e :: sr (fMOD e 4 2) [fSA e, fSB e, fSB e + 1], true⟩
  | 0x051 => ⟨vs [fVA e], [fPM e], sr (fMOD e 4 2) [fSA e, fSB e, fSB e + 1], true⟩
  | 0x069 | 0x070 | 0x079 => ⟨vs [fVA e], [fPM e], [fSA e], true⟩
  | 0x071 => ⟨vs [fVA e, fVB e], [fPM e], [fSA e, fSA e + 1, fSB e, fSB e + 1], true⟩
  | 0x07A => ⟨vs [fVA e], [fPM e], fSA e :: fSC e :: sr (fMOD e 4 2) [fSB e, fSB e + 1, fSD e], true⟩
  | 0x080 => ⟨[], [lmPM e], [], true⟩
  | 0x081 => ⟨span (fVD e) (regsFor (c.vl * lmWidth c e)), [lmPM e], [], true⟩
  | 0x090 => ⟨[], [], opf e 32 5 :: sr (opf e 24 2) [opf e 37 5, opf e 42 5, opf e 42 5 + 1], true⟩
  | _ => ⟨[], [], [], true⟩

end Sys2Proof.Machine
end

