-- ==== Sys2Proof/Machine/Accept.lean ====
section
/-!
DEFINITION. When an engine can accept a word (R98, R127, R131, R132, R138, R152, R234), which head an engine selects (R69), and the order in which
the words that wait on tokens are tested in one cycle (R64).
-/

namespace Sys2Proof.Machine

/-! ### The matrix engine -/

/-- Operand width of a type for the arrays (Table 3.1). -/
def mxWidth (t : Nat) : Nat := typeWidth t

/-- Activation row size in bytes (Table 3.1). -/
def rowBytes (t : Nat) : Nat := if t = 12 then 64 else 8 * mxWidth t

/-- Words in flight of the matrix engine that hold SP1: loads, and exports that have not released their groups (R98). -/
def Core.sp1Held (c : Core) : Bool :=
  c.inflight.any (fun f => f.eng == .mx && (opcodeOf f.ent.word == 0x001 || (opcodeOf f.ent.word == 0x022 && !f.released)))

/-- Is a pass of this stream waiting to issue as a unit of its own: a second pass (R111) or a sentinel pass (R348)? The stream's later MX words
issue behind it. -/
def Core.passOwed (c : Core) (st : Stream) : Bool :=
  c.inflight.any (fun f => f.eng == .mx && f.strm == st && f.pass2) || c.sentinels.any (fun x => x.strm == st && !x.passed)

/-- Does a pass that reads slot `k` wait to issue (R98)? -/
def Core.passReads (c : Core) (k : Nat) : Bool :=
  c.inflight.any (fun f => f.eng == .mx && f.pass2 && opf f.ent 24 2 == k) || c.sentinels.any (fun x => !x.passed && opf x.ent 24 2 == k)

/-- The array mask of MX.WLOAD and MX.MMA (Tables 3.7, 3.8). -/
def mxMask (e : QEntry) : Nat := opf e 26 4

/-- Are any masked arrays half width (R111)? -/
def Core.anyHalf (c : Core) (mask : Nat) : Bool := (maskBits mask 4).any (fun j => (c.array j).st == .half)

/-- Is any masked array DISABLED (R112)? -/
def Core.anyDisabled (c : Core) (mask : Nat) : Bool := (maskBits mask 4).any (fun j => (c.array j).st == .disabled)

/-- Rows of an MX.MMA. -/
def mmaRows (e : QEntry) : Nat := opf e 39 9

/-- The group and group row that row `i` goes to, for groups of height `h` (R92). -/
def mmaTarget (e : QEntry) (h i : Nat) : Nat × Nat := (opf e 48 5 + (opf e 53 6 + i) / h, (opf e 53 6 + i) % h)

/-- The groups an MX.MMA reaches in array `j` (R92). -/
def mmaGroups (e : QEntry) (h : Nat) : List Nat := span (opf e 48 5) ((opf e 53 6 + mmaRows e - 1) / h + 1)

/-- Must an MX.MMA wait: is a load into its slot in progress in a masked array (R98)? -/
def mmaLoading (c : Core) (e : QEntry) : Bool := (maskBits (mxMask e) 4).any (fun j => ((c.array j).slot (opf e 24 2)).loading)

/-- The descriptor of an MX.GOPEN. -/
def gopenDesc (e : QEntry) : BitVec 32 := BitVec.ofNat 32 (opf e 32 32)

/-- Do group bytes overlap: base and size in bytes against an open group? -/
def groupOverlap (base size : Nat) (g : Group) : Bool :=
  decide (base < g.base * 256 + gBytes g.desc) && decide (g.base * 256 < base + size)

/-- Does a word in flight name a group that an MX.MMA, an export or a close waits on (R131, R132, R138)? -/
def groupsMeet (m1 f1 n1 m2 f2 n2 : Nat) : Bool := m1 &&& m2 != 0 && decide (f1 < f2 + n2) && decide (f2 < f1 + n1)

/-- The groups a close or an export names: mask, first, count. -/
def closeRange (e : QEntry) : Nat × Nat × Nat :=
  if opcodeOf e.word = 0x021 then (opf e 0 4, opf e 4 5, opf e 9 6) else (opf e 24 4, opf e 28 5, opf e 33 6)

/-- Does an MX.MMA reach a run of groups: in any array, with the height its GROUP has there (R92, R131, R132, R138)? -/
def mmaMeets (c : Core) (e : QEntry) (r : Nat × Nat × Nat) : Bool :=
  (maskBits (mxMask e &&& r.1) 4).any (fun j =>
    groupsMeet 1 (opf e 48 5) (mmaGroups e (gHeight ((c.array j).group (opf e 48 5)).desc)).length 1 r.2.1 r.2.2)

/-- Are earlier MX.MMAs of the core into a run of groups still in flight (R132, R138)? -/
def mmaInto (c : Core) (r : Nat × Nat × Nat) : Bool :=
  c.inflight.any (fun f => f.eng == .mx && opcodeOf f.ent.word == 0x010 && mmaMeets c f.ent r)

/-- Must an MX.MMA wait: does a close or an export of the stream still hold a group that it reaches (R131)? -/
def mmaHeld (c : Core) (st : Stream) (e : QEntry) : Bool :=
  c.inflight.any (fun f => f.eng == .mx && f.strm == st && !f.released
    && (opcodeOf f.ent.word == 0x021 || opcodeOf f.ent.word == 0x022) && mmaMeets c e (closeRange f.ent))

/-- Must an MX.GOPEN wait: does a close or a closing export in flight still hold one of its numbers or bytes (R127)? -/
def gopenHeld (c : Core) (e : QEntry) : Bool :=
  let mask := opf e 0 4
  c.inflight.any (fun f => f.eng == .mx && !f.released && (opcodeOf f.ent.word == 0x021 || (opcodeOf f.ent.word == 0x022 && opf f.ent 45 1 == 1))
    && (let r := closeRange f.ent
        groupsMeet mask (opf e 4 5) (opf e 9 6) r.1 r.2.1 r.2.2
          || (maskBits (mask &&& r.1) 4).any (fun j => (span r.2.1 r.2.2).any (fun i =>
              groupOverlap (opf e 15 10 * 256) (opf e 9 6 * gBytes (gopenDesc e)) ((c.array j).group i)))))

/-- Can the matrix engine accept a word of a stream (R98, R111, R112, R127, R131, R132, R138)? -/
def Core.acceptMx (c : Core) (st : Stream) (e : QEntry) : Bool :=
  !c.passOwed st && (match opcodeOf e.word with
    | 0x001 => !c.sp1Held && !c.anyDisabled (mxMask e) && !c.passReads (opf e 24 2)
    | 0x010 => !c.anyDisabled (mxMask e) && !mmaLoading c e && !mmaHeld c st e
    | 0x020 => !gopenHeld c e
    | 0x021 => !mmaInto c (closeRange e)
    | 0x022 => !mmaInto c (closeRange e) && !c.sp1Held
    | _ => true)

/-! ### The other engines -/

/-- The oldest word in flight of an engine and stream, with its position (R55). -/
def Core.oldest (c : Core) (eng : Engine) (st : Stream) : Option (Nat × InFlight) :=
  ((span 0 c.inflight.length).zip c.inflight).find? (fun p => p.2.eng == eng && p.2.strm == st)

/-- Can an engine accept a word of a stream? VX: its registers are written (R152). SY: the stream's previous SY word has completed (R234). -/
def Core.accepts (c : Core) (eng : Engine) (st : Stream) (e : QEntry) : Bool :=
  match eng with
  | .mx => c.acceptMx st e
  | .vx => c.vxReady st (vxReads (opcodeOf e.word) (c.vctx st) e)
  | .dm => true
  | .sy => (c.oldest .sy st).isNone
  | .sq => true

/-! ### Whose turn it is -/

/-- May the head of this queue issue now, the other stream's head considered (R69)? A pass that waits to issue is the head of its stream (R111, R348),
and waits on no token. -/
def Core.issueTurn (c : Core) (eng : Engine) (st : Stream) : Bool :=
  match st with
  | .crit => true
  | .defr => !(eng == .mx && c.passOwed .crit) && (match c.queue eng .crit with
    | [] => true
    | h :: _ => !c.waitMet h.word)

/-- The word that an engine issues in this cycle, if it issues one (R69). -/
def Core.selects (c : Core) (eng : Engine) : Option QEntry :=
  let ready (st : Stream) : Option QEntry := match c.queue eng st with
    | [] => none
    | h :: _ => if c.waitMet h.word && c.issueTurn eng st && c.accepts eng st h then some h else none
  (ready .crit).orElse (fun _ => ready .defr)

/-- The engines whose waiting words are tested before those of one (R64): MX, VX, DM, SY, and the SQ words last. -/
def enginesBefore : Engine → List Engine
  | .mx => []
  | .vx => [.mx]
  | .dm => [.mx, .vx]
  | .sy => [.mx, .vx, .dm]
  | .sq => [.mx, .vx, .dm, .sy]

/-- The tokens as the engines tested before `eng` leave them in this cycle (R64): each takes its one before the next word is tested. -/
def Core.tokensFor (c : Core) (eng : Engine) : Core :=
  (enginesBefore eng).foldl (fun (k : Core) g => match k.selects g with
    | some e => k.takeToken e.word
    | none => k) c

/-- Is the token wait of a word of this engine met in its turn (R57, R64)? -/
def Core.turnMet (c : Core) (eng : Engine) (w : InstrWord) : Bool :=
  c.waitMet w && ((toksOf w).wmode == 0 || (c.tokensFor eng).waitMet w)

/-- The SQ word that the critical stream waits at, if its next word is one: it is tested before the deferred stream's (R64). -/
def State.critSq (s : State) (pc : Nat) : Option InstrWord :=
  if !(s.core pc).crit.st.live then none
  else match s.fetch pc .crit with
    | .word w _ _ => if fld w 124 4 = 5 then some w else none
    | _ => none

/-- Is the token wait of an SQ word of this stream met in its turn (R64, R68)? -/
def State.sqMet (s : State) (pc : Nat) (st : Stream) (w : InstrWord) : Bool :=
  let c := s.core pc
  c.turnMet .sq w && (match st with
    | .crit => true
    | .defr => (toksOf w).wmode == 0 || (match s.critSq pc with
      | some v => let k := c.tokensFor .sq
        ((if k.waitMet v then k.takeToken v else k).waitMet w)
      | none => true))

end Sys2Proof.Machine
end

