-- ==== Sys2Proof/Machine/Seq.lean ====
section
/-!
DEFINITION. The sequencer: dispatch of engine words into their queues, issue from the head of a queue, completion and source
release (R53 to R59, R64, R68, R69), and the SQ words (R74 to R76).
-/

namespace Sys2Proof.Machine

/-- The stream's next word is `w` and can be fetched: go on with its queue entry; on a refused fetch the stream halts with
cause 0x0A; otherwise nothing happens (the command does not name what the stream dispatches next). -/
def State.withFetched (s : State) (lc : Nat) (st : Stream) (w : InstrWord) (k : State → Nat → QEntry → State) : State :=
  match s.physOf lc with
  | none => s
  | some pc =>
    let c := s.core pc
    if !(c.stream st).st.live then s
    else match s.fetch pc st with
      | .held => s
      | .refused a corrs nbad =>
        let s := (s.noteSpad pc lc corrs nbad).fixIr pc corrs
        let s := s.halt pc lc st ⟨0x0A, false, 0, (c.stream st).cur, 0, a, 0⟩
        if nbad = 0 then s else s.noteUncorrRead pc
      | .word w' corrs line =>
        if w' ≠ w then s
        else
          let s := ((s.noteSpad pc lc corrs 0).fixIr pc corrs).modCore pc (fun c => c.setStream st ((c.stream st).keepLine line))
          k s pc ⟨w, (c.stream st).cur, (c.stream st).x⟩

/-- The stream has dispatched a word and goes on at word `nxt`, which may lie beyond the instruction region (R80). -/
def Core.advance (c : Core) (st : Stream) (nxt : Nat) : Core :=
  let x := c.stream st
  c.setStream st { x with st := .running, last := x.cur, cur := nxt }

/-- Halt a stream on a refused SQ word, which is the word it dispatched last. -/
def State.refuseSq (s : State) (pc lc : Nat) (st : Stream) (e : QEntry) (r : Refuse) : State :=
  (s.modCore pc (fun c => c.setStream st { c.stream st with last := e.pc })).halt pc lc st (haltBy r.cause e r.addr)

/-- The checks every SQ word has: TOKENS (R58) and reserved operand bits (R74); `used` masks the bits in use. -/
def sqCheck (e : QEntry) (used : Nat) : Option Refuse :=
  firstRefuse [refuseIf (!(toksOf e.word).ok true) 0x02,
    refuseIf (natBits e.word.toNat 0 96 &&& used != natBits e.word.toNat 0 96) 0x02]

/-- An SQ word at dispatch: it waits at the head of its stream until its token wait is met in its turn (R64), is refused by its checks before
it takes anything, and otherwise acts, completes and signals (R59, R68, R85). `act` gives the new core and the next word. A malformed word whose
wait is not met waits first. (DEDUCED, log entry 25.) -/
def State.sqWord (s : State) (lc : Nat) (st : Stream) (opc : Nat) (tok : BitVec 16) (ops : BitVec 96)
    (check : State → Nat → QEntry → Option Refuse) (act : Core → QEntry → Core × Nat) : State :=
  s.withFetched lc st (mkWord 5 opc tok ops) (fun s pc e =>
    let c := s.core pc
    if !s.sqMet pc st e.word then s.setCore pc (c.setStream st { c.stream st with st := .waiting })
    else match check s pc e with
      | some r => s.refuseSq pc lc st e r
      | none =>
        let a := act (c.takeToken e.word) e
        (s.setCore pc (a.1.advance st a.2)).signal pc lc e.word 1)

/-- SQ.NOP (R74). -/
def execSqNop (lc : Fin 64) (st : Stream) (tok : BitVec 16) (ops : BitVec 96) (s : State) : Host.Outcome State Fault Refusal :=
  .next (s.sqWord lc st 0x000 tok ops (fun _ _ e => sqCheck e 0) (fun c e => (c, e.pc + 1)))

/-- SQ.END (R74, R76): the stream reports ENDED and dispatches nothing further. -/
def execSqEnd (lc : Fin 64) (st : Stream) (tok : BitVec 16) (ops : BitVec 96) (s : State) : Host.Outcome State Fault Refusal :=
  .next (s.withFetched lc st (mkWord 5 0x001 tok ops) (fun s pc e =>
    let c := s.core pc
    if !s.sqMet pc st e.word then s.setCore pc (c.setStream st { c.stream st with st := .waiting })
    else match sqCheck e 0 with
      | some r => s.refuseSq pc lc st e r
      | none =>
        let c := c.takeToken e.word
        (s.setCore pc (c.setStream st { c.stream st with st := .ended, last := e.pc, cur := e.pc, buf := [] })).signal pc lc e.word 1))

/-- SQ.JUMP (R74). -/
def execSqJump (lc : Fin 64) (st : Stream) (tok : BitVec 16) (ops : BitVec 96) (s : State) : Host.Outcome State Fault Refusal :=
  .next (s.sqWord lc st 0x010 tok ops (fun _ _ e => sqCheck e 0x1FFFF) (fun c e => (c, opf e 0 17)))

/-- The count of an SQ.LOOP: COUNT, or X[XSRC][15:0] when USEX = 1 (Table 2.5). -/
def loopCount (e : QEntry) : Nat :=
  if opf e 20 1 = 1 then (e.xreg (opf e 16 4)).toNat % 65536 else opf e 0 16

/-- SQ.LOOP (R74, R75): a zero count and a fifth entry are refused. -/
def execSqLoop (lc : Fin 64) (st : Stream) (tok : BitVec 16) (ops : BitVec 96) (s : State) : Host.Outcome State Fault Refusal :=
  .next (s.sqWord lc st 0x011 tok ops
    (fun s pc e => firstRefuse [sqCheck e 0x1FFFFF, refuseIf (loopCount e == 0) 0x02,
      refuseIf (decide (((s.core pc).stream st).loops.length ≥ 4)) 0x07])
    (fun c e => (c.setStream st { c.stream st with loops := ⟨e.pc + 1, loopCount e⟩ :: (c.stream st).loops }, e.pc + 1)))

/-- SQ.ENDLOOP (R74, R75): back to the body start, or past the loop once the count is used up. -/
def execSqEndloop (lc : Fin 64) (st : Stream) (tok : BitVec 16) (ops : BitVec 96) (s : State) : Host.Outcome State Fault Refusal :=
  .next (s.sqWord lc st 0x012 tok ops
    (fun s pc e => firstRefuse [sqCheck e 0, refuseIf ((s.core pc).stream st).loops.isEmpty 0x07])
    (fun c e =>
      let x := c.stream st
      match x.loops with
      | [] => (c, e.pc + 1)
      | t :: r =>
        if t.count ≤ 1 then (c.setStream st { x with loops := r }, e.pc + 1)
        else (c.setStream st { x with loops := { t with count := t.count - 1 } :: r }, t.body)))

/-- SQ.XSET (R74): X[XD] = IMM. -/
def execSqXset (lc : Fin 64) (st : Stream) (tok : BitVec 16) (ops : BitVec 96) (s : State) : Host.Outcome State Fault Refusal :=
  .next (s.sqWord lc st 0x020 tok ops (fun _ _ e => sqCheck e 0xFFFFFFFF0000000F)
    (fun c e => (c.setStream st ((c.stream st).setX (opf e 0 4) (BitVec.ofNat 32 (opf e 32 32))), e.pc + 1)))

/-- SQ.XADD (R74): X[XD] = X[XD] + IMM modulo 2^32. -/
def execSqXadd (lc : Fin 64) (st : Stream) (tok : BitVec 16) (ops : BitVec 96) (s : State) : Host.Outcome State Fault Refusal :=
  .next (s.sqWord lc st 0x021 tok ops (fun _ _ e => sqCheck e 0xFFFFFFFF0000000F)
    (fun c e => (c.setStream st ((c.stream st).setX (opf e 0 4) (e.xreg (opf e 0 4) + BitVec.ofNat 32 (opf e 32 32))), e.pc + 1)))

/-- Does an IRLOAD source lie in an IMAGE region at a 64 KiB boundary (R76)? The local address, if so. -/
def State.irSource (s : State) (g : Nat) : Option Nat :=
  match s.resolve g with
  | .loc a =>
    if a % 65536 = 0 ∧ a < stackBytes ∧ (s.mem.region (a / 0x1000000)).cls = 2 then some a else none
  | _ => none

/-- The other stream. -/
def otherStream : Stream → Stream
  | .crit => .defr
  | .defr => .crit

/-- Does a running stream hold a page of the instruction region: by its fetch address, or by a line of its fetch buffer (R76)? -/
def StreamCtl.holdsPage (x : StreamCtl) (page : Nat) : Bool :=
  x.st.live && (x.cur / 4096 == page || x.buf.any (fun l => l.line / 256 == page))

/-- Discard the lines of a page from a fetch buffer (R76). -/
def StreamCtl.dropPage (x : StreamCtl) (page : Nat) : StreamCtl := { x with buf := x.buf.filter (fun l => l.line / 256 != page) }

/-- SQ.IRLOAD (R74, R76): checked at dispatch, held while the other stream holds the page, then in progress
until IRLOAD_COMPLETE; the stream's own lines of the page are discarded. -/
def execSqIrload (lc : Fin 64) (st : Stream) (tok : BitVec 16) (ops : BitVec 96) (s : State) : Host.Outcome State Fault Refusal :=
  .next (s.withFetched lc st (mkWord 5 0x030 tok ops) (fun s pc e =>
    let c := s.core pc
    let page := opf e 0 5
    let g := opf e 32 64
    let oth := c.stream (otherStream st)
    if !s.sqMet pc st e.word then s.setCore pc (c.setStream st { c.stream st with st := .waiting })
    else match firstRefuse [sqCheck e 0xFFFFFFFFFFFFFFFF0000001F,
        if page ≥ s.coreGet pc fSeqIrCfgPages || page == (c.stream st).cur / 4096 || (s.irSource g).isNone
          then some ⟨0x0B, g, false⟩ else none] with
      | some r => s.refuseSq pc lc st e r
      | none =>
        if oth.holdsPage page then s.setCore pc (c.setStream st { c.stream st with st := .running })
        else
          let c := c.takeToken e.word
          let c := c.setStream st { (c.stream st).dropPage page with irloads := (c.stream st).irloads ++ [⟨page, (s.irSource g).getD 0, e.word, e.pc⟩] }
          s.setCore pc (c.advance st (e.pc + 1))))

/-- Copy granules `i` to `i + n - 1` of an IRLOAD: the first failing address and the first granule whose block check fails. -/
def irloadCopy (pc lc : Nat) (src page : Nat) : Nat → Nat → State → Option Nat × Option Nat × State
  | 0, _, s => (none, none, s)
  | n + 1, i, s =>
    let a := src + 128 * i
    let r := s.memRead (.core lc) (a / 128)
    let s1 := r.2
    match r.1 with
    | .ok v k =>
      let s2 := s1.modCore pc (fun c => spadPutGran pc c ((s1.irBase pc + 1024 * page) / 2 + i) v k.chk)
      let z := irloadCopy pc lc src page n (i + 1) s2
      (z.1, if chkOf v ≠ k.chk then some a else z.2.1, z.2.2)
    | _ =>
      let z := irloadCopy pc lc src page n (i + 1) s1
      (some a, z.2.1, z.2.2)

/-- IRLOAD_COMPLETE (R76): the stream's oldest IRLOAD has written its page; it signals, and halts its stream on an error completion (0x0D, with
the address as the word named it) or a failed block check (0x0B). Where one page has both, it halts with 0x0D. (DESIGN CHOICE, log entry 72.) -/
def execIrloadComplete (lc : Fin 64) (st : Stream) (s : State) : Host.Outcome State Fault Refusal :=
  .next (match s.physOf lc with
    | none => s
    | some pc =>
      match ((s.core pc).stream st).irloads with
      | [] => s
      | i :: r =>
        let z := irloadCopy pc lc i.src i.page 512 0 s
        let s := z.2.2.modCore pc (fun c => c.setStream st { c.stream st with irloads := r })
        let s := s.signal pc lc i.word 1
        let e : QEntry := ⟨i.word, i.pc, []⟩
        match z.1, z.2.1 with
        | some a, _ => s.halt pc lc st (haltBy 0x0D e (opf e 32 64 + (a - i.src)))
        | none, some a => s.halt pc lc st (haltBy 0x0B e a)
        | none, none => s)

/-! ### Engine words -/

/-- Dispatch an engine word into its queue if there is room (R53, R68). The word reads the index registers now (R62). -/
def State.dispatchWord (s : State) (lc : Nat) (st : Stream) (eng : Engine) (opc : Nat) (tok : BitVec 16) (ops : BitVec 96) : State :=
  s.withFetched lc st (mkWord eng.code opc tok ops) (fun s pc e =>
    let c := s.core pc
    let q := c.queue eng st
    if q.length < queueDepth eng st then s.setCore pc ((c.setQueue eng st (q ++ [e])).advance st (e.pc + 1)) else s)

/-- Halt a stream on a refused engine word; an uncorrectable read of a core's own store is counted, as evidence too (Table 11.6).
(DEDUCED, log entry 49.) -/
def State.refuseWord (s : State) (pc lc : Nat) (st : Stream) (e : QEntry) (f : Refuse) : State :=
  if f.own then ((s.coreBump pc fSpadUncorrCntCount 1).halt pc lc st (haltBy f.cause e f.addr)).noteUncorrRead pc
  else s.halt pc lc st (haltBy f.cause e f.addr)

/-- Issue an engine word from the head of its queue (R69): the word must be the head, its wait met in its turn (R64), its stream's turn come, and
the engine able to accept it; a refused word halts its stream and takes nothing (R85). `check` refuses, and `act` is the word's effect at
issue, in which it may still be refused. A malformed word, too, waits for its token and its engine first. (DEDUCED, log entry 25.) -/
def State.issueWord (s : State) (lc : Nat) (st : Stream) (eng : Engine) (opc : Nat) (tok : BitVec 16) (ops : BitVec 96)
    (check : State → Nat → QEntry → Option Refuse) (act : State → Nat → QEntry → Except (Refuse × State) State) : State :=
  match s.physOf lc with
  | none => s
  | some pc =>
    let c := s.core pc
    match c.queue eng st with
    | [] => s
    | e :: r =>
      if e.word ≠ mkWord eng.code opc tok ops then s
      else if !(c.turnMet eng e.word && c.issueTurn eng st && c.accepts eng st e) then s
      else match firstRefuse [refuseIf (!(toksOf e.word).ok false) 0x02, check s pc e] with
        | some f => s.refuseWord pc lc st e f
        | none =>
          let c1 := (c.setQueue eng st r).takeToken e.word
          let c2 := { c1 with inflight := c1.inflight ++ [⟨eng, st, e, false, false, c1.issued, .none, .none, .none⟩], issued := c1.issued + 1 }
          match act (s.setCore pc c2) pc e with
          | .ok s3 => match st with
            | .defr => s3.coreBump pc fDeferIssueCntCount 1
            | .crit => s3
          | .error (f, s3) =>
            (({ s3 with cores := s.cores }).modCore pc (fun c => { c with recAt := (s3.core pc).recAt })).refuseWord pc lc st e f

/-- The phases of an engine word (R68, R69). (DESIGN CHOICE, log entry 1.) -/
def State.engineWord (s : State) (lc : Nat) (st : Stream) (ph : Phase) (eng : Engine) (opc : Nat) (tok : BitVec 16)
    (ops : BitVec 96) (check : State → Nat → QEntry → Option Refuse) (act : State → Nat → QEntry → Except (Refuse × State) State) : State :=
  match ph with
  | .dispatch => s.dispatchWord lc st eng opc tok ops
  | .issue => s.issueWord lc st eng opc tok ops check act
  | .upset hits => (s.upsetCore lc hits).issueWord lc st eng opc tok ops check act

/-- Remove the first element that satisfies `p`, if one does. -/
def takeFirst {α : Type} (p : α → Bool) : List α → Option (α × List α)
  | [] => none
  | x :: r => if p x then some (x, r) else (takeFirst p r).map (fun y => (y.1, x :: y.2))

/-- Change the word issued last. -/
def Core.mapLast (c : Core) (f : InFlight → InFlight) : Core :=
  match c.inflight.getLast? with
  | none => c
  | some x => { c with inflight := c.inflight.dropLast ++ [f x] }

/-- Remove the word in flight at a position. -/
def Core.landed (c : Core) (i : Nat) : Core := { c with inflight := c.inflight.take i ++ c.inflight.drop (i + 1) }

/-- Complete a word in flight: it leaves, and raises the signal of SMODE 1, and that of SMODE 2 if it had not released its
sources before (R57, R59). -/
def State.complete (s : State) (pc lc : Nat) (i : Nat) (f : InFlight) : State :=
  let s := s.modCore pc (fun c => c.landed i)
  let s := s.signal pc lc f.ent.word 1
  if f.released then s else s.signal pc lc f.ent.word 2

/-- A word found unreadable after it issued is refused all the same (R81, R85): it leaves, gives back what it took from its token, signals nothing
and halts its stream. -/
def State.refuseLate (s : State) (pc lc : Nat) (st : Stream) (i : Nat) (f : InFlight) (r : Refuse) : State :=
  let t := toksOf f.ent.word
  (s.modCore pc (fun c =>
    let c := c.landed i
    if t.wmode = 1 then c.setToken t.wtok (min 65535 (c.token t.wtok + 1)) else c)).refuseWord pc lc st f.ent r

/-- Complete the oldest word of an engine and stream if its opcode is one of `opcs`; `k` is what its completion does first. -/
def State.completeWord (s : State) (lc : Nat) (st : Stream) (eng : Engine) (opcs : List Nat)
    (k : State → Nat → InFlight → State) : State :=
  match s.physOf lc with
  | none => s
  | some pc =>
    match (s.core pc).oldest eng st with
    | none => s
    | some (i, f) => if opcs.contains (opcodeOf f.ent.word) && !f.pass2 then (k s pc f).complete pc lc i f else s

/-- The opcodes each engine executes (Tables 2.5, 3.6, 5.4, 6.6, 7.3). -/
def knownOpcode (eng opc : Nat) : Bool :=
  match eng with
  | 1 => [0x001, 0x010, 0x020, 0x021, 0x022].contains opc
  | 2 => (decide (1 ≤ opc ∧ opc ≤ 4)) || decide (0x010 ≤ opc ∧ opc ≤ 0x018) || decide (0x020 ≤ opc ∧ opc ≤ 0x028)
      || decide (0x030 ≤ opc ∧ opc ≤ 0x033)
      || [0x040, 0x050, 0x051, 0x060, 0x068, 0x069, 0x070, 0x071, 0x078, 0x079, 0x07A, 0x080, 0x081, 0x090].contains opc
  | 3 => decide (1 ≤ opc ∧ opc ≤ 4)
  | 4 => [0x001, 0x002, 0x003, 0x010, 0x011, 0x020, 0x030, 0x031].contains opc
  | 5 => [0x000, 0x001, 0x010, 0x011, 0x012, 0x020, 0x021, 0x030].contains opc
  | _ => false

/-- The engine of a code (Table 2.1). -/
def engineOf : Nat → Option Engine
  | 1 => some .mx | 2 => some .vx | 3 => some .dm | 4 => some .sy | 5 => some .sq | _ => none

/-- RESERVED_ENGINE_CODE_OR_OPCODE (R54, R74, R113, R153, R201): a word whose engine code is reserved is refused at dispatch;
a word whose engine does not execute its opcode is refused where the engine would issue it (an SQ word at dispatch), with
halt cause 0x01. -/
def execReservedEngineCodeOrOpcode (lc : Fin 64) (st : Stream) (ph : Phase) (word : BitVec 128) (s : State) :
    Host.Outcome State Fault Refusal :=
  .next (
    let eng := fld word 124 4
    let opc := opcodeOf word
    let tok : BitVec 16 := BitVec.ofNat 16 (fld word 96 16)
    let ops : BitVec 96 := BitVec.ofNat 96 (fld word 0 96)
    if knownOpcode eng opc then s
    else match engineOf eng with
      | none => s.withFetched lc st word (fun s pc e => s.refuseSq pc lc st e ⟨0x01, 0, false⟩)
      | some .sq => s.sqWord lc st opc tok ops (fun _ _ e => firstRefuse [refuseIf (!(toksOf e.word).ok true) 0x02, some ⟨0x01, 0, false⟩])
          (fun c e => (c, e.pc + 1))
      | some g => s.engineWord lc st ph g opc tok ops (fun _ _ _ => some ⟨0x01, 0, false⟩) (fun s _ _ => .ok s))

end Sys2Proof.Machine
end

