-- ==== Sys2Proof/Machine/Mx.lean ====
section
/-!
DEFINITION. The matrix engine: MX.WLOAD, MX.MMA with its second pass, MX.GOPEN, MX.GCLOSE, MX.GEXPORT (R86 to R114, R126 to
R138), sentinel passes (R346 to R349), column self-tests and the array control commands (R107 to R112).
-/

namespace Sys2Proof.Machine

/-- Tile row size in bytes (Table 3.1). -/
def tileRowBytes (t : Nat) : Nat := if t = 12 then 8 else 8 * mxWidth t

/-- Tile size in bytes (Table 3.1). -/
def tileBytes (t : Nat) : Nat := if t = 12 then 4096 else 64 * tileRowBytes t

/-- Is the type an array operand (R99)? -/
def mxType (t : Nat) : Bool := decide (1 ≤ t ∧ t ≤ 9) || t == 12

/-- Which operand types may meet (R99). -/
def mxPair (a w : Nat) : Bool :=
  (decide (1 ≤ a ∧ a ≤ 7) && decide (1 ≤ w ∧ w ≤ 7)) || (decide (a = 8 ∨ a = 9) && decide (w = 8 ∨ w = 9)) || (a == 12 && w == 12)

/-- May MX32 scales go with the type (R20, R104)? -/
def mxScalable (t : Nat) : Bool := decide (3 ≤ t ∧ t ≤ 9)

/-- The value of an E8M0 block scale as a power of two, none for NaN (R103). -/
def e8m0 (b : Nat) : Option Int := if b = 255 then none else some ((b : Int) - 127)

/-- Apply a block scale to a product (R102, R103). -/
def applyScale (p : Num) (sc : Option (Option Int)) : Num :=
  match sc with
  | none => p
  | some none => .nan
  | some (some k) => p.scale2 k

/-- Slots of the critical stream are WS0 and WS1, those of the deferred stream WS2 and WS3 (R71). -/
def slotOwner (k : Nat) : Stream := if k < 2 then .crit else .defr

/-! ### MX.WLOAD -/

/-- Refusals of MX.WLOAD (Table 3.9). (DEDUCED, log entry 25.) -/
def wloadCheck (st : Stream) (s : State) (pc : Nat) (e : QEntry) : Option Refuse :=
  let t := opf e 30 4
  let sc := opf e 34 2
  firstRefuse [
    refuseIf (opf e 60 36 != 0 || spaReserved e 0 != 0 || (sc == 2 && spaReserved e 36 != 0) || mxMask e == 0 || sc == 1 || sc == 3
      || !mxType t || (sc == 2 && !mxScalable t) || (sc == 0 && opf e 36 24 != 0)) 0x02,
    refuseIf (slotOwner (opf e 24 2) != st) 0x08,
    s.spanFault pc (spaAddr e 0) (tileBytes t / 64),
    if sc = 2 then s.spanFault pc (spaAddr e 36) 2 else none]

/-- Words an MX.WLOAD reads: tile rows ascending, then scales (R97). -/
def wloadWords (e : QEntry) : List Nat :=
  span (spaAddr e 0) (tileBytes (opf e 30 4) / 64) ++ (if opf e 34 2 = 2 then span (spaAddr e 36) 2 else [])

/-- MX.WLOAD at issue (R89, R97): the tile is read once and written into the slot of every masked array. (DEDUCED, log entry 26.) -/
def wloadAct (lc : Nat) (s : State) (pc : Nat) (e : QEntry) : Except (Refuse × State) State :=
  let c := s.core pc
  let rd := spadReads pc c (wloadWords e)
  let s := s.noteSpad pc lc rd.corrs (b2n rd.bad.isSome)
  match rd.bad with
  | some w => .error (⟨0x04, w, false⟩, s)
  | none =>
    let n := tileBytes (opf e 30 4) / 64
    let half := c.anyHalf (mxMask e)
    let s := s.checkRead pc lc c (wloadWords e) e.word
    .ok (s.modCore pc (fun c =>
      let c := (maskBits (mxMask e) 4).foldl (fun c j =>
        let a := c.array j
        let old := a.slot (opf e 24 2)
        c.setArray j (a.setSlot (opf e 24 2)
          { old with tile := rd.vals.take n, scales := rd.vals.drop n, dtype := opf e 30 4, scale := opf e 34 2, loading := true, fill := c.fills + 1, errs := [] })) c
      { c with fills := c.fills + 1 }.mapLast (fun f => { f with pass2 := half })))

/-- MX.WLOAD (R97). -/
def execMxWload (lc : Fin 64) (st : Stream) (ph : Phase) (tok : BitVec 16) (ops : BitVec 96) (s : State) :
    Host.Outcome State Fault Refusal :=
  .next (s.engineWord lc st ph .mx 0x001 tok ops (wloadCheck st) (wloadAct lc))

/-- A zero-latency word (MX.GOPEN, MX.GCLOSE) that issued behind another word of its stream completes right after it (R55). -/
def State.drainMx (lc : Nat) (st : Stream) : Nat → State → Nat → State
  | 0, s, _ => s
  | n + 1, s, pc =>
    match (s.core pc).oldest .mx st with
    | none => s
    | some (i, f) =>
      match opcodeOf f.ent.word with
      | 0x020 => State.drainMx lc st n (s.complete pc lc i f) pc
      | 0x021 => State.drainMx lc st n ((s.closeGroups pc (opf f.ent 0 4) (opf f.ent 4 5) (opf f.ent 9 6)).complete pc lc i f) pc
      | _ => s

/-- MX_WLOAD_COMPLETE (R87, R97): the slot becomes VALID. (DEDUCED, log entry 26.) -/
def execMxWloadComplete (lc : Fin 64) (st : Stream) (s : State) : Host.Outcome State Fault Refusal :=
  .next (
    let s1 := s.completeWord lc st .mx [0x001] (fun s pc f => s.modCore pc (fun c =>
      (maskBits (mxMask f.ent) 4).foldl (fun c j =>
        let a := c.array j
        c.setArray j (a.setSlot (opf f.ent 24 2) { a.slot (opf f.ent 24 2) with valid := true, loading := false })) c))
    match s.physOf lc with
    | none => s
    | some pc => State.drainMx lc st 64 s1 pc)

/-! ### MX.MMA -/

/-- Words of the activation rows of all masked arrays (R91). -/
def mmaRowWords (e : QEntry) : List Nat :=
  span (spaAddr e 0) ((maskBits (mxMask e) 4).length * mmaRows e * rowBytes (opf e 30 4) / 64)

/-- Words of the activation scales (R103). -/
def mmaScaleWords (e : QEntry) : List Nat :=
  if opf e 34 2 = 2 then span (spaAddr e 65) (ceilDiv (2 * mmaRows e * (maskBits (mxMask e) 4).length) 64) else []

/-- The refusal of a group condition in one array (R106, R131): GROUP itself must be open, since its height says which others the rows reach; where
those hold both a group of the other stream and one that is not open, the cause is 0x08. (DESIGN CHOICE, log entry 72.) -/
def mmaGroupFault (st : Stream) (e : QEntry) (j : Nat) (a : ArrayState) : Option Refuse :=
  let g0 := a.group (opf e 48 5)
  let h := gHeight g0.desc
  let gs := mmaGroups e h
  firstRefuse [
    a.groupsLost j [opf e 48 5],
    refuseIf (!g0.isOpen) 0x02,
    refuseIf (decide ((opf e 53 6 + mmaRows e - 1) / h + opf e 48 5 > 31)) 0x02,
    a.groupsLost j gs,
    refuseIf (gs.any (fun i => (a.group i).isOpen && (a.group i).owner != st)) 0x08,
    refuseIf (gs.any (fun i => !(a.group i).isOpen || fld (a.group i).desc 19 4 != fld g0.desc 19 4)) 0x02,
    refuseIf (opf e 37 2 != 0 && gs.any (fun i => gFormat (a.group i).desc != 10
      || gComb (a.group i).desc != (if opf e 37 2 = 1 then 4 else 5))) 0x02]

/-- The refusal of a word that copies a slot with a word beyond correction (R87). -/
def slotsLost (c : Core) (e : QEntry) : Option Refuse :=
  ((maskBits (mxMask e) 4).find? (fun j => (((c.array j).slot (opf e 24 2)).errs).any (fun x => lostWord x.2))).map (fun j => storeRefuse j (8192 + opf e 24 2))

/-- Refusals of MX.MMA (Table 3.9): the word's own fields, its slot and its groups, then its spans, and last what its slots hold.
(DEDUCED, log entry 25.) -/
def mmaCheck (st : Stream) (s : State) (pc : Nat) (e : QEntry) : Option Refuse :=
  let c := s.core pc
  let t := opf e 30 4
  let sc := opf e 34 2
  let md := opf e 37 2
  let rows := mmaRows e
  let js := maskBits (mxMask e) 4
  let slots := js.map (fun j => (c.array j).slot (opf e 24 2))
  let w0 := slots.headD .reset
  firstRefuse ([
    refuseIf (opf e 89 7 != 0 || spaReserved e 0 != 0 || (sc == 2 && spaReserved e 65 != 0) || mxMask e == 0 || md == 3 || rows == 0
      || decide (rows > 256) || sc == 1 || sc == 3 || !mxType t || (sc == 2 && !mxScalable t) || (sc == 0 && opf e 65 24 != 0)
      || (md != 0 && t != 12) || (md == 0 && t == 12) || rows * rowBytes t % 64 != 0) 0x02,
    refuseIf (slotOwner (opf e 24 2) != st) 0x08,
    refuseIf (st == .defr && decide (rows > 64)) 0x09,
    refuseIf (slots.any (fun w => !w.valid)) 0x04,
    refuseIf (slots.any (fun w => w.dtype != w0.dtype || w.scale != w0.scale) || !mxPair t w0.dtype
      || (opf e 36 1 == 1 && w0.dtype == 12)) 0x02] ++
    js.map (fun j => mmaGroupFault st e j (c.array j)) ++ [
    s.spanFault pc (spaAddr e 0) (mmaRowWords e).length,
    s.spanFault pc (spaAddr e 65) (mmaScaleWords e).length,
    slotsLost c e])

/-- The weight that meets activation element `k` in logical column `c` (R90). -/
def weightAt (tile : Nat) (t : Nat) (orient : Bool) (k c : Nat) : Num × Nat × Nat :=
  let r := if orient then c else k
  let n := if orient then k else c
  (decodeElem t (natBits tile (8 * tileRowBytes t * r + mxWidth t * n) (mxWidth t)), r, n)

/-- The 64 products of one output element (R90, R102, R103). `row` is the activation row, `rs` its two scale bytes. -/
def mmaProducts (tile scales : Nat) (wt ws : Nat) (orient : Bool) (row rs at' asc : Nat) (c : Nat) : List Num :=
  (span 0 64).map (fun k =>
    let x := decodeElem at' (elemAt row (mxWidth at') k)
    let w := weightAt tile wt orient k c
    let p := x.mul w.1
    let p := applyScale p (if asc = 2 then some (e8m0 (natBits rs (8 * (k / 32)) 8)) else none)
    applyScale p (if ws = 2 then some (e8m0 (natBits scales (8 * (w.2.1 / 32 * 64 + w.2.2)) 8)) else none))

/-- A semiring result (R106). -/
def semiring (tile row : Nat) (md c : Nat) : Int :=
  let ks := (span 0 512).map (fun k => natBits row k 1 * natBits tile (64 * k + c) 1)
  if md = 1 then (if ks.any (· == 1) then 1 else 0) else ((ks.foldl (· + ·) 0 % 2 : Nat) : Int)

/-- The block value of row `row`, logical column `c` against a slot (R93, R95, R106). -/
def mmaBlock (w : Slot) (e : QEntry) (d : BitVec 32) (row rs c : Nat) : BlockVal :=
  let tile := wordsNat w.tile
  if opf e 37 2 = 0 then
    blockValue d (mmaProducts tile (wordsNat w.scales) w.dtype w.scale (opf e 36 1 == 1) row rs (opf e 30 4) (opf e 34 2) c)
  else ⟨semiring tile row (opf e 37 2) c, 0, 0, false⟩

/-- Row `i` of the array at position `j` of the mask, from the activation data and scales read (R91, R103). -/
def mmaRow (e : QEntry) (acts scs j i : Nat) : Nat × Nat :=
  let b := rowBytes (opf e 30 4)
  (natBits acts (8 * b * (j * mmaRows e + i)) (8 * b), natBits scs (16 * (j * mmaRows e + i)) 16)

/-- The physical columns of an array that are not bypassed, ascending (R107). -/
def ArrayState.goodCols (a : ArrayState) : List Nat := (span 0 66).filter (fun i => natBits a.bad.toNat i 1 == 0)

/-- Columns that an array presents (R107). -/
def ArrayState.presents (a : ArrayState) : Nat := match a.st with | .full => 64 | .half => 32 | .disabled => 0

/-- The physical column on which an array computes logical column `c` of an MX.MMA with rotation `rot` (R107). -/
def ArrayState.physCol (a : ArrayState) (rot c : Nat) : Option Nat :=
  if a.presents = 0 then none else a.goodCols[(c + rot) % a.presents]?

/-- Row `i` of one array into its group, logical columns `lo` to `hi - 1`, each on the physical column that the map gives it (R92, R93, R107,
R111). `w` is the array's copy of the slot. -/
def mmaStep (w : Slot) (e : QEntry) (acts scs j lo hi : Nat) (a : ArrayState) (i : Nat) : ArrayState :=
  let gr := mmaTarget e (gHeight (a.group (opf e 48 5)).desc) i
  let d := (a.group gr.1).desc
  let rr := mmaRow e acts scs j i
  let a := ((span lo (hi - lo)).filter (fun c => decide (c < gWidth d) && (a.physCol (opf e 59 6) c).isSome)).foldl (fun a c =>
    a.combine gr.1 gr.2 c (mmaBlock w e d rr.1 rr.2 c)) a
  a.unfresh gr.1 gr.2 (decide (lo < 32)) (decide (hi > 32))

/-- The masked arrays with their positions. -/
def maskPos (mask : Nat) : List (Nat × Nat) :=
  let l := maskBits mask 4
  (span 0 l.length).zip l

/-- The next `n` rows of a pass of an MX.MMA reach their groups: pass 1 covers every masked array, a half-width one in columns 0 to 31; pass 2 the
half-width arrays in columns 32 to 63 (R111). Each array multiplies by its own copy of the slot. -/
def mmaRowsOn (c : Core) (f : InFlight) (n : Nat) : Core :=
  (maskPos (mxMask f.ent)).foldl (fun c p =>
    let a := c.array p.2
    let half := a.st == .half
    let w := ((f.mma.slots.find? (fun x => x.1 == p.2)).map Prod.snd).getD .reset
    let run (lo hi : Nat) : Core := c.setArray p.2 ((span f.mma.done n).foldl (mmaStep w f.ent f.mma.acts f.mma.scs p.1 lo hi) a)
    if f.mma.second then (if half then run 32 64 else c) else run 0 (if half then 32 else 64)) c

/-- Bring the word in flight at position `i`, an MX.MMA, to `k` rows done in its running pass. -/
def Core.mmaTo (c : Core) (i k : Nat) : Core :=
  match c.inflight[i]? with
  | none => c
  | some f =>
    if k ≤ f.mma.done then c
    else { mmaRowsOn c f (k - f.mma.done) with inflight := c.inflight.set i { f with mma := { f.mma with done := k } } }

/-- Let the MX.MMAs of a stream that have yet to reach group `g` of array `j` get some way, oldest first: a younger one starts only once the older
one's rows are in. How far is free (R140). (DESIGN CHOICE, log entry 72.) -/
def State.mmaDrift (s : State) (pc : Nat) (st : Stream) (j g : Nat) : State :=
  let c := s.core pc
  let ms := ((span 0 c.inflight.length).zip c.inflight).filter (fun p => p.2.eng == .mx && p.2.strm == st && opcodeOf p.2.ent.word == 0x010)
  if !ms.any (fun p => decide (p.2.mma.done < mmaRows p.2.ent) && mmaMeets c p.2.ent (2 ^ j, g, 1)) then s
  else (ms.foldl (fun (r : Bool × State) p =>
    if !r.1 || decide (mmaRows p.2.ent ≤ p.2.mma.done) then r
    else
      let x := r.2.draw
      let k := p.2.mma.done + Config.mmaProgress x.1 % (mmaRows p.2.ent - p.2.mma.done + 1)
      (decide (k = mmaRows p.2.ent) && !p.2.pass2, x.2.modCore pc (fun c => c.mmaTo p.1 k))) (true, s)).2

/-- The digest an array folds over the block values of its rows (R349). -/
def mmaDigest (a : ArrayState) (e : QEntry) (d0 : BitVec 32) (w : Slot) (acts scs j : Nat) : BitVec 64 :=
  let h := gHeight d0
  (span 0 (mmaRows e)).foldl (fun dg i =>
    let gr := mmaTarget e h i
    let d := (a.group gr.1).desc
    let rr := mmaRow e acts scs j i
    (span 0 64).foldl (fun dg c =>
      let b := mmaBlock w e d rr.1 rr.2 c
      sentinelFold dg (unsigned (gBits d) b.val) b.tag) dg) 0

/-- The pair of arrays of a sentinel: the first pair in cyclic order from `sg` whose slots the same MX.WLOAD filled (R347). -/
def sentinelPair (c : Core) (e : QEntry) (sg : Nat) : Option (Nat × Nat) :=
  let js := maskBits (mxMask e) 4
  let n := js.length
  if n ≤ 1 then none
  else ((span 0 n).map (fun i => (js.getD ((sg + i) % n) 0, js.getD ((sg + i + 1) % n) 0))).find? (fun p =>
    ((c.array p.1).slot (opf e 24 2)).fill == ((c.array p.2).slot (opf e 24 2)).fill)

/-- Sentinel selection at the issue of an MX.MMA (R346, R347). -/
def State.selectSentinel (s : State) (pc lc : Nat) (st : Stream) (e : QEntry) (acts scs : Nat) : State :=
  let d := pcDie pc
  let c := s.core pc
  let x := c.stream st
  let p := 2 ^ s.getF d fAgateSentCfgLog2p
  let sel := decide ((x.mmaCount + s.coreGet pc fVxSrStepStep + lc) % p = 0)
  let c1 := c.setStream st { x with mmaCount := x.mmaCount + 1 }
  if !(s.flag d fAgateSentCfgEn && (sel || decide (x.sentOwed > 0))) then s.setCore pc c1
  else
    let n := (maskBits (mxMask e) 4).length
    match sentinelPair c e (x.sentPasses % n) with
    | none =>
      if sel then
        (s.setCore pc (c.setStream st { x with mmaCount := x.mmaCount + 1, sentOwed := x.sentOwed + 1 })).bump d fAgateSentSkipCntCount 1
      else s.setCore pc c1
    | some (o, sib) =>
      let a := c.array o
      let j := ((maskPos (mxMask e)).find? (fun q => q.2 == o)).map Prod.fst |>.getD 0
      let dg := mmaDigest a e (a.group (opf e 48 5)).desc (a.slot (opf e 24 2)) acts scs j
      let x1 := { x with mmaCount := x.mmaCount + 1, sentOwed := if sel then x.sentOwed else x.sentOwed - 1, sentPasses := x.sentPasses + 1 }
      s.setCore pc { c.setStream st x1 with sentinels := c.sentinels ++ [⟨st, e, o, sib, false, dg, 0⟩] }

/-- Bank words the target rows of an MX.MMA touch in array `a`: the first beyond correction, and the corrected ones. -/
def mmaBankScan (a : ArrayState) (e : QEntry) : Option Nat × Nat :=
  let h := gHeight (a.group (opf e 48 5)).desc
  (span 0 (mmaRows e)).foldl (fun (r : Option Nat × Nat) i =>
    let gr := mmaTarget e h i
    let g := a.group gr.1
    let b := a.scanRow true gr.1 gr.2 0 (gWidth g.desc)
    (r.1.orElse (fun _ => b.1), r.2 + b.2)) (none, 0)

/-- The operands of an MX.MMA as read: rows, scales, the first uncorrectable word, corrected words. -/
def mmaRead (pc : Nat) (c : Core) (e : QEntry) : Nat × Nat × Option Nat × List (Nat × Nat) :=
  let rd := spadReads pc c (mmaRowWords e ++ mmaScaleWords e)
  let n := (mmaRowWords e).length
  (wordsNat (rd.vals.take n), wordsNat (rd.vals.drop n), rd.bad, rd.corrs)

/-- Correct the slots an MX.MMA copies, writing the corrected words back (R87, R210). -/
def fixSlots (c : Core) (e : QEntry) : Core × Nat :=
  (maskBits (mxMask e) 4).foldl (fun (r : Core × Nat) j =>
    let a := r.1.array j
    let w := a.slot (opf e 24 2)
    if w.errs.isEmpty then r else (r.1.setArray j (a.setSlot (opf e 24 2) { w with errs := [] }), r.2 + w.errs.length)) (c, 0)

/-- What the masked arrays latch of the slot, and the operands read: a pass of an MX.MMA that starts. -/
def mmaLatch (c : Core) (e : QEntry) (acts scs : Nat) (second : Bool) : MmaRun :=
  ⟨acts, scs, (maskBits (mxMask e) 4).map (fun j => (j, (c.array j).slot (opf e 24 2))), second, 0⟩

/-- MX.MMA at issue: slots are copied and rows and scales read; the rows reach their groups by the time the word completes (R90 to R96, R140).
(DEDUCED, log entry 26.) -/
def mmaAct (lc : Nat) (st : Stream) (s : State) (pc : Nat) (e : QEntry) : Except (Refuse × State) State :=
  let c := s.core pc
  let r := mmaRead pc c e
  let s := s.noteSpad pc lc r.2.2.2 (b2n r.2.2.1.isSome)
  match r.2.2.1 with
  | some w => .error (⟨0x04, w, false⟩, s)
  | none =>
    let bank := (maskBits (mxMask e) 4).map (fun j => (j, mmaBankScan (c.array j) e))
    match bank.findSome? (fun b => b.2.1.map (storeRefuse b.1)) with
    | some f => .error (f, if f.own then s else s.coreBump pc fSpadUncorrCntCount 1)
    | none =>
      let fx := fixSlots (s.core pc) e
      let s := s.setCore pc fx.1
      let s := s.coreBump pc fSpadCorrCntCount (fx.2 + bank.foldl (fun n b => n + b.2.2
        + (c.array b.1).groupsFixed (mmaGroups e (gHeight ((c.array b.1).group (opf e 48 5)).desc))) 0)
      let s := s.checkRead pc lc c (mmaRowWords e ++ mmaScaleWords e) e.word
      let s := s.selectSentinel pc lc st e r.1 r.2.1
      .ok (s.modCore pc (fun c => c.mapLast (fun f => { f with pass2 := c.anyHalf (mxMask e), mma := mmaLatch c e r.1 r.2.1 false })))

/-- MX.MMA (R96, R98, R131). -/
def execMxMma (lc : Fin 64) (st : Stream) (ph : Phase) (tok : BitVec 16) (ops : BitVec 96) (s : State) :
    Host.Outcome State Fault Refusal :=
  .next (s.engineWord lc st ph .mx 0x010 tok ops (mmaCheck st) (mmaAct lc st))

/-- MX_MMA_COMPLETE (R96): the oldest MX.MMA of the stream completes, all its rows in their groups. `residue` says that a residue check of an
ALIGN shifter or COMBINE adder of that array failed during the word (R345). -/
def execMxMmaComplete (lc : Fin 64) (st : Stream) (residue : Option (Fin 4)) (s : State) : Host.Outcome State Fault Refusal :=
  .next (
    let s1 := s.completeWord lc st .mx [0x010] (fun s pc f =>
      let s := s.modCore pc (fun c => match c.oldest .mx st with
        | some (i, _) => c.mmaTo i (mmaRows f.ent)
        | none => c)
      match residue with
      | some j => s.raise (pcDie pc) ⟨.tainted, 0x0021, 0x02, lc * 4 + j, f.ent.pc, (Config.recordArg 0x21 0 [lc, f.id]).toNat, (Config.recordArg 0x21 1 [lc, f.id]).toNat, 0⟩
      | none => s)
    match s.physOf lc with
    | none => s
    | some pc => State.drainMx lc st 64 s1 pc)

/-- MX_PASS2 (R111): the second pass of the stream's oldest MX word that owes one issues in its turn (R69). Pass 1 is over; the half-width arrays
copy their slots again, checked as R87 says, and reread rows and scales. The second pass of an MX.WLOAD has no more to write.
(DEDUCED, log entry 26.) -/
def execMxPass2 (lc : Fin 64) (st : Stream) (s : State) : Host.Outcome State Fault Refusal :=
  .next (match s.physOf lc with
    | none => s
    | some pc =>
      let c := s.core pc
      match ((span 0 c.inflight.length).zip c.inflight).find? (fun p => p.2.eng == .mx && p.2.strm == st && p.2.pass2) with
      | none => s
      | some (i, f) =>
        if st == .defr && !(c.issueTurn .mx st) then s
        else if opcodeOf f.ent.word = 0x010 then
          let e := f.ent
          let s := s.modCore pc (fun c => c.mmaTo i (mmaRows e))
          let c := s.core pc
          match slotsLost c e with
          | some r => s.refuseLate pc lc st i f r
          | none =>
            let r := mmaRead pc c e
            let s := s.noteSpad pc lc r.2.2.2 (b2n r.2.2.1.isSome)
            (match r.2.2.1 with
            | some w => s.refuseLate pc lc st i f ⟨0x04, w, false⟩
            | none =>
              let fx := fixSlots (s.core pc) e
              let s := (s.setCore pc fx.1).checkRead pc lc c (mmaRowWords e ++ mmaScaleWords e) e.word
              let s := if fx.2 = 0 then s else s.coreBump pc fSpadCorrCntCount fx.2
              s.modCore pc (fun c => { c with inflight := c.inflight.set i { f with pass2 := false, mma := mmaLatch c e r.1 r.2.1 true } }))
        else s.modCore pc (fun c => { c with inflight := c.inflight.set i { f with pass2 := false } }))

/-! ### Groups -/

/-- Refusals of a group run: MASK, NGRP and GROUP + NGRP (R127, R132, R136). -/
def groupRunBad (mask first n : Nat) : Bool := mask == 0 || n == 0 || decide (n > 32) || decide (first + n > 32)

/-- Is a descriptor one that GOPEN refuses (R127)? -/
def descBad (d : BitVec 32) : Bool :=
  fld d 23 9 != 0 || !(gFormat d == 0 || gFormat d == 10 || gFormat d == 11) || (gIsF32 d && (fld d 4 10 != 0 || fld d 17 2 != 0))
    || decide (fld d 17 2 ≥ 2) || decide (gComb d ≥ 6)

/-- Refusals of MX.GOPEN (R127): a named group open for the other stream is cause 0x08 whatever overlaps it. Of the group store it reads the named
groups' entries; the overlap test takes the extents of the other open groups as they are. (DESIGN CHOICE, log entry 72.) -/
def gopenCheck (st : Stream) (s : State) (pc : Nat) (e : QEntry) : Option Refuse :=
  let c := s.core pc
  let d := gopenDesc e
  let mask := opf e 0 4
  let first := opf e 4 5
  let n := opf e 9 6
  let base := opf e 15 10
  let js := maskBits mask 4
  let named := span first n
  firstRefuse [
    refuseIf (opf e 25 7 != 0 || opf e 64 32 != 0 || groupRunBad mask first n || descBad d) 0x02,
    refuseIf (decide (base * 256 + n * gBytes d > 262144)) 0x02,
    js.findSome? (fun j => (c.array j).groupsLost j named),
    refuseIf (js.any (fun j => named.any (fun i => ((c.array j).group i).isOpen && ((c.array j).group i).owner != st))) 0x08,
    refuseIf (js.any (fun j => named.any (fun i => ((c.array j).group i).isOpen))) 0x02,
    refuseIf (js.any (fun j => (span 0 32).any (fun i => ((c.array j).group i).isOpen
      && groupOverlap (base * 256) (n * gBytes d) ((c.array j).group i)))) 0x02]

/-- Open the groups of an MX.GOPEN (R126, R128). -/
def gopenAct (st : Stream) (c : Core) (e : QEntry) : Core :=
  let d := gopenDesc e
  (maskBits (opf e 0 4) 4).foldl (fun c j =>
    (span 0 (opf e 9 6)).foldl (fun c i =>
      let a := (c.array j).setGroup (opf e 4 5 + i)
        ⟨d, opf e 15 10 + i * gBytes d / 256, true, st, BitVec.allOnes 64, BitVec.allOnes 64, 0, false, false, false, false⟩
      c.setArray j { a with groupErrs := mapErase a.groupErrs (opf e 4 5 + i) }) c) c

/-- MX.GOPEN (R126 to R128): the closes it waits for come first, then its checks are made, then it opens and completes. -/
def execMxGopen (lc : Fin 64) (st : Stream) (ph : Phase) (tok : BitVec 16) (ops : BitVec 96) (s : State) :
    Host.Outcome State Fault Refusal :=
  .next (s.engineWord lc st ph .mx 0x020 tok ops (gopenCheck st)
    (fun s pc e => .ok (State.drainMx lc st 64 (s.modCore pc (fun c => gopenAct st c e)) pc)))

/-- Refusals that closes and exports share: a named group not open, or of the other stream (R132, R136). -/
def namedGroupFault (st : Stream) (c : Core) (mask first n : Nat) : Option Refuse :=
  let js := maskBits mask 4
  firstRefuse [
    refuseIf (js.any (fun j => (span first n).any (fun i => !((c.array j).group i).isOpen))) 0x02,
    js.findSome? (fun j => (c.array j).groupsLost j (span first n)),
    refuseIf (js.any (fun j => (span first n).any (fun i => ((c.array j).group i).owner != st))) 0x08]

/-- MX.GCLOSE (R132): accepted once every earlier MX.MMA into the groups has completed; it closes at its completion. -/
def execMxGclose (lc : Fin 64) (st : Stream) (ph : Phase) (tok : BitVec 16) (ops : BitVec 96) (s : State) :
    Host.Outcome State Fault Refusal :=
  .next (s.engineWord lc st ph .mx 0x021 tok ops
    (fun s pc e => firstRefuse [
      refuseIf (opf e 15 81 != 0 || groupRunBad (opf e 0 4) (opf e 4 5) (opf e 9 6)) 0x02,
      namedGroupFault st (s.core pc) (opf e 0 4) (opf e 4 5) (opf e 9 6)])
    (fun s pc e => .ok (State.drainMx lc st 64 (s.coreBump pc fSpadCorrCntCount
      ((maskBits (opf e 0 4) 4).foldl (fun n j => n + ((s.core pc).array j).groupsFixed (span (opf e 4 5) (opf e 9 6))) 0)) pc)))

/-! ### Export -/

/-- Fields of an MX.GEXPORT (Table 4.7). -/
def exType (e : QEntry) : Nat := opf e 39 4
/-- Tag plane size of a group, padded to 64 B (R135). -/
def tagPlane (d : BitVec 32) : Nat := ceilDiv (ceilDiv (gHeight d * gWidth d) 4) 64 * 64
/-- Bytes one group's output takes, tag plane included (R137). -/
def exGroupBytes (e : QEntry) (d : BitVec 32) : Nat :=
  gHeight d * gWidth d * typeWidth (exType e) / 8 + (if opf e 47 1 = 1 then tagPlane d else 0)
/-- The groups exported, in the order of R137. -/
def exGroups (e : QEntry) : List (Nat × Nat) :=
  (maskBits (opf e 24 4) 4).flatMap (fun j => (span (opf e 28 5) (opf e 33 6)).map (fun g => (j, g)))
/-- The output size E of an export (R137). -/
def exBytes (c : Core) (e : QEntry) : Nat :=
  (exGroups e).foldl (fun n p => n + exGroupBytes e ((c.array p.1).group p.2).desc) 0
/-- The SP1 cycles C of an export (R138). -/
def exCycles (c : Core) (e : QEntry) : Nat :=
  let g := (maskBits (opf e 24 4) 4).foldl (fun m j => max m ((span (opf e 28 5) (opf e 33 6)).foldl (fun n i => n + gBytes ((c.array j).group i).desc) 0)) 0
  max (ceilDiv (exBytes c e) 256) (ceilDiv g 512)

/-- Refusals of MX.GEXPORT (R136 to R138). -/
def gexportCheck (st : Stream) (s : State) (pc : Nat) (e : QEntry) : Option Refuse :=
  let c := s.core pc
  let t := exType e
  let md := opf e 43 2
  let xa := t == 10 || t == 11
  let ds := (exGroups e).map (fun p => ((c.array p.1).group p.2).desc)
  firstRefuse [
    refuseIf (opf e 48 16 != 0 || spaReserved e 0 != 0 || groupRunBad (opf e 24 4) (opf e 28 5) (opf e 33 6)
      || !(decide (t ≤ 4) || xa) || md == 2 || (md == 3 && !decide (t ≤ 2))
      || (xa && (md != 0 || opf e 46 1 != 0 || opf e 64 32 != 0)) || (!xa && opf e 47 1 == 1)
      || (opf e 46 1 == 0 && opf e 64 32 != 0)) 0x02,
    namedGroupFault st c (opf e 24 4) (opf e 28 5) (opf e 33 6),
    refuseIf (ds.any (fun d => (gIsF32 d && xa) || (gFormat d == 11 && t == 10))) 0x02,
    refuseIf (ds.any (fun d => exGroupBytes e d % 64 != 0)) 0x02,
    s.spanFault pc (spaAddr e 0) (exBytes c e / 64),
    refuseIf (st == .defr && decide (exCycles c e > 128)) 0x09]

/-- One element of an export: its pattern, and whether it sets NONFIN (R134, R135). -/
def exElem (e : QEntry) (d : BitVec 32) (x : Elem) : Conv :=
  let t := exType e
  if t = 10 ∨ t = 11 then ⟨unsigned (typeWidth t) (signed (gBits d) x.bits), false⟩
  else
    let md : Rnd := match opf e 43 2 with | 0 => .rne | 1 => .rtz | _ => .odd
    exportConv t md (gIsF32 d) (if opf e 46 1 = 1 then some (opf e 64 32) else none) (elemNum d x)

/-- The output of one group as a little-endian number, and whether an element set NONFIN (R135, R137). -/
def exGroup (a : ArrayState) (e : QEntry) (gi : Nat) : Nat × Bool :=
  let g := a.group gi
  let d := g.desc
  let w := gWidth d
  let els := (span 0 (gHeight d * w)).map (fun i => a.seenElem gi (i / w) (i % w))
  let cs := els.map (exElem e d)
  let data := packElems (typeWidth (exType e)) (cs.map Conv.pat)
  let tags := if opf e 47 1 = 1 then packElems 2 (els.map Elem.tag) else 0
  (data + 2 ^ (gHeight d * w * typeWidth (exType e)) * tags, cs.any Conv.nonfin)

/-- A number cut into `n` scratchpad words from word `w` on. -/
def wordsFrom (w v : Nat) : Nat → List (Nat × SpadBits)
  | 0 => []
  | n + 1 => (w, BitVec.ofNat 512 (v % 2 ^ 512)) :: wordsFrom (w + 1) (v / 2 ^ 512) n

/-- Write the groups of an export one after another from word `w` on (R137). -/
def exWrite (pc : Nat) (e : QEntry) : List (Nat × Nat) → Nat → Core → Core
  | [], _, c => c
  | (j, gi) :: r, w, c =>
    let a := c.array j
    let n := exGroupBytes e (a.group gi).desc / 64
    let x := exGroup a e gi
    let c := if x.2 then c.setArray j (a.setGroup gi { a.group gi with nonfin := true }) else c
    exWrite pc e r (w + n) (spadWrite pc c (wordsFrom w x.1 n))

/-- MX.GEXPORT at issue (R133 to R137): every element is converted once and written to the scratchpad; a bank word beyond
correction refuses the word (R129). (DEDUCED, log entry 26.) -/
def gexportAct (lc : Nat) (s : State) (pc : Nat) (e : QEntry) : Except (Refuse × State) State :=
  let c := s.core pc
  let scan := (exGroups e).map (fun p => let d := ((c.array p.1).group p.2).desc; (p, (c.array p.1).scanEls p.2 0 (gHeight d * gWidth d)))
  match scan.findSome? (fun b => b.2.1.map (storeRefuse b.1.1)) with
  | some f => .error (f, if f.own then s else s.coreBump pc fSpadUncorrCntCount 1)
  | none =>
    let s := s.coreBump pc fSpadCorrCntCount (scan.foldl (fun n b => n + b.2.2 + (c.array b.1.1).groupsFixed [b.1.2]) 0)
    let ws := span (spaAddr e 0) (exBytes c e / 64)
    let s := s.noteSpad pc lc (sideCorrs pc c ws) 0
    .ok (s.modCore pc (exWrite pc e (exGroups e) (spaAddr e 0)))

/-- MX.GEXPORT (R133, R138). -/
def execMxGexport (lc : Fin 64) (st : Stream) (ph : Phase) (tok : BitVec 16) (ops : BitVec 96) (s : State) :
    Host.Outcome State Fault Refusal :=
  .next (s.engineWord lc st ph .mx 0x022 tok ops (gexportCheck st) (gexportAct lc))

/-- Release the groups of an export: with CLOSE they close (R138, R141). -/
def State.releaseExport (s : State) (pc : Nat) (f : InFlight) : State :=
  if f.released then s
  else if opf f.ent 45 1 = 1 then s.closeGroups pc (opf f.ent 24 4) (opf f.ent 28 5) (opf f.ent 33 6) else s

/-- MX_GEXPORT_COMPLETE (R138). -/
def execMxGexportComplete (lc : Fin 64) (st : Stream) (s : State) : Host.Outcome State Fault Refusal :=
  .next (
    let s1 := s.completeWord lc st .mx [0x022] (fun s pc f => s.releaseExport pc f)
    match s.physOf lc with
    | none => s
    | some pc => State.drainMx lc st 64 s1 pc)

/-! ### Sentinels -/

/-- The words of the rows and scales of array number `j` of the mask (R91, R103), and the bits of the first word before them. -/
def mmaPartWords (e : QEntry) (j : Nat) : List Nat × List Nat :=
  let b := mmaRows e * rowBytes (opf e 30 4)
  let part (a off n : Nat) : List Nat := if n = 0 then [] else span (a + off / 64) ((off + n + 63) / 64 - off / 64)
  (part (spaAddr e 0) (j * b) b, if opf e 34 2 = 2 then part (spaAddr e 65) (2 * j * mmaRows e) (2 * mmaRows e) else [])

/-- The rows and scales of one masked array as a sentinel pass rereads them, each at its place among those of all masked arrays. -/
def mmaReread (pc : Nat) (c : Core) (e : QEntry) (j : Nat) : Nat × Nat × Option Nat × List (Nat × Nat) :=
  let w := mmaPartWords e j
  let rd := spadReads pc c (w.1 ++ w.2)
  let lift (a : Nat) (ws : List Nat) (l : List SpadBits) : Nat := wordsNat l * 2 ^ (512 * (ws.headD a - a))
  (lift (spaAddr e 0) w.1 (rd.vals.take w.1.length), lift (spaAddr e 65) w.2 (rd.vals.drop w.1.length), rd.bad, rd.corrs)

/-- The sentinel pass of a core that issues next, with its position: the critical stream's oldest, or the deferred stream's in its turn (R69,
R348). -/
def Core.nextSentinel (c : Core) : Option (Nat × Sentinel) :=
  let l := (span 0 c.sentinels.length).zip c.sentinels
  (l.find? (fun p => !p.2.passed && p.2.strm == .crit)).orElse (fun _ =>
    if c.issueTurn .mx .defr then l.find? (fun p => !p.2.passed) else none)

/-- SENTINEL_PASS (R348): the sentinel pass of a core that issues next. The sibling copies its own slot, checked as R87 says, rereads the
original's rows and scales, and replays them; a word that cannot be read halts the stream (R81). -/
def execSentinelPass (lc : Fin 64) (s : State) : Host.Outcome State Fault Refusal :=
  .next (match s.physOf lc with
    | none => s
    | some pc =>
      let c := s.core pc
      match c.nextSentinel with
      | none => s
      | some (i, x) =>
        let e := x.ent
        let gone (s : State) : State := s.modCore pc (fun c => { c with sentinels := c.sentinels.take i ++ c.sentinels.drop (i + 1) })
        let sl := (c.array x.sib).slot (opf e 24 2)
        if sl.errs.any (fun z => lostWord z.2) then (gone s).refuseWord pc lc x.strm e (storeRefuse x.sib (8192 + opf e 24 2))
        else
          let j := ((maskPos (mxMask e)).find? (fun q => q.2 == x.orig)).map Prod.fst |>.getD 0
          let r := mmaReread pc c e j
          let s := s.noteSpad pc lc r.2.2.2 (b2n r.2.2.1.isSome)
          match r.2.2.1 with
          | some w => (gone s).halt pc lc x.strm (haltBy 0x04 e w)
          | none =>
            let a := c.array x.orig
            let dg := mmaDigest a e (a.group (opf e 48 5)).desc sl r.1 r.2.1 j
            let s := s.checkRead pc lc c ((mmaPartWords e j).1 ++ (mmaPartWords e j).2) e.word
            let s := if sl.errs.isEmpty then s else s.coreBump pc fSpadCorrCntCount sl.errs.length
            (s.modCore pc (fun c =>
              let b := c.array x.sib
              { c.setArray x.sib (b.setSlot (opf e 24 2) { b.slot (opf e 24 2) with errs := [] }) with
                sentinels := c.sentinels.set i { x with passed := true, dSib := dg } })).bump (pcDie pc) fAgateSentCntCount 1)

/-- SENTINEL_COMPARE (R349): the oldest finished pass is compared. `faultO` and `faultS` are what faults in the original and the
sibling changed in their digests. On a mismatch both arrays are quarantined and a TAINTED record is raised. -/
def execSentinelCompare (lc : Fin 64) (faultO faultS : BitVec 64) (s : State) : Host.Outcome State Fault Refusal :=
  .next (match s.physOf lc with
    | none => s
    | some pc =>
      let c := s.core pc
      match takeFirst (fun (x : Sentinel) => x.passed) c.sentinels with
      | none => s
      | some (x, r) =>
        if x.dOrig ^^^ faultO = x.dSib ^^^ faultS then s.setCore pc { c with sentinels := r }
        else
          let q (c : Core) (j : Nat) : Core := c.setArray j { c.array j with quar := true }
          let d := pcDie pc
          let rot := opf x.ent 59 6
          ((s.setCore pc { q (q c x.orig) x.sib with sentinels := r }).bump d fAgateSentMissCntCount 1).raise d
            ⟨.tainted, 0x0020, 0x02, lc * 4 + x.orig, x.ent.pc, (Config.recordArg 0x20 0 [x.orig, x.sib]).toNat,
              (Config.recordArg 0x20 1 [rot, s.getF d fAgateSentCfgSrot]).toNat, 0⟩)

/-! ### Column self-tests and array control -/

/-- Are both streams of a core IDLE or ENDED (R108, R109)? -/
def Core.quiet (c : Core) : Bool :=
  (c.crit.st == .idle || c.crit.st == .ended) && (c.defr.st == .idle || c.defr.st == .ended)

/-- Physical columns bypassed. -/
def badCount (b : BitVec 66) : Nat := (maskBits b.toNat 66).length

/-- Change an array of a physical core when both its streams are IDLE or ENDED and, where asked, no test runs. -/
def State.arrayCtl (s : State) (pc : Nat) (j : Nat) (idleTest : Bool) (f : ArrayState → ArrayState) : State :=
  let c := s.core pc
  let a := c.array j
  if s.dieUp (pcDie pc) && c.quiet && !(idleTest && a.ctRunning) then s.setCore pc (c.setArray j (f a)) else s

/-- CTEST (R109, Table 3.12): start a column self-test of one array of a physical core. -/
def execCtest (pc : Fin 72) (j : Fin 4) (s : State) : Host.Outcome State Fault Refusal :=
  .next (s.arrayCtl pc j true (fun a => { a with ctRunning := true, ctDone := false }))

/-- The column map of R107 after bypassing columns: STATE by the number bypassed, unless the array is DISABLED. -/
def remap (a : ArrayState) : ArrayState :=
  if a.st = .disabled then a else { a with st := if badCount a.bad ≤ 2 then .full else if badCount a.bad ≤ 34 then .half else .disabled }

/-- Merge ARR_PEND into ARR_BAD and recompute the map (R108); an array that newly bypasses columns makes its core DEGRADED and is
reported (Table 3.5). (DEDUCED, log entry 49.) -/
def State.applyCols (s : State) (pc j : Nat) : State :=
  let old := (s.core pc).array j
  let s1 := s.arrayCtl pc j true (fun a => remap { a with bad := a.bad ||| a.pend, pend := 0 })
  let a := (s1.core pc).array j
  if a.bad = old.bad then s1
  else
    let d := pcDie pc
    let f := funcId 2 d (pc % 18)
    let s2 := if s1.func f = 2 then s1.setFunc f 3 else s1
    let s3 := s2.raise d ⟨.info, 0x0061, 0x02, ((s.logicalOf pc).getD 0) * 4 + j, 0, j, match a.st with | .full => 0 | .half => 1 | .disabled => 2, 0⟩
    if a.st = .disabled then s3.markRetire pc 1 else s3

/-- APPLY (R108, Table 3.12). -/
def execApply (pc : Fin 72) (j : Fin 4) (s : State) : Host.Outcome State Fault Refusal := .next (s.applyCols pc j)

/-- DISABLE (R112, Table 3.12): the core is to be retired before the next GO on it. -/
def execDisable (pc : Fin 72) (j : Fin 4) (s : State) : Host.Outcome State Fault Refusal :=
  .next (if s.dieUp (pcDie pc) && (s.core pc).quiet then (s.arrayCtl pc j false (fun a => { a with st := .disabled })).markRetire pc 1 else s)

/-- The end of a column self-test (R109, R360, Tables 3.5 and 11.6): the test of one array ends with failing columns and UNLOC. A quarantined
array without a failing column leaves quarantine and counts the clean test; failing columns become pending; more than 34 bypassed, UNLOC, or the
QUAR_LIMIT-th clean quarantine disables the array and marks the core. Failing columns leave QUAR as it is. (DESIGN CHOICE, log entry 72.) -/
def State.ctestDone (s : State) (pc j : Nat) (failing : BitVec 66) (unloc : Bool) : State :=
    let c := s.core pc
    let a := c.array j
    if !a.ctRunning then s
    else
      let a1 := { a with ctRunning := false, ctDone := true, ctest := failing, ctUnloc := unloc }
      let d := pcDie pc
      if failing = 0 ∧ !unloc then
        let n := if a.quar then satAdd 65535 a.cleanCnt 1 else a.cleanCnt
        let a2 := { a1 with quar := false, cleanCnt := n }
        let lim := s.getF d fRetireCfgQuarLimit
        let r := if a.quar then s.evidence pc j false else (0, s)
        if a.quar && lim != 0 && decide (r.1 ≥ lim) then
          (r.2.setCore pc (c.setArray j { a2 with st := .disabled })).markRetire pc 2
        else r.2.setCore pc (c.setArray j a2)
      else if unloc || decide (badCount (a.bad ||| a.pend ||| failing) > 34) then
        (s.setCore pc (c.setArray j { a1 with st := .disabled })).markRetire pc 1
      else s.setCore pc (c.setArray j { a1 with pend := a.pend ||| failing })

/-- Is an array of die `d` under test? -/
def State.testsOn (s : State) (d : Nat) : Bool := (span (18 * d) 18).any (fun pc => (span 0 4).any (fun j => ((s.core pc).array j).ctRunning))

/-- A RUN_SELFTEST of column tests is answered once no array of its dies is under test. -/
def State.columnTestsEnd (s : State) : State :=
  s.finish (fun w => match w with
    | .selftest dies kind => kind == 0 && !(maskBits dies 4).any s.testsOn
    | _ => false) 0 0

/-- CTEST_COMPLETE. -/
def execCtestComplete (pc : Fin 72) (j : Fin 4) (failing : BitVec 66) (unloc : Bool) (s : State) : Host.Outcome State Fault Refusal :=
  .next (s.ctestDone pc j failing unloc).columnTestsEnd

end Sys2Proof.Machine
end

