-- ==== Sys2Proof/Machine/CoreEvents.lean ====
section
/-!
DEFINITION. Events of a core that no single word makes: token arrivals (R65), source release (R59), the check at the end of
both streams (R67), and the GO and HALT bits of SEQ_CTRL (Table 2.10).
-/

namespace Sys2Proof.Machine

/-- TOKEN_ARRIVAL (R65, R66): a Beryl increment on its way to a token of a logical core reaches it. -/
def execTokenArrival (lc : Fin 64) (k : Fin 64) (s : State) : Host.Outcome State Fault Refusal :=
  .next (match takeFirst (fun (a : Nat × Nat) => a.1 == lc.val && a.2 == k.val) s.arrivals with
    | none => s
    | some (_, r) =>
      let s := { s with arrivals := r }
      match s.physOf lc with
      | none => s
      | some pc => s.addToken pc lc k 1)

/-- Can a word release its sources before it completes (R59)? The words that read scratchpad or accumulator operands and end
that reading early: MX.WLOAD, MX.MMA, MX.GEXPORT, VLD, VACC and DM.STORE. -/
def releasesEarly (w : InstrWord) : Bool :=
  match fld w 124 4, opcodeOf w with
  | 1, 0x001 => true
  | 1, 0x010 => true
  | 1, 0x022 => true
  | 2, 0x080 => true
  | 2, 0x090 => true
  | 3, 0x002 => true
  | _, _ => false

/-- SOURCE_RELEASE (R57, R59, R138): the `nth` word in flight of an engine and stream has read all its operands; an export
also releases its groups. -/
def execSourceRelease (lc : Fin 64) (st : Stream) (eng : Engine) (nth : Nat) (s : State) : Host.Outcome State Fault Refusal :=
  .next (match s.physOf lc with
    | none => s
    | some pc =>
      let c := s.core pc
      match (((span 0 c.inflight.length).zip c.inflight).filter (fun p => p.2.eng == eng && p.2.strm == st))[nth]? with
      | none => s
      | some (i, f) =>
        if f.released || f.pass2 || !releasesEarly f.ent.word then s
        else
          let s := if eng = .mx && opcodeOf f.ent.word == 0x022 then s.releaseExport pc f else s
          (s.modCore pc (fun c => { c with inflight := c.inflight.set i { f with released := true } })).signal pc lc f.ent.word 2)

/-- Has a core nothing left to do after both streams ended: no queued word, no issued word, no IRLOAD (R67, R76)? -/
def Core.drained (c : Core) : Bool :=
  c.crit.st == .ended && c.defr.st == .ended && c.queues.all (fun e => e.2.isEmpty) && c.inflight.isEmpty
    && c.crit.irloads.isEmpty && c.defr.irloads.isEmpty

/-- The mask of non-zero tokens (Table 11.18). -/
def Core.tokenMask (c : Core) : Nat := (span 0 64).foldl (fun m k => if c.token k = 0 then m else m + 2 ^ k) 0

/-- STREAM_END_CHECK (R67): sets DONE; with a token left over or a group open it first closes the groups and halts both
streams with cause 0x0C, and the Jasper cluster fails the task as UNBALANCED. How that record names tokens and groups is open.
(DESIGN CHOICE, log entry 12.) -/
def execStreamEndCheck (lc : Fin 64) (s : State) : Host.Outcome State Fault Refusal :=
  .next (match s.physOf lc with
    | none => s
    | some pc =>
      let c := s.core pc
      if c.done || !c.drained then s
      else
        let toks := c.tokenMask
        let r := s.closeAll pc
        let s := r.2.modCore pc (fun c => { c with done := true })
        if toks = 0 ∧ r.1 = 0 then s
        else (s.halt pc lc .crit ⟨0x0C, true, 0, 0, BitVec.ofNat 128 r.1, toks, 0⟩).raise (pcDie pc)
          ⟨.jobFatal, 0x0002, 0x0A, pcDie pc, toks, (Config.recordArg 0x02 0 [lc, toks, r.1]).toNat, (Config.recordArg 0x02 1 [lc, toks, r.1]).toNat, 0⟩)

/-- Does a core still hold an issued word or an IRLOAD (BUSY_MX to BUSY_IR)? -/
def Core.busy (c : Core) : Bool := !c.inflight.isEmpty || !c.crit.irloads.isEmpty || !c.defr.irloads.isEmpty

/-- A stream that GO starts at word `start` (Table 2.10, R62). -/
def StreamCtl.started (start : Nat) : StreamCtl := ⟨.running, start, start, [], [], [], 0, 0, 0, []⟩

/-- What GO does to a core whose groups are closed (Table 2.10, R62, R63, R87, R146, R346): both streams run from their start
words, tokens, index registers and loop stacks are clear, every slot is invalid, the vector contexts are reset, DONE and the
halt information are clear. -/
def Core.go (c : Core) (critStart defStart : Nat) : Core :=
  { c with
    crit := .started critStart, defr := .started defStart, tokens := [], queues := [], fills := 0
    arrays := c.arrays.map (fun (e : Nat × ArrayState) =>
      (e.1, { e.2 with slots := (e.2.slots.map (fun (w : Nat × Slot) => (w.1, { w.2 with valid := false }))).filter (fun (w : Nat × Slot) => w.2 != .reset) }))
      |>.filter (fun (e : Nat × ArrayState) => e.2 != .reset)
    vcrit := .reset, vdefr := .reset, done := false, haltInfo := 0 }

/-- Write GO on a physical core (Table 2.10, R141): ignored while a stream is RUNNING or WAITING or an issued word or IRLOAD has not completed,
and on a core whose function is not in service (Table 15.6). A core with a DISABLED array is retired instead (R112). Groups still open pass their
flags on as at a close. -/
def State.goCore (s : State) (pc : Nat) : State :=
  let c := s.core pc
  if !s.dieUp (pcDie pc) || !s.funcUp (funcId 2 (pcDie pc) (pc % 18)) || c.crit.st.live || c.defr.st.live || c.busy then s
  else if c.anyDisabled 15 then s.retireCore (pcDie pc) (pc % 18) 1 true
  else
    let r := s.closeAll pc
    r.2.modCore pc (fun c => c.go (s.coreGet pc fSeqPcCritStart) (s.coreGet pc fSeqPcDefStart))

/-- GO. -/
def execGo (pc : Fin 72) (s : State) : Host.Outcome State Fault Refusal := .next (s.goCore pc)

/-- Halt whichever streams of a core are RUNNING or WAITING with cause 0x0E (Table 2.10). -/
def State.haltLive (s : State) (pc lc : Nat) : State :=
  let c := s.core pc
  match c.crit.st.live, c.defr.st.live with
  | true, true => s.halt pc lc .crit ⟨0x0E, true, 0, 0, 0, 0, 0⟩
  | true, false => s.halt pc lc .crit ⟨0x0E, false, 0, 0, 0, 0, 0⟩
  | false, true => s.halt pc lc .defr ⟨0x0E, false, 0, 0, 0, 0, 0⟩
  | false, false => s

/-- HALT (Table 2.10, R85): every stream that is RUNNING or WAITING halts with cause 0x0E; the write is ignored where none is. -/
def execHalt (pc : Fin 72) (s : State) : Host.Outcome State Fault Refusal :=
  .next (if s.dieUp (pcDie pc) then s.haltLive pc ((s.logicalOf pc).getD 0) else s)

end Sys2Proof.Machine
end

