-- ==== Sys2Proof/Machine/Special.lean ====
section
/-!
DEFINITION. The special functions of VSF (R156, Table 5.5): every result is the exact mathematical value rounded once to
FP32. Algebraic functions are rounded from an exact quotient or root with a sticky digit; the others from an interval
computed in 256-bit fixed point whose two ends round alike.
-/

namespace Sys2Proof.Machine

/-- Fixed-point fraction bits of the interval arithmetic. -/
def fxP : Nat := 256

/-- One in fixed point. -/
def fxOne : Nat := 2 ^ 256

/-- `n / d` with `k` fraction bits as a value whose last digit is sticky: it rounds as the exact quotient does. -/
def stickyDiv (neg : Bool) (n d : Nat) (k : Nat) (e : Int) : Num :=
  let q := n * 2 ^ k / d
  let r := n * 2 ^ k % d
  .fin neg (2 * q + (if r = 0 then 0 else 1)) (e - (k : Int) - 1)

/-- Reciprocal (Table 5.5). -/
def numRcp : Num → Num
  | .nan => .nan
  | .inf n => .fin n 0 0
  | .fin n m e => if m = 0 then .inf n else stickyDiv n 1 m (Nat.log2 m + 64) (-e)

/-- Square root of a positive magnitude `m * 2^e`, with a sticky last digit. -/
def stickySqrt (m : Nat) (e : Int) : Num :=
  let odd := e % 2 ≠ 0
  let m1 := if odd then 2 * m else m
  let e1 := if odd then e - 1 else e
  let n := m1 * 2 ^ 128
  let r := isqrtBits n 110 0
  .fin false (2 * r + (if r * r = n then 0 else 1)) (e1 / 2 - 64 - 1)

/-- Square root (Table 5.5). -/
def numSqrt : Num → Num
  | .nan => .nan
  | .inf n => if n then .nan else .inf false
  | .fin n m e => if m = 0 then .fin n 0 0 else if n then .nan else stickySqrt m e

/-- Reciprocal square root (Table 5.5). -/
def numRsqrt : Num → Num
  | .nan => .nan
  | .inf n => if n then .nan else .fin false 0 0
  | .fin n m e =>
    if m = 0 then .inf n else if n then .nan
    else
      let odd := e % 2 ≠ 0
      let m1 := if odd then 2 * m else m
      let e1 := if odd then e - 1 else e
      let r := isqrtBits (2 ^ 256 / m1) 130 0
      .fin false (2 * r + (if r * r * m1 = 2 ^ 256 then 0 else 1)) (-(e1 / 2) - 128 - 1)

/-- Terms of the arctanh series of `t`, `t` given as a fixed-point number: `t + t^3/3 + t^5/5 + …`, rounded down. -/
def atanhSum (t2 : Nat) : Nat → Nat → Nat → Nat
  | 0, _, _ => 0
  | f + 1, p, k => p / k + atanhSum t2 f (p * t2 / fxOne) (k + 2)

/-- `ln 2` in fixed point, low by at most 256 units. -/
def fxLn2 : Nat := 2 * atanhSum (fxOne / 9) 84 (fxOne / 3) 1

/-- The exponential series of `r` in fixed point, `0 ≤ r < 1`, rounded down. -/
def expSum (r : Nat) : Nat → Nat → Nat → Nat
  | 0, _, _ => 0
  | f + 1, p, k => p + expSum r f (p * r / fxOne / k) (k + 1)

/-- `exp r` for a fixed-point `r` below one, low by at most 1024 units. -/
def fxExp (r : Nat) : Nat := expSum r 70 fxOne 1

/-- An exact value in fixed point, rounded down. -/
def toFx (m : Nat) (e : Int) : Nat := if 0 ≤ e + 256 then m * 2 ^ (e + 256).toNat else m / 2 ^ (-(e + 256)).toNat

/-- Round the two ends of an interval `[lo, hi] * 2^e`; where they differ the value is open. (DESIGN CHOICE, log entry 14.) -/
def decideInterval (f x : Nat) (neg : Bool) (lo hi : Nat) (e : Int) : Num :=
  let a := toF32 (.fin neg lo e)
  let b := toF32 (.fin neg hi e)
  if a = b then .fin neg lo e else ofF32 (Config.specialUndecided f x)

/-- `2^(n)` times `exp` of a fixed-point `r`, as an interval with relative width below 2^-240: low end, high end, exponent. -/
def expPair (n : Int) (r : Nat) : Nat × Nat × Int :=
  (fxExp r - 4096, fxExp r + 4096, n - 256)

/-- `exp` of `(-1)^neg * v`, `v` in fixed point and below 2^9: `v = n ln 2 + r`. -/
def expOf (neg : Bool) (v : Nat) : Nat × Nat × Int :=
  let n := v / fxLn2
  let r := v % fxLn2
  if !neg then expPair n r
  else if r = 0 then expPair (-(n : Int)) 0 else expPair (-(n : Int) - 1) (fxLn2 - r)

/-- The natural logarithm of a positive value as a signed fixed-point number (absolute error below 2^-230): `k ln 2 + ln z`
with `z` between 3/4 and 3/2. -/
def fxLn (m : Nat) (e : Int) : Int :=
  let l := Nat.log2 m
  let hiHalf : Bool := decide (2 * m ≥ 3 * 2 ^ l)
  let k : Int := (l : Int) + e + (if hiHalf then 1 else 0)
  let d : Nat := if hiHalf then 2 ^ (l + 1) else 2 ^ l
  let num : Int := (m : Int) - (d : Int)
  let t : Nat := num.natAbs * fxOne / (m + d)
  let s : Nat := 2 * atanhSum (t * t / fxOne) 84 t 1
  k * (fxLn2 : Int) + (if num < 0 then -(s : Int) else (s : Int))

/-- The special function of code `f` (Table 5.5) at an FP32 pattern, as the value to be rounded. -/
def specialNum (f x : Nat) : Num :=
  match ofF32 x with
  | .nan => .nan
  | .inf n =>
    match f with
    | 0 | 1 => if n then .fin false 0 0 else .inf false
    | 2 | 3 => if n then .nan else .inf false
    | 4 => numRcp (.inf n)
    | 5 => numRsqrt (.inf n)
    | 6 => numSqrt (.inf n)
    | 7 => .fin n 1 0
    | _ => if n then .fin false 0 0 else .fin false 1 0
  | .fin n m e =>
    match f with
    | 0 =>
      if m = 0 then .fin false 1 0
      else if 0 ≤ e || m % 2 ^ (-e).toNat == 0 then
        let i : Nat := if 0 ≤ e then (if e ≤ 16 then m * 2 ^ e.toNat else 2 ^ 16) else m / 2 ^ (-e).toNat
        if n then (if i ≥ 150 then .fin false 0 0 else .fin false 1 (-(i : Int)))
        else if i ≥ 128 then .inf false else .fin false 1 i
      else
        let v := toFx m e
        if v ≥ 150 * fxOne then (if n then .fin false 0 0 else .inf false)
        else if !n && decide (v ≥ 128 * fxOne) then .inf false
        else
          let k := v / fxOne
          let fr := v % fxOne
          let p := if n then expPair (-(k : Int) - 1) ((fxOne - fr) * fxLn2 / fxOne) else expPair k (fr * fxLn2 / fxOne)
          decideInterval f x false p.1 p.2.1 p.2.2
    | 1 =>
      if m = 0 then .fin false 1 0
      else
        let v := if e ≤ 16 then toFx m e else 2 ^ 20 * fxOne
        if v ≥ 110 * fxOne then (if n then .fin false 0 0 else .inf false)
        else let p := expOf n v; decideInterval f x false p.1 p.2.1 p.2.2
    | 2 | 3 =>
      if m = 0 then .inf true
      else if n then .nan
      else
        let l := Nat.log2 m
        if f = 2 && m == 2 ^ l then Num.ofInt ((l : Int) + e) 0
        else if f = 3 && m == 2 ^ l && (l : Int) + e == 0 then .fin false 0 0
        else
          let y := fxLn m e
          let z : Nat := if f = 2 then y.natAbs * fxOne / fxLn2 else y.natAbs
          decideInterval f x (decide (y < 0)) (z - 2 ^ 24) (z + 2 ^ 24) (-256)
    | 4 => numRcp (.fin n m e)
    | 5 => numRsqrt (.fin n m e)
    | 6 => numSqrt (.fin n m e)
    | 7 =>
      if m = 0 then .fin n 0 0
      else if (Nat.log2 m : Int) + e < -14 then .fin n m e
      else if (Nat.log2 m : Int) + e ≥ 4 then .fin n 1 0
      else
        let v := toFx m (e + 1)
        let p := expOf false v
        let lo := p.1 * 2 ^ (p.2.2 + 256).toNat
        let hi := p.2.1 * 2 ^ (p.2.2 + 256).toNat
        decideInterval f x n ((lo - fxOne) * fxOne / (lo + fxOne) - 2) ((hi - fxOne) * fxOne / (hi + fxOne) + 2) (-256)
    | _ =>
      if m = 0 then .fin false 1 (-1)
      else if (Nat.log2 m : Int) + e ≥ 7 then (if n then .fin false 0 0 else .fin false 1 0)
      else
        let p := expOf true (toFx m e)
        let sh := (-(p.2.2 + 256)).toNat
        let lo := p.1 / 2 ^ sh
        let hi := p.2.1 / 2 ^ sh + 1
        if n then decideInterval f x false (lo * fxOne / (fxOne + lo) - 2) (hi * fxOne / (fxOne + hi) + 2) (-256)
        else decideInterval f x false (fxOne * fxOne / (fxOne + hi) - 2) (fxOne * fxOne / (fxOne + lo) + 2) (-256)

/-- The FP32 pattern a special function delivers for an FP32 operand pattern. (DESIGN CHOICE, log entry 14.) -/
def specialF32 (f x : Nat) : Nat := toF32 (specialNum f x)

end Sys2Proof.Machine
end

