-- ==== Sys2Proof/Machine/VxOps.lean ====
section
/-!
DEFINITION. The vector engine's registers, element access and masked writes (R145 to R150), and how a vector word is checked,
accepted, issued and completed (R149 to R153, R178).
-/

namespace Sys2Proof.Machine

/-! ### Building writes -/

/-- Masked writes of consecutive 2,048-bit registers from a group-wide mask and value. -/
def groupWrites (r mask val : Nat) : List (RegWrite 2048) :=
  (span 0 8).filterMap (fun i =>
    let m := natBits mask (2048 * i) 2048
    if m = 0 ∨ r + i ≥ 32 then none else some ⟨r + i, BitVec.ofNat 2048 m, BitVec.ofNat 2048 (natBits val (2048 * i) 2048)⟩)

/-- Masked writes of listed elements of width `w`. -/
def elemWrites (r w : Nat) (l : List (Nat × Nat)) : List (RegWrite 2048) :=
  let mv := l.foldl (fun (a : Nat × Nat) e => (a.1 + (2 ^ w - 1) * 2 ^ (w * e.1), a.2 + e.2 % 2 ^ w * 2 ^ (w * e.1))) (0, 0)
  groupWrites r mv.1 mv.2

/-- Masked writes of tags by lane. -/
def tagWrites (r : Nat) (l : List (Nat × Nat)) : List (RegWrite 128) :=
  (span 0 8).filterMap (fun i =>
    let here := l.filter (fun e => e.1 / 64 == i)
    if here.isEmpty || decide (r + i ≥ 32) then none
    else
      let mv := here.foldl (fun (a : BitVec 128 × BitVec 128) e => (putFld a.1 (2 * (e.1 % 64)) 2 3, putFld a.2 (2 * (e.1 % 64)) 2 e.2)) (0, 0)
      some ⟨r + i, mv.1, mv.2⟩)

/-- A write of scalar register `i`; a write to s0 is discarded (R146). -/
def sWrite (i v : Nat) : List (RegWrite 32) := if i = 0 then [] else [⟨i, BitVec.allOnes 32, BitVec.ofNat 32 v⟩]

/-- A masked write of predicate `i`; a write to p0 is discarded (R146). -/
def pWrite (i mask val : Nat) : List (RegWrite 512) := if i = 0 then [] else [⟨i, BitVec.ofNat 512 mask, BitVec.ofNat 512 val⟩]

/-- A word that writes listed elements of a group. -/
def vxElems (r w : Nat) (l : List (Nat × Nat)) : VxWrites := { VxWrites.none with v := elemWrites r w l }

/-- A word that writes listed elements and their tags. -/
def vxTagged (r w : Nat) (l : List (Nat × Elem)) : VxWrites :=
  { VxWrites.none with v := elemWrites r w (l.map (fun e => (e.1, e.2.bits))), tag := tagWrites r (l.map (fun e => (laneOf w e.1, e.2.tag))) }

/-- A word that writes one scalar. -/
def vxScalar (i v : Nat) : VxWrites := { VxWrites.none with s := sWrite i v }

/-! ### Applying writes -/

/-- Apply a masked write to a table of registers. -/
def applyReg {n : Nat} (m : SMap (BitVec n)) (x : RegWrite n) : SMap (BitVec n) :=
  mapMod (fun _ => 0) m x.idx (fun old => mergeBits old x.val x.mask)

/-- Apply the writes of a word that completes to its context (R151). -/
def VCtx.applyWrites (c : VCtx) (w : VxWrites) : VCtx :=
  let vt := w.vtype.getD (c.vl, c.etype, c.grp)
  { v := w.v.foldl applyReg c.v, tag := w.tag.foldl applyReg c.tag, p := w.p.foldl applyReg c.p, s := w.s.foldl applyReg c.s
    vl := vt.1, etype := vt.2.1, grp := vt.2.2 }

/-! ### Operand bits (Table 5.3) -/

/-- Operand bits of the fields VD, VA, VB, VC and PM. -/
def mVD : Nat := 0x1F
/-- VA. -/
def mVA : Nat := 0x3E0
/-- VB. -/
def mVB : Nat := 0x7C00
/-- VC. -/
def mVC : Nat := 0xF8000
/-- PM. -/
def mPM : Nat := 0x700000
/-- Used bits of MOD. -/
def mMOD (m : Nat) : Nat := m * 2 ^ 24
/-- SA. -/
def mSA : Nat := 0x1F * 2 ^ 32
/-- SB. -/
def mSB : Nat := 0x1F * 2 ^ 37
/-- SD. -/
def mSD : Nat := 0x1F * 2 ^ 42
/-- SC. -/
def mSC : Nat := 0x1F * 2 ^ 47

/-! ### Checks and issue -/

/-- Opcodes accepted with an XA ETYPE (R150). -/
def xaAccepts (opc : Nat) : Bool :=
  [0x001, 0x002, 0x003, 0x004, 0x031, 0x032, 0x033, 0x060, 0x068, 0x078, 0x079, 0x07A, 0x080, 0x081, 0x090].contains opc

/-- The refusals every vector word shares: reserved operand bits (R153), a word its ETYPE does not accept (R150), and unaligned
register operands (R148). (DEDUCED, log entry 25.) -/
def vxCheck (c : VCtx) (opc used : Nat) (vregs : List Nat) (e : QEntry) : Option Refuse :=
  let ops := natBits e.word.toNat 0 96
  firstRefuse [
    refuseIf (ops &&& used != ops) 0x02,
    refuseIf (c.xa && !xaAccepts opc) 0x02,
    refuseIf (!c.xa && decide (0x078 ≤ opc ∧ opc ≤ 0x07A)) 0x02,
    refuseIf (vregs.any (fun r => r % c.ngrp != 0 || decide (r + c.ngrp > 32))) 0x02]

/-- Give the word that issued last its results. -/
def Core.setResults (c : Core) (w : VxWrites) : Core := c.mapLast (fun f => { f with vx := w })

/-- What stochastic rounding draws from: VX_SR_SEED and VX_SR_STEP of the core (R160). -/
structure SrEnv where
  seed : BitVec 64
  step : Nat
deriving DecidableEq, Repr

/-- The rounding of element `i` of a word: code 0, 1, or 2 with tensor and index base (R159, R160). -/
def SrEnv.rnd (x : SrEnv) (code tensor base i : Nat) : Rnd :=
  match code with
  | 0 => .rne
  | 1 => .rtz
  | _ => .sr (srBits x.seed x.step tensor (BitVec.ofNat 64 (base + i)))

/-- The generator state of a core. -/
def State.srEnv (s : State) (pc : Nat) : SrEnv :=
  ⟨s.reg (pcDie pc) (coreF pc fVxSrSeedSeed).off, s.coreGet pc fVxSrStepStep⟩

/-- The 64-bit index base of R160. -/
def VCtx.srBase (c : VCtx) (sb : Nat) : Nat := c.sreg sb + 2 ^ 32 * c.sreg (sb + 1)

/-- A vector word that works on its context alone: its checks and its results, taken from VL and VTYPE as they stand when it
issues (R149). (DEDUCED, log entry 26.) -/
def State.vxWord (s : State) (lc : Nat) (st : Stream) (ph : Phase) (opc : Nat) (tok : BitVec 16) (ops : BitVec 96) (used : Nat)
    (vregs : QEntry → List Nat) (check : VCtx → QEntry → Option Refuse) (run : SrEnv → VCtx → QEntry → VxWrites) : State :=
  s.engineWord lc st ph .vx opc tok ops
    (fun s pc e => let c := (s.core pc).vctx st
      firstRefuse [vxCheck c opc used (vregs e) e, check c e])
    (fun s pc e => .ok (s.modCore pc (fun k => k.setResults (run (s.srEnv pc) (k.vctx st) e))))

/-- What a completed vector word adds to the core's vector registers (R155, R166, R167). -/
def State.vxFlags (s : State) (pc : Nat) (w : VxWrites) : State :=
  let s := if w.nonfin then s.coreSet pc fVxStepFlagsNonfin 1 else s
  let s := if w.ufr then s.coreSet pc fVxStepFlagsUfr 1 else s
  if w.wraps = 0 then s else (s.coreBump pc fVxStepOvfCount w.wraps).coreSet pc fVxStepFlagsWrap 1

/-- The scratchpad words of a vector store are written (R82, R83): the first that cannot be merged, if any. -/
def State.vxStore (s : State) (pc lc : Nat) (ws : List (Nat × SpadBits × SpadBits)) : Option Nat × State :=
  if ws.isEmpty then (none, s)
  else match spadMerge pc (s.core pc) ws with
    | .error w => (some w, s.noteSpad pc lc [] 1)
    | .ok (c, corrs) => (none, (s.setCore pc c).noteSpad pc lc corrs 0)

/-- VX_WORD_COMPLETE (R151, R178): the oldest vector word of the stream writes its results and completes. On a residue mismatch it completes all
the same, with RESIDUE, its count and a TAINTED record; on a parity error, and where a word that it writes in part has become unreadable (R82),
it writes nothing, gives back the token its wait took and its stream halts with cause 0x04. (DEDUCED, log entry 26.) -/
def execVxWordComplete (lc : Fin 64) (st : Stream) (fault : VxFault) (s : State) : Host.Outcome State Fault Refusal :=
  .next (match s.physOf lc with
    | none => s
    | some pc =>
      match (s.core pc).oldest .vx st with
      | none => s
      | some (i, f) =>
        match fault, s.vxStore pc lc f.vx.spad with
        | .parity, _ => s.refuseLate pc lc st i f ⟨0x04, 0, false⟩
        | _, (some w, s) => s.refuseLate pc lc st i f ⟨0x04, w, false⟩
        | _, (none, s) =>
          let s := (s.modCore pc (fun c => c.setVctx st ((c.vctx st).applyWrites f.vx))).vxFlags pc f.vx
          let s := if fault = .residue then
              let r := s.evidence pc 4 true
              let lim := s.getF (pcDie pc) fRetireCfgResidLimit
              let s := if lim ≠ 0 ∧ r.1 ≥ lim then r.2.markRetire pc 3 else r.2
              ((s.coreSet pc fVxStepFlagsResidue 1).coreBump pc fVxResidueCntCount 1).raise (pcDie pc)
                ⟨.tainted, 0x0021, 0x03, lc, f.ent.pc, (Config.recordArg 0x21 0 [lc, f.id]).toNat, (Config.recordArg 0x21 1 [lc, f.id]).toNat, 0⟩
            else s
          s.complete pc lc i f)

end Sys2Proof.Machine
end

