-- ==== Sys2Proof/Machine/VxMath.lean ====
section
/-!
DEFINITION. What the vector words compute on a context: arithmetic and integer words, conversions, packing, reductions,
permutes, softmax and its merge, and XA arithmetic (R154 to R161, R166 to R177). Each function gives the writes of one word.
-/

namespace Sys2Proof.Machine

/-- Registers that hold the operand group at `r`, as one number. -/
def VCtx.operand (c : VCtx) (r : Nat) : Nat := c.group r c.ngrp

/-- The value of an element pattern of the context's ETYPE. -/
def VCtx.num (c : VCtx) (b : Nat) : Num := decodeElem c.etype b

/-- Does a delivered value set NONFIN (R155): NaN, or an infinity from finite operands? -/
def nonfinOf (res : Num) (operands : List Num) : Bool :=
  match res with
  | .nan => true
  | .inf _ => operands.all Num.isFin
  | .fin _ _ _ => false

/-- An arithmetic word: per active element an exact value of up to three operands, rounded once with RNE (R154). -/
def vxArith (f : Num → Num → Num → Num) (n : Nat) (c : VCtx) (e : QEntry) : VxWrites :=
  let w := c.width
  let a := c.operand (fVA e)
  let b := c.operand (fVB e)
  let d := c.operand (fVC e)
  let rs := (c.active (fPM e)).map (fun i =>
    let x := c.num (elemAt a w i)
    let y := c.num (elemAt b w i)
    let z := c.num (elemAt d w i)
    let r := (toElem c.etype .rne false (f x y z)).pat
    (i, r, nonfinOf (c.num r) ([x, y, z].take n)))
  { vxElems (fVD e) w (rs.map (fun r => (r.1, r.2.1))) with nonfin := rs.any (fun r => r.2.2) }

/-- A word on w-bit patterns of VA and VB (R150, Table 5.4). -/
def vxInt (f : Nat → Nat → Nat → Nat) (c : VCtx) (e : QEntry) : VxWrites :=
  let w := c.width
  let a := c.operand (fVA e)
  let b := c.operand (fVB e)
  vxElems (fVD e) w ((c.active (fPM e)).map (fun i => (i, f w (elemAt a w i) (elemAt b w i) % 2 ^ w)))

/-- Arithmetic shift right of a w-bit pattern. -/
def sraBits (w x k : Nat) : Nat := unsigned w (signed w x / (2 ^ k : Nat))

/-- The scalar operation of SALU (Table 5.4). -/
def salu (op a b : Nat) : Nat :=
  match op with
  | 0 => a + b
  | 1 => a + 2 ^ 32 - b
  | 2 => a * b
  | 3 => a &&& b
  | 4 => a ||| b
  | 5 => a ^^^ b
  | 6 => a * 2 ^ (b % 32)
  | 7 => a / 2 ^ (b % 32)
  | 8 => sraBits 32 a (b % 32)
  | 9 => if signed 32 a ≤ signed 32 b then a else b
  | _ => if signed 32 a ≥ signed 32 b then a else b

/-- The comparison of VCMP (R154, Table 5.4). -/
def vcmpCond (cond : Nat) (x y : Num) : Bool :=
  match cond with
  | 0 => x.eqv y
  | 1 => !x.eqv y
  | 2 => x.lt y
  | 3 => x.lt y || x.eqv y
  | 4 => y.lt x
  | 5 => y.lt x || x.eqv y
  | _ => x.isNan || y.isNan

/-- A number whose listed bits are set. -/
def bitsOf (l : List Nat) : Nat := l.foldl (fun m i => m + 2 ^ i) 0

/-- VCMP: predicate bits of active elements (Table 5.4). -/
def vxCmp (c : VCtx) (e : QEntry) : VxWrites :=
  let w := c.width
  let a := c.operand (fVA e)
  let b := c.operand (fVB e)
  let act := c.active (fPM e)
  let hit := act.filter (fun i => vcmpCond (fMOD e 0 3) (c.num (elemAt a w i)) (c.num (elemAt b w i)))
  { VxWrites.none with p := pWrite (fVD e) (bitsOf act) (bitsOf hit) }

/-- PLOGIC (Table 5.4). -/
def vxPlogic (c : VCtx) (e : QEntry) : VxWrites :=
  let a := c.pred (fVA e)
  let b := c.pred (fVB e)
  let r := match fMOD e 0 2 with
    | 0 => a &&& b
    | 1 => a ||| b
    | 2 => a ^^^ b
    | _ => a &&& ~~~b
  if c.vl = 0 then .none else { VxWrites.none with p := pWrite (fVD e) (2 ^ 512 - 1) r.toNat }

/-- Element `i` of the group at `r` with its tag, for the words that move elements of any type. -/
def VCtx.elemTag (c : VCtx) (r i : Nat) : Elem :=
  ⟨elemAt (c.operand r) c.width i, if c.xa then c.tagAt r (laneOf c.width i) else 0⟩

/-- Writes of moved elements: with an XA ETYPE their tags move too. -/
def VCtx.moved (c : VCtx) (r : Nat) (l : List (Nat × Elem)) : VxWrites :=
  if c.xa then vxTagged r c.width l else vxElems r c.width (l.map (fun x => (x.1, x.2.bits)))

/-- VSEL (Table 5.4). -/
def vxSel (c : VCtx) (e : QEntry) : VxWrites :=
  c.moved (fVD e) ((c.active (fPM e)).map (fun i => (i, c.elemTag (if bit (c.pred (fVC e)) i then fVA e else fVB e) i)))

/-- Element `j` of VA for a gather or a slide: zero outside 0 to VL − 1 (R170). -/
def VCtx.gathered (c : VCtx) (r : Nat) (j : Int) : Elem :=
  if 0 ≤ j ∧ j < (c.vl : Int) then c.elemTag r j.toNat else ⟨0, 0⟩

/-- VPERM (R170). -/
def vxPerm (c : VCtx) (e : QEntry) : VxWrites :=
  let b := c.operand (fVB e)
  c.moved (fVD e) ((c.active (fPM e)).map (fun i => (i, c.gathered (fVA e) (elemAt b c.width i))))

/-- VSLIDE (R170). (DEDUCED, log entry 31.) -/
def vxSlide (c : VCtx) (e : QEntry) : VxWrites :=
  let k : Int := c.sreg (fSA e)
  c.moved (fVD e) ((c.active (fPM e)).map (fun i =>
    (i, c.gathered (fVA e) (if fMOD e 0 1 = 1 then (i : Int) - k else (i : Int) + k))))

/-- SMOV (Table 5.4). -/
def vxSmov (c : VCtx) (e : QEntry) : VxWrites :=
  let lane := c.sreg (fSB e) % 64
  if fMOD e 0 1 = 1 then vxElems (fVD e) 32 (if c.vl = 0 then [] else [(lane, c.sreg (fSA e))])
  else vxScalar (fSD e) (elemAt (c.vreg (fVA e)).toNat 32 lane)

/-- VSF (R156): the function at the FP32 operand, rounded to ETYPE. -/
def vxSf (c : VCtx) (e : QEntry) : VxWrites :=
  let w := c.width
  let a := c.operand (fVA e)
  let rs := (c.active (fPM e)).map (fun i =>
    let x := c.num (elemAt a w i)
    let r := (toElem c.etype .rne false (ofF32 (specialF32 (fMOD e 0 4) (toF32 x)))).pat
    (i, r, nonfinOf (c.num r) [x]))
  { vxElems (fVD e) w (rs.map (fun r => (r.1, r.2.1))) with nonfin := rs.any (fun r => r.2.2) }

/-- The optional FP32 scale a scalar field names (R157, R168). -/
def VCtx.scaled (c : VCtx) (sc : Nat) (x : Num) : Num := if sc = 0 then x else x.mul (ofF32 (c.sreg sc))

/-- Writes of elements packed from bit 0 of a group: whole bytes, unused bits of the last one zero (R157). -/
def vxPacked (r w : Nat) (l : List Nat) : List (RegWrite 2048) :=
  groupWrites r (2 ^ (8 * ceilDiv (w * l.length) 8) - 1) (packElems w l)

/-- VCVT (R157, R158). -/
def vxCvt (x : SrEnv) (c : VCtx) (e : QEntry) : VxWrites :=
  let t := fMOD e 0 4
  let rnd := x.rnd (fMOD e 4 2) (c.sreg (fSA e)) (c.srBase (fSB e))
  let sat := fMOD e 6 1 == 1
  let conv (src dst b i : Nat) : Conv := toElem dst (rnd i) sat (c.scaled (fSC e) (decodeElem src b))
  if fMOD e 7 1 = 0 then
    let a := c.operand (fVA e)
    let rs := (span 0 c.vl).map (fun i => conv c.etype t (elemAt a c.width i) i)
    { VxWrites.none with v := vxPacked (fVD e) (typeWidth t) (rs.map Conv.pat), nonfin := rs.any Conv.nonfin }
  else
    let a := c.group (fVA e) (regsFor (c.vlmax * typeWidth t))
    let rs := (c.active (fPM e)).map (fun i => (i, conv t c.etype (elemAt a (typeWidth t) i) i))
    { vxElems (fVD e) c.width (rs.map (fun r => (r.1, r.2.pat))) with nonfin := rs.any (fun r => r.2.nonfin) }

/-- The exponent of the largest finite value of an MX32 element type (R161). -/
def mxEmax : Nat → Int
  | 3 => 8 | 4 => 15 | 5 => 4 | 6 => 2 | 7 => 2 | 8 => 6 | _ => 2

/-- One MX32 block: scale byte, elements, NONFIN (R161). -/
def mxBlock (t : Nat) (rnd : Nat → Rnd) (first : Nat) (vs : List Num) : Nat × List Nat × Bool :=
  if vs.any (fun v => !v.isFin) then (0xFF, vs.map (fun _ => 0), true)
  else match maxExp vs with
    | none => (127, vs.map (fun _ => 0), false)
    | some k =>
      let x := max (-127) (min 127 (k - mxEmax t))
      ((x + 127).toNat, ((span 0 vs.length).zip vs).map (fun v => (toElem t (rnd (first + v.1)) true (v.2.scale2 (-x))).pat), false)

/-- VMXPACK (R161). -/
def vxMxpack (x : SrEnv) (c : VCtx) (e : QEntry) : VxWrites :=
  let t := fMOD e 0 4
  let a := c.operand (fVA e)
  let rnd := x.rnd (fMOD e 4 2) (c.sreg (fSA e)) (c.srBase (fSB e))
  let bs := (span 0 (c.vl / 32)).map (fun b => mxBlock t rnd (32 * b) ((span (32 * b) 32).map (fun i => c.num (elemAt a c.width i))))
  { VxWrites.none with
    v := vxPacked (fVD e) (typeWidth t) (bs.flatMap (fun b => b.2.1)) ++ vxPacked (fVB e) 8 (bs.map Prod.fst)
    nonfin := bs.any (fun b => b.2.2) }

/-! ### Reductions -/

/-- The value a masked or tail position takes in a reduction (R169): the identity of R125, but −0 for a floating ADD. -/
def redIdent (c : VCtx) (op : Nat) : Elem :=
  if c.xa then identElem false c.width op
  else match fmtOf c.etype with
    | none => ⟨0, 0⟩
    | some f => match op with
      | 0 => ⟨f.signBit, 0⟩
      | 1 => ⟨f.infPat true, 0⟩
      | 2 => ⟨f.infPat false, 0⟩
      | 3 => ⟨2 ^ c.width - 1, 0⟩
      | _ => ⟨0, 0⟩

/-- Combine two elements of ETYPE (R21, R22, R117, R120). -/
def redComb (c : VCtx) (op : Nat) (a b : Elem) : Elem × Nat :=
  if c.xa then combXa op c.width a b
  else
    let x := c.num a.bits
    let y := c.num b.bits
    let bits := match op with
      | 0 => (toElem c.etype .rne false (x.add y)).pat
      | 1 => (toElem c.etype .rne false (x.maxMM y)).pat
      | 2 => (toElem c.etype .rne false (x.minMM y)).pat
      | _ => bitComb op a.bits b.bits
    (⟨bits, 0⟩, 0)

/-- One level of the tree of R169: neighbours combine. -/
def redLevel (c : VCtx) (op : Nat) : List Elem → List Elem × Nat
  | a :: b :: r =>
    let x := redComb c op a b
    let y := redLevel c op r
    (x.1 :: y.1, x.2 + y.2)
  | l => (l, 0)

/-- The fixed tree of R169 over `2 ^ n` positions. -/
def redTree (c : VCtx) (op : Nat) : Nat → List Elem → Elem × Nat
  | 0, l => (l.headD ⟨0, 0⟩, 0)
  | n + 1, l =>
    let x := redLevel c op l
    let y := redTree c op n x.1
    (y.1, x.2 + y.2)

/-- VRED (R169). A 16-bit result fills s[SD] with zeros above it; a MAX or MIN with no active element delivers its identity and sets no NONFIN.
(DEDUCED, log entry 70; DESIGN CHOICE, log entry 72.) -/
def vxRed (c : VCtx) (e : QEntry) : VxWrites :=
  let op := fMOD e 0 3
  let act := c.active (fPM e)
  let l := (span 0 c.vlmax).map (fun i => if act.contains i then c.elemTag (fVA e) i else redIdent c op)
  let r := redTree c op (Nat.log2 c.vlmax) l
  let nonfin : Bool := !c.xa && decide (op < 3) && !act.isEmpty && nonfinOf (c.num r.1.bits) (act.map (fun i => c.num (c.elemTag (fVA e) i).bits))
  let w := if fMOD e 3 1 = 0 then vxScalar (fSD e) r.1.bits
    else if c.vl = 0 then .none else c.moved (fVD e) [(0, r.1)]
  { w with nonfin := nonfin, wraps := r.2 }

/-! ### Softmax -/

/-- EXP or EXP2 by base bit at an FP32 pattern. -/
def smExp (base2 : Bool) (x : Nat) : Nat := specialF32 (if base2 then 0 else 1) x

/-- FP32 sum, difference and product with RNE. -/
def f32Add (a b : Nat) : Nat := toF32 ((ofF32 a).add (ofF32 b))
/-- FP32 difference. -/
def f32Sub (a b : Nat) : Nat := toF32 ((ofF32 a).add (ofF32 b).neg)
/-- FP32 product. -/
def f32Mul (a b : Nat) : Nat := toF32 ((ofF32 a).mul (ofF32 b))
/-- FP32 fused multiply-add. -/
def f32Fma (a b c : Nat) : Nat := toF32 (((ofF32 a).mul (ofF32 b)).add (ofF32 c))
/-- FP32 one, infinities and NaN. -/
def f32One : Nat := 0x3F800000
/-- Positive infinity. -/
def f32Inf : Nat := 0x7F800000
/-- Negative infinity. -/
def f32NegInf : Nat := 0xFF800000
/-- Canonical NaN. -/
def f32Nan : Nat := 0x7FC00000

/-- What VSMAX computes for a row: outputs by position, m, l, whether the row is empty, whether it is NaN. -/
structure SmRow where
  y : List (Nat × Nat)
  m : Nat
  l : Nat
  rowEmpty : Bool
  isNan : Bool
deriving DecidableEq, Repr

/-- The softmax of the participating scaled entries `zs` (position, FP32 pattern) of a row (R171, R173 to R176). -/
def smRow (base2 norm : Bool) (zs : List (Nat × Nat)) : SmRow :=
  if zs.any (fun z => (ofF32 z.2).isNan) then ⟨[], f32Nan, f32Nan, false, true⟩
  else if zs.all (fun z => z.2 == f32NegInf) then ⟨[], f32NegInf, 0, true, false⟩
  else
    let top := zs.filter (fun z => z.2 == f32Inf)
    if !top.isEmpty then
      let l := toF32 (.fin false top.length 0)
      let v := if norm then specialF32 4 l else f32One
      ⟨top.map (fun z => (z.1, v)), f32Inf, l, false, false⟩
    else
      let m := toF32 (zs.foldl (fun (a : Num) z => a.maxMM (ofF32 z.2)) (.inf true))
      let es := zs.map (fun z => (z.1, smExp base2 (f32Sub z.2 m)))
      let l := es.foldl (fun a z => f32Add a z.2) 0
      let r := specialF32 4 l
      ⟨if norm then es.map (fun z => (z.1, f32Mul z.2 r)) else es, m, l, false, false⟩

/-- An FP32 pattern rounded to ETYPE. -/
def VCtx.fromF32 (c : VCtx) (b : Nat) : Nat := (toElem c.etype .rne false (ofF32 b)).pat

/-- VSMAX (R171 to R176). -/
def vxSmax (c : VCtx) (e : QEntry) : VxWrites :=
  let a := c.operand (fVA e)
  let zs := (c.active (fPM e)).map (fun i => (i, toF32 ((c.num (elemAt a c.width i)).mul (ofF32 (c.sreg (fSA e))))))
  let r := smRow (fMOD e 0 1 == 1) (fMOD e 1 1 == 1) zs
  let out (i : Nat) : Nat :=
    if r.isNan then f32Nan else ((r.y.find? (fun y => y.1 == i)).map Prod.snd).getD 0
  let bitIx := 2 ^ fMOD e 2 6
  { vxElems (fVD e) c.width ((span 0 c.vl).map (fun i => (i, c.fromF32 (out i)))) with
    s := sWrite (fSD e) r.m ++ sWrite (fSD e + 1) r.l
    p := pWrite (fVC e) bitIx (if r.rowEmpty then bitIx else 0)
    nonfin := r.isNan && decide (c.vl ≠ 0) }

/-- VSMERGE (R177), computed in FP32 as VSMAX is. -/
def vxSmerge (c : VCtx) (e : QEntry) : VxWrites :=
  let m1 := c.sreg (fSA e)
  let l1 := c.sreg (fSA e + 1)
  let m2 := c.sreg (fSB e)
  let l2 := c.sreg (fSB e + 1)
  let act := c.active (fPM e)
  let outs (f : Nat → Nat) : VxWrites := vxElems (fVD e) c.width (act.map (fun i => (i, c.fromF32 (f i))))
  let scal (m l : Nat) : List (RegWrite 32) := sWrite (fSD e) m ++ sWrite (fSD e + 1) l
  if [m1, l1, m2, l2].any (fun x => (ofF32 x).isNan) then
    { outs (fun _ => f32Nan) with s := scal f32Nan f32Nan, nonfin := true }
  else if m1 = f32NegInf ∧ m2 = f32NegInf then { outs (fun _ => 0) with s := scal f32NegInf 0 }
  else
    let m := toF32 ((ofF32 m1).maxMM (ofF32 m2))
    let wt (x : Nat) : Nat := if (ofF32 x).eqv (ofF32 m) then f32One else smExp (fMOD e 0 1 == 1) (f32Sub x m)
    let a1 := wt m1
    let a2 := wt m2
    let l := f32Fma a1 l1 (f32Mul a2 l2)
    let o1 := c.operand (fVA e)
    let o2 := c.operand (fVB e)
    let src (o i : Nat) : Nat := toF32 (c.num (elemAt o c.width i))
    let out (i : Nat) : Nat := f32Fma a1 (src o1 i) (f32Mul a2 (src o2 i))
    let nf := act.any (fun i => nonfinOf (c.num (c.fromF32 (out i))) [ofF32 a1, ofF32 a2, ofF32 (src o1 i), ofF32 (src o2 i)])
    { outs out with
      s := scal m l
      nonfin := nf || nonfinOf (ofF32 l) [ofF32 a1, ofF32 a2, ofF32 l1, ofF32 l2] }

/-! ### XA arithmetic -/

/-- Does an XA word deliver a NaN in an active element (R155): an element whose tag names one? -/
def nanTag (l : List Nat) : Bool := l.any (fun t => t == 3)

/-- VXADD (R155, R166). (DEDUCED, log entry 70.) -/
def vxXadd (c : VCtx) (e : QEntry) : VxWrites :=
  let rs := (c.active (fPM e)).map (fun i => (i, combXa 0 c.width (c.elemTag (fVA e) i) (c.elemTag (fVB e) i)))
  { vxTagged (fVD e) c.width (rs.map (fun r => (r.1, r.2.1))) with
    nonfin := nanTag (rs.map (fun r => r.2.1.tag))
    wraps := rs.foldl (fun n r => n + r.2.2) 0 }

/-- The refolded integer of one element: its value before it is stored modulo the target width, and inexactness (R167). -/
def foldInt (rnd : Rnd) (d : Int) (i : Int) : Int × Bool :=
  if d > 0 then
    let r := roundGrid rnd i.natAbs 0 (min d 256)
    (if i < 0 then -(r.1 : Int) else r.1, r.2)
  else (i * (2 ^ (min (-d) 256).toNat : Nat), false)

/-- VXFOLD (R155, R167). (DEDUCED, log entry 70.) -/
def vxXfold (c : VCtx) (e : QEntry) : VxWrites :=
  let wt := typeWidth (fMOD e 0 4)
  let d := signed 32 (c.sreg (fSA e))
  let rs := (c.active (fPM e)).map (fun i =>
    let x := c.elemTag (fVA e) i
    (i, x.tag, foldInt (if fMOD e 4 2 = 1 then .rtz else .rne) d (signed c.width x.bits)))
  let wrapped (v : Int) : Bool := decide (v < -(2 ^ (wt - 1) : Nat) ∨ v ≥ (2 ^ (wt - 1) : Nat))
  { vxTagged (fVD e) wt (rs.map (fun r => (r.1, (⟨unsigned wt r.2.2.1, r.2.1⟩ : Elem)))) with
    ufr := rs.any (fun r => r.2.2.2)
    nonfin := nanTag (rs.map (fun r => r.2.1))
    wraps := rs.foldl (fun n r => n + b2n (wrapped r.2.2.1)) 0 }

/-- The exact value of an XA element of window exponent `l` (R134). -/
def xaNum (w : Nat) (l : Int) (x : Elem) : Num :=
  match x.tag with
  | 0 => Num.ofInt (signed w x.bits) l
  | 1 => .inf false
  | 2 => .inf true
  | _ => .nan

/-- VXCVT (R168). -/
def vxXcvt (x : SrEnv) (c : VCtx) (e : QEntry) : VxWrites :=
  let t := fMOD e 0 4
  let rnd := x.rnd (fMOD e 4 2) (c.sreg (fSD e)) (c.srBase (fSB e))
  let l := signed 10 (c.sreg (fSA e))
  let rs := (span 0 c.vl).map (fun i => toElem t (rnd i) false (scaledElem false (if fSC e = 0 then none else some (c.sreg (fSC e))) (xaNum c.width l (c.elemTag (fVA e) i))))
  { VxWrites.none with v := vxPacked (fVD e) (typeWidth t) (rs.map Conv.pat), nonfin := rs.any Conv.nonfin }

end Sys2Proof.Machine
end

