-- ==== Sys2Proof/Machine/Vx.lean ====
section
/-!
DEFINITION. The vector words (Table 5.4): each names the operand bits its opcode uses, the checks its own rule gives, the
registers it reads and what it writes.
-/

namespace Sys2Proof.Machine

/-- No check of its own. -/
def noCheck (_ : VCtx) (_ : QEntry) : Option Refuse := none


/-- VADD (R154): VA + VB, rounded once. -/
def execVadd (lc : Fin 64) (st : Stream) (ph : Phase) (tok : BitVec 16) (ops : BitVec 96) (s : State) :
    Host.Outcome State Fault Refusal :=
  .next (s.vxWord lc st ph 0x010 tok ops (mVD ||| mVA ||| mVB ||| mPM)
    (fun e => [fVD e, fVA e, fVB e]) noCheck
    (fun _ => vxArith (fun x y _ => x.add y) 2))

/-- VSUB (R154): VA − VB, rounded once. -/
def execVsub (lc : Fin 64) (st : Stream) (ph : Phase) (tok : BitVec 16) (ops : BitVec 96) (s : State) :
    Host.Outcome State Fault Refusal :=
  .next (s.vxWord lc st ph 0x011 tok ops (mVD ||| mVA ||| mVB ||| mPM)
    (fun e => [fVD e, fVA e, fVB e]) noCheck
    (fun _ => vxArith (fun x y _ => x.add y.neg) 2))

/-- VMUL (R154): VA × VB, rounded once. -/
def execVmul (lc : Fin 64) (st : Stream) (ph : Phase) (tok : BitVec 16) (ops : BitVec 96) (s : State) :
    Host.Outcome State Fault Refusal :=
  .next (s.vxWord lc st ph 0x012 tok ops (mVD ||| mVA ||| mVB ||| mPM)
    (fun e => [fVD e, fVA e, fVB e]) noCheck
    (fun _ => vxArith (fun x y _ => x.mul y) 2))

/-- VMAX (R154): the maximum of VA and VB under R22, rounded once. -/
def execVmax (lc : Fin 64) (st : Stream) (ph : Phase) (tok : BitVec 16) (ops : BitVec 96) (s : State) :
    Host.Outcome State Fault Refusal :=
  .next (s.vxWord lc st ph 0x015 tok ops (mVD ||| mVA ||| mVB ||| mPM)
    (fun e => [fVD e, fVA e, fVB e]) noCheck
    (fun _ => vxArith (fun x y _ => x.maxMM y) 2))

/-- VMIN (R154): the minimum of VA and VB under R22, rounded once. -/
def execVmin (lc : Fin 64) (st : Stream) (ph : Phase) (tok : BitVec 16) (ops : BitVec 96) (s : State) :
    Host.Outcome State Fault Refusal :=
  .next (s.vxWord lc st ph 0x016 tok ops (mVD ||| mVA ||| mVB ||| mPM)
    (fun e => [fVD e, fVA e, fVB e]) noCheck
    (fun _ => vxArith (fun x y _ => x.minMM y) 2))

/-- VFMA (R154): VA × VB + VC with one rounding. -/
def execVfma (lc : Fin 64) (st : Stream) (ph : Phase) (tok : BitVec 16) (ops : BitVec 96) (s : State) :
    Host.Outcome State Fault Refusal :=
  .next (s.vxWord lc st ph 0x013 tok ops (mVD ||| mVA ||| mVB ||| mVC ||| mPM)
    (fun e => [fVD e, fVA e, fVB e, fVC e]) noCheck
    (fun _ => vxArith (fun x y z => (x.mul y).add z) 3))

/-- VFNMA (R154): −(VA × VB) + VC with one rounding. -/
def execVfnma (lc : Fin 64) (st : Stream) (ph : Phase) (tok : BitVec 16) (ops : BitVec 96) (s : State) :
    Host.Outcome State Fault Refusal :=
  .next (s.vxWord lc st ph 0x014 tok ops (mVD ||| mVA ||| mVB ||| mVC ||| mPM)
    (fun e => [fVD e, fVA e, fVB e, fVC e]) noCheck
    (fun _ => vxArith (fun x y z => (x.mul y).neg.add z) 3))

/-- VBCAST (R153, Table 5.4): the low w bits of s[SA] in each active element. -/
def execVbcast (lc : Fin 64) (st : Stream) (ph : Phase) (tok : BitVec 16) (ops : BitVec 96) (s : State) :
    Host.Outcome State Fault Refusal :=
  .next (s.vxWord lc st ph 0x017 tok ops (mVD ||| mPM ||| mSA)
    (fun e => [fVD e]) noCheck
    (fun _ c e => vxElems (fVD e) c.width ((c.active (fPM e)).map (fun i => (i, c.sreg (fSA e))))))

/-- VIOTA (R153, Table 5.4): each active element holds its index. -/
def execViota (lc : Fin 64) (st : Stream) (ph : Phase) (tok : BitVec 16) (ops : BitVec 96) (s : State) :
    Host.Outcome State Fault Refusal :=
  .next (s.vxWord lc st ph 0x018 tok ops (mVD ||| mPM)
    (fun e => [fVD e]) noCheck
    (fun _ c e => vxElems (fVD e) c.width ((c.active (fPM e)).map (fun i => (i, i)))))

/-- VIADD (R153, Table 5.4) on w-bit patterns. -/
def execViadd (lc : Fin 64) (st : Stream) (ph : Phase) (tok : BitVec 16) (ops : BitVec 96) (s : State) :
    Host.Outcome State Fault Refusal :=
  .next (s.vxWord lc st ph 0x020 tok ops (mVD ||| mVA ||| mVB ||| mPM)
    (fun e => [fVD e, fVA e, fVB e]) noCheck
    (fun _ => vxInt (fun _ a b => a + b)))

/-- VISUB (R153, Table 5.4) on w-bit patterns. -/
def execVisub (lc : Fin 64) (st : Stream) (ph : Phase) (tok : BitVec 16) (ops : BitVec 96) (s : State) :
    Host.Outcome State Fault Refusal :=
  .next (s.vxWord lc st ph 0x021 tok ops (mVD ||| mVA ||| mVB ||| mPM)
    (fun e => [fVD e, fVA e, fVB e]) noCheck
    (fun _ => vxInt (fun w a b => a + 2 ^ w - b)))

/-- VAND (R153, Table 5.4) on w-bit patterns. -/
def execVand (lc : Fin 64) (st : Stream) (ph : Phase) (tok : BitVec 16) (ops : BitVec 96) (s : State) :
    Host.Outcome State Fault Refusal :=
  .next (s.vxWord lc st ph 0x022 tok ops (mVD ||| mVA ||| mVB ||| mPM)
    (fun e => [fVD e, fVA e, fVB e]) noCheck
    (fun _ => vxInt (fun _ a b => a &&& b)))

/-- VOR (R153, Table 5.4) on w-bit patterns. -/
def execVor (lc : Fin 64) (st : Stream) (ph : Phase) (tok : BitVec 16) (ops : BitVec 96) (s : State) :
    Host.Outcome State Fault Refusal :=
  .next (s.vxWord lc st ph 0x023 tok ops (mVD ||| mVA ||| mVB ||| mPM)
    (fun e => [fVD e, fVA e, fVB e]) noCheck
    (fun _ => vxInt (fun _ a b => a ||| b)))

/-- VXOR (R153, Table 5.4) on w-bit patterns. -/
def execVxor (lc : Fin 64) (st : Stream) (ph : Phase) (tok : BitVec 16) (ops : BitVec 96) (s : State) :
    Host.Outcome State Fault Refusal :=
  .next (s.vxWord lc st ph 0x024 tok ops (mVD ||| mVA ||| mVB ||| mPM)
    (fun e => [fVD e, fVA e, fVB e]) noCheck
    (fun _ => vxInt (fun _ a b => a ^^^ b)))

/-- VSHL (R153, Table 5.4) on w-bit patterns. -/
def execVshl (lc : Fin 64) (st : Stream) (ph : Phase) (tok : BitVec 16) (ops : BitVec 96) (s : State) :
    Host.Outcome State Fault Refusal :=
  .next (s.vxWord lc st ph 0x025 tok ops (mVD ||| mVA ||| mVB ||| mPM)
    (fun e => [fVD e, fVA e, fVB e]) noCheck
    (fun _ => vxInt (fun w a b => a * 2 ^ (b % w))))

/-- VSHR (R153, Table 5.4) on w-bit patterns. -/
def execVshr (lc : Fin 64) (st : Stream) (ph : Phase) (tok : BitVec 16) (ops : BitVec 96) (s : State) :
    Host.Outcome State Fault Refusal :=
  .next (s.vxWord lc st ph 0x026 tok ops (mVD ||| mVA ||| mVB ||| mPM)
    (fun e => [fVD e, fVA e, fVB e]) noCheck
    (fun _ => vxInt (fun w a b => a / 2 ^ (b % w))))

/-- VSRA (R153, Table 5.4) on w-bit patterns. -/
def execVsra (lc : Fin 64) (st : Stream) (ph : Phase) (tok : BitVec 16) (ops : BitVec 96) (s : State) :
    Host.Outcome State Fault Refusal :=
  .next (s.vxWord lc st ph 0x027 tok ops (mVD ||| mVA ||| mVB ||| mPM)
    (fun e => [fVD e, fVA e, fVB e]) noCheck
    (fun _ => vxInt (fun w a b => sraBits w a (b % w))))

/-- VNOT (R153, Table 5.4) on w-bit patterns. -/
def execVnot (lc : Fin 64) (st : Stream) (ph : Phase) (tok : BitVec 16) (ops : BitVec 96) (s : State) :
    Host.Outcome State Fault Refusal :=
  .next (s.vxWord lc st ph 0x028 tok ops (mVD ||| mVA ||| mPM)
    (fun e => [fVD e, fVA e]) noCheck
    (fun _ => vxInt (fun w a _ => 2 ^ w - 1 - a)))

/-- VCMP (R154, Table 5.4). -/
def execVcmp (lc : Fin 64) (st : Stream) (ph : Phase) (tok : BitVec 16) (ops : BitVec 96) (s : State) :
    Host.Outcome State Fault Refusal :=
  .next (s.vxWord lc st ph 0x030 tok ops (mVD ||| mVA ||| mVB ||| mPM ||| mMOD 7)
    (fun e => [fVA e, fVB e]) (fun _ e => refuseIf (decide (fVD e ≥ 8) || fMOD e 0 3 == 7) 0x02)
    (fun _ => vxCmp))

/-- PLOGIC (R153, Table 5.4) over all 512 bits. -/
def execPlogic (lc : Fin 64) (st : Stream) (ph : Phase) (tok : BitVec 16) (ops : BitVec 96) (s : State) :
    Host.Outcome State Fault Refusal :=
  .next (s.vxWord lc st ph 0x031 tok ops (mVD ||| mVA ||| mVB ||| mMOD 3)
    (fun _ => []) (fun _ e => refuseIf (decide (fVD e ≥ 8) || decide (fVA e ≥ 8) || decide (fVB e ≥ 8)) 0x02)
    (fun _ => vxPlogic))

/-- PCOUNT (R153, Table 5.4). -/
def execPcount (lc : Fin 64) (st : Stream) (ph : Phase) (tok : BitVec 16) (ops : BitVec 96) (s : State) :
    Host.Outcome State Fault Refusal :=
  .next (s.vxWord lc st ph 0x032 tok ops (mPM ||| mSD)
    (fun _ => []) noCheck
    (fun _ c e => vxScalar (fSD e) (c.active (fPM e)).length))

/-- VSEL (R153, Table 5.4). -/
def execVsel (lc : Fin 64) (st : Stream) (ph : Phase) (tok : BitVec 16) (ops : BitVec 96) (s : State) :
    Host.Outcome State Fault Refusal :=
  .next (s.vxWord lc st ph 0x033 tok ops (mVD ||| mVA ||| mVB ||| mVC ||| mPM)
    (fun e => [fVD e, fVA e, fVB e]) (fun _ e => refuseIf (decide (fVC e ≥ 8)) 0x02)
    (fun _ => vxSel))

/-- SLI (R153, Table 5.4): s[SD] = IMM32. -/
def execSli (lc : Fin 64) (st : Stream) (ph : Phase) (tok : BitVec 16) (ops : BitVec 96) (s : State) :
    Host.Outcome State Fault Refusal :=
  .next (s.vxWord lc st ph 0x002 tok ops (mVD ||| (2 ^ 32 - 1) * 2 ^ 32)
    (fun _ => []) noCheck
    (fun _ _ e => vxScalar (fVD e) (opf e 32 32)))

/-- SALU (R153, Table 5.4). -/
def execSalu (lc : Fin 64) (st : Stream) (ph : Phase) (tok : BitVec 16) (ops : BitVec 96) (s : State) :
    Host.Outcome State Fault Refusal :=
  .next (s.vxWord lc st ph 0x003 tok ops (mMOD 15 ||| mSA ||| mSB ||| mSD)
    (fun _ => []) (fun _ e => refuseIf (decide (fMOD e 0 4 > 10)) 0x02)
    (fun _ c e => vxScalar (fSD e) (salu (fMOD e 0 4) (c.sreg (fSA e)) (c.sreg (fSB e)))))

/-- SMOV (R153, Table 5.4): its vector register, VD or VA by MOD[0], is aligned to GRP as any (R148). -/
def execSmov (lc : Fin 64) (st : Stream) (ph : Phase) (tok : BitVec 16) (ops : BitVec 96) (s : State) :
    Host.Outcome State Fault Refusal :=
  .next (s.vxWord lc st ph 0x004 tok ops (mVD ||| mVA ||| mMOD 1 ||| mSA ||| mSB ||| mSD)
    (fun e => [if fMOD e 0 1 = 1 then fVD e else fVA e]) noCheck
    (fun _ => vxSmov))

/-- VSF (R156). -/
def execVsf (lc : Fin 64) (st : Stream) (ph : Phase) (tok : BitVec 16) (ops : BitVec 96) (s : State) :
    Host.Outcome State Fault Refusal :=
  .next (s.vxWord lc st ph 0x040 tok ops (mVD ||| mVA ||| mPM ||| mMOD 15)
    (fun e => [fVD e, fVA e]) (fun _ e => refuseIf (decide (fMOD e 0 4 > 8)) 0x02)
    (fun _ => vxSf))

/-- Does a rounding code ask for what its scalar fields do not give: an odd index base under code 2, or non-zero fields under
another code (R153, R160)? -/
def srBad (code base tensor : Nat) : Bool := if code = 2 then base % 2 == 1 else base != 0 || tensor != 0


/-- VCVT (R157, R158). The wider group's extent past v31 is judged at VLMAX, whatever VL is. (DESIGN CHOICE, log entry 72.) -/
def execVcvt (lc : Fin 64) (st : Stream) (ph : Phase) (tok : BitVec 16) (ops : BitVec 96) (s : State) :
    Host.Outcome State Fault Refusal :=
  .next (s.vxWord lc st ph 0x050 tok ops (mVD ||| mVA ||| mPM ||| mMOD 255 ||| mSA ||| mSB ||| mSC)
    (fun e => [fVD e, fVA e]) (fun c e =>
      let t := fMOD e 0 4
      firstRefuse [refuseIf (decide (t > 9) || fMOD e 4 2 == 3 || srBad (fMOD e 4 2) (fSB e) (fSA e)) 0x02,
        refuseIf (fMOD e 7 1 == 0 && (t == c.etype || fPM e != 0)) 0x02,
        refuseIf (decide ((if fMOD e 7 1 = 0 then fVD e else fVA e) + regsFor (c.vlmax * typeWidth t) > 32)) 0x02])
    vxCvt)

/-- VMXPACK (R161). -/
def execVmxpack (lc : Fin 64) (st : Stream) (ph : Phase) (tok : BitVec 16) (ops : BitVec 96) (s : State) :
    Host.Outcome State Fault Refusal :=
  .next (s.vxWord lc st ph 0x051 tok ops (mVD ||| mVA ||| mVB ||| mPM ||| mMOD 63 ||| mSA ||| mSB)
    (fun e => [fVD e, fVA e, fVB e]) (fun c e =>
      refuseIf (!decide (3 ≤ fMOD e 0 4 ∧ fMOD e 0 4 ≤ 9) || !(fMOD e 4 2 == 0 || fMOD e 4 2 == 2)
        || srBad (fMOD e 4 2) (fSB e) (fSA e) || fPM e != 0 || c.vl % 32 != 0) 0x02)
    vxMxpack)

/-- VRED (R169). -/
def execVred (lc : Fin 64) (st : Stream) (ph : Phase) (tok : BitVec 16) (ops : BitVec 96) (s : State) :
    Host.Outcome State Fault Refusal :=
  .next (s.vxWord lc st ph 0x060 tok ops (mVD ||| mVA ||| mPM ||| mMOD 15 ||| mSD)
    (fun e => [fVA e]) (fun c e =>
      firstRefuse [refuseIf (decide (fMOD e 0 3 ≥ 6) || (fMOD e 3 1 == 0 && decide (c.width > 32))) 0x02,
        refuseIf (fMOD e 3 1 == 1 && fVD e % c.ngrp != 0) 0x02])
    (fun _ => vxRed))

/-- VPERM (R170). -/
def execVperm (lc : Fin 64) (st : Stream) (ph : Phase) (tok : BitVec 16) (ops : BitVec 96) (s : State) :
    Host.Outcome State Fault Refusal :=
  .next (s.vxWord lc st ph 0x068 tok ops (mVD ||| mVA ||| mVB ||| mPM)
    (fun e => [fVD e, fVA e, fVB e]) noCheck
    (fun _ => vxPerm))

/-- VSLIDE (R170). -/
def execVslide (lc : Fin 64) (st : Stream) (ph : Phase) (tok : BitVec 16) (ops : BitVec 96) (s : State) :
    Host.Outcome State Fault Refusal :=
  .next (s.vxWord lc st ph 0x069 tok ops (mVD ||| mVA ||| mPM ||| mMOD 1 ||| mSA)
    (fun e => [fVD e, fVA e]) noCheck
    (fun _ => vxSlide))

/-- VSMAX (R171 to R176). -/
def execVsmax (lc : Fin 64) (st : Stream) (ph : Phase) (tok : BitVec 16) (ops : BitVec 96) (s : State) :
    Host.Outcome State Fault Refusal :=
  .next (s.vxWord lc st ph 0x070 tok ops (mVD ||| mVA ||| mVC ||| mPM ||| mMOD 255 ||| mSA ||| mSD)
    (fun e => [fVD e, fVA e]) (fun _ e => refuseIf (decide (fVC e ≥ 8) || fSD e == 0 || fSD e % 2 == 1) 0x02)
    (fun _ => vxSmax))

/-- VSMERGE (R177). -/
def execVsmerge (lc : Fin 64) (st : Stream) (ph : Phase) (tok : BitVec 16) (ops : BitVec 96) (s : State) :
    Host.Outcome State Fault Refusal :=
  .next (s.vxWord lc st ph 0x071 tok ops (mVD ||| mVA ||| mVB ||| mPM ||| mMOD 1 ||| mSA ||| mSB ||| mSD)
    (fun e => [fVD e, fVA e, fVB e]) (fun _ e => refuseIf ([fSA e, fSB e, fSD e].any (fun r => r == 0 || r % 2 == 1)) 0x02)
    (fun _ => vxSmerge))

/-- VXADD (R166). -/
def execVxadd (lc : Fin 64) (st : Stream) (ph : Phase) (tok : BitVec 16) (ops : BitVec 96) (s : State) :
    Host.Outcome State Fault Refusal :=
  .next (s.vxWord lc st ph 0x078 tok ops (mVD ||| mVA ||| mVB ||| mPM)
    (fun e => [fVD e, fVA e, fVB e]) noCheck
    (fun _ => vxXadd))

/-- Registers per operand of another type at the same vector length, the GRP of that type (R167). -/
def VCtx.grpOf (c : VCtx) (t : Nat) : Nat := max 1 (c.ngrp * typeWidth t / c.width)


/-- VXFOLD (R167). -/
def execVxfold (lc : Fin 64) (st : Stream) (ph : Phase) (tok : BitVec 16) (ops : BitVec 96) (s : State) :
    Host.Outcome State Fault Refusal :=
  .next (s.vxWord lc st ph 0x079 tok ops (mVD ||| mVA ||| mPM ||| mMOD 63 ||| mSA)
    (fun e => [fVA e]) (fun c e =>
      let t := fMOD e 0 4
      firstRefuse [refuseIf (!(t == 10 || t == 11) || decide (fMOD e 4 2 ≥ 2)) 0x02,
        refuseIf (fVD e % c.grpOf t != 0 || decide (fVD e + c.grpOf t > 32)) 0x02])
    (fun _ => vxXfold))

/-- VXCVT (R168). -/
def execVxcvt (lc : Fin 64) (st : Stream) (ph : Phase) (tok : BitVec 16) (ops : BitVec 96) (s : State) :
    Host.Outcome State Fault Refusal :=
  .next (s.vxWord lc st ph 0x07A tok ops (mVD ||| mVA ||| mPM ||| mMOD 63 ||| mSA ||| mSB ||| mSC ||| mSD)
    (fun e => [fVD e, fVA e]) (fun _ e =>
      refuseIf (decide (fMOD e 0 4 > 2) || fMOD e 4 2 == 3 || srBad (fMOD e 4 2) (fSB e) (fSD e) || fPM e != 0) 0x02)
    vxXcvt)

/-- VX.VSETVL (R149, R151): VTYPE, VL and s[SD] are written as it completes. -/
def execVsetvl (lc : Fin 64) (st : Stream) (ph : Phase) (tok : BitVec 16) (ops : BitVec 96) (s : State) :
    Host.Outcome State Fault Refusal :=
  .next (s.engineWord lc st ph .vx 0x001 tok ops
    (fun s pc e => firstRefuse [vxCheck ((s.core pc).vctx st) 0x001 0x7FFFFFF [] e,
      refuseIf (!([0, 1, 2, 10, 11] : List Nat).contains (opf e 21 4) || opf e 25 2 == 3) 0x02])
    (fun s pc e => .ok (s.modCore pc (fun k =>
      let c := { k.vctx st with etype := opf e 21 4, grp := opf e 25 2 }
      let avl := if fVA e = 0 then opf e 10 11 else c.sreg (fVA e)
      let vl := min avl c.vlmax
      k.setResults { vxScalar (fVD e) vl with vtype := some (vl, c.etype, c.grp) }))))

/-! ### Loads and stores (layout M) -/

/-- Refusals of VLD and VST (R60, R150, R162 to R164). -/
def lmCheck (s : State) (pc : Nat) (c : VCtx) (opc : Nat) (e : QEntry) : Option Refuse :=
  firstRefuse ([
    vxCheck c opc (2 ^ 78 - 1) [fVD e] e,
    refuseIf (spaReserved e 8 != 0 || spaReserved e 49 != 0) 0x02,
    refuseIf (if lmNarrow e then lmPM e != 0 || decide (opf e 73 4 > 9) else opf e 73 4 != 0) 0x02,
    refuseIf (if lmTags e then !c.xa else opf e 49 24 != 0) 0x02,
    refuseIf (decide (fVD e + regsFor (c.vl * lmWidth c e) > 32)) 0x02] ++
    (lmSegs c e).map (fun g => s.spanFault pc g.1 g.2) ++ [if lmTags e then s.spanFault pc (spaAddr e 49) (ceilDiv (2 * c.vl) 512) else none])

/-- The results of a VLD from the data and tag bits read: active elements, and their tags, which TAGS = 0 makes finite
(R162, R163). -/
def vldWrites (c : VCtx) (e : QEntry) (data tags : Nat) : VxWrites :=
  let w := lmWidth c e
  let act := c.active (lmPM e)
  { vxElems (fVD e) w (act.map (fun i => (i, elemAt data w i))) with
    tag := tagWrites (fVD e) (act.map (fun i =>
      (laneOf (if lmTags e then c.width else w) i, if lmTags e then natBits tags (2 * i) 2 else 0))) }

/-- VLD (R162 to R164): every word that holds an element below VL is read; a granule read whole that fails its block check
raises a TAINTED record (R343). -/
def execVld (lc : Fin 64) (st : Stream) (ph : Phase) (tok : BitVec 16) (ops : BitVec 96) (s : State) :
    Host.Outcome State Fault Refusal :=
  .next (s.engineWord lc st ph .vx 0x080 tok ops
    (fun s pc e => lmCheck s pc ((s.core pc).vctx st) 0x080 e)
    (fun s pc e =>
      let k := s.core pc
      let c := k.vctx st
      let ws := lmWords c e
      let all := ws ++ lmTagWords c e
      let rd := spadReads pc k all
      let s := s.noteSpad pc lc rd.corrs (b2n rd.bad.isSome)
      match rd.bad with
      | some w => .error (⟨0x04, w, false⟩, s)
      | none =>
        let s := s.checkRead pc lc k all e.word
        .ok (s.modCore pc (fun k => k.setResults (vldWrites c e (wordsNat (rd.vals.take ws.length)) (wordsNat (rd.vals.drop ws.length)))))))

/-- Cut a group-wide mask and value into the scratchpad writes of listed words; untouched words are left out (R162). -/
def lmCut (ws : List Nat) (mask val : Nat) : List (Nat × SpadBits × SpadBits) :=
  ((span 0 ws.length).zip ws).filterMap (fun p =>
    let m := natBits mask (512 * p.1) 512
    if m = 0 then none else some (p.2, BitVec.ofNat 512 (natBits val (512 * p.1) 512), BitVec.ofNat 512 m))

/-- A mask of listed fields of width `w`. -/
def fieldMask (w : Nat) (l : List Nat) : Nat := l.foldl (fun m i => m + (2 ^ w - 1) * 2 ^ (w * i)) 0

/-- The scratchpad writes of a VST: active elements only, and with TAGS their tags (R162, R163). -/
def vstWords (c : VCtx) (e : QEntry) : List (Nat × SpadBits × SpadBits) :=
  let w := lmWidth c e
  let act := c.active (lmPM e)
  let tags := act.foldl (fun m i => m + c.tagAt (fVD e) (laneOf c.width i) * 2 ^ (2 * i)) 0
  lmCut (lmWords c e) (fieldMask w act) (c.group (fVD e) (regsFor (c.vl * w))) ++ lmCut (lmTagWords c e) (fieldMask 2 act) tags

/-- VST (R162 to R164, R151): its words are written as it completes. A partial write onto a word that cannot be read refuses it, and nothing is
written (R82). (DEDUCED, log entry 26.) -/
def execVst (lc : Fin 64) (st : Stream) (ph : Phase) (tok : BitVec 16) (ops : BitVec 96) (s : State) :
    Host.Outcome State Fault Refusal :=
  .next (s.engineWord lc st ph .vx 0x081 tok ops
    (fun s pc e => lmCheck s pc ((s.core pc).vctx st) 0x081 e)
    (fun s pc e =>
      let ws := joinWrites (vstWords ((s.core pc).vctx st) e)
      match spadMerge pc (s.core pc) ws with
      | .error w => .error (⟨0x04, w, false⟩, s.noteSpad pc lc [] 1)
      | .ok _ => .ok (s.modCore pc (fun k => k.setResults { VxWrites.none with spad := ws }))))

/-! ### Accumulator reads (layout A) -/

/-- The first element read, row-major (R165). -/
def accStart (d : BitVec 32) (e : QEntry) : Nat := opf e 12 6 * gWidth d + opf e 18 6

/-- Refusals of VACC (R153, R160, R165). -/
def vaccCheck (st : Stream) (s : State) (pc : Nat) (e : QEntry) : Option Refuse :=
  let k := s.core pc
  let c := k.vctx st
  let g := (k.array (accArray e)).group (accGroup e)
  let rnd := opf e 24 2
  firstRefuse [
    vxCheck c 0x090 (0x7FFFFFF ||| 0x7FFF * 2 ^ 32) [fVD e] e,
    refuseIf (rnd == 3 || (c.xa && (rnd != 0 || opf e 26 1 != 0)) || (rnd != 2 && (opf e 37 5 != 0 || opf e 42 5 != 0))
      || (rnd == 2 && opf e 42 5 % 2 == 1) || (opf e 26 1 == 0 && opf e 32 5 != 0)) 0x02,
    refuseIf (!g.isOpen) 0x02,
    (k.array (accArray e)).groupsLost (accArray e) [accGroup e],
    refuseIf (g.owner != st) 0x08,
    refuseIf (c.xa && (gIsF32 g.desc || decide (c.width < gBits g.desc))) 0x02,
    refuseIf (decide (accStart g.desc e + c.vl > gHeight g.desc * gWidth g.desc)) 0x02]

/-- The results of a VACC: raw integers with tags, or each element converted once (R165, R139). -/
def vaccWrites (x : SrEnv) (c : VCtx) (a : ArrayState) (e : QEntry) : VxWrites :=
  let d := (a.group (accGroup e)).desc
  let els := (span 0 c.vl).map (fun i =>
    let k := accStart d e + i
    (i, a.seenElem (accGroup e) (k / gWidth d) (k % gWidth d)))
  if c.xa then
    vxTagged (fVD e) c.width (els.map (fun y => (y.1, (⟨unsigned c.width (signed (gBits d) y.2.bits), y.2.tag⟩ : Elem))))
  else
    let rnd := x.rnd (opf e 24 2) (c.sreg (opf e 37 5)) (c.srBase (opf e 42 5))
    let rs := els.map (fun y =>
      (y.1, toElem c.etype (rnd y.1) false (scaledElem (gIsF32 d) (if opf e 26 1 = 1 then some (c.sreg (opf e 32 5)) else none) (elemNum d y.2))))
    { vxElems (fVD e) c.width (rs.map (fun r => (r.1, r.2.pat))) with nonfin := rs.any (fun r => r.2.nonfin) }

/-- VACC (R140, R165): elements of an accumulation group as they stand, rows that an MX.MMA in flight has not written among them, through AP1; a
bank word beyond correction refuses it. -/
def execVacc (lc : Fin 64) (st : Stream) (ph : Phase) (tok : BitVec 16) (ops : BitVec 96) (s : State) :
    Host.Outcome State Fault Refusal :=
  .next (s.engineWord lc st ph .vx 0x090 tok ops (vaccCheck st)
    (fun s pc e =>
      let s := s.mmaDrift pc st (accArray e) (accGroup e)
      let k := s.core pc
      let c := k.vctx st
      let a := k.array (accArray e)
      let b := a.scanEls (accGroup e) (accStart (a.group (accGroup e)).desc e) c.vl
      let s := s.coreBump pc fSpadCorrCntCount (b.2 + a.groupsFixed [accGroup e])
      match b.1.map (storeRefuse (accArray e)) with
      | some f => .error (f, if f.own then s else s.coreBump pc fSpadUncorrCntCount 1)
      | none => .ok (s.modCore pc (fun k => k.setResults (vaccWrites (s.srEnv pc) c a e)))))

end Sys2Proof.Machine
end

