-- ==== Sys2Proof/Machine/Counters.lean ====
section
/-!
DEFINITION. Beryl units as other blocks see them: sending a counter operation to a bank (R220, R221, R499), and answering an SY
word (R234, R235).
-/

namespace Sys2Proof.Machine

/-- The Beryl unit of die `d`. -/
def State.beryl (s : State) (d : Nat) : Beryl := mapGet (fun _ => .reset) s.beryls d

/-- Replace the Beryl unit of die `d`. -/
def State.setBeryl (s : State) (d : Nat) (b : Beryl) : State := { s with beryls := mapSet (fun _ => .reset) s.beryls d b }

/-- Is the Beryl function of a die READY? -/
def State.berylUp (s : State) (d : Nat) : Bool := s.dieUp d && s.funcUp (funcId 5 d 0)

/-- Value of counter `i` of a unit (R219). -/
def Beryl.ctr (b : Beryl) (i : Nat) : Nat := (mapGet (fun _ => (0 : BitVec 32)) b.counters i).toNat

/-- Set counter `i`. -/
def Beryl.setCtr (b : Beryl) (i v : Nat) : Beryl := { b with counters := mapSet (fun _ => (0 : BitVec 32)) b.counters i (BitVec.ofNat 32 v) }

/-- The input port of Table 7.2 by which operations of die `src` reach the unit of another die `d`. -/
def diePort (d src : Nat) : Nat := 20 + (if src < d then src else src - 1)

/-- Answer the SY word in flight of a stream (R234, R235): it completes, writes the value it read, or is refused and halts its
stream with cause 0x0D. -/
def State.settleSy (s : State) (lc : Nat) (st : Stream) (ans : SyAnswer) : State :=
  match s.physOf lc with
  | none => s
  | some pc =>
    match (s.core pc).oldest .sy st with
    | none => s
    | some (i, f) =>
      match ans with
      | .done => s.complete pc lc i f
      | .value v =>
        let w := spaAddr f.ent 72
        let lo : SpadBits := BitVec.ofNat 512 (v % 2 ^ 32 + 2 ^ 32 * opf f.ent 0 18)
        (s.modCore pc (fun c => spadWrite pc c [(w, lo), (w + 1, 0)])).complete pc lc i f
      | .refused a => (s.modCore pc (fun c => c.landed i)).halt pc lc st (haltBy 0x0D f.ent a)

/-- Answer an SY word of die `lc / 16` from die `d`: at once on its own die, else by an acknowledgement that travels back. -/
def State.answerSy (s : State) (d lc : Nat) (st : Stream) (ans : SyAnswer) : State :=
  if lc / 16 = d then s.settleSy lc st ans else { s with syAcks := s.syAcks ++ [⟨lc, st, ans⟩] }

/-- ADDR of a refused counter operation of an SY word (Table 11.18): identifier and value. -/
def ctrAddr (d ctr v : Nat) : Nat := d * 65536 + ctr + 2 ^ 32 * v

/-- The SIGNAL_REFUSED record (Table 11.8): counter identifier, source, flow or port, value. -/
def signalRefused (unit inst id arg0 arg1 v : Nat) : ErrInfo := ⟨.jobFatal, 0x0031, unit, inst, id, arg0, arg1, v⟩

/-- A counter operation that the unit of die `d` refuses, the counter at value `v` (R220, R232, R499). `here` says that the
unit is READY and raises the record itself; otherwise the Jasper cluster of the issuer's die does. -/
def State.refuseCtr (s : State) (d : Nat) (o : BerOp) (v : Nat) (here : Bool) : State :=
  let s := if s.dieUp d then s.bump d fBerylRejectCntCount 1 else s
  match o.org with
  | .sy lc st => s.answerSy d lc st (.refused (ctrAddr d o.ctr v))
  | .unit src =>
    if here then s.raise d (signalRefused 0x05 d (d * 65536 + o.ctr) s.pkgId (2 ^ 31 + o.port) v)
    else s.raise src (signalRefused 0x0A src (d * 65536 + o.ctr) s.pkgId (2 ^ 31 + o.port) v)
  | .fabric src flow =>
    if here then s.raise d (signalRefused 0x05 d (d * 65536 + o.ctr) src flow v)
    else s.raise s.lead (signalRefused 0x0A s.lead (d * 65536 + o.ctr) src flow v)

/-- The die that a counter operation comes from, by its input port at the unit of die `d` (Table 7.2). -/
def BerOp.from (o : BerOp) (d : Nat) : Nat :=
  if o.port < 20 ∨ 22 < o.port then d else if o.port - 20 < d then o.port - 20 else o.port - 19

/-- Send a counter operation to the unit of die `d` (R221): it waits at its input port; a unit that is not READY (R499), or that no path reaches
(R377), refuses it. (DESIGN CHOICE, log entry 69.) -/
def State.berylSend (s : State) (d : Nat) (o : BerOp) : State :=
  if s.berylUp d && s.reaches (o.from d) d o.ctr then
    let b := s.beryl d
    s.setBeryl d { b with ops := b.ops ++ [o] }
  else s.refuseCtr d o 0 false

/-- INC `n` by a block of the same die (R220); zero does nothing. -/
def State.localInc (s : State) (d port ctr n : Nat) : State :=
  if n = 0 then s else s.berylSend d ⟨port, .inc, ctr, n, .unit d⟩

end Sys2Proof.Machine
end

