-- ==== Sys2Proof/Machine/Queue.lean ====
section
/-!
DEFINITION. Queue state entries (Table 7.6), the state cache (R244), the queue state operations (R241, R242, R247) and placing
transfers into flows (R227, R240, R243).
-/

namespace Sys2Proof.Machine

/-! ### Entry fields (Table 7.6) -/

/-- Ring address. -/
def qBase (v : BitVec 256) : Nat := fld v 0 41 * 128
/-- Entry size in bytes. -/
def qEsize (v : BitVec 256) : Nat := 2 ^ (5 + fld v 41 4)
/-- log2 of the ring depth. -/
def qLog2d (v : BitVec 256) : Nat := fld v 45 5
/-- Ring depth in entries; LOG2D 0 means no ring. -/
def qDepth (v : BitVec 256) : Nat := if qLog2d v = 0 then 0 else 2 ^ qLog2d v
/-- KIND: 0 DESC, 1 SEND, 2 RECV, 3 CMD, 4 TELEM, 5 ERR. -/
def qKind (v : BitVec 256) : Nat := fld v 50 4
/-- EN. -/
def qEn (v : BitVec 256) : Bool := bit v 54
/-- PIN. -/
def qPin (v : BitVec 256) : Bool := bit v 55
/-- ERR. -/
def qErr (v : BitVec 256) : Bool := bit v 56
/-- NOTIFY_EN. -/
def qNotify (v : BitVec 256) : Bool := bit v 57
/-- PROD. -/
def qProd (v : BitVec 256) : Nat := fld v 64 32
/-- CONS. -/
def qCons (v : BitVec 256) : Nat := fld v 96 32
/-- PENDING. -/
def qPending (v : BitVec 256) : Nat := fld v 128 16
/-- NCTR. -/
def qNctr (v : BitVec 256) : Nat := fld v 144 16
/-- PEER_Q. -/
def qPeerQ (v : BitVec 256) : Nat := fld v 160 20
/-- PEER_PKG. -/
def qPeerPkg (v : BitVec 256) : Nat := fld v 180 12
/-- CLASS. -/
def qClass (v : BitVec 256) : Nat := fld v 192 2
/-- CREDIT. -/
def qCredit (v : BitVec 256) : Nat := fld v 194 24
/-- Entries held: PROD − CONS modulo 2^32. -/
def qHeld (v : BitVec 256) : Nat := (qProd v + 2 ^ 32 - qCons v) % 2 ^ 32
/-- Address of ring entry `k` (R239). -/
def qEntryAt (v : BitVec 256) (k : Nat) : Nat := qBase v + k % 2 ^ qLog2d v * qEsize v
/-- PROD moved on by `n`. -/
def qAddProd (v : BitVec 256) (n : Nat) : BitVec 256 := putFld v 64 32 (qProd v + n)
/-- CONS moved on by `n`. -/
def qAddCons (v : BitVec 256) (n : Nat) : BitVec 256 := putFld v 96 32 (qCons v + n)

/-! ### The state table and its cache (R238, R244) -/

/-- The queue engine of die `d`. -/
def State.qe (s : State) (d : Nat) : QEngine := mapGet (fun _ => .reset) s.qes d

/-- Replace the queue engine of die `d`. -/
def State.setQe (s : State) (d : Nat) (q : QEngine) : State := { s with qes := mapSet (fun _ => .reset) s.qes d q }

/-- Is the queue engine function of a die READY? -/
def State.qeUp (s : State) (d : Nat) : Bool := s.dieUp d && s.funcUp (funcId 6 d 0)

/-- Address of a queue's entry in the state table (R238). -/
def State.qstAddr (s : State) (d i : Nat) : Nat := s.getF d fQeCfgQstBase * 2 ^ 23 + 32 * i

/-- A cached entry. -/
def QEngine.line (q : QEngine) (i : Nat) : Option QLine := mapGet (fun _ => none) q.cache i

/-- Put an entry into the cache as the one used last. -/
def QEngine.putLine (q : QEngine) (i : Nat) (v : BitVec 256) (dirty : Bool) : QEngine :=
  { q with cache := mapSet (fun _ => none) q.cache i (some ⟨v, dirty, q.uses⟩), uses := q.uses + 1 }

/-- The cached lines of the set that a queue maps to. -/
def QEngine.setLines (q : QEngine) (i : Nat) : List (Nat × QLine) :=
  q.cache.filterMap (fun (e : Nat × Option QLine) => if e.1 % 1024 = i % 1024 then e.2.map (fun l => (e.1, l)) else none)

/-- The least recently used of the lines that may be evicted. -/
def lruVictim (l : List (Nat × QLine)) : Option (Nat × QLine) :=
  (l.filter (fun e => !qPin e.2.v)).foldl (fun b e => match b with
    | none => some e
    | some x => if e.2.used < x.2.used then some e else some x) none

/-- Write an entry to the state table: a 32 B narrow write (R244). -/
def State.qstWrite (s : State) (d i : Nat) (v : BitVec 256) : State :=
  let a := s.qstAddr d i
  match s.narrowAt (.queueEngine d) a (leBytes v.toNat 32) false with
  | (none, s) => s
  | (some k, s) => s.accessFailed (.queueEngine d) (a / 128) k

/-- Make room for a queue's line: evict the least recently used unpinned line of a full set, writing it back if it changed.
The second result says whether there is room. -/
def State.qEvict (s : State) (d i : Nat) : State × Bool :=
  let ls := (s.qe d).setLines i
  if ls.length < 16 then (s, true)
  else match lruVictim ls with
    | none => (s, false)
    | some (j, l) =>
      let q := s.qe d
      let s := s.setQe d { q with cache := mapErase q.cache j }
      (if l.dirty then (s.qstWrite d j l.v).bump d fQeCacheWbCntCount 1 else s, true)

/-- Read an entry from the state table into the cache. -/
def State.qFill (s : State) (d i : Nat) : Option (BitVec 256) × State :=
  let a := s.qstAddr d i
  match s.memRead (.queueEngine d) (a / 128) with
  | (.ok g _, s) =>
    let v : BitVec 256 := BitVec.ofNat 256 (natBits g.toNat (8 * (a % 128)) 256)
    let r := s.qEvict d i
    (some v, if r.2 then r.1.setQe d ((r.1.qe d).putLine i v false) else r.1)
  | (.err kind, s) => (none, s.accessFailed (.queueEngine d) (a / 128) kind)
  | (.wait, s) => (none, s)

/-- Change a queue's state after an access. -/
def State.qPut (s : State) (d i : Nat) (v : BitVec 256) : State :=
  match (s.qe d).line i with
  | some _ => s.setQe d ((s.qe d).putLine i v true)
  | none => s.qstWrite d i v

/-- A queue's entry as the state table and the cache hold it, read for its own sake. -/
def State.qPeek (s : State) (d i : Nat) : BitVec 256 :=
  match (s.qe d).line i with
  | some l => l.v
  | none => let a := s.qstAddr d i; BitVec.ofNat 256 (natBits (s.mem.view (a / 128)).toNat (8 * (a % 128)) 256)

/-- Entries of a die that carry PIN, in the cache or in the table (R244). -/
def State.pinned (s : State) (d : Nat) : Nat := (span 0 (2 ^ 18)).countP (fun i => qPin (s.qPeek d i))

/-! ### Errors of a queue (R240, R500) -/

/-- Stop a queue on an error: ERR, the CONTAINED record with queue, entry and reason, and during a job the JOB_FATAL record.
(DEDUCED, log entry 28.) -/
def State.queueError (s : State) (d i : Nat) (v : BitVec 256) (entry reason : Nat) : State :=
  let s := s.qPut d i (putFld v 56 1 1)
  let r (c : ErrClass) (unit : Nat) : ErrInfo := ⟨c, 0x0030, unit, d, d * 2 ^ 18 + i, entry, reason, 0⟩
  let job := s.job.running
  let s := s.raise d (r .contained 0x06)
  if job then s.raise d (r .jobFatal 0x0A) else s

/-! ### State operations (R241, R242, R247) -/

/-- Is a doorbell of `n` accepted (R241)? -/
def doorbellOk (v : BitVec 256) (n : Nat) : Bool := qEn v && !qErr v && decide (qPending v + n ≤ 65535)

/-- Is a consumption of `n` entries accepted (R242)? -/
def consOk (v : BitVec 256) (n : Nat) : Bool := decide (qKind v ≥ 2) && decide (n ≤ qHeld v)

/-- A committed view is refused (R247): reserved KIND or field, or LOG2D out of range. -/
def viewBad (v : BitVec 256) : Bool :=
  decide (qKind v ≥ 6) || fld v 58 6 != 0 || fld v 218 38 != 0
    || !(decide (4 ≤ qLog2d v ∧ qLog2d v ≤ 24) || (qLog2d v == 0 && qKind v == 1))

/-- The four words of the QE_QSTATE view. -/
def State.qView (s : State) (d : Nat) : BitVec 256 :=
  (span 0 4).foldl (fun (v : BitVec 256) k => putFld v (64 * k) 64 (s.reg d (oQeQstate + 8 * k)).toNat) 0

/-- Show an entry in the view. -/
def State.setView (s : State) (d : Nat) (v : BitVec 256) : State :=
  (span 0 4).foldl (fun (s : State) k => s.setReg d (oQeQstate + 8 * k) (BitVec.ofNat 64 (fld v (64 * k) 64))) s

/-- Does an operation on this queue wait for a miss? -/
def QEngine.waits (q : QEngine) (i : Nat) : Bool := q.waiting.any (fun o => o.q == i)

/-- Refuse a state operation (R241, R242, R247). -/
def State.refuseQOp (s : State) (d : Nat) (o : QOp) (v : BitVec 256) : State :=
  match o.org with
  | .sy lc st => s.answerSy d lc st (.refused (d * 2 ^ 18 + o.q))
  | .watch => s.queueError d o.q v (qProd v) 4
  | .reg => s.setF d fQeCmdStatRefused 1
  | .unit => s

/-- A state operation has been applied. -/
def State.qOpDone (s : State) (d : Nat) (o : QOp) : State :=
  match o.org with
  | .sy lc st => s.answerSy d lc st .done
  | _ => s

/-- Entries of a RECV queue freed by its consumer wait to be returned as credit (R242). -/
def State.noteFreed (s : State) (d i : Nat) (v : BitVec 256) (n : Nat) : State :=
  if qKind v = 2 then
    let q := s.qe d
    s.setQe d { q with freed := mapSet (fun _ => 0) q.freed i (mapGet (fun _ => 0) q.freed i + n) }
  else s

/-- Apply one state operation to a queue whose state is `v` (R241, R242, R247). -/
def State.qApply (s : State) (d : Nat) (o : QOp) (v : BitVec 256) : State :=
  match o.op with
  | .doorbell n =>
    if doorbellOk v n then (s.qPut d o.q (putFld v 128 16 (qPending v + n))).qOpDone d o else s.refuseQOp d o v
  | .cons n =>
    if consOk v n then ((s.qPut d o.q (qAddCons v n)).noteFreed d o.q v n).qOpDone d o else s.refuseQOp d o v
  | .load => s.setView d v
  | .commit new =>
    if s.anyLive || viewBad new || (qPin new && !qPin v && decide (s.pinned d ≥ 4096)) then s.refuseQOp d o v
    else s.qPut d o.q new
  | .clearErr => if s.anyLive then s.refuseQOp d o v else s.qPut d o.q (putFld v 56 1 0)

/-- Access a queue's state, the entry being cached or filled on a miss (R244); none where the table cannot be read. -/
def State.qLook (s : State) (d i : Nat) : Option (BitVec 256) × State :=
  match (s.qe d).line i with
  | some l => (some l.v, (s.setQe d ((s.qe d).putLine i l.v l.dirty)).bump d fQeCacheHitCntCount 1)
  | none => (s.bump d fQeCacheMissCntCount 1).qFill d i

/-- The state operations of one queue that wait on its miss, applied in arrival order once the entry is there (R244). An entry
that cannot be read refuses them; a watch's doorbell is dropped. -/
def State.qDrain (s : State) (d i : Nat) : State :=
  let q := s.qe d
  let mine := q.waiting.filter (fun o => o.q == i)
  if mine.isEmpty then s
  else
    let s := s.setQe d { q with waiting := q.waiting.filter (fun o => o.q != i) }
    let r := s.qFill d i
    match r.1 with
    | none => (mine.filter (fun o => o.org != .watch)).foldl (fun s o => s.refuseQOp d o 0) r.2
    | some v0 => mine.foldl (fun (s : State) o =>
        match (s.qe d).line i with
        | some l => s.qApply d o l.v
        | none =>
          let z := s.qFill d i
          z.2.qApply d o (z.1.getD v0)) r.2

/-- The die that a state operation comes from. -/
def QOp.from (o : QOp) (d : Nat) : Nat := match o.org with
  | .sy lc _ => lc / 16
  | _ => d

/-- A state operation reaches the queue engine, by the path of R377 (R244): a hit applies it at once; on a miss it waits, with every later operation
on the same queue, for QSTATE_MISS_FILL. -/
def State.qSubmit (s : State) (d : Nat) (o : QOp) : State :=
  if !s.qeUp d || !s.reaches (o.from d) d o.q then (match o.org with
    | .watch => s
    | _ => s.refuseQOp d o 0)
  else
    let q := s.qe d
    match (if q.waits o.q then none else q.line o.q) with
    | some l => ((s.setQe d (q.putLine o.q l.v l.dirty)).bump d fQeCacheHitCntCount 1).qApply d o l.v
    | none => (s.setQe d { q with waiting := q.waiting ++ [o] }).bump d fQeCacheMissCntCount (if q.waits o.q then 0 else 1)

/-- An engine's own access to a queue's state: earlier operations on the queue are applied first (R244 keeps arrival order). None
where the engine is not READY or the table cannot be read. -/
def State.qGet (s : State) (d i : Nat) : Option (BitVec 256) × State :=
  if !s.qeUp d then (none, s) else (s.qDrain d i).qLook d i

/-! ### Flows (R227, R243) -/

/-- A flow. -/
def State.flow (s : State) (q : Nat) : Flow := mapGet (fun _ => .empty) s.flows q

/-- Replace a flow. -/
def State.setFlow (s : State) (q : Nat) (f : Flow) : State := { s with flows := mapSet (fun _ => .empty) s.flows q f }

/-- Is a transfer of this kind reported by a COMPLETION (R265)? -/
def countedKind (k : Nat) : Bool := k == 0 || k == 1 || k == 7

/-- Place an item into a flow. -/
def Flow.place (f : Flow) (i : FlowItem) : Flow :=
  { f with placed := f.placed ++ [i.x], unacked := if countedKind i.x.h.kind then f.unacked ++ [i.org] else f.unacked }

/-- The header of a transfer of flow `q` with queue state `v` (R259). -/
def State.flowHead (s : State) (q : Nat) (v : BitVec 256) (kind : Nat) : XHead :=
  { XHead.zero with kind := kind, plane := mapGet (fun _ => 0) s.planes q, rdie := qPeerQ v / 2 ^ 18, hops := 63, dst := qPeerPkg v, src := s.pkgId, flow := q }

/-- Send an item into a flow: it is placed at once, or waits behind a landing transfer without credit (R243). -/
def State.toFlow (s : State) (q : Nat) (v : BitVec 256) (i : FlowItem) : State :=
  let f := s.flow q
  if !f.held.isEmpty then s.setFlow q { f with held := f.held ++ [i] }
  else if i.need = 0 then s.setFlow q (f.place i)
  else if i.need ≤ qCredit v then (s.setFlow q (f.place i)).qPut (q / 2 ^ 18) (q % 2 ^ 18) (putFld v 194 24 (qCredit v - i.need))
  else s.setFlow q { f with held := [i] }

/-- A flow usable toward a package: an enabled SEND queue whose PEER_PKG is that package (R233, Table 7.5). -/
def State.sendQueue (s : State) (q : Nat) (pkg : Option Nat) : Option (BitVec 256) × State :=
  match s.qGet (q / 2 ^ 18) (q % 2 ^ 18) with
  | (some v, s) => (if qKind v = 1 && qEn v && (match pkg with | some p => qPeerPkg v == p | none => true) then some v else none, s)
  | (none, s) => (none, s)

/-- The default flow of a logical core to a package (R202). -/
def State.defFlow (s : State) (lc pkg : Nat) : Option Nat := mapGet (fun _ => none) s.defFlows (lc * 4096 + pkg)

/-- Cut a run of granules into transfers of at most 64 (R258): sizes. -/
def xferSizes (n : Nat) : List Nat := (span 0 (ceilDiv n 64)).map (fun k => min 64 (n - 64 * k))

/-- Send a WRITE of a run of granules into a flow: transfers of at most 64 granules, ACKREQ on the last (R258, R265). -/
def State.flowWrite (s : State) (q : Nat) (v : BitVec 256) (addr : Nat) (data : List DGran) (org : Nat → XOrigin) : State :=
  let n := ceilDiv data.length 64
  (span 0 n).foldl (fun s k =>
    let part := (data.drop (64 * k)).take 64
    let h := { s.flowHead q v 0 with ackreq := k + 1 == n, ngr := part.length, addr := addr + 8192 * k }
    s.toFlow q v ⟨⟨qClass v, h, part, false⟩, 0, org k⟩) s

end Sys2Proof.Machine
end

