-- ==== Sys2Proof/Machine/Beryl.lean ====
section
/-!
DEFINITION. Beryl synchronisation (R219 to R237): evaluation and firing of watches, counter operations at their banks, SY words,
bounds, and the snapshot and check of a task.
-/

namespace Sys2Proof.Machine

/-! ### Slots and firing -/

/-- Watch slot `k`, if armed. -/
def Beryl.slot (b : Beryl) (k : Nat) : Option Watch := mapGet (fun _ => none) b.slots k

/-- Set or release slot `k`. -/
def Beryl.setSlot (b : Beryl) (k : Nat) (w : Option Watch) : Beryl := { b with slots := mapSet (fun _ => none) b.slots k w }

/-- Armed slots. -/
def Beryl.armed (b : Beryl) : Nat := (b.slots.filter (fun e => e.2.isSome)).length

/-- Does a condition hold on a value (R222)? -/
def condHolds (cond n v : Nat) : Bool :=
  match cond with
  | 0 => decide (n ≤ v)
  | 1 => v == n
  | _ => v != 0

/-- A slot after a fire: REMAIN counts down, and a slot whose REMAIN reaches 0 is released; the bound timer restarts (R223,
R226). -/
def Watch.fired (w : Watch) (met : Bool) : Option Watch :=
  match w.remain with
  | 0 => some { w with met := met, overran := false }
  | 1 => none
  | r + 2 => some { w with met := met, overran := false, remain := r + 1 }

/-- The lowest armed TAKE slot that holds on the present value of a counter. -/
def Beryl.nextTake (b : Beryl) (ctr : Nat) : Option (Nat × Watch) :=
  b.slots.findSome? (fun (e : Nat × Option Watch) => match e.2 with
    | some w => if w.ctr = ctr && w.take && decide (1 ≤ w.n ∧ w.n ≤ b.ctr ctr) then some (e.1, w) else none
    | none => none)

/-- Step 1 of R223: TAKE watches fire, lowest slot first, until none holds. -/
def Beryl.takeFires (ctr : Nat) : Nat → Beryl → Beryl × List (Nat × Watch)
  | 0, b => (b, [])
  | k + 1, b =>
    match b.nextTake ctr with
    | none => (b, [])
    | some (i, w) =>
      let r := Beryl.takeFires ctr k ((b.setCtr ctr (b.ctr ctr - w.n)).setSlot i (w.fired false))
      (r.1, (i, w) :: r.2)

/-- Step 2 of R223 for one slot: a LEVEL watch fires when its condition newly holds. -/
def Beryl.levelFire (b : Beryl) (ctr i : Nat) : Beryl × List (Nat × Watch) :=
  match b.slot i with
  | none => (b, [])
  | some w =>
    if w.ctr ≠ ctr ∨ w.take then (b, [])
    else if condHolds w.cond w.n (b.ctr ctr) then
      if w.met then (b, []) else (b.setSlot i (w.fired true), [(i, w)])
    else (b.setSlot i (some { w with met := false }), [])

/-- Evaluate the armed watches of a counter (R223): the unit after it, and the fires in order. -/
def Beryl.evaluate (b : Beryl) (ctr : Nat) : Beryl × List (Nat × Watch) :=
  let t := b.takeFires ctr (b.ctr ctr + 1)
  (t.1.slots.map Prod.fst).foldl (fun (r : Beryl × List (Nat × Watch)) i =>
    let x := r.1.levelFire ctr i
    (x.1, r.2 ++ x.2)) t

/-- The header of a SIGNAL (Table 8.5, Table 8.6). -/
def State.signalItem (s : State) (q : Nat) (v : BitVec 256) (ctr n : Nat) : FlowItem :=
  ⟨⟨qClass v, { s.flowHead q v 2 with addr := ctr, amount := n }, [], false⟩, 0, .none⟩

/-- Deliver one fire of slot `i` of die `d` (R222, R225, Table 7.18): a token on its way, a doorbell on its way, or a signal placed
into the flow of the remote target entry; an entry whose flow is no enabled SEND queue to its package discards the fire. -/
def State.fire (s : State) (d : Nat) (i : Nat) (w : Watch) : State :=
  match w.tkind with
  | 0 => { s with arrivals := s.arrivals ++ [(natBits w.target 6 6, natBits w.target 0 6)] }
  | 1 => { s with doorbells := s.doorbells ++ [w.target] }
  | _ =>
    let n := w.target % 1024
    let pkg := s.getF d (fBerylRtgtPkg.at (8 * n))
    let ctr := s.getF d (fBerylRtgtCtr.at (8 * n))
    let q := s.getF d (fBerylRtgtFlow.at (8 * n))
    match s.sendQueue q (some pkg) with
    | (some v, s) => s.toFlow q v (s.signalItem q v ctr 1)
    | (none, s) => s.raise d ⟨.jobFatal, 0x0032, 0x05, d, i, n, q, 0⟩

/-- Evaluate a counter of the unit of die `d` and deliver the fires in order (R223, R225). -/
def State.evaluate (s : State) (d ctr : Nat) : State :=
  let r := (s.beryl d).evaluate ctr
  r.2.foldl (fun s e => s.fire d e.1 e.2) (s.setBeryl d r.1)

/-! ### Counter operations at the bank -/

/-- The largest counter value (R220). -/
def ctrMax : Nat := 2 ^ 31 - 1

/-- Apply a counter operation at its bank (R220, R221, R223): refused, or applied with its watches evaluated; an SY word is then
answered. -/
def State.applyCtr (s : State) (d : Nat) (o : BerOp) : State :=
  let b := s.beryl d
  let v := b.ctr o.ctr
  let ok (n : Nat) : State := (s.setBeryl d (b.setCtr o.ctr n)).evaluate d o.ctr
  let answer (s : State) (a : SyAnswer) : State := match o.org with
    | .sy lc st => s.answerSy d lc st a
    | _ => s
  match o.kind with
  | .inc => if v + o.amount > ctrMax then s.refuseCtr d o v true else answer (ok (v + o.amount)) .done
  | .dec => if o.amount > v then s.refuseCtr d o v true else answer (ok (v - o.amount)) .done
  | .read => answer (s.evaluate d o.ctr) (.value v)

/-- BERYL_OPERATION_APPLY (R221): the oldest operation at an input port of a unit reaches its bank. -/
def execBerylOperationApply (d : Fin 4) (port : Fin 24) (s : State) : Host.Outcome State Fault Refusal :=
  .next (
    let b := s.beryl d
    match takeFirst (fun (o : BerOp) => o.port == port.val) b.ops with
    | none => s
    | some (o, r) => if s.berylUp d then (s.setBeryl d { b with ops := r }).applyCtr d o else s)

/-! ### Watches -/

/-- Why a watch may not be registered at all (R222, R233, Table 7.5): reserved COND or TKIND, TAKE without GE or with N = 0, NE0
with N ≠ 0, a token of another die, or reserved TARGET bits. -/
def Watch.bad (w : Watch) (d : Nat) : Bool :=
  decide (w.cond = 3) || decide (w.tkind = 3) || (w.take && (w.cond != 0 || w.n == 0)) || (w.cond == 2 && w.n != 0)
    || (w.tkind == 0 && (w.target / 4096 != 0 || natBits w.target 6 6 / 16 != d)) || (w.tkind == 2 && w.target / 1024 != 0)

/-- The register values of a slot's fields (Table 7.15), ARMED and MET apart. -/
def Watch.cfgBits (w : Watch) : BitVec 64 :=
  BitVec.ofNat 64 (w.ctr + 2 ^ 16 * w.cond + 2 ^ 18 * b2n w.take + 2 ^ 32 * w.n + 2 ^ 48 * w.remain)

/-- The target part. -/
def Watch.tgtBits (w : Watch) : BitVec 64 := BitVec.ofNat 64 (w.tkind + 2 ^ 8 * w.target + 2 ^ 28 * w.bclass)

/-- The watch that a pair of register values describes. -/
def watchOf (cfg tgt : BitVec 64) : Watch :=
  ⟨fld cfg 0 16, fld cfg 16 2, bit cfg 18, fld cfg 32 16, fld cfg 48 16, fld tgt 0 2, fld tgt 8 20, fld tgt 28 2, false, false⟩

/-- Arm a free slot and evaluate it at once (R224). -/
def State.armSlot (s : State) (d i : Nat) (w : Watch) : State :=
  let b := (s.beryl d).setSlot i (some w)
  let b := { b with staged := mapSet (fun _ => (0 : BitVec 64)) (mapSet (fun _ => (0 : BitVec 64)) b.staged (2 * i) w.cfgBits) (2 * i + 1) w.tgtBits }
  (s.setBeryl d b).evaluate d w.ctr

/-- ARM (R224, Table 7.16): registers the selected slot from the staged fields; refused into an armed slot or with fields that
R222 and R233 forbid. -/
def execArm (d : Fin 4) (s : State) : Host.Outcome State Fault Refusal :=
  .next (
    if !s.berylUp d then s
    else
      let i := s.getF d fBerylWatchSelSlot
      let b := s.beryl d
      let w := watchOf (mapGet (fun _ => (0 : BitVec 64)) b.staged (2 * i)) (mapGet (fun _ => (0 : BitVec 64)) b.staged (2 * i + 1))
      if (b.slot i).isSome || w.bad d then s.setF d fBerylCfgWatchRefused 1 else s.armSlot d i w)

/-- RELEASE (R224, Table 7.16): releases the selected slot; refused if it is not armed. -/
def execRelease (d : Fin 4) (s : State) : Host.Outcome State Fault Refusal :=
  .next (
    if !s.berylUp d then s
    else
      let i := s.getF d fBerylWatchSelSlot
      if ((s.beryl d).slot i).isNone then s.setF d fBerylCfgWatchRefused 1
      else s.setBeryl d ((s.beryl d).setSlot i none))

/-- SET (R220, R223, Table 7.14): a write to BERYL_CTR_VAL sets the selected counter and evaluates its watches; a negative value, or a
unit that is not READY, is refused (R499). -/
def execSet (d : Fin 4) (value : BitVec 32) (s : State) : Host.Outcome State Fault Refusal :=
  .next (
    if !s.dieUp d then s
    else if !s.berylUp d || decide (value.toNat > ctrMax) then (s.bump d fBerylRejectCntCount 1).setF d fBerylCfgSetRefused 1
    else
      let i := s.getF d fBerylCtrSelIndex
      (s.setBeryl d ((s.beryl d).setCtr i value.toNat)).evaluate d i)

/-! ### Bounds (R226) -/

/-- Has a watch a bound (R226, Table 7.11)? (DEDUCED, log entry 28.) -/
def State.bounded (s : State) (d : Nat) (w : Watch) : Bool :=
  decide (w.bclass ≠ 0) && decide (s.getF d (fBerylBoundUs.at (8 * (w.bclass - 1))) ≠ 0)

/-- Is array issue gated by BROWNOUT_N on a die, so that bound timers pause (R37, R226)? -/
def State.gated (s : State) (d : Nat) : Bool := s.flag d fPwrStatusBrownout

/-- WATCH_BOUND_EXPIRY (R226): the bound timer of an armed slot reaches its bound, once per wait. -/
def execWatchBoundExpiry (d : Fin 4) (slot : Fin 16384) (s : State) : Host.Outcome State Fault Refusal :=
  .next (
    let b := s.beryl d
    match b.slot slot with
    | none => s
    | some w =>
      if !s.bounded d w || w.overran || s.gated d then s
      else ((s.setBeryl d (b.setSlot slot (some { w with overran := true }))).bump d fBerylOverrunCntCount 1).raise d
        ⟨.info, 0x0003, 0x05, d, d * 65536 + w.ctr, slot, b.ctr w.ctr, 0⟩)

/-- WATCH_FATAL_EXPIRY (R226): a watch still unfired at FATAL_MULT times its bound ends the job; FATAL_MULT 0 disables this. -/
def execWatchFatalExpiry (d : Fin 4) (slot : Fin 16384) (s : State) : Host.Outcome State Fault Refusal :=
  .next (
    let b := s.beryl d
    match b.slot slot with
    | none => s
    | some w =>
      if !s.bounded d w || !w.overran || s.gated d || s.getF d fBerylCfgFatalMult = 0 then s
      else s.raise d ⟨.jobFatal, 0x0003, 0x0A, d, d * 65536 + w.ctr, slot, b.ctr w.ctr, 0⟩)

/-! ### SY words (R233 to R235) -/

/-- Reserved operand bits that are not zero (R233): `used` masks the bits in use. -/
def syReserved (e : QEntry) (used : Nat) : Option Refuse :=
  let o := natBits e.word.toNat 0 96
  refuseIf (o &&& used != o) 0x02

/-- The compute die that CTR names (R219). -/
def ctrDie (e : QEntry) : Nat := opf e 16 2

/-- Is a die absent: found silent by a die beside it, and not running since (R380)? A die in reset or not yet started is refused at its unit
(R499). (DEDUCED, log entry 36.) -/
def State.absent (s : State) (d : Nat) : Bool :=
  !s.dieUp d && (span 0 6).any (fun k => s.dieUp k && (s.die k).silent.any (fun e => (edgePeer k e).map Prod.fst == some d))

/-- An SY word refused because its CTR names an absent die (Table 7.5). -/
def State.ctrAbsent (s : State) (e : QEntry) : Option Refuse := refuseIf (s.absent (ctrDie e)) 0x02

/-- Send the counter operation of an SY word to its unit. -/
def State.sySend (s : State) (lc : Nat) (st : Stream) (e : QEntry) (kind : BerKind) (amount : Nat) : State :=
  let d := ctrDie e
  let port := if d = lc / 16 then lc % 16 else diePort d (lc / 16)
  s.berylSend d ⟨port, kind, opf e 0 16, amount, .sy lc st⟩

/-- The flow an SY word names: FLOW, or the core's default flow to PKG (R202, R233); none where the core has no default flow. -/
def State.syFlow (s : State) (lc : Nat) (e : QEntry) : Option Nat :=
  if opf e 51 1 = 1 then s.defFlow lc (opf e 18 12) else some (opf e 31 20)

/-- An SY word refused at issue because of its flow (Table 7.5, Table 11.18). -/
def flowRefused (q : Nat) (s : State) : Except (Refuse × State) State := .error (⟨0x0D, q, false⟩, s)

/-- SY.INC (R233 to R235): to a counter of this package, or with REMOTE = 1 a signal placed into a flow, where it completes. -/
def execSyInc (lc : Fin 64) (st : Stream) (ph : Phase) (tok : BitVec 16) (ops : BitVec 96) (s : State) : Host.Outcome State Fault Refusal :=
  .next (s.engineWord lc st ph .sy 0x001 tok ops
    (fun s _ e => firstRefuse [syReserved e 0xFFFFFFFFFFFFFFFFF, refuseIf (opf e 52 16 == 0) 0x02,
      refuseIf (opf e 30 1 == 0 && (opf e 18 12 != 0 || opf e 31 20 != 0 || opf e 51 1 != 0)) 0x02,
      refuseIf (opf e 51 1 == 1 && opf e 31 20 != 0) 0x02, if opf e 30 1 = 0 then s.ctrAbsent e else none])
    (fun s _ e =>
      if opf e 30 1 = 0 then .ok (s.sySend lc st e .inc (opf e 52 16))
      else match s.syFlow lc e with
        | none => flowRefused 0 s
        | some q => match s.sendQueue q (some (opf e 18 12)) with
          | (none, s) => flowRefused q s
          | (some v, s) => .ok ((s.toFlow q v (s.signalItem q v (opf e 0 18) (opf e 52 16))).settleSy lc st .done)))

/-- SY.DEC (R233 to R235). -/
def execSyDec (lc : Fin 64) (st : Stream) (ph : Phase) (tok : BitVec 16) (ops : BitVec 96) (s : State) : Host.Outcome State Fault Refusal :=
  .next (s.engineWord lc st ph .sy 0x002 tok ops
    (fun s _ e => firstRefuse [syReserved e 0xFFFF000000003FFFF, refuseIf (opf e 52 16 == 0) 0x02, s.ctrAbsent e])
    (fun s _ e => .ok (s.sySend lc st e .dec (opf e 52 16))))

/-- SY.READ (R233 to R235): the counter's value goes to a scratchpad granule. -/
def execSyRead (lc : Fin 64) (st : Stream) (ph : Phase) (tok : BitVec 16) (ops : BitVec 96) (s : State) : Host.Outcome State Fault Refusal :=
  .next (s.engineWord lc st ph .sy 0x003 tok ops
    (fun s pc e =>
      let a := spaAddr e 72
      firstRefuse [syReserved e 0x3FFFFF00000000000003FFFF, s.ctrAbsent e,
        if a % 2 = 1 || a + 2 > spadWords then some ⟨0x03, a, false⟩ else none, s.spanFault pc a 2])
    (fun s _ e => .ok (s.sySend lc st e .read 0)))

/-- The watch an SY.WATCH registers (Table 7.3). (DEDUCED, log entry 36.) -/
def syWatch (e : QEntry) : Watch :=
  ⟨opf e 0 16, opf e 32 2, opf e 34 1 == 1, opf e 36 16, opf e 52 16, opf e 68 2, opf e 70 20, opf e 90 2, false, false⟩

/-- SY.WATCH (R222, R224, R233 to R235): arms a slot of the core's own die and evaluates it; refused into an armed slot. -/
def execSyWatch (lc : Fin 64) (st : Stream) (ph : Phase) (tok : BitVec 16) (ops : BitVec 96) (s : State) : Host.Outcome State Fault Refusal :=
  .next (s.engineWord lc st ph .sy 0x010 tok ops
    (fun s _ e => firstRefuse [syReserved e 0xFFFFFFFFFFFFFF7FFFCFFFF, refuseIf ((syWatch e).bad (lc / 16)) 0x02,
      refuseIf (!s.berylUp (lc / 16) || ((s.beryl (lc / 16)).slot (opf e 18 14)).isSome) 0x0D])
    (fun s _ e => .ok ((s.armSlot (lc / 16) (opf e 18 14) (syWatch e)).settleSy lc st .done)))

/-- SY.UNWATCH (R224, R233 to R235): releases an armed slot of the core's own die. -/
def execSyUnwatch (lc : Fin 64) (st : Stream) (ph : Phase) (tok : BitVec 16) (ops : BitVec 96) (s : State) : Host.Outcome State Fault Refusal :=
  .next (s.engineWord lc st ph .sy 0x011 tok ops
    (fun s _ e => firstRefuse [syReserved e 0xFFFC0000,
      refuseIf (!s.berylUp (lc / 16) || ((s.beryl (lc / 16)).slot (opf e 18 14)).isNone) 0x0D])
    (fun s _ e => .ok ((s.setBeryl (lc / 16) ((s.beryl (lc / 16)).setSlot (opf e 18 14) none)).settleSy lc st .done)))

/-- SY.FENCE (R230, R233 to R235): placed into a flow; completes at FENCE_ACK. -/
def execSyFence (lc : Fin 64) (st : Stream) (ph : Phase) (tok : BitVec 16) (ops : BitVec 96) (s : State) : Host.Outcome State Fault Refusal :=
  .next (s.engineWord lc st ph .sy 0x020 tok ops
    (fun _ _ e => firstRefuse [syReserved e 0xFFFFFBFFC0000, refuseIf (opf e 51 1 == 1 && opf e 31 20 != 0) 0x02])
    (fun s _ e =>
      match s.syFlow lc e with
      | none => flowRefused 0 s
      | some q => match s.sendQueue q (if opf e 51 1 = 1 then some (opf e 18 12) else none) with
        | (none, s) => flowRefused q s
        | (some v, s) =>
          let i : FlowItem := ⟨⟨qClass v, s.flowHead q v 3, [], false⟩, 0, .none⟩
          .ok { s.toFlow q v i with fences := s.fences ++ [(q, lc.val, st)] }))

/-- Send a queue operation of an SY word to the owning die's queue engine. -/
def State.syQueue (s : State) (lc : Nat) (st : Stream) (e : QEntry) (op : QKind) : State :=
  s.qSubmit (opf e 18 2) ⟨opf e 0 18, op, .sy lc st⟩

/-- SY.QRING (R233 to R235, R241). -/
def execSyQring (lc : Fin 64) (st : Stream) (ph : Phase) (tok : BitVec 16) (ops : BitVec 96) (s : State) : Host.Outcome State Fault Refusal :=
  .next (s.engineWord lc st ph .sy 0x030 tok ops
    (fun _ _ e => firstRefuse [syReserved e 0xFFFF00000000FFFFF, refuseIf (opf e 52 16 == 0) 0x02])
    (fun s _ e => .ok (s.syQueue lc st e (.doorbell (opf e 52 16)))))

/-- SY.QCONS (R233 to R235, R242). -/
def execSyQcons (lc : Fin 64) (st : Stream) (ph : Phase) (tok : BitVec 16) (ops : BitVec 96) (s : State) : Host.Outcome State Fault Refusal :=
  .next (s.engineWord lc st ph .sy 0x031 tok ops
    (fun _ _ e => firstRefuse [syReserved e 0xFFFF00000000FFFFF, refuseIf (opf e 52 16 == 0) 0x02])
    (fun s _ e => .ok (s.syQueue lc st e (.cons (opf e 52 16)))))

/-- SY_WORD_COMPLETE (R234): the acknowledgement of an SY word to another die returns. -/
def execSyWordComplete (lc : Fin 64) (st : Stream) (s : State) : Host.Outcome State Fault Refusal :=
  .next (match takeFirst (fun (a : SyAck) => a.lc == lc.val && a.strm == st) s.syAcks with
    | none => s
    | some (a, r) => ({ s with syAcks := r }).settleSy lc st a.ans)

/-! ### Balance (R236) -/

/-- The stack granule of the snapshot that holds counters 32k to 32k + 31. -/
def State.snapGran (s : State) (d k : Nat) : Nat := s.getF d fBerylBackingAddr * 2048 + k

/-- The counters 32k to 32k + 31 as a granule, little-endian. -/
def Beryl.ctrGran (b : Beryl) (k : Nat) : GranBits := BitVec.ofNat 1024 (packElems 32 ((span (32 * k) 32).map b.ctr))

/-- Copy all counters of a die into its snapshot store (R236). A granule that cannot be written raises its record (R50). -/
def State.snap (s : State) (d : Nat) : State :=
  if !s.berylUp d then s
  else (span 0 2048).foldl (fun (s : State) k =>
    match s.memPut (.beryl d) (s.snapGran d k) ((s.beryl d).ctrGran k) with
    | (.ok _ _, s) => s
    | (.err kind, s) => s.accessFailed (.beryl d) (s.snapGran d k) kind
    | (.wait, s) => s) s

/-- SNAP (R236). -/
def execSnap (d : Fin 4) (s : State) : Host.Outcome State Fault Refusal := .next (s.snap d)

/-- Counters of a granule of the snapshot that differ from their values now: index, snapshot value. An unreadable granule counts
every counter, its snapshot taken as zero. -/
def Beryl.diffs (b : Beryl) (k : Nat) (g : Option GranBits) : List (Nat × Nat) :=
  (span 0 32).filterMap (fun j =>
    let i := 32 * k + j
    match g with
    | some v => if fld v (32 * j) 32 = b.ctr i then none else some (i, fld v (32 * j) 32)
    | none => some (i, 0))

/-- Compare all counters with the snapshot: the differing ones, ascending. (DEDUCED, log entry 36.) -/
def State.snapDiffs (d : Nat) : List Nat → State → List (Nat × Nat) × State
  | [], s => ([], s)
  | k :: r, s =>
    let m := s.memRead (.beryl d) (s.snapGran d k)
    let g : Option GranBits := match m.1 with
      | .ok v _ => some v
      | _ => none
    let z := State.snapDiffs d r (match m.1 with
      | .err kind => m.2.accessFailed (.beryl d) (s.snapGran d k) kind
      | _ => m.2)
    ((s.beryl d).diffs k g ++ z.1, z.2)

/-- Run the check of a die and report it in BERYL_TASK_STAT; the result says whether it failed, with the first differing counter
and its snapshot value. (DEDUCED, log entry 28.) -/
def State.berylCheck (s : State) (d : Nat) : Option (Nat × Nat) × State :=
  let r := State.snapDiffs d (span 0 2048) s
  let armed := (s.beryl d).armed
  let n := r.1.length
  let first := (r.1.head?.getD (0, 0)).1
  let fail : Bool := n != 0 || armed != 0
  (if fail then some (r.1.head?.getD (0, 0)) else none,
    r.2.setReg d oBerylTaskStat (BitVec.ofNat 64 (2 + 4 * b2n fail + 2 ^ 4 * n + 2 ^ 21 * armed + 2 ^ 36 * first)))

/-- CHECK (R236): compares every counter with its snapshot and counts armed slots; an imbalance ends the job as JOB_FATAL with cause
UNBALANCED. -/
def execCheck (d : Fin 4) (s : State) : Host.Outcome State Fault Refusal :=
  .next (
    if !s.berylUp d then s
    else match s.berylCheck d with
      | (none, s) => s
      | (some (i, v), s) =>
        if s.job.running then s.raise s.lead ⟨.jobFatal, 0x0002, 0x0A, s.lead, d * 65536 + i, v, (s.beryl d).ctr i, 0⟩ else s)

end Sys2Proof.Machine
end

