-- ==== Sys2Proof/Machine/QueueCmds.lean ====
section
/-!
DEFINITION. What queue engines do (R240 to R247): doorbells, ring descriptors, landing under credit, credits returned, misses and
the QE_CMD register.
-/

namespace Sys2Proof.Machine

/-- Number of queues of a package (R238). -/
abbrev QueueNo := Fin 1048576

/-- Die and local index of a queue number (R238). -/
def qSplit (q : Nat) : Nat × Nat := (q / 2 ^ 18, q % 2 ^ 18)

/-- Notify a queue's consumer of `k` new entries (R239). -/
def State.notify (s : State) (d : Nat) (v : BitVec 256) (k : Nat) : State :=
  if qNotify v then s.localInc d 16 (qNctr v) k else s

/-- QUEUE_PROD_ADVANCE (R241): moves what the ring has room for from PENDING to PROD, and notifies. -/
def execQueueProdAdvance (q : Fin 1048576) (s : State) : Host.Outcome State Fault Refusal :=
  .next (
    let d := (qSplit q).1
    let i := (qSplit q).2
    match s.qGet d i with
    | (none, s) => s
    | (some v, s) =>
      let k := min (qPending v) (qDepth v - qHeld v)
      if k = 0 then s
      else (s.qPut d i (putFld (qAddProd v k) 128 16 (qPending v - k))).notify d v k)

/-- WATCH_DOORBELL_ARRIVAL (R225, R241): a DOORBELL fire reaches its queue. (DEDUCED, log entry 36.) -/
def execWatchDoorbellArrival (q : Fin 1048576) (s : State) : Host.Outcome State Fault Refusal :=
  .next (match takeFirst (fun (x : Nat) => x == q.val) s.doorbells with
    | none => s
    | some (_, r) => { s with doorbells := r }.qSubmit (qSplit q).1 ⟨(qSplit q).2, .doorbell 1, .watch⟩)

/-- QE_DOORBELL (R241, Table 7.23): a doorbell of AMOUNT, 0 ignored. -/
def execQeDoorbell (d : Fin 4) (queue : BitVec 18) (amount : BitVec 16) (s : State) : Host.Outcome State Fault Refusal :=
  .next (if !s.dieUp d || amount = 0 then s else s.qSubmit d ⟨queue.toNat, .doorbell amount.toNat, .reg⟩)

/-- LOAD (R247, Table 7.22). -/
def execLoad (d : Fin 4) (s : State) : Host.Outcome State Fault Refusal :=
  .next (if s.dieUp d then s.qSubmit d ⟨s.getF d fQeQselQueue, .load, .reg⟩ else s)

/-- COMMIT (R247, Table 7.22): writes the view into the entry, or is refused. -/
def execCommit (d : Fin 4) (s : State) : Host.Outcome State Fault Refusal :=
  .next (if s.dieUp d then s.qSubmit d ⟨s.getF d fQeQselQueue, .commit (s.qView d), .reg⟩ else s)

/-- CLEAR_ERR (R240, R247, Table 7.22): clears ERR outside a running schedule. -/
def execClearErr (d : Fin 4) (s : State) : Host.Outcome State Fault Refusal :=
  .next (if s.dieUp d then s.qSubmit d ⟨s.getF d fQeQselQueue, .clearErr, .reg⟩ else s)

/-- QSTATE_MISS_FILL (R244): the miss of a queue returns and the operations that wait on it are applied in order. -/
def execQstateMissFill (q : Fin 1048576) (s : State) : Host.Outcome State Fault Refusal :=
  .next (if s.qeUp (qSplit q).1 then s.qDrain (qSplit q).1 (qSplit q).2 else s)

/-! ### Granules anywhere in the package -/

/-- Where a granule at a local address lies (R45): a stack granule, a scratchpad granule of a logical core, or nowhere. -/
inductive Place
  | stack (g : Nat)
  | spad (lc g : Nat)
  | none
deriving DecidableEq, Repr

/-- The place of a granule-aligned local address (Table 1.16). -/
def placeOf (a : Nat) : Place :=
  if a < stackBytes then .stack (a / 128)
  else if 0x010000000000 ≤ a ∧ a < 0x010000000000 + 64 * 0x01000000 ∧ (a - 0x010000000000) % 0x01000000 < 0xC00000
    then .spad ((a - 0x010000000000) / 0x01000000) ((a - 0x010000000000) % 0x01000000 / 128)
  else .none

/-- Read a granule of the package with its stored block check (R45, R47, R50). -/
def State.localRead (s : State) (r : Requester) (a : Nat) : Option DGran × State :=
  match placeOf a with
  | .stack g => match s.memRead r g with
    | (.ok v k, s) => (some ⟨v, k.chk⟩, s)
    | (_, s) => (none, s)
  | .spad lc g => match s.physOf lc with
    | none => (none, s)
    | some pc =>
      let c := s.core pc
      let rd := spadReads pc c [2 * g, 2 * g + 1]
      let s := s.noteSpad pc lc rd.corrs (b2n rd.bad.isSome)
      match rd.bad with
      | some _ => (none, s)
      | none => (some ⟨BitVec.ofNat 1024 (wordsNat rd.vals), spadChkOf pc c g⟩, s)
  | .none => (none, s)

/-- Write a granule of the package with the block check it carries; the result says whether the write took effect. -/
def State.localWrite (s : State) (r : Requester) (a : Nat) (x : DGran) : Bool × State :=
  match placeOf a with
  | .stack g => match s.memWrite r g x.v x.chk with
    | (.ok _ _, s) => (true, s)
    | (_, s) => (false, s)
  | .spad lc g => match s.physOf lc with
    | none => (false, s)
    | some pc => (true, s.modCore pc (fun c => spadPutGran pc c g x.v x.chk))
  | .none => (false, s)

/-! ### Descriptors (R240) -/

/-- Source address of a descriptor (Table 7.7). -/
def dSrc (x : BitVec 256) : Nat := fld x 0 64
/-- Destination address. -/
def dDst (x : BitVec 256) : Nat := fld x 64 64
/-- Granules. -/
def dNgr (x : BitVec 256) : Nat := fld x 128 32
/-- Counter of the completion INC. -/
def dSctr (x : BitVec 256) : Nat := fld x 160 16
/-- Amount of the completion INC. -/
def dSamt (x : BitVec 256) : Nat := fld x 176 8
/-- FLAGS.LAND. -/
def dLand (x : BitVec 256) : Bool := bit x 184
/-- FLAGS.RSIG. -/
def dRsig (x : BitVec 256) : Bool := bit x 185
/-- Counter of the remote INC. -/
def dRctr (x : BitVec 256) : Nat := fld x 192 18

/-- Is a reserved field or a code of a descriptor wrong (Table 7.25, reason 1)? -/
def ringBad (send : Bool) (x : BitVec 256) : Bool :=
  fld x 186 6 != 0 || fld x 210 14 != 0 || fld x 224 32 != 0 || !decide (1 ≤ dNgr x ∧ dNgr x ≤ 16777216)
    || (!send && (dLand x || dRsig x))

/-- Does an address of a descriptor break Table 7.7 (reason 2)? -/
def ringAddrBad (send : Bool) (peer : Nat) (x : BitVec 256) : Bool :=
  decide (dSrc x % 128 ≠ 0) || decide (natBits (dSrc x) 60 4 ≠ 0)
    || (if send then !dLand x && (decide (dDst x % 128 ≠ 0) || decide (natBits (dDst x) 60 4 ≠ 1) || decide (natBits (dDst x) 48 12 ≠ peer))
        else decide (dDst x % 128 ≠ 0) || decide (natBits (dDst x) 60 4 ≠ 0))

/-- Copy `n` granules within the package, each before the next; false as soon as an access completes with error. -/
def State.copyLocal (r : Requester) (src dst : Nat) : Nat → Nat → State → Bool × State
  | 0, _, s => (true, s)
  | n + 1, i, s =>
    match s.localRead r (src + 128 * i) with
    | (none, s) => (false, s)
    | (some x, s) => match s.localWrite r (dst + 128 * i) x with
      | (false, s) => (false, s)
      | (true, s) => s.copyLocal r src dst n (i + 1)

/-- Read `n` granules; none as soon as an access completes with error. -/
def State.readLocal (r : Requester) (a : Nat) : Nat → State → Option (List DGran) × State
  | 0, s => (some [], s)
  | n + 1, s =>
    match s.localRead r a with
    | (none, s) => (none, s)
    | (some x, s) => match State.readLocal r (a + 128) n s with
      | (some l, s) => (some (x :: l), s)
      | (none, s) => (none, s)

/-- A local address below space and package bits; an address of another package of space 0 reaches nothing (R17). -/
def localOf (a : Nat) : Nat := a % 2 ^ 60

/-- Landing entries that `g` granules take (R240), by the ESIZE that the flow's own state gives. (DEDUCED, log entry 36.) -/
def landEntries (v : BitVec 256) (g : Nat) : Nat := ceilDiv (128 * g) (qEsize v)

/-- Place the transfers of a SEND descriptor into its flow, in address order, `k` of `n` so far (R240, R258); false where a read
completes with error. -/
def State.sendDesc (d q : Nat) (x : BitVec 256) : List Nat → Nat → State → Bool × State
  | [], _, s => (true, s)
  | g :: r, done, s =>
    match State.readLocal (.queueEngine d) (localOf (dSrc x) + 128 * done) g s with
    | (none, s) => (false, s)
    | (some data, s) =>
      match s.qGet d (q % 2 ^ 18) with
      | (none, s) => (false, s)
      | (some v, s) =>
        let h := { s.flowHead q v (if dLand x then 1 else 0) with
          ackreq := r.isEmpty, ngr := g, peerQ := if dLand x then qPeerQ v else 0
          addr := if dLand x then 0 else natBits (dDst x) 0 48 + 128 * done }
        State.sendDesc d q x r (done + g)
          (s.toFlow q v ⟨⟨qClass v, h, data, false⟩, if dLand x then landEntries v g else 0, .desc⟩)

/-- DESCRIPTOR_START (R240): reads the next descriptor of an enabled DESC or SEND ring and checks it; a SEND descriptor sends its
transfers, and its signal, into the flow. (DEDUCED, log entry 36.) -/
def execDescriptorStart (q : Fin 1048576) (s : State) : Host.Outcome State Fault Refusal :=
  .next (
    let d := (qSplit q).1
    let i := (qSplit q).2
    match s.qGet d i with
    | (none, s) => s
    | (some v, s) =>
      let send := qKind v == 1
      if !(decide (qKind v ≤ 1) && qEn v && !qErr v && decide (qDepth v ≠ 0) && decide (qHeld v ≠ 0))
        || (mapGet (fun _ => none) (s.qe d).running i).isSome then s
      else match s.readBytes (.queueEngine d) (qEntryAt v (qCons v)) 32 with
        | (none, s) => s.queueError d i v (qCons v) 3
        | (some bs, s) =>
          let x : BitVec 256 := BitVec.ofNat 256 (leNat bs)
          if ringBad send x then s.queueError d i v (qCons v) 1
          else if ringAddrBad send (qPeerPkg v) x then s.queueError d i v (qCons v) 2
          else
            let s := s.setQe d { s.qe d with running := mapSet (fun _ => none) (s.qe d).running i (some x) }
            if !send then s
            else match State.sendDesc d q x (xferSizes (dNgr x)) 0 s with
              | (false, s) =>
                let s := s.setQe d { s.qe d with running := mapSet (fun _ => none) (s.qe d).running i none }
                (match s.qGet d i with
                  | (some v, s) => s.queueError d i v (qCons v) 3
                  | (none, s) => s)
              | (true, s) =>
                if !dRsig x then s
                else match s.qGet d i with
                  | (some v, s) => s.toFlow q v { s.signalItem q v (dRctr x) 1 with org := .desc }
                  | (none, s) => s)

/-- DESCRIPTOR_COMPLETE (R240): a DESC descriptor's copy is done, or the last transfer of a SEND descriptor has been placed; CONS
advances and SAMT is applied. (DEDUCED, log entry 36.) -/
def execDescriptorComplete (q : Fin 1048576) (s : State) : Host.Outcome State Fault Refusal :=
  .next (
    let d := (qSplit q).1
    let i := (qSplit q).2
    match s.qGet d i with
    | (none, s) => s
    | (some v, s) =>
      match mapGet (fun _ => none) (s.qe d).running i with
      | none => s
      | some x =>
        if qKind v = 1 ∧ (s.flow q).held.any (fun it => it.org == .desc) then s
        else
          let s := s.setQe d { s.qe d with running := mapSet (fun _ => none) (s.qe d).running i none }
          let r := if qKind v = 1 then (true, s)
            else s.copyLocal (.queueEngine d) (localOf (dSrc x)) (localOf (dDst x)) (dNgr x) 0
          match r with
          | (false, s) => s.queueError d i v (qCons v) 3
          | (true, s) => (s.qPut d i (qAddCons v 1)).localInc d 16 (dSctr x) (dSamt x))

/-- Place what credit allows from the head of a flow's waiting items (R243). -/
def State.placeHeld (q : Nat) : List FlowItem → State → State
  | [], s => s
  | it :: r, s =>
    match s.qGet (q / 2 ^ 18) (q % 2 ^ 18) with
    | (none, s) => s
    | (some v, s) =>
      if it.need ≤ qCredit v then
        let f := s.flow q
        let s := s.setFlow q { f.place it with held := r }
        State.placeHeld q r (if it.need = 0 then s else s.qPut (q / 2 ^ 18) (q % 2 ^ 18) (putFld v 194 24 (qCredit v - it.need)))
      else s

/-- LAND_PLACE (R243): a waiting landing transfer is placed once CREDIT covers its entries, and what waits behind it follows. -/
def execLandPlace (q : Fin 1048576) (s : State) : Host.Outcome State Fault Refusal :=
  .next (State.placeHeld q (s.flow q).held s)

/-- Add returned entries to CREDIT of a SEND queue of this package (R242, R243). (DEDUCED, log entry 35.) -/
def State.addCredit (s : State) (q n : Nat) : State :=
  match s.qGet (q / 2 ^ 18) (q % 2 ^ 18) with
  | (some v, s) => if qKind v = 1 then s.qPut (q / 2 ^ 18) (q % 2 ^ 18) (putFld v 194 24 (satAdd (2 ^ 24 - 1) (qCredit v) n)) else s
  | (none, s) => s

/-- CREDIT_RETURN (R242): entries freed since the last credit are returned to the feeding flow. (DEDUCED, log entry 35.) -/
def execCreditReturn (q : Fin 1048576) (s : State) : Host.Outcome State Fault Refusal :=
  .next (
    let d := (qSplit q).1
    let i := (qSplit q).2
    let n := min 65535 (mapGet (fun _ => 0) (s.qe d).freed i)
    if n = 0 then s
    else match s.qGet d i with
      | (none, s) => s
      | (some v, s) =>
        let e := s.qe d
        let s := s.setQe d { e with freed := mapSet (fun _ => 0) e.freed i (mapGet (fun _ => 0) e.freed i - n) }
        if qPeerPkg v = s.pkgId then s.addCredit (qPeerQ v) n
        else s.respond d ⟨1, { XHead.zero with kind := 5, rdie := qPeerQ v / 2 ^ 18, hops := 63, dst := qPeerPkg v, src := s.pkgId, peerQ := qPeerQ v, amount := n }, [], false⟩)

end Sys2Proof.Machine
end

