-- ==== Sys2Proof/Machine/Dm.lean ====
section
/-!
DEFINITION. Data mover words (R201 to R205).
-/

namespace Sys2Proof.Machine

/-- The address a LOAD or STORE names: GADDR × 128 (Table 6.7). -/
def dmAddr (e : QEntry) : Nat := opf e 39 57 * 128

/-- Granules a LOAD or STORE moves. -/
def dmNgr (e : QEntry) : Nat := opf e 24 15

/-- Global conditions of Table 6.8 on `n` granules at global address `g` (R17, R205): halt cause 0x0D with the first failing
address. `may` is the class rule of the access. -/
def State.dmSpan (s : State) (may : Nat → Bool) (g n : Nat) : Option Refuse :=
  let leave (a : Nat) : Option Refuse :=
    if a + 128 * n ≤ stackBytes then none else some ⟨0x0D, g + (max a stackBytes - a), false⟩
  match s.resolve g with
  | .bad => some ⟨0x0D, g, false⟩
  | .remote _ a => leave a
  | .loc a => firstRefuse [leave a,
      let r0 := a / 0x1000000
      ((span r0 ((a + 128 * n - 1) / 0x1000000 + 1 - r0)).find? (fun r => !may (s.mem.region r).cls)).map
        (fun r => ⟨0x0D, g + (max a (r * 0x1000000) - a), false⟩)]

/-- The checks of a LOAD or STORE in the order of Table 6.8. (DEDUCED, log entry 25.) -/
def dmCheck (st : Stream) (may : Nat → Bool) (s : State) (pc : Nat) (e : QEntry) : Option Refuse :=
  let a := spaAddr e 0
  let n := dmNgr e
  firstRefuse [refuseIf (spaReserved e 0 != 0 || a % 2 == 1 || n == 0) 0x02, s.spanFault pc a (2 * n),
    refuseIf (st == .defr && decide (n > 512)) 0x09, s.dmSpan may (dmAddr e) n]

/-- Change what the word issued last holds. -/
def State.setDm (s : State) (pc : Nat) (x : DmXfer) : State := s.modCore pc (fun c => c.mapLast (fun f => { f with dm := x }))

/-- The default flow of a core to a package, with its queue state; a core without one cannot reach the package. -/
def State.coreFlow (s : State) (lc pkg : Nat) : Option (Nat × BitVec 256) × State :=
  match s.defFlow lc pkg with
  | none => (none, s)
  | some q => match s.sendQueue q (some pkg) with
    | (some v, s) => (some (q, v), s)
    | (none, s) => (none, s)

/-- Send the READs of `n` granules from address `a` of another package into a flow (R258, R266). -/
def State.sendReads (s : State) (q : Nat) (v : BitVec 256) (who : Nat → ReadFor) (a n : Nat) : State :=
  (span 0 (ceilDiv n 64)).foldl (fun (s : State) k =>
    let m := min 64 (n - 64 * k)
    let h := { s.flowHead q v 8 with ngr := m, addr := a + 8192 * k, tag := s.tags }
    let s := { s with reads := s.reads ++ [ReadOut.mk s.tags (who k) (a + 8192 * k) m], tags := (s.tags + 1) % 2 ^ 32 }
    s.toFlow q v ⟨⟨qClass v, h, [], false⟩, 0, .none⟩) s

/-- DM.LOAD (R201, R202, R205): local granules move at DM_LOAD_COMPLETE; those of another package are READ over the core's default flow. -/
def execDmLoad (lc : Fin 64) (st : Stream) (ph : Phase) (tok : BitVec 16) (ops : BitVec 96) (s : State) : Host.Outcome State Fault Refusal :=
  .next (s.engineWord lc st ph .dm 0x001 tok ops (dmCheck st (fun c => mayRead c (.core lc)))
    (fun s pc e =>
      match s.resolve (dmAddr e) with
      | .remote pkg a => match s.coreFlow lc pkg with
        | (none, s) => .error (⟨0x0D, dmAddr e, false⟩, s)
        | (some (q, v), s) =>
          let id := (s.core pc).issued - 1
          .ok ((s.setDm pc ⟨[], ceilDiv (dmNgr e) 64, none⟩).sendReads q v (fun k => .dm pc id (spaAddr e 0 + 128 * k)) a (dmNgr e))
      | _ => .ok s))

/-- Copy granules of a local LOAD into the scratchpad; the first failing address, if any (R202). (DEDUCED, log entry 26.) -/
def State.loadLocal (pc lc : Nat) : Nat → Nat → Nat → State → Option Nat × State
  | 0, _, _, s => (none, s)
  | n + 1, a, w, s =>
    match s.memRead (.core lc) (a / 128) with
    | (.ok v k, s) => State.loadLocal pc lc n (a + 128) (w + 2) (s.modCore pc (fun c => spadPutGran pc c (w / 2) v k.chk))
    | (_, s) => (some a, (State.loadLocal pc lc n (a + 128) (w + 2) s).2)

/-- Write granules of a local STORE; the first failing address, if any. -/
def State.storeLocal (lc : Nat) : List DGran → Nat → State → Option Nat × State
  | [], _, s => (none, s)
  | x :: r, a, s =>
    match s.memWrite (.core lc) (a / 128) x.v x.chk with
    | (.ok _ _, s) => State.storeLocal lc r (a + 128) s
    | (_, s) => (some a, (State.storeLocal lc r (a + 128) s).2)

/-- Complete the oldest DM word of a stream if it has this opcode and waits for no other package: `k` moves what is left and gives
the first failing address; the word completes, and then an error halts the stream with cause 0x0D (R202). -/
def State.dmComplete (s : State) (lc : Nat) (st : Stream) (opc : Nat) (k : State → Nat → InFlight → Option Nat × State) : State :=
  match s.physOf lc with
  | none => s
  | some pc =>
    match (s.core pc).oldest .dm st with
    | none => s
    | some (i, f) =>
      if opcodeOf f.ent.word ≠ opc ∨ f.dm.waiting ≠ 0 then s
      else
        let r := k s pc f
        let s := r.2.complete pc lc i f
        match r.1 with
        | none => s
        | some a => s.halt pc lc st (haltBy 0x0D f.ent a)

/-- The global address of a failing local address, as the word named it (Table 11.18). -/
def asNamed (s : State) (e : QEntry) (a : Nat) : Nat :=
  match s.resolve (dmAddr e) with
  | .loc b => dmAddr e + (a - b)
  | _ => a

/-- DM_LOAD_COMPLETE (R202). -/
def execDmLoadComplete (lc : Fin 64) (st : Stream) (s : State) : Host.Outcome State Fault Refusal :=
  .next (s.dmComplete lc st 0x001 (fun s pc f =>
    match s.resolve (dmAddr f.ent) with
    | .loc a =>
      let r := State.loadLocal pc lc (dmNgr f.ent) a (spaAddr f.ent 0) s
      (r.1.map (asNamed s f.ent), r.2)
    | _ => (f.dm.bad, s)))

/-- The granules of a scratchpad span with their stored block checks. -/
def spadGrans (pc : Nat) (c : Core) (w : Nat) : List SpadBits → List DGran
  | lo :: hi :: r => ⟨granOf lo hi, spadChkOf pc c (w / 2)⟩ :: spadGrans pc c (w + 2) r
  | _ => []

/-- DM.STORE (R201, R202, R205): reads the scratchpad with the stored block checks; an uncorrectable word halts with cause 0x04. Writes
to another package go into the core's default flow. (DEDUCED, log entry 26.) -/
def execDmStore (lc : Fin 64) (st : Stream) (ph : Phase) (tok : BitVec 16) (ops : BitVec 96) (s : State) : Host.Outcome State Fault Refusal :=
  .next (s.engineWord lc st ph .dm 0x002 tok ops (dmCheck st (fun c => mayWrite c (.core lc)))
    (fun s pc e =>
      let w := spaAddr e 0
      let c := s.core pc
      let rd := spadReads pc c (span w (2 * dmNgr e))
      let s := s.noteSpad pc lc rd.corrs (b2n rd.bad.isSome)
      match rd.bad with
      | some b => .error (⟨0x04, b, false⟩, s)
      | none =>
        let s := if chkCorrs c (span w (2 * dmNgr e)) = 0 then s else s.coreBump pc fSpadCorrCntCount (chkCorrs c (span w (2 * dmNgr e)))
        let data := spadGrans pc c w rd.vals
        match s.resolve (dmAddr e) with
        | .remote pkg a => match s.coreFlow lc pkg with
          | (none, s) => .error (⟨0x0D, dmAddr e, false⟩, s)
          | (some (q, v), s) =>
            let id := (s.core pc).issued - 1
            .ok ((s.setDm pc ⟨[], ceilDiv (dmNgr e) 64, none⟩).flowWrite q v a data (fun k => .dm pc id (dmAddr e + 8192 * k)))
        | _ => .ok (s.setDm pc ⟨data, 0, none⟩)))

/-- DM_STORE_COMPLETE (R202). -/
def execDmStoreComplete (lc : Fin 64) (st : Stream) (s : State) : Host.Outcome State Fault Refusal :=
  .next (s.dmComplete lc st 0x002 (fun s _ f =>
    match s.resolve (dmAddr f.ent) with
    | .loc a =>
      let r := State.storeLocal lc f.dm.data a s
      (r.1.map (asNamed s f.ent), r.2)
    | _ => (f.dm.bad, s)))

/-- The pattern of a FILL in one word (R203). -/
def fillWord (e : QEntry) : SpadBits := BitVec.ofNat 512 (packElems 32 (List.replicate 16 (opf e 64 32)))

/-- DM.FILL (R201, R203, R205). -/
def execDmFill (lc : Fin 64) (st : Stream) (ph : Phase) (tok : BitVec 16) (ops : BitVec 96) (s : State) : Host.Outcome State Fault Refusal :=
  .next (s.engineWord lc st ph .dm 0x003 tok ops
    (fun s pc e =>
      let a := spaAddr e 0
      let n := opf e 24 24
      firstRefuse [refuseIf (spaReserved e 0 != 0 || opf e 48 16 != 0 || a % 2 == 1 || n % 2 == 1 || !decide (2 ≤ n ∧ n ≤ 196608)) 0x02,
        s.spanFault pc a n, refuseIf (st == .defr && decide (n > 1024)) 0x09])
    (fun s pc e => .ok (s.modCore pc (fun c =>
      spadWrite pc c ((span (spaAddr e 0) (opf e 24 24)).map (fun w => (w, fillWord e)))))))

/-- DM_FILL_COMPLETE (R203). -/
def execDmFillComplete (lc : Fin 64) (st : Stream) (s : State) : Host.Outcome State Fault Refusal :=
  .next (s.dmComplete lc st 0x003 (fun s _ _ => (none, s)))

/-- DM.RCLEAR (R201, R204, R205): refused unless every region of the run is USER and not LOST; otherwise sent to all controllers. -/
def execDmRclear (lc : Fin 64) (st : Stream) (ph : Phase) (tok : BitVec 16) (ops : BitVec 96) (s : State) : Host.Outcome State Fault Refusal :=
  .next (s.engineWord lc st ph .dm 0x004 tok ops
    (fun s _ e =>
      let r := opf e 0 16
      let n := opf e 16 16
      firstRefuse [refuseIf (opf e 32 64 != 0 || n == 0 || decide (r + n > nRegions)) 0x02,
        ((span r n).find? (fun i => (s.mem.region i).cls != 0 || (s.mem.region i).lost)).map (fun i => ⟨0x0D, i * 0x1000000, false⟩)])
    (fun s _ e => .ok { s with mem := { s.mem with regionOps := s.mem.regionOps ++ [⟨.word lc st, 0, opf e 0 16, opf e 16 16, 0⟩] } }))

end Sys2Proof.Machine
end

