-- ==== Sys2Proof/Machine/MemCmds.lean ====
section
/-!
DEFINITION. Accesses and upkeep of memory as commands: granule reads and writes at a controller (R196), narrow writes (R206 to R208), the
diagnostic read of accumulator banks (R48), the patrols (R212, R213), the initialisation sweep (R183), region commands (R197 to R200,
R218) and the restore of FIRMWARE regions (R214).
-/

namespace Sys2Proof.Machine

/-- Add wrong symbols to a granule as stored: what the environment did to the cells or pins (R191). -/
def MemState.damage (m : MemState) (g : Nat) (errs : List SymErr) : MemState :=
  if errs.isEmpty then m
  else
    let old := m.errsOf g
    { m with errs := mapSet (fun _ => []) m.errs g (overlay old errs) }

/-- Answer an access: the data, or an error completion, for which a requester raises CONTAINED where the class asks for it (R50,
R214, Table 6.10). -/
def State.answerMem (s : State) (r : Requester) (g : Nat) (x : MemRes) : State :=
  match x with
  | .ok v k => s.send (.memAnswer r (g * 128) none v k)
  | .err kind =>
    (s.send (.memAnswer r (g * 128) (some kind) 0 ⟨0, 0, 0⟩)).accessFailed r g kind
  | .wait => { s with mem := { s.mem with waiters := s.mem.waiters ++ [(g, r)] } }

/-- STACK_READ (R196): `errs` are symbols of the granule that have gone wrong since it was last read. -/
def execStackRead (r : Requester) (gran : BitVec 41) (errs : List SymErr) (s : State) : Host.Outcome State Fault Refusal :=
  .next (
    let g := gran.toNat
    let s := if g < stackBytes / 128 then { s with mem := s.mem.damage g errs } else s
    let x := s.memRead r g
    x.2.answerMem r g x.1)

/-- STACK_WRITE (R196): a full-granule write with its block check. -/
def execStackWrite (r : Requester) (gran : BitVec 41) (data : BitVec 1024) (chk : BitVec 16) (s : State) : Host.Outcome State Fault Refusal :=
  .next (
    let x := s.memWrite r gran.toNat data chk
    x.2.answerMem r gran.toNat x.1)

/-- NARROW_WRITE (R206, R207): 1 to 127 bytes of a granule. -/
def execNarrowWrite (r : Requester) (gran : BitVec 41) (mask : BitVec 128) (data : BitVec 1024) (crc : BitVec 16) (flush : Bool)
    (s : State) : Host.Outcome State Fault Refusal :=
  .next (
    if mask = 0 ∨ mask = BitVec.allOnes 128 then s
    else
      let x := s.narrow r gran.toNat mask data crc flush true
      match x.1 with
      | none => x.2
      | some kind => x.2.answerMem r gran.toNat (.err kind))

/-- MERGE_TIMEOUT (R208): 256 cycles after its allocation an entry is written out. -/
def execMergeTimeout (gran : BitVec 41) (s : State) : Host.Outcome State Fault Refusal :=
  .next (s.flushGran gran.toNat)

/-! ### Accumulator banks -/

/-- A 64 B word of an accumulator bank as a diagnostic read sees it: decoded, nothing, and whether it was corrected (R48, R129). -/
def diagWord (pc : Nat) (c : Core) (w : Nat) : Option SpadBits × Bool :=
  let a := c.array (w / 4096)
  let k := spadKey pc c (0x30000 + w)
  let us := (span (8 * (w % 4096)) 8).map (fun u => mapGet (fun _ => none) a.bank u)
  if us.all Option.isNone then
    let x := decodeRaw (Config.bankRaw k)
    (x.val, !x.fixes.isEmpty)
  else
    let bad := errsAt a.bankErrs (w % 4096)
    if lostWord bad then (none, false)
    else (some (BitVec.ofNat 512 (packElems 64 (((span 0 8).zip us).map (fun u =>
      match u.2 with | some v => v.toNat | none => fld (Config.bankRaw k) (64 * u.1) 64)))), !bad.isEmpty)

/-- ACC_DIAGNOSTIC_READ (R47, R48, R50): a Jasper or JTAG read of bank word `word` of a logical core's accumulator banks. An absent core
and an uncorrectable word complete with error. -/
def execAccDiagnosticRead (lc : Fin 64) (word : Fin 16384) (s : State) : Host.Outcome State Fault Refusal :=
  .next (
    let addr := 0x014000000000 + lc.val * 0x100000 + 64 * word.val
    match s.physOf lc with
    | none => (s.clusterFailed addr).send (.readAnswer addr none)
    | some pc =>
      let r := diagWord pc (s.core pc) word
      match r.1 with
      | none => ((s.coreBump pc fSpadUncorrCntCount 1).clusterFailed addr).send (.readAnswer addr none)
      | some v => (s.coreBump pc fSpadCorrCntCount (b2n r.2)).send (.readAnswer addr (some v.toNat)))

/-! ### Patrols and sweeps -/

/-- Granules of one stack. -/
def stackGrans : Nat := 536870912

/-- The `n`-th granule of stack `k`, in the order of local addresses. (DEDUCED, log entry 33.) -/
def stackGran (k n : Nat) : Nat := (12 * (n / 4) + k) * 4 + n % 4

/-- A patrol finds a granule uncorrectable (Table 6.10). -/
def State.patrolUncorr (s : State) (g kind writer : Nat) : State :=
  let s := s.noteUncorr g kind writer
  let d := granStack g / 3
  match (s.mem.region (granRegion g)).cls with
  | 0 => s.raise d (memRec .info g kind writer)
  | 3 => s.restoreAsk g
  | _ => s.raise d (memRec .jobFatal g kind writer)

/-- The patrol reads one granule: a corrected one of the current epoch is written back (R212). -/
def State.patrolGran (s : State) (g : Nat) : State :=
  let r := s.mem.region (granRegion g)
  let check (s : State) (v : GranBits) (k : GranMeta) : State := if k.epoch = r.epoch ∧ chkOf v ≠ k.chk then s.patrolUncorr g 2 k.writer else s
  match s.mem.decode g with
  | .clean v k => check s v k
  | .corrected f v k =>
    let s := s.noteCorr g f
    check (if k.epoch = r.epoch then { s with mem := s.mem.put g v k } else s) v k
  | .bad => s.patrolUncorr g 1 0xFF

/-- Does a RUN_SELFTEST wait for a patrol pass of die `d`? -/
def State.patrolAsked (s : State) (d : Nat) : Bool :=
  s.ctl.progs.any (fun g => match g.waits with
    | .selftest dies kind => kind == 1 && natBits dies d 1 == 1
    | _ => false)

/-- A patrol pass of die `d` has ended: a RUN_SELFTEST that waited for it waits for the other dies, and is answered after the last.
(DEDUCED, log entry 33.) -/
def State.patrolEnds (s : State) (d : Nat) : State :=
  let less (g : Prog) : Prog := match g.waits with
    | .selftest dies kind => if kind = 1 then { g with waits := .selftest (natPutBits dies d 1 0) 1 } else g
    | _ => g
  (s.modCtl (fun x => { x with progs := x.progs.map less })).finish (fun w => w == .selftest 0 1) 0 0

/-- STACK_PATROL_SCRUB (R212): the next granule of a die's stacks; a stack that does not answer is passed over. (DEDUCED, log entry 33.) -/
def execStackPatrolScrub (d : Fin 4) (errs : List SymErr) (s : State) : Host.Outcome State Fault Refusal :=
  .next (
    if !s.dieUp d || (s.getF d fMcCfgScrubHours == 0 && !s.patrolAsked d) then s
    else
      let p := s.getF d fMcScrubStatusPosition
      let k := 3 * d.val + p / stackGrans
      let g := stackGran k (p % stackGrans)
      let s := if s.stackUp k then ({ s with mem := s.mem.damage g errs }).patrolGran g else s
      if p + 1 = 3 * stackGrans then ((s.setF d fMcScrubStatusPosition 0).bump d fMcScrubStatusPasses 1).patrolEnds d
      else s.setF d fMcScrubStatusPosition (p + 1))

/-- SPAD_PATROL_SCRUB (R213): a populated word of a physical core's scratchpad; `errs` are symbols gone wrong since it was written.
Exactly one corrected symbol is written back; a word with two, or uncorrectable, is counted and left. -/
def execSpadPatrolScrub (pc : Fin 72) (word : Fin 196608) (errs : List SymErr) (s : State) : Host.Outcome State Fault Refusal :=
  .next (
    let d := pcDie pc
    if !s.dieUp d || s.getF d fMcCfgSpadScrubHours = 0 then s
    else
      let lc := (s.logicalOf pc).getD 0
      let c0 := s.core pc
      let s := s.setCore pc (c0.damageWord word errs)
      let c := s.core pc
      let rd := spadDecode pc c word
      match rd.val, rd.corr with
      | none, _ => s.noteSpad pc lc [] 1
      | some _, none => s
      | some v, some k =>
        let s := s.noteSpad pc lc [(word.val, k)] 0
        if rd.fixes.length = 1 then s.modCore pc (fun c => c.putWord word v) else s)

/-- INIT_SWEEP (R183, R217): a starting stack function writes every granule of its stack as zeros, with EPOCH 0; the stack may then report
READY. -/
def execInitSweep (k : Fin 12) (s : State) : Host.Outcome State Fault Refusal :=
  .next (
    let d := k.val / 3
    if !s.dieUp d || s.func (stackFunc k) ≠ 1 || s.flag d (stackF k fMcStkStatusSwept) then s
    else
      let mine (g : Nat) : Bool := granStack g == k.val
      let m := s.mem
      let m := { m with data := mapDrop (fun a => mine (a / 128)) m.data, gmeta := mapDrop mine m.gmeta, errs := mapDrop mine m.errs }
      let m := m.allRegions (fun r => { r with anew := natPutBits r.anew k 1 1 })
      { s with mem := m }.setF d (stackF k fMcStkStatusSwept) 1)

/-! ### Region commands -/

/-- Is a region command written to a die's register being applied (Table 6.14)? -/
def State.regionBusy (s : State) (d : Nat) : Bool := s.mem.regionOps.any (fun o => o.src == .register d)

/-- Is a region command refused for its operands (R218)? -/
def State.regionBad (s : State) (op first count : Nat) : Bool :=
  count == 0 || decide (first + count > nRegions) || decide (op > 3) || (op == 1 && s.anyLive)

/-- Start applying a region command. -/
def State.regionStart (s : State) (src : RegionSrc) (op first count cls : Nat) : State :=
  { s with mem := { s.mem with regionOps := s.mem.regionOps ++ [⟨src, op, first, count, cls⟩] } }

/-- A write to MC_REGION_CMD (R218). -/
def State.regionWrite (s : State) (d op first count cls : Nat) : State :=
  if !s.dieUp d then s
  else if s.regionBusy d || s.regionBad op first count then s.setF d fMcRegionCmdStatRefused 1
  else s.regionStart (.register d) op first count cls

/-- INC_EPOCH (R198, R218). -/
def execIncEpoch (d : Fin 4) (region count : BitVec 16) (s : State) : Host.Outcome State Fault Refusal :=
  .next (s.regionWrite d 0 region.toNat count.toNat 0)

/-- SET_CLASS (R197, R218). -/
def execSetClass (d : Fin 4) (region count : BitVec 16) (cls : BitVec 2) (s : State) : Host.Outcome State Fault Refusal :=
  .next (s.regionWrite d 1 region.toNat count.toNat cls.toNat)

/-- SET_LOST (R199, R218). -/
def execSetLost (d : Fin 4) (region count : BitVec 16) (s : State) : Host.Outcome State Fault Refusal :=
  .next (s.regionWrite d 2 region.toNat count.toNat 0)

/-- CLEAR_LOST (R199, R218). -/
def execClearLost (d : Fin 4) (region count : BitVec 16) (s : State) : Host.Outcome State Fault Refusal :=
  .next (s.regionWrite d 3 region.toNat count.toNat 0)

/-! ### FIRMWARE regions (R214) -/

/-- Write a granule of a FIRMWARE region as the Jasper cluster restores it. -/
def MemState.restoreGran (m : MemState) (w r i : Nat) (bs : List Byte) : MemState :=
  let v : GranBits := BitVec.ofNat 1024 (leNat bs)
  m.put (r * 131072 + i) v ⟨chkOf v, (m.region r).epoch, w⟩

/-- The granules of an image, from granule `i` on: 128 bytes each, the last padded with zeros. -/
def MemState.restoreAll (m : MemState) (w r : Nat) : Nat → Nat → List Byte → MemState
  | 0, _, _ => m
  | n + 1, i, bs => if bs.isEmpty then m else MemState.restoreAll (m.restoreGran w r i (bs.take 128)) w r n (i + 1) (bs.drop 128)

/-- Rewrite a whole region from its flash copy: what the copy does not reach is written as zeros. -/
def MemState.restoreRegion (m : MemState) (w r : Nat) (image : List Byte) : MemState :=
  let inr (g : Nat) : Bool := granRegion g == r
  let m := { m with data := mapDrop (fun a => inr (a / 128)) m.data, gmeta := mapDrop inr m.gmeta, errs := mapDrop inr m.errs }
  let m := m.setRegion r { m.region r with swept := (m.region r).epoch, anew := 0 }
  m.restoreAll w r 131072 0 image

/-- Serve what waited for a FIRMWARE region: the merge entries are written out, and the reads are made. -/
def State.restoreServe (s : State) (r : Nat) (reads : List (Nat × Requester)) : State :=
  let s := ((s.mem.merge.flatMap Prod.snd).filter (fun e => granRegion e.gran == r)).foldl (fun (s : State) e => s.flushGran e.gran) s
  reads.foldl (fun (s : State) w =>
    let x := s.memRead w.2 w.1
    x.2.answerMem w.2 w.1 x.1) s

/-- Fail what waited for a FIRMWARE region whose copy failed verification: the merged writes and the reads complete with error. -/
def State.restoreFails (s : State) (bad : List Nat) (reads : List (Nat × Requester)) : State :=
  let s := bad.foldl (fun (s : State) g => match s.mem.entryOf g with
    | none => s
    | some e => ({ s with mem := s.mem.dropEntry g }.answerWrites e (some 1)).failWrites e.writes g 1) s
  reads.foldl (fun (s : State) w => s.answerMem w.2 w.1 (.err 1)) s

/-- FIRMWARE_REGION_RESTORE (R214, R449, Table 6.10): the Jasper cluster restores a region one of whose granules waits, from its flash copy, when it is the
flash operation under way; `verified` says whether the copy passed. The waiting reads and merged writes are served, or complete with error as the package leaves its domain.
(DEDUCED, log entry 32.) -/
def execFirmwareRegionRestore (region : BitVec 16) (image : List Byte) (verified : Bool) (s : State) : Host.Outcome State Fault Refusal :=
  .next (
    let r := region.toNat
    let mine (g : Nat) : Bool := granRegion g == r
    if !s.mem.restoring.any mine || s.flash.ops.head? != some (.restore r) then s
    else
      let s := { s with flash := { s.flash with ops := s.flash.ops.drop 1 } }
      let bad := s.mem.restoring.filter mine
      let reads := s.mem.waiters.filter (fun w => mine w.1)
      let m := { s.mem with restoring := s.mem.restoring.filter (fun g => !mine g), waiters := s.mem.waiters.filter (fun w => !mine w.1) }
      let d := s.lead
      if verified then
        ({ s with mem := m.restoreRegion (0x50 + d) r image }.raise d ⟨.corrected, 0x0013, 0x0A, d, r * 0x1000000, 0, 0, 0⟩).restoreServe r reads
      else
        ({ s with mem := m }.raise d ⟨.packageFatal, 0x0013, 0x0A, d, r * 0x1000000, 0, 0, 0⟩).restoreFails bad reads)

end Sys2Proof.Machine
end

