-- ==== Sys2Proof/Machine/Link.lean ====
section
/-!
DEFINITION. The link layer of an Ewerlink port (R250 to R257, R268): flits and transfer headers as bits, sending under replay and
credits, receiving, NAKs and retraining.
-/

namespace Sys2Proof.Machine

/-! ### Headers and flits as bits -/

/-- A transfer header as the 64 bytes of Table 8.5. -/
def XHead.bits (h : XHead) : Nat :=
  h.kind % 256 + 2 ^ 8 * (h.plane % 4 + 4 * (h.vl % 2) + 8 * b2n h.ackreq + 16 * (h.rdie % 4)) + 2 ^ 16 * (h.hops % 64) + 2 ^ 24 * (h.ngr % 128)
    + 2 ^ 32 * (h.dst % 4096) + 2 ^ 48 * (h.src % 4096) + 2 ^ 64 * (h.flow % 2 ^ 20) + 2 ^ 96 * (h.peerQ % 2 ^ 20)
    + 2 ^ 128 * (h.addr % 2 ^ 48) + 2 ^ 192 * (h.amount % 65536) + 2 ^ 208 * (h.gen % 65536) + 2 ^ 224 * (h.coll % 4096)
    + 2 ^ 240 * (h.chunk % 2 ^ 32) + 2 ^ 272 * (h.ctype % 16 + 16 * (h.cscale % 4)) + 2 ^ 280 * (h.status % 256) + 2 ^ 288 * (h.tag % 2 ^ 32)

/-- The header that 64 bytes hold (Table 8.5). -/
def headOf (n : Nat) : XHead :=
  { kind := natBits n 0 8, plane := natBits n 8 2, vl := natBits n 10 1, ackreq := natBits n 11 1 == 1, rdie := natBits n 12 2
    hops := natBits n 16 6, ngr := natBits n 24 7, dst := natBits n 32 12, src := natBits n 48 12, flow := natBits n 64 20
    peerQ := natBits n 96 20, addr := natBits n 128 48, amount := natBits n 192 16, gen := natBits n 208 16, coll := natBits n 224 12
    chunk := natBits n 240 32, ctype := natBits n 272 4, cscale := natBits n 276 2, status := natBits n 280 8, tag := natBits n 288 32 }

/-- Does a header hold a value in a field that its KIND does not use (R259, Table 8.5, Table 8.6)? -/
def headUnused (h : XHead) : Bool :=
  let only (kinds : List Nat) (used : Bool) : Bool := used && !kinds.contains h.kind
  only [0, 1, 7] h.ackreq || only [0, 1, 2, 3, 4, 6, 7, 8, 9] (h.flow != 0) || only [1, 5] (h.peerQ != 0) || only [0, 2, 8] (h.addr != 0)
    || (h.kind == 2 && decide (h.addr ≥ 2 ^ 18)) || only [2, 5, 6] (h.amount != 0)
    || only [7] (h.gen != 0 || h.coll != 0 || h.chunk != 0 || h.ctype != 0 || h.cscale != 0) || only [6, 9] (h.status != 0) || only [8, 9] (h.tag != 0)

/-- Does a header break the first row of Table 8.7: a reserved KIND, a reserved or unused field or a code that is not zero, or NGR above 64? -/
def headBad (n : Nat) : Bool :=
  decide (natBits n 0 8 > 10) || decide (natBits n 24 7 > 64) || decide (natBits n 280 8 > 1)
    || natBits n 14 2 != 0 || natBits n 22 2 != 0 || natBits n 31 1 != 0 || natBits n 44 4 != 0 || natBits n 60 4 != 0
    || natBits n 84 12 != 0 || natBits n 116 12 != 0 || natBits n 176 16 != 0 || natBits n 236 4 != 0 || natBits n 278 2 != 0
    || n >>> 320 != 0 || headUnused (headOf n)

/-- Does the number of granules fit the kind (Table 8.6)? -/
def ngrOk (h : XHead) : Bool :=
  match h.kind with
  | 0 => decide (1 ≤ h.ngr)
  | 1 => decide (1 ≤ h.ngr)
  | 7 => decide (1 ≤ h.ngr)
  | 8 => decide (1 ≤ h.ngr)
  | 9 => decide (1 ≤ h.ngr)
  | 10 => true
  | _ => h.ngr == 0

/-- DATA flits that follow a HEAD (R258): none for a READ, whose NGR names granules asked for. -/
def dataFlits (h : XHead) : Nat := if h.kind = 8 then 0 else ceilDiv h.ngr 2

/-- The HEAD flit of a transfer; SEQ, ACK and credits are filled in when it is sent. -/
def headFlit (cls : Nat) (h : XHead) : Flit :=
  let n := h.bits
  let half (i : Nat) : GranBits := BitVec.ofNat 1024 (n >>> (1024 * i))
  ⟨1, cls, 0, 0, 0, 0, 0, chkOf (half 0), chkOf (half 1), BitVec.ofNat 2048 n⟩

/-- The flits of a transfer (R258): a HEAD, then its granules two by two. -/
def Xfer.flits (x : Xfer) : List Flit :=
  let data := (span 0 (dataFlits x.h)).map (fun i =>
    let a := (x.data[2 * i]?).getD ⟨0, 0⟩
    let b := (x.data[2 * i + 1]?).getD ⟨0, 0⟩
    (⟨2, x.cls, 0, 0, 0, 0, i, a.chk, b.chk, BitVec.ofNat 2048 (a.v.toNat + 2 ^ 1024 * b.v.toNat)⟩ : Flit))
  headFlit x.cls x.h :: data

/-- Header bits [79:0] of a flit (Table 8.2). -/
def Flit.low (f : Flit) : Nat :=
  f.typ % 16 + 2 ^ 4 * (f.cls % 4) + 2 ^ 6 * (f.seq % 1024) + 2 ^ 16 * (f.ack % 1024) + 2 ^ 26 * (f.cbuf % 8) + 2 ^ 29 * (f.ccount % 64)
    + 2 ^ 35 * (f.idx % 32) + 2 ^ 48 * f.chk0.toNat + 2 ^ 64 * f.chk1.toNat

/-- The CRC of a flit: over header bits [79:0] and the payload (R252). -/
def flitCrc (low pay : Nat) : Nat := (crc32c (leBytes low 10 ++ leBytes pay 256)).toNat

/-- A flit as the 270 bytes sent. -/
def Flit.bits (f : Flit) : BitVec 2160 :=
  BitVec.ofNat 2160 (f.low + 2 ^ 80 * flitCrc f.low f.pay.toNat + 2 ^ 112 * f.pay.toNat)

/-- The flit that 270 bytes hold. -/
def flitOf (b : BitVec 2160) : Flit :=
  ⟨fld b 0 4, fld b 4 2, fld b 6 10, fld b 16 10, fld b 26 3, fld b 29 6, fld b 35 5, BitVec.ofNat 16 (fld b 48 16), BitVec.ofNat 16 (fld b 64 16),
   BitVec.ofNat 2048 (fld b 112 2048)⟩

/-! ### Ports -/

/-- Port `p` (0 to 11). -/
def State.port (s : State) (p : Nat) : Port := mapGet (fun _ => .reset) s.ports p

/-- Replace a port. -/
def State.setPort (s : State) (p : Nat) (x : Port) : State := { s with ports := mapSet (fun _ => .reset) s.ports p x }

/-- The function of a port. -/
def portFunc (p : Nat) : Nat := funcId 3 (portDie p) p

/-- Is a port READY or DEGRADED, so that flits pass? -/
def State.portUp (s : State) (p : Nat) : Bool := s.dieUp (portDie p) && s.funcUp (portFunc p)

/-- The class of a slot of the rotation of R268. -/
def slotClass (wd wc : Nat) (t : Nat) : Nat := if t < wd then 0 else if t < wd + wc then 2 else 3

/-- The weights of a port (Table 8.15): 0 acts as 1. -/
def State.weights (s : State) (p : Nat) : Nat × Nat × Nat :=
  let w (f : Fld) : Nat := max 1 (s.getF (portDie p) (portF p f))
  (w fEwPortCfgWData, w fEwPortCfgWColl, w fEwPortCfgWSvc)

/-- Can a class send its next flit: it has one, and credit for its buffer? -/
def Port.canSend (x : Port) (cls : Nat) : Bool :=
  match mapGet (fun _ => []) x.tx cls with
  | [] => false
  | f :: _ => decide (x.creditOf f.buf ≠ 0)

/-- The class of the next flit and the rotation after it (R268): sync first, then the rotation from its present slot. -/
def Port.nextClass (x : Port) (w : Nat × Nat × Nat) : Option (Nat × Nat) :=
  if x.canSend 1 then some (1, x.turn)
  else
    let n := w.1 + w.2.1 + w.2.2
    ((span 0 n).map (fun k => (x.turn + k) % n)).findSome? (fun t =>
      let c := slotClass w.1 w.2.1 t
      if x.canSend c then some (c, (t + 1) % n) else none)

/-- The credit return that goes out with the next flit: a buffer that is owed credit, and how much. -/
def Port.payCredit (x : Port) : Nat × Nat × Port :=
  match x.owed with
  | [] => (0, 0, x)
  | (b, n) :: _ => (b, min 63 n, { x with owed := mapSet (fun _ => 0) x.owed b (n - 63) })

/-- The last SEQ accepted in order. -/
def Port.lastAck (x : Port) : Nat := (x.rxSeq + 1023) % 1024

/-! ### The line (R250, R251) -/

/-- The symbols of a codeword with a message of 1,360 bits, as one number: 136 message symbols, then the 8 check symbols (R250). -/
def codeword (m : Nat) : BitVec 1440 :=
  let msg := (span 0 136).map (fun j => natBits m (10 * j) 10)
  BitVec.ofNat 1440 (m * 2 ^ 80 + ((ewerFec.encode msg).reverse.foldl (fun a x => a * 1024 + x) 0))

/-- Cut whole messages of 1,360 bits off a bit string, each into the next codeword slot; slot 0 of 4,096 is that of the markers: the slots sent, what is
left, its length and the slot after (R251). (DESIGN CHOICE, log entry 73.) -/
def cutWords : Nat → Nat → Nat → Nat → List LineWord × Nat × Nat × Nat
  | 0, rest, len, slot => ([], rest, len, slot)
  | n + 1, rest, len, slot =>
    if len < 1360 then ([], rest, len, slot)
    else
      let w : LineWord := .code (codeword (rest / 2 ^ (len - 1360)))
      let z := cutWords n (rest % 2 ^ (len - 1360)) (len - 1360) ((if slot = 0 then 2 else slot + 1) % 4096)
      ((if slot = 0 then [.markers, w] else [w]) ++ z.1, z.2)

/-- Send a flit on the line, the most significant byte first. -/
def State.sendLine (s : State) (p : Nat) (f : Flit) : State :=
  let x := s.port p
  let z := cutWords 3 (x.rest * 2 ^ 2160 + f.bits.toNat) (x.restLen + 2160) x.slot
  (s.setPort p { x with rest := z.2.1, restLen := z.2.2.1, slot := z.2.2.2 }).send (.ewFlit p f.bits z.1)

/-- Send a flit outside the replay buffer, an IDLE or a CTRL, with ACK and credits (R254, R257). -/
def State.sendFree (s : State) (p typ : Nat) (pay : BitVec 2048) : State :=
  let x := s.port p
  let c := x.payCredit
  (s.setPort p c.2.2).sendLine p ⟨typ, 0, x.txSeq, x.lastAck, c.1, c.2.1, 0, chkOf (pay.extractLsb' 0 1024), chkOf (pay.extractLsb' 1024 1024), pay⟩

/-- Send a CTRL flit with one link control entry (Table 8.3). -/
def State.sendCtrl (s : State) (p : Nat) (e : LinkEntry) : State :=
  (s.send (.ewCtrl p e)).sendFree p 3 ((Config.linkEntry e).setWidth 2048)

/-! ### Sending (R254, R257, R268) -/

/-- Send one flit of a class. (DEDUCED, log entry 37.) -/
def State.sendFlit (s : State) (p cls turn : Nat) : State :=
  let x := s.port p
  match mapGet (fun _ => []) x.tx cls with
  | [] => s
  | t :: r =>
    let c := x.payCredit
    let f : Flit := { t.f with seq := x.txSeq, ack := x.lastAck, cbuf := c.1, ccount := c.2.1 }
    let y := { c.2.2 with
      tx := mapSet (fun _ => []) x.tx cls r, turn := turn, txSeq := (x.txSeq + 1) % 1024, replay := x.replay ++ [⟨f, t.buf⟩]
      credit := mapSet (fun b => bufDepth (b / 2)) x.credit t.buf (x.creditOf t.buf - 1) }
    (s.setPort p y).sendLine p f

/-- Send flits while the port may: READY, fewer than 121 unacknowledged, and a class with a flit and credit (R254, R257, R268). -/
def State.pump (p : Nat) : Nat → State → State
  | 0, s => s
  | n + 1, s =>
    let x := s.port p
    if !s.portUp p || decide (x.replay.length ≥ 121) then s
    else match x.nextClass (s.weights p) with
      | none => s
      | some (c, t) => State.pump p n (s.sendFlit p c t)

/-- How many flits a port could send at most before it must wait. -/
def pumpFuel : Nat := 121

/-- Queue flits at a port, for a receive buffer of the partner, and send what may go. -/
def State.portFlits (s : State) (p buf : Nat) (l : List Flit) : State :=
  let y := s.port p
  let fs := l.map (fun f => (⟨f, buf⟩ : TxFlit))
  State.pump p pumpFuel (s.setPort p { y with tx := mapSet (fun _ => []) y.tx (buf / 2) (mapGet (fun _ => []) y.tx (buf / 2) ++ fs) })

/-- Queue a transfer at a port and send what may go. -/
def State.portSend (s : State) (p : Nat) (x : Xfer) : State := s.portFlits p (2 * x.cls + x.h.vl) x.flits

/-- Can a port take and send at once one more flit for a buffer of its partner? -/
def State.portTakes (s : State) (p buf : Nat) : Bool :=
  let x := s.port p
  s.portUp p && (mapGet (fun _ => []) x.tx (buf / 2)).isEmpty && decide (x.creditOf buf ≠ 0) && decide (x.replay.length < 121)

/-- Free the replay buffer up to an acknowledged SEQ (R254). -/
def Port.acked (x : Port) (ack : Nat) : Port :=
  if x.replay.any (fun t => t.f.seq == ack) then
    { x with replay := (x.replay.dropWhile (fun t => t.f.seq != ack)).drop 1 }
  else x

/-- Take a credit return (R257): never above the buffer's depth. -/
def Port.credited (x : Port) (buf n : Nat) : Port :=
  if n = 0 then x else { x with credit := mapSet (fun b => bufDepth (b / 2)) x.credit buf (min (bufDepth (buf / 2)) (x.creditOf buf + n)) }

/-! ### The line at the receiver (R250) -/

/-- The codewords that begin with the flit numbered `k` of a group of seventeen (R251). -/
def fecStarts (k : Nat) : List Nat := (span 0 27).filter (fun j => decide (2160 * k ≤ 1360 * j) && decide (1360 * j < 2160 * k + 2160))

/-- The codeword that began before flit `k` and goes on into it, if one does. -/
def fecInto (k : Nat) : Option Nat :=
  let j := 2160 * k / 1360
  if 1360 * j < 2160 * k then some j else none

/-- The wrong symbols of a codeword: symbol i travels on lane i mod 8 (R250). -/
def hitErrs (l : List FecHit) : List SymErr := overlay [] (l.map (fun h => ⟨8 * h.place.val + h.lane.val, h.flip.toNat⟩))

/-- The wrong bits of a flit, numbered `k` of its group, that what is left wrong of codeword `j` makes. -/
def wrongBits (k j : Nat) (l : List SymErr) : BitVec 2160 :=
  let m := (l.filter (fun e => decide (e.pos < 136))).foldl (fun a e => a ^^^ (e.flip * 2 ^ (1350 - 10 * e.pos))) 0
  let a := 2160 * (k + 1)
  let b := 1360 * (j + 1)
  BitVec.ofNat 2160 (if b ≤ a then m * 2 ^ (a - b) else m / 2 ^ (b - a))

/-- A flit after the FEC: the bits that reach the link layer, whether a codeword it touches is uncorrectable, how many codewords that begin with it were
corrected and how many were uncorrectable, and what arrived wrong of the codeword that goes on into the next flit (R250). -/
structure FecOut where
  flit : BitVec 2160
  bad : Bool
  fixed : Nat
  lost : Nat
  carry : List FecHit

/-- Decode the codewords that a flit touches (R250). (DESIGN CHOICE, log entry 73.) -/
def Port.fec (x : Port) (flit : BitVec 2160) (hits : List FecHit) : FecOut :=
  let k := x.rxFlits
  let fresh := fecStarts k
  let mine (i : Nat) : List FecHit := hits.filter (fun h => h.word.val == i)
  let words : List (Nat × List SymErr) := (match fecInto k with | some j => [(j, hitErrs x.rxCarry)] | none => [])
    ++ ((span 0 fresh.length).zip fresh).map (fun (z : Nat × Nat) => (z.2, hitErrs (mine z.1)))
  let res (l : List SymErr) : Option (List SymErr) := if l.isEmpty then some [] else ewerFec.decodeHalf l
  let new := words.filter (fun w => fresh.contains w.1 && !w.2.isEmpty)
  { flit := words.foldl (fun (f : BitVec 2160) w => f ^^^ wrongBits k w.1 (overlay w.2 ((res w.2).getD []))) flit
    bad := words.any (fun w => (res w.2).isNone)
    fixed := (new.filter (fun w => (res w.2).isSome)).length
    lost := (new.filter (fun w => (res w.2).isNone)).length
    carry := match fresh.getLast? with
      | some j => if 2160 * (k + 1) < 1360 * (j + 1) then mine (fresh.length - 1) else []
      | none => x.rxCarry }

/-! ### Receiving (R255) -/

/-- The receive buffer of a HEAD or DATA flit: its class, and the virtual lane of its transfer. -/
def Port.bufOf (x : Port) (f : Flit) : Nat := 2 * f.cls + (if f.typ = 1 then fld f.pay 10 1 else mapGet (fun _ => 0) x.rxVl f.cls)

/-- Why a received flit is refused (R255): 1 CRC, 2 FEC, 3 any other cause; none if it is accepted. (DEDUCED, log entry 37.) -/
def Port.refuse (x : Port) (b : BitVec 2160) (fecBad : Bool) : Option Nat :=
  let f := flitOf b
  if fecBad then some 2
  else if flitCrc (fld b 0 80) (fld b 112 2048) ≠ fld b 80 32 then some 1
  else if f.typ > 3 ∨ fld b 40 8 ≠ 0 ∨ (f.typ ≠ 2 ∧ f.idx ≠ 0) then some 3
  else if f.seq ≠ x.rxSeq then some 3
  else if f.typ = 0 ∨ f.typ = 3 then (if f.cls = 0 then none else some 3)
  else if (mapGet (fun _ => []) x.rx (x.bufOf f)).length ≥ bufDepth f.cls then some 3
  else none

/-- Does a port pass over a flit in silence, since it discards what was sent before a resend: `n` is the SEQ that comes next without one (R255)?
A flit with the expected SEQ is the resend; one with another SEQ than `n` that passed its checks shows that something more was lost. -/
def Port.passes (x : Port) (b : BitVec 2160) (kind n : Nat) : Bool :=
  let f := flitOf b
  f.seq != x.rxSeq && (kind != 3 || f.seq == n)

/-- The SEQ that comes next without a resend, after a flit. -/
def nextSkip (b : BitVec 2160) (n : Nat) : Nat := if (flitOf b).typ = 0 ∨ (flitOf b).typ = 3 then n else (n + 1) % 1024

/-- Refuse a flit: one NAK names the expected SEQ, and its kind is counted; what the FEC loses is counted by codeword (R255).
(DEDUCED, log entry 37.) -/
def State.refuseFlit (s : State) (p kind : Nat) (b : BitVec 2160) : State :=
  let x := s.port p
  let d := portDie p
  let s := s.setPort p { x with skip := some (nextSkip b x.rxSeq), refusals := x.refusals + 1, refKind := kind }
  let s := match kind with
    | 1 => s.bump d (portF p fEwCrcErrCntCount) 1
    | 2 => s
    | _ => s.bump d (portF p fEwMalformedCntCount) 1
  (s.bump d (portF p fEwReplayCntCount) 1).sendCtrl p (.nak x.rxSeq)

/-- A flit comes off the line of a port: the FEC's counts, and the times of codewords lost within the last millisecond (R250, R256). -/
def State.takeLine (s : State) (p : Nat) (o : FecOut) : State :=
  let x := s.port p
  let d := portDie p
  let now := (s.reg d oDieTimebase).toNat
  let s := (s.bump d (portF p fEwFecCorrCntCount) o.fixed).bump d (portF p fEwFecUncorrCntCount) o.lost
  s.setPort p { x with rxFlits := (x.rxFlits + 1) % 17, rxCarry := o.carry, fecTimes := x.fecTimes.filter (fun t => decide (now < t + 1000000)) ++ List.replicate o.lost now }

/-- A flit is accepted: ACK and credit take effect, and a HEAD or DATA flit enters its receive buffer (R254, R257). -/
def State.acceptFlit (s : State) (p : Nat) (f : Flit) : State :=
  let x := s.port p
  let y := (x.acked f.ack).credited f.cbuf f.ccount
  if f.typ = 0 ∨ f.typ = 3 then s.setPort p { y with skip := none }
  else s.setPort p { y with
    rxSeq := (x.rxSeq + 1) % 1024, skip := none, refusals := 0
    rxVl := mapSet (fun _ => 0) x.rxVl f.cls (x.bufOf f % 2)
    rx := mapSet (fun _ => []) x.rx (x.bufOf f) (mapGet (fun _ => []) x.rx (x.bufOf f) ++ [f]) }

/-- Send again every flit of the replay buffer, in order and unchanged. -/
def State.resend (s : State) (p : Nat) : State := (s.port p).replay.foldl (fun s t => s.sendLine p t.f) s

/-- A NAK (R255): the sender resends from the SEQ that the partner expects; what came before it has been received. -/
def State.takeNak (s : State) (p seq : Nat) : State :=
  let x := s.port p
  if !s.portUp p || !x.replay.any (fun t => t.f.seq == seq) then s
  else (s.setPort p { x with replay := x.replay.dropWhile (fun t => t.f.seq != seq) }).resend p

/-- EW_NAK (R255). -/
def execEwNak (p : Fin 12) (seq : BitVec 10) (s : State) : Host.Outcome State Fault Refusal := .next (s.takeNak p seq.toNat)

/-- LINK_IDLE_TIMER (R254): with nothing else to send the port sends an IDLE with ACK and credits. -/
def execLinkIdleTimer (p : Fin 12) (s : State) : Host.Outcome State Fault Refusal :=
  .next (
    let x := s.port p
    if !s.portUp p || (decide (x.replay.length < 121) && (x.nextClass (s.weights p)).isSome) then s
    else s.sendFree p 0 0)

/-! ### Retraining (R256) -/

/-- Start retraining a port: STARTING, counted, an INFO record (R256). (DEDUCED, log entry 37.) -/
def State.portRetrain (s : State) (p : Nat) : State :=
  let d := portDie p
  ((s.setFunc (portFunc p) 1).bump d (portF p fEwRetrainCntCount) 1).raise d ⟨.info, 0x0040, 0x0B, p, 0, p, (Config.recordArg 0x40 1 [(s.port p).refKind]).toNat, 0⟩

/-- Start retraining a port and ask its partner to retrain too (Table 8.3). -/
def State.askRetrain (s : State) (p : Nat) : State := (if s.portUp p then s.sendCtrl p .retrain else s).portRetrain p

/-- Codewords that a port receives in a millisecond: 224 × 10⁹ / 90 in a second, at width 4 half as many (R248, R249, R250). -/
def State.wordsPerMs (s : State) (p : Nat) : Nat := if s.flag (portDie p) (portF p fEwPortStatusHalf) then 1244444 else 2488888

/-- Has the FEC of a port passed its limit of 1 codeword in 10⁶ over the last millisecond (R256)? -/
def State.fecOver (s : State) (p : Nat) : Bool :=
  let now := (s.reg (portDie p) oDieTimebase).toNat
  decide (s.wordsPerMs p < ((s.port p).fecTimes.filter (fun t => decide (now < t + 1000000))).length * 1000000)

/-- PORT_RETRAIN (R256): one SEQ was refused 8 times in succession, or the FEC passed its limit. -/
def execPortRetrain (p : Fin 12) (s : State) : Host.Outcome State Fault Refusal :=
  .next (if s.portUp p && (s.fecOver p || decide ((s.port p).refusals ≥ 8)) then s.askRetrain p else s)

/-- What the lanes of a port did at a training (R249): none trained to a usable width, all eight, lanes 0 to 3, or lanes 4 to 7. -/
def State.setWidth (s : State) (p : Nat) (w : Nat) : State :=
  let d := portDie p
  (s.setF d (portF p fEwPortStatusHalf) (b2n (w != 1))).setF d (portF p fEwPortStatusUpper) (b2n (w == 3))

/-- PORT_RETRAIN_DONE (R249, R256): retraining ends. With a usable width the port resends from the last ACK and reports READY or
DEGRADED; without one it retrains again, and a third failure in succession makes it FAILED and ends the job. -/
def execPortRetrainDone (p : Fin 12) (width : Fin 4) (s : State) : Host.Outcome State Fault Refusal :=
  .next (
    let x := s.port p
    let d := portDie p
    if !s.dieUp d || s.func (portFunc p) ≠ 1 then s
    else if width.val = 0 then
      let s := s.setPort p { x with fails := x.fails + 1 }
      if x.fails + 1 < 3 then s.portRetrain p
      else ((s.failFunc (portFunc p)).finish (fun w => w == .retrain 1 d p) 0x200 0x41).raise s.lead ⟨.jobFatal, 0x0041, 0x0B, p, 0, p, s.getF d (portF p fEwRetrainCntCount), 0⟩
    else
      let s := (s.setPort p { x with fails := 0, refusals := 0, skip := none, rest := 0, restLen := 0, slot := 0, rxFlits := 0, rxCarry := [], fecTimes := [] }).setWidth p width
      State.pump p pumpFuel (((s.setFunc (portFunc p) (if width.val = 1 then 2 else 3)).finish (fun w => w == .retrain 1 d p) 0 0).resend p))

end Sys2Proof.Machine
end

