-- ==== Sys2Proof/Machine/EdgeLink.lean ====
section
/-!
DEFINITION. The link layer of an edge between dies (R370 to R374): package flits, the messages of a port die's edges, credits and resends.
-/

namespace Sys2Proof.Machine

/-! ### Package flits (Table 12.3) -/

/-- FTYPE. -/
def pfType (f : BitVec 2048) : Nat := fld f 0 4
/-- SEQ. -/
def pfSeq (f : BitVec 2048) : Nat := fld f 4 12
/-- ACK. -/
def pfAck (f : BitVec 2048) : Nat := fld f 16 12
/-- FMO. -/
def pfFmo (f : BitVec 2048) : Nat := fld f 38 6

/-- The CRC of a package flit: CRC-32C over bytes 0 to 251. -/
def pfCrc (f : BitVec 2048) : Nat := (crc32c (leBytes (fld f 0 2016) 252)).toNat

/-- A package flit: type, SEQ, ACK, credited class and units, FMO and body. -/
def pkgFlit (typ seq ack cls count fmo : Nat) (body : List Byte) : BitVec 2048 :=
  let b : BitVec 2048 := BitVec.ofNat 2048 (typ + 2 ^ 4 * seq + 2 ^ 16 * ack + 2 ^ 28 * cls + 2 ^ 31 * count + 2 ^ 38 * fmo + 2 ^ 64 * leNat (body.take 244))
  b ||| BitVec.ofNat 2048 (2 ^ 2016 * pfCrc b)

/-! ### Messages (Tables 12.4 to 12.6) -/

/-- Receive buffers by class in 64 B units (Table 12.6). -/
def d2dGrant (port : Bool) (cls : Nat) : Nat :=
  match cls with
  | 0 => if port then 0 else 1024
  | 1 => if port then 0 else 2048
  | 2 => if port then 0 else 128
  | 3 => 1024
  | _ => 16

/-- What one end of an edge grants its partner for a class: Table 12.6, and a port die the FAB credit of its record (R373, Table 12.10). -/
def State.grantOf (s : State) (d e cls : Nat) : Nat :=
  if d ≥ 4 ∧ cls = 3 then max 1024 (16 * leAt (s.die d).record 11 1) else d2dGrant (portEdge d e) cls

/-- Is a message header legal at an end of an edge (R371, R372, Table 12.4, Table 12.5)? `port` says that the edge joins a port die, `toPort` that
the port die receives. -/
def msgOk (port toPort : Bool) (h : Nat) : Bool :=
  let typ := natBits h 0 8
  let len := natBits h 8 12
  let cls := natBits h 20 3
  let arg := natBits h 32 32
  let common_ : Bool := decide (cls ≤ 4) && decide (2 ≤ len ∧ len ≤ 2130) && decide (natBits h 23 3 ≤ 5) && decide (natBits h 26 3 ≤ 5) && natBits h 29 3 == 0
  let fab : Bool := cls == 3 && decide (18 ≤ len) && (len - 18) % 33 == 0
  common_ && (if !port then true else match typ with
    | 0x40 => toPort && fab && decide (arg ≤ 5)
    | 0x41 => !toPort && fab && decide (natBits arg 0 4 ≤ 5) && natBits arg 5 3 == 0 && decide (natBits arg 8 4 ≤ 5) && natBits arg 12 20 == 0
        && (natBits arg 4 1 == 1 || natBits arg 8 4 == 0)
    | 0x50 => toPort && cls == 4 && len == 4 && decide (arg < 256)
    | 0x51 => toPort && cls == 4 && len == 6 && decide (arg < 256)
    | 0x52 => !toPort && cls == 4 && len == 4 && decide (arg < 512)
    | _ => false)

/-- 64 B units that a message takes (R371). -/
def msgUnits (h : Nat) : Nat := ceilDiv (4 * natBits h 8 12) 64

/-- The header of a message (Table 12.4). -/
def msgHead (typ len cls src dst arg : Nat) : List Byte :=
  leBytes (typ + 2 ^ 8 * len + 2 ^ 20 * cls + 2 ^ 23 * src + 2 ^ 26 * dst + 2 ^ 32 * arg) 8

/-- A granule record: 128 B of data and a 4 B word with the block check (R372). -/
def granRecord (g : DGran) : List Byte := leBytes g.v.toNat 128 ++ leBytes g.chk.toNat 4

/-- The body of a FAB message: the transfer header and its granule records. -/
def fabBody (x : Xfer) : List Byte := leBytes x.h.bits 64 ++ x.data.flatMap granRecord

/-- The bytes of a message of Table 12.5. -/
def MsgBody.bytes (src dst : Nat) : MsgBody → List Byte
  | .fabOut port x => msgHead 0x40 (18 + 33 * x.data.length) 3 src dst port ++ fabBody x
  | .fabIn port cross x => msgHead 0x41 (18 + 33 * x.data.length) 3 src dst (port + 16 * b2n cross.isSome + 256 * cross.getD 0) ++ fabBody x
  | .cfgRd tag off => msgHead 0x50 4 4 src dst tag ++ leBytes off 8
  | .cfgWr tag off v => msgHead 0x51 6 4 src dst tag ++ leBytes off 8 ++ leBytes v 8
  | .cfgRsp tag err v => msgHead 0x52 4 4 src dst (tag + 256 * b2n err) ++ leBytes v 8

/-- Does the body of a whole message hold what Table 12.5 fixes: zero beside each block check, an offset in its range, and in a FAB_IN that does not
cross a DSTDIE equal to RDIE? -/
def msgBodyOk (b : List Byte) : Bool :=
  let h := leAt b 0 8
  match natBits h 0 8 with
  | 0x50 => decide (leAt b 8 8 < 2 ^ 24)
  | 0x51 => decide (leAt b 8 8 < 2 ^ 24)
  | 0x52 => natBits h 40 1 == 0 || leAt b 8 8 == 0
  | t =>
    (span 0 ((natBits h 8 12 - 18) / 33)).all (fun i => leAt b (72 + 132 * i + 130) 2 == 0)
      && (t == 0x40 || natBits h 36 1 == 1 || (headOf (leAt b 8 64)).rdie == natBits h 26 3)

/-- What a whole message of Table 12.5 carries; a FAB message has traffic class `cls`. -/
def msgBodyOf (cls : Nat) (b : List Byte) : MsgBody :=
  let h := leAt b 0 8
  let arg := natBits h 32 32
  let n := leAt b 8 64
  let data := (span 0 ((natBits h 8 12 - 18) / 33)).map (fun i => (⟨BitVec.ofNat 1024 (leAt b (72 + 132 * i) 128), BitVec.ofNat 16 (leAt b (72 + 132 * i + 128) 2)⟩ : DGran))
  let x : Xfer := ⟨cls, headOf n, data, headBad n⟩
  match natBits h 0 8 with
  | 0x40 => .fabOut arg x
  | 0x41 => .fabIn (natBits arg 0 4) (if natBits arg 4 1 = 1 then some (natBits arg 8 4) else none) x
  | 0x50 => .cfgRd arg (leAt b 8 8)
  | 0x51 => .cfgWr arg (leAt b 8 8) (leAt b 16 8)
  | _ => .cfgRsp (natBits arg 0 8) (natBits arg 8 1 == 1) (leAt b 8 8)

/-- What the messages of a flit leave: the bytes of one that goes on in the next flit, the units held by class, and the messages now whole. -/
structure MsgScan where
  part : List Byte
  held : SMap Nat
  whole : List (List Byte)
deriving DecidableEq, Repr

/-- Take the messages that start in a byte string; none where one is refused. A zero header ends them. (DESIGN CHOICE, log entry 51.) -/
def startMsgs (ok : Nat → Bool) (grant : Nat → Nat) : Nat → List Byte → SMap Nat → Option MsgScan
  | 0, bs, held => some ⟨bs, held, []⟩
  | n + 1, bs, held =>
    if bs.length < 8 then some ⟨if leNat bs = 0 then [] else bs, held, []⟩
    else
      let h := leAt bs 0 8
      let cls := natBits h 20 3
      let used := mapGet (fun _ => 0) held cls + msgUnits h
      let len := 4 * natBits h 8 12
      if h = 0 then some ⟨[], held, []⟩
      else if !ok h || decide (grant cls < used) then none
      else if bs.length < len then some ⟨bs, mapSet (fun _ => 0) held cls used, []⟩
      else (startMsgs ok grant n (bs.drop len) (mapSet (fun _ => 0) held cls used)).map (fun z => { z with whole := bs.take len :: z.whole })

/-- Take the body of a MSG flit: the message that goes on into it, and from FMO on those that start in it (R370). -/
def takeMsgs (ok : Nat → Bool) (grant : Nat → Nat) (part : List Byte) (f : BitVec 2048) (held : SMap Nat) : Option MsgScan :=
  let body := leBytes (fld f 64 1952) 244
  let fresh := if pfFmo f = 63 then [] else body.drop (4 * pfFmo f - 8)
  if part.length < 8 then startMsgs ok grant 62 (if part.isEmpty then fresh else part ++ body) held
  else
    let len := 4 * natBits (leAt part 0 8) 8 12
    let bs := part ++ body
    if bs.length < len then some ⟨bs, held, []⟩
    else (startMsgs ok grant 62 fresh held).map (fun z => { z with whole := bs.take len :: z.whole })

/-! ### Sending (R371, R374) -/

/-- Is an edge trained, so that flits pass? -/
def State.edgeUp (s : State) (d e : Nat) : Bool := s.dieUp d && s.funcUp (edgeFunc d e)

/-- Modules in the striping of an edge, in ascending order (R370, R375). -/
def State.stripes (s : State) (d e : Nat) : List Nat :=
  (maskBits (s.getF d (edgeF e fD2dModulesEnabled)) 24).filter (fun m => !(s.edge d e).retraining.contains m)

/-- The module that carries SEQ (R370): the (SEQ mod m)-th enabled one. -/
def State.moduleOf (s : State) (d e seq : Nat) : Nat :=
  let l := s.stripes d e
  (l[seq % (max 1 l.length)]?).getD 0

/-- Flits that an edge's replay buffer holds (R374). -/
def replayDepth (d e : Nat) : Nat := if portEdge d e then 256 else 1024

/-- The credits that go out with the next flit: a class that is owed some, how many units, and the edge after. -/
def Edge.payCredit (x : Edge) : Nat × Nat × Edge :=
  match x.owed with
  | [] => (0, 0, x)
  | (k, n) :: _ => (k, min 127 n, { x with owed := mapSet (fun _ => 0) x.owed k (n - min 127 n), held := mapMod (fun _ => 0) x.held k (fun v => v - min 127 n) })

/-- The last SEQ accepted in order. -/
def Edge.lastAck (x : Edge) : Nat := (x.rxSeq + 4095) % 4096

/-- Send a flit that is not kept for resends: an IDLE or a CTRL, with ACK and credits. -/
def State.edgeFree (s : State) (d e typ : Nat) (body : List Byte) : State :=
  let x := s.edge d e
  let c := x.payCredit
  (s.setEdge d e c.2.2).send (.pkgFlit d e (s.moduleOf d e x.txSeq) (pkgFlit typ x.txSeq x.lastAck c.1 c.2.1 63 body))

/-- Send a CTRL flit with one NAK entry (Table 12.3). -/
def State.edgeNak (s : State) (d e seq : Nat) : State :=
  (s.send (.d2dNak d e seq)).edgeFree d e 2 (leBytes (Config.edgeEntry (.nak seq)).toNat 8)

/-- Send the bytes of one message as MSG flits of its own and keep them for resends. (DESIGN CHOICE, log entry 51.) -/
def State.edgeBytes (d e : Nat) (bs : List Byte) (s : State) : State :=
  (span 0 (ceilDiv bs.length 244)).foldl (fun (s : State) i =>
    let x := s.edge d e
    let c := x.payCredit
    let f := pkgFlit 1 x.txSeq x.lastAck c.1 c.2.1 (if i = 0 then 2 else 63) (bs.drop (244 * i))
    (s.setEdge d e { c.2.2 with txSeq := (x.txSeq + 1) % 4096, replay := x.replay ++ [f] }).send (.pkgFlit d e (s.moduleOf d e x.txSeq) f)) s

/-- Is a port die admitted, so that its crossbar forwards (R384)? -/
def State.admitted (s : State) (pd : Nat) : Bool := s.dieUp pd && s.flag pd fD2dAdmitAdmitted

/-- May a waiting message go: both ends trained, credit for its whole length, room for its flits, and no FAB message at a port die that is not admitted
(R371, R374, R384)? -/
def State.edgeFits (s : State) (d e : Nat) (w : Nat × List Byte) : Bool :=
  match edgePeer d e with
  | none => false
  | some (p, pe) =>
    let x := s.edge d e
    s.edgeUp d e && s.edgeUp p pe && decide (mapGet (fun _ => 0) x.spent w.1 + ceilDiv w.2.length 64 ≤ s.grantOf p pe w.1)
      && decide (x.replay.length + ceilDiv w.2.length 244 ≤ replayDepth d e) && (w.1 != 3 || s.admitted (max d p))

/-- The waiting message that goes next: the oldest of a class, if it may go (R371). -/
def State.edgeNext (s : State) (d e : Nat) : Option (Nat × List Byte) :=
  (span 0 5).findSome? (fun c => ((s.edge d e).waits.find? (fun w => w.1 == c)).bind (fun w => if s.edgeFits d e w then some w else none))

/-- Send the waiting messages that may go, each class in order. -/
def State.edgeFlush (d e : Nat) : Nat → State → State
  | 0, s => s
  | n + 1, s =>
    let x := s.edge d e
    match s.edgeNext d e with
    | none => s
    | some w =>
      let y := { x with waits := x.waits.erase w, spent := mapMod (fun _ => 0) x.spent w.1 (fun v => v + ceilDiv w.2.length 64) }
      State.edgeFlush d e n (State.edgeBytes d e w.2 (s.setEdge d e y))

/-- Send what may go on an edge. -/
def State.flushEdge (s : State) (d e : Nat) : State := State.edgeFlush d e (s.edge d e).waits.length s

/-- Send a message of Table 12.5 on an edge of a port die. -/
def State.edgeSend (s : State) (d e src dst : Nat) (b : MsgBody) : State :=
  let x := s.edge d e
  let m : Nat × List Byte × List Nat := match b with
    | .fabOut _ y => (3, b.bytes src dst, [y.cls])
    | .fabIn _ _ y => (3, b.bytes src dst, [y.cls])
    | _ => (4, b.bytes src dst, [])
  (s.setEdge d e { x with waits := x.waits ++ [(m.1, m.2.1)], kinds := x.kinds ++ m.2.2 }).flushEdge d e

/-- A message leaves the receive buffer of its edge: its units are owed as credit (R371). -/
def State.msgGone (s : State) (m : DieMsg) (rest : List DieMsg) : State :=
  let d := m.at_ / 4
  let e := m.at_ % 4
  { s with msgs := rest }.setEdge d e { s.edge d e with owed := mapMod (fun _ => 0) (s.edge d e).owed m.cls (fun v => v + m.units) }

/-! ### Receiving (R374) -/

/-- Flits of a replay buffer that an ACK leaves: those after the acknowledged SEQ (R374). -/
def unacked (l : List (BitVec 2048)) (ack : Nat) : List (BitVec 2048) :=
  match (span 0 l.length).find? (fun i => (l[i]?).map pfSeq == some ack) with
  | some i => l.drop (i + 1)
  | none => l

/-- The sender's end with a flit that it has sent, or none if it cannot have sent it: an IDLE or CTRL needs no room; a MSG flit is one of the replay
buffer, which between compute dies it enters when it first appears, since the messages there are not given (R371). (DESIGN CHOICE, log entry 69.) -/
def Edge.sends (x : Edge) (port : Bool) (f : BitVec 2048) (depth : Nat) : Option Edge :=
  if pfType f ≠ 1 then some x
  else if x.replay.contains f then some x
  else if !port ∧ pfSeq f = x.txSeq ∧ x.replay.length < depth then some { x with replay := x.replay ++ [f], txSeq := (x.txSeq + 1) % 4096 }
  else none

/-- Why the header of a flit is refused (R374): `some true` for its CRC, `some false` for another cause. -/
def Edge.refuse (x : Edge) (f : BitVec 2048) : Option Bool :=
  if pfCrc f ≠ fld f 2016 32 then some true
  else if pfType f > 2 ∨ fld f 28 3 > 4 ∨ fld f 44 20 ≠ 0 ∨ pfSeq f ≠ x.rxSeq then some false
  else none

/-- Does an end pass over a flit in silence, since it discards what was sent before a resend (R374)? As `Port.passes`. -/
def Edge.passes (x : Edge) (f : BitVec 2048) (crc : Bool) (n : Nat) : Bool := pfSeq f != x.rxSeq && (crc || pfSeq f == n)

/-- The SEQ that comes next without a resend, after a flit. -/
def nextEdgeSkip (f : BitVec 2048) (n : Nat) : Nat := if pfType f = 0 ∨ pfType f = 2 then n else (n + 1) % 4096

/-- The receiver refuses a flit (R374): counted by cause, and one NAK names the expected SEQ. Refusals in succession on one module count toward its
retraining (R375). (DESIGN CHOICE, log entry 51.) -/
def State.refusePkgFlit (s : State) (d e m : Nat) (f : BitVec 2048) (crc : Bool) : State :=
  let x := s.edge d e
  let s := s.bump d (edgeF e (if crc then fD2dCrcErrCntCount else fD2dMalformedCntCount)) 1
  let n := mapGet (fun _ => 0) x.refusals m
  let s := s.setEdge d e { x with skip := some (nextEdgeSkip f x.rxSeq), refusals := mapSet (fun _ => 0) [] m (n + 1) }
  (s.bump d (edgeF e fD2dReplayCntCount) 1).edgeNak d e x.rxSeq

/-- A NAK (R374): everything from its SEQ on goes out again, unchanged and in order. -/
def State.edgeResend (s : State) (d e seq : Nat) : State :=
  let x := s.edge d e
  match (span 0 x.replay.length).find? (fun i => (x.replay[i]?).map pfSeq == some seq) with
  | none => s
  | some i =>
    let l := x.replay.drop i
    if !s.edgeUp d e then s
    else l.foldl (fun (s : State) f => s.send (.pkgFlit d e (s.moduleOf d e (pfSeq f)) f)) (s.setEdge d e { x with replay := l })

/-- The entries of a CTRL flit take effect: a NAK, or a credit initialisation, after which the credit named is left (Table 12.3). -/
def State.edgeEntries (s : State) (d e : Nat) (f : BitVec 2048) : State :=
  (span 0 30).foldl (fun (s : State) i =>
    let b : BitVec 64 := BitVec.ofNat 64 (fld f (64 + 64 * i) 64)
    if b = 0 then s
    else match Config.edgeEntryOf b, edgePeer d e with
      | some (.nak seq), _ => s.edgeResend d e seq
      | some (.credit cls n), some (p, pe) => s.setEdge d e { s.edge d e with spent := mapSet (fun _ => 0) (s.edge d e).spent cls (s.grantOf p pe cls - n) }
      | _, _ => s) s

/-- A whole message leaves the link layer: at a port die's edge it awaits its action; between compute dies it is not given, and its credit
returns. (DESIGN CHOICE, log entry 69.) -/
def State.arrive (s : State) (d e p pe : Nat) (b : List Byte) : State :=
  let h := leAt b 0 8
  let cls := natBits h 20 3
  if !portEdge d e then s.setEdge d e { s.edge d e with owed := mapMod (fun _ => 0) (s.edge d e).owed cls (fun v => v + msgUnits h) }
  else
    let y := s.edge p pe
    let s := if cls = 3 then s.setEdge p pe { y with kinds := y.kinds.drop 1 } else s
    { s with msgs := s.msgs ++ [⟨natBits h 23 3, natBits h 26 3, 4 * d + e, cls, msgUnits h, msgBodyOf (y.kinds.headD 0) b⟩] }

/-- A flit passes its header checks: ACK and credits take effect, and its content is taken, or the flit refused for a message in it (R371, R374). -/
def State.acceptPkgFlit (s : State) (d e p pe m : Nat) (f : BitVec 2048) : State :=
  let x := s.edge d e
  let y : Edge := { x with replay := unacked x.replay (pfAck f), spent := mapMod (fun _ => 0) x.spent (fld f 28 3) (fun v => v - fld f 31 7), skip := none }
  if pfType f = 0 then (s.setEdge d e y).flushEdge d e
  else if pfType f = 2 then ((s.setEdge d e y).edgeEntries d e f).flushEdge d e
  else match takeMsgs (msgOk (portEdge d e) (decide (d ≥ 4))) (s.grantOf d e) x.part f x.held with
    | none => s.refusePkgFlit d e m f false
    | some z =>
      if portEdge d e && !z.whole.all msgBodyOk then s.refusePkgFlit d e m f false
      else
        let s := s.setEdge d e { y with part := z.part, held := z.held, rxSeq := (x.rxSeq + 1) % 4096 }
        (z.whole.foldl (fun (s : State) b => s.arrive d e p pe b) s).flushEdge d e

/-- PACKAGE_FLIT_RECEIVE (R370, R371, R374): a flit that the partner sent arrives on a module, `flips` of its bits wrong.
(DESIGN CHOICE, log entry 51.) -/
def execPackageFlitReceive (d : Fin 6) (e : Fin 3) (m : Fin 24) (sent flips : BitVec 2048) (s : State) : Host.Outcome State Fault Refusal :=
  .next (match edgePeer d e with
    | none => s
    | some (p, pe) =>
      if !s.edgeUp d e || !s.edgeUp p pe || !(s.stripes d e).contains m.val || s.moduleOf p pe (pfSeq sent) != m.val || pfCrc sent != fld sent 2016 32 then s
      else match (s.edge p pe).sends (portEdge d e) sent (replayDepth p pe) with
        | none => s
        | some y =>
          let s := s.setEdge p pe y
          let x := s.edge d e
          let f := sent ^^^ flips
          match x.refuse f, x.skip with
          | some crc, some n => if x.passes f crc n then s.setEdge d e { x with skip := some (nextEdgeSkip f n) } else s.refusePkgFlit d e m f crc
          | some crc, none => s.refusePkgFlit d e m f crc
          | none, _ => s.acceptPkgFlit d e p pe m f)

/-- D2D_NAK (R374). -/
def execD2dNak (d : Fin 6) (e : Fin 3) (seq : BitVec 12) (s : State) : Host.Outcome State Fault Refusal := .next (s.edgeResend d e seq.toNat)

/-- D2D_IDLE_TIMER (R374): waiting messages that may go now, else an IDLE that carries ACK and the credits owed to one class. -/
def execD2dIdleTimer (d : Fin 6) (e : Fin 3) (s : State) : Host.Outcome State Fault Refusal :=
  .next (
    if !s.edgeUp d e then s
    else if (s.edgeNext d e).isSome then s.flushEdge d e
    else s.edgeFree d e 0 [])

end Sys2Proof.Machine
end

