-- ==== Sys2Proof/Machine/Fabric.lean ====
section
/-!
DEFINITION. The fabric above the link layer (R258 to R267): routes, the way of a transfer through a package, and what the fabric
interface of the receiving die does with each kind.
-/

namespace Sys2Proof.Machine

/-! ### Routes (R260, R261, R263) -/

/-- The route entry that a die holds for a plane and destination. -/
def State.route (s : State) (die plane dst : Nat) : BitVec 16 := mapGet (fun _ => 0) s.routes (die * 2 ^ 14 + plane % 4 * 2 ^ 12 + dst % 4096)

/-- What a route entry says (R260): port, delivery, or a reserved value. -/
inductive Next
  | port (p : Nat)
  | here
  | reserved
deriving DecidableEq, Repr

/-- NEXT of an entry. -/
def nextOf (e : BitVec 16) : Next :=
  let n := fld e 0 12
  if n < 12 then .port n else if n = 0xFFF then .here else .reserved

/-- The virtual lane after a hop: a DL bit moves it to 1 for good (R261). -/
def nextVl (e : BitVec 16) (vl : Nat) : Nat := if bit e 12 then 1 else vl

/-- A misrouted transfer is drained and ends the job (R263). -/
def State.misroute (s : State) (d unit inst : Nat) (h : XHead) : State :=
  s.raise d ⟨.jobFatal, 0x0042, unit, inst, 0, (Config.recordArg 0x42 0 [h.src, h.dst]).toNat, (Config.recordArg 0x42 1 [h.flow, h.plane]).toNat, 0⟩

/-! ### Delivery at a compute die -/

/-- Transfers that have reached the fabric interface of die `d` and await their action. -/
def State.fi (s : State) (d : Nat) : List Xfer := mapGet (fun _ => []) s.fiIn d

/-- Replace them. -/
def State.setFi (s : State) (d : Nat) (l : List Xfer) : State := { s with fiIn := mapSet (fun _ => []) s.fiIn d l }

/-- Flow tracking entries of die `d`. -/
def State.trackTab (s : State) (d : Nat) : List Track := mapGet (fun _ => []) s.tracks d

/-- Replace them. -/
def State.setTracks (s : State) (d : Nat) (l : List Track) : State := { s with tracks := mapSet (fun _ => []) s.tracks d l }

/-- The tracking entry of a flow. -/
def State.track (s : State) (d src flow : Nat) : Track :=
  ((s.trackTab d).find? (fun t => t.src == src && t.flow == flow)).getD ⟨src, flow, 0, 0, false, []⟩

/-- Put a tracking entry back; one with nothing outstanding is freed (R264). -/
def State.setTrack (s : State) (d : Nat) (t : Track) : State :=
  let rest := (s.trackTab d).filter (fun u => !(u.src == t.src && u.flow == t.flow))
  s.setTracks d (if t.unreported = 0 && t.held.isEmpty then rest else rest ++ [t])

/-- Is this a transfer of a flow that a tracking entry follows (R264)? -/
def trackedKind (k : Nat) : Bool := decide (k ≤ 3) || k == 7 || k == 9

/-- Number of flows a die tracks: those with an entry and those with transfers that wait. -/
def State.trackedFlows (s : State) (d : Nat) : List (Nat × Nat) :=
  (((s.trackTab d).map (fun t => (t.src, t.flow))) ++ ((s.fi d).filter (fun x => trackedKind x.h.kind)).map (fun x => (x.h.src, x.h.flow))).dedup

/-- Must a transfer wait in its link buffer for a tracking entry (R264)? -/
def State.trackFull (s : State) (d : Nat) (x : Xfer) : Bool :=
  let l := s.trackedFlows d
  trackedKind x.h.kind && decide (l.length ≥ 4096) && !l.contains (x.h.src, x.h.flow)

/-- The header of an answer to a transfer (R261): back to its source, to the die of its flow, on its plane. (DEDUCED, log entry 38.) -/
def State.answerHead (s : State) (x : Xfer) (kind : Nat) : XHead :=
  { XHead.zero with kind := kind, plane := x.h.plane, rdie := x.h.flow / 2 ^ 18, hops := 63, dst := x.h.src, src := s.pkgId, flow := x.h.flow }

/-- Report transfers of a flow as retired (R265). -/
def State.complete1 (s : State) (d : Nat) (x : Xfer) (n status : Nat) : State :=
  s.respond d ⟨1, { s.answerHead x 6 with amount := n, status := status }, [], false⟩

/-- READ_DATA for a READ (R266). -/
def State.readData (s : State) (d : Nat) (x : Xfer) (g : List DGran) (status : Nat) : State :=
  s.respond d ⟨x.cls, { s.answerHead x 9 with ngr := g.length, tag := x.h.tag, status := status }, g, false⟩

/-- A die stands in for the lost die that a transfer names and answers it with error (R262). -/
def State.standIn (s : State) (d : Nat) (x : Xfer) : State :=
  match x.h.kind with
  | 0 => s.complete1 d x 1 1
  | 1 => s.complete1 d x 1 1
  | 2 => s.raise d (signalRefused 0x08 d (x.h.addr % 2 ^ 18) x.h.src x.h.flow 0)
  | 7 => s.complete1 d x 1 1
  | 8 => s.readData d x (List.replicate x.h.ngr ⟨0, 0⟩) 1
  | _ => s

/-- The TRANSFER_REFUSED record (Table 8.7, Table 11.8). (DEDUCED, log entry 38.) -/
def xferRefused (cls : ErrClass) (d : Nat) (x : Xfer) : ErrInfo := ⟨cls, 0x0043, 0x08, d, x.h.addr, x.h.src, x.h.kind, 0⟩

/-- Does a transfer come from outside the receiver's domain (R267): from a package that the die's routes do not reach, since only packages outside a
domain have no route (R17)? (DEDUCED, log entry 38.) -/
def State.outside (s : State) (d : Nat) (h : XHead) : Bool := nextOf (s.route d h.plane h.src) == .reserved

/-- A transfer reaches the fabric interface of die `d` (R262, R264, R267). -/
def State.deliver (s : State) (d : Nat) (x : Xfer) : State :=
  if x.bad || !ngrOk x.h then s.raise d (xferRefused .jobFatal d x)
  else if x.h.kind != 10 && (!s.idValid || s.outside d x.h) then s.raise d (xferRefused .info d x)
  else if x.h.rdie ≠ d then s.standIn d x
  else s.setFi d (s.fi d ++ [x])

/-! ### Arbitration (R269) -/

/-- An output at which transfers compete: die, output (0 to 5 a local port, 6 and 7 an edge; on a compute die 0, the fabric interface), class. -/
def State.xbar (s : State) (die out cls : Nat) : XOut := mapGet (fun _ => ⟨none, 0⟩) s.xbars ((die * 8 + out) * 4 + cls)

/-- Replace it. -/
def State.setXbar (s : State) (die out cls : Nat) (x : XOut) : State :=
  { s with xbars := mapSet (fun _ => ⟨none, 0⟩) s.xbars ((die * 8 + out) * 4 + cls) x }

/-- The input that wins among those that compete, in ascending order: the first after the last winner, else the first. -/
def winner (next : Nat) (inputs : List Nat) : Option Nat :=
  match inputs.find? (fun i => decide (next ≤ i)) with
  | some i => some i
  | none => inputs.head?

/-! ### Origination (R261) -/

/-- What a fabric interface would send next from a source, and the state without it. -/
def State.fiNext (s : State) (d : Nat) (src : FiSource) : Option (Xfer × State) :=
  match src with
  | .flow q =>
    let n := d * 2 ^ 18 + q.toNat
    match (s.flow n).placed with
    | [] => none
    | x :: r => some (x, s.setFlow n { s.flow n with placed := r })
  | .response =>
    match mapGet (fun _ => []) s.resp d with
    | [] => none
    | x :: r => some (x, { s with resp := mapSet (fun _ => []) s.resp d r })

/-- A source as an input of the round robin: its SEND queue; the responses come after all of them. (DESIGN CHOICE, log entry 74.) -/
def srcInput (src : FiSource) : Nat := match src with | .flow q => q.toNat | .response => 2 ^ 18

/-- The sources of a fabric interface whose next transfer has a class, in ascending order. -/
def State.fiInputs (s : State) (d cls : Nat) : List Nat :=
  let first (l : List Xfer) : Bool := match l with | x :: _ => x.cls == cls | [] => false
  ((s.flows.filter (fun (f : Nat × Flow) => f.1 / 2 ^ 18 == d && first f.2.placed)).map (fun (f : Nat × Flow) => f.1 % 2 ^ 18))
    ++ (if first (mapGet (fun _ => []) s.resp d) then [2 ^ 18] else [])

/-- TRANSFER_ORIGINATE (R261, R263, R269): a fabric interface looks up DST in the transfer's plane and sends it toward the port die that
carries NEXT, or finds it misrouted. A source waits while it is another's turn, and while no way leads to that die. -/
def execTransferOriginate (d : Fin 4) (src : FiSource) (s : State) : Host.Outcome State Fault Refusal :=
  .next (
    if !s.dieUp d then s
    else match s.fiNext d src with
    | none => s
    | some (x, s') =>
      let e := s.route d x.h.plane x.h.dst
      let x' := { x with h := { x.h with vl := nextVl e x.h.vl } }
      if winner (s.xbar d 0 x.cls).next (s.fiInputs d x.cls) ≠ some (srcInput src) then s
      else
        let s' := s'.setXbar d 0 x.cls ⟨none, srcInput src + 1⟩
        let bad := (s'.bump d fFiMisrouteCntCount 1).misroute d 0x08 d x.h
        match nextOf e with
        | .reserved => bad
        | .here =>
          if x.h.dst ≠ s.pkgId then bad
          else if !s.dieUp x.h.rdie then s'.deliver d x'
          else if s.reaches d x.h.rdie 0 then s'.deliver x.h.rdie x'
          else s
        | .port p =>
          if s.func (portFunc p) = 5 then bad
          else match s.gateTo d (portDie p) with
            | some g => s'.edgeSend g 2 d (portDie p) (.fabOut (p % 6) x')
            | none => s)

/-! ### Hops through a port die (R257, R261 to R263) -/

/-- The next flit of a receive buffer. -/
def State.rxFlit (s : State) (p buf : Nat) : Option Flit := (mapGet (fun _ => []) (s.port p).rx buf).head?

/-- The transfer in progress of a receive buffer. -/
def State.hop (s : State) (p buf : Nat) : Option HopRun := mapGet (fun _ => none) (s.port p).hops buf

/-- Take a flit out of a receive buffer; its credit is owed to the partner (R257). -/
def State.freeRx (s : State) (p buf : Nat) : State :=
  let x := s.port p
  s.setPort p { x with
    rx := mapSet (fun _ => []) x.rx buf ((mapGet (fun _ => []) x.rx buf).drop 1)
    owed := mapSet (fun _ => 0) x.owed buf (mapGet (fun _ => 0) x.owed buf + 1) }

/-- Set the transfer in progress of a receive buffer. -/
def State.setHop (s : State) (p buf : Nat) (r : Option HopRun) : State :=
  let x := s.port p
  s.setPort p { x with hops := mapSet (fun _ => none) x.hops buf r }

/-- Where a header goes from a port die after its hop (R261, R262): a goal; nowhere, since it is misrouted (R263); or, as the outer `none`, it waits for
a die that is on its way. -/
def State.hopGoal (s : State) (pd : Nat) (h : XHead) : Option HopGoal :=
  match nextOf (s.route pd h.plane h.dst) with
  | .reserved => some .drain
  | .here =>
    if h.dst ≠ s.pkgId then some .drain
    else (if s.dieUp h.rdie then s.entryFor pd h.rdie else [pd - 4, pd - 2].find? (fun n => s.linkOk pd n)).map (fun n => .die n none)
  | .port q =>
    if h.hops ≤ 1 ∨ s.func (portFunc q) = 5 then some .drain
    else if portDie q = pd then some (.port q)
    else (s.crossing pd h.dst).map (fun z => .die z.1 (some (q % 6)))

/-- The output of a port die that a goal uses: a local port, or the edge to a compute die. -/
def outOf (g : HopGoal) : Option Nat :=
  match g with
  | .port q => some (q % 6)
  | .die n _ => some (if n < 2 then 6 else 7)
  | .drain => none

/-- The input number of a receive buffer at the crossbar of its die; after those of the ports come its edges. -/
def inputOf (p buf : Nat) : Nat := 2 * (p % 6) + buf % 2

/-- The header that begins at a receive buffer without a transfer in progress. -/
def State.hopHead (s : State) (p buf : Nat) : Option XHead :=
  match s.rxFlit p buf, s.hop p buf with
  | some f, none => if f.typ = 1 ∧ headBad (fld f.pay 0 2048) = false then some (headOf (fld f.pay 0 2048)) else none
  | _, _ => none

/-- The oldest transfer that a compute die handed over an edge to a local port of a port die, in a class. -/
def State.handed (s : State) (pd edge port cls : Nat) : Option DieMsg :=
  s.msgs.find? (fun m => m.at_ == 4 * pd + edge && (match m.body with | .fabOut k x => k == port && x.cls == cls | _ => false))

/-- Is a message the oldest that its edge handed to its class? -/
def State.oldestHanded (s : State) (m : DieMsg) : Bool :=
  match m.body with
  | .fabOut _ x => (s.msgs.find? (fun k => k.at_ == m.at_ && (match k.body with | .fabOut _ y => y.cls == x.cls | _ => false))) == some m
  | _ => false

/-- The inputs whose next transfer of a class goes to an output of a port die, in ascending order. -/
def State.xbarInputs (s : State) (pd out cls : Nat) : List Nat :=
  ((span 0 12).filter (fun i =>
    match s.hopHead (6 * (pd - 4) + i / 2) (2 * cls + i % 2) with
    | some h => (s.hopGoal pd h).bind outOf == some out
    | none => false))
  ++ ((span 0 2).filter (fun e => match s.handed pd e out cls with | some m => s.oldestHanded m | none => false)).map (· + 12)

/-- Is an output free for a new transfer, and is it the turn of an input (R268, R269)? -/
def State.xbarGrants (s : State) (pd out cls input : Nat) : Bool :=
  let x := s.xbar pd out cls
  x.own.isNone && winner x.next (s.xbarInputs pd out cls) == some input

/-- FAB_OUT (R372): a port die takes a transfer that a compute die handed to it, the oldest whose output is free and whose turn it is, and gives
it to the egress port. -/
def execFabOut (pd : Fin 2) (s : State) : Host.Outcome State Fault Refusal :=
  .next (
    let d := 4 + pd.val
    let may (m : DieMsg) : Bool := m.at_ / 4 == d && (match m.body with
      | .fabOut port x => s.xbarGrants d port x.cls (12 + m.at_ % 4) && s.oldestHanded m && (mapGet (fun _ => []) (s.port (6 * pd.val + port)).tx x.cls).isEmpty
      | _ => false)
    if !s.admitted d then s
    else match takeFirst may s.msgs with
    | some (m, r) => (match m.body with
      | .fabOut port x => ((s.msgGone m r).setXbar d port x.cls ⟨none, 12 + m.at_ % 4 + 1⟩).portSend (6 * pd.val + port) x
      | _ => s)
    | none => s)

/-- FAB_IN (R261, R262, R372): a compute die takes the oldest transfer that a port die handed to it: delivered, over one edge when RDIE is another die,
or passed on unchanged to the other port die. It waits while no way leads on. -/
def execFabIn (d : Fin 4) (s : State) : Host.Outcome State Fault Refusal :=
  .next (
    let isIn (m : DieMsg) : Bool := m.at_ / 4 == d.val && (match m.body with | .fabIn _ _ _ => true | _ => false)
    if !s.dieUp d then s
    else match takeFirst isIn s.msgs with
    | some (m, r) => (match m.body with
      | .fabIn _ cross x => (match cross with
        | some q =>
          let pd := if m.src = 4 then 5 else 4
          (match s.gateTo d pd with
          | some g => (s.msgGone m r).edgeSend g 2 m.src pd (.fabOut q x)
          | none => s)
        | none =>
          let t := if s.dieUp x.h.rdie then x.h.rdie else d.val
          if s.trackFull t x || !s.reaches d t 0 then s else (s.msgGone m r).deliver t x)
      | _ => s)
    | none => s)

/-- A transfer that breaks the first row of Table 8.7 is found at a port: recorded there, and drained up to the next HEAD. -/
def State.hopRefused (s : State) (p buf : Nat) (h : XHead) : State :=
  (s.raise (portDie p) { xferRefused .jobFatal (portDie p) ⟨buf / 2, h, [], true⟩ with unit := 0x0B, inst := p }).setHop p buf (some ⟨.drain, h, 2 ^ 16, [], true⟩)

/-- Hand a whole transfer to a compute die, as FAB_IN. -/
def State.hopDeliver (s : State) (p : Nat) (r : HopRun) (cls n : Nat) (cross : Option Nat) : State :=
  let pd := portDie p
  s.edgeSend pd (if n < 2 then 0 else 1) pd (if cross.isSome then 9 - pd else r.head.rdie) (.fabIn (p % 6) cross ⟨cls, r.head, r.took.take (if r.head.kind = 8 then 0 else r.head.ngr), false⟩)

/-- After a flit of a transfer in progress: more to come, or the transfer has passed, its output is free, and a message between dies goes out. -/
def State.hopStep (s : State) (p buf : Nat) (r : HopRun) : State :=
  if r.left ≠ 0 then s.setHop p buf (some r)
  else
    let s := s.setHop p buf none
    let s := match outOf r.goal with
      | some o => s.setXbar (portDie p) o (buf / 2) { s.xbar (portDie p) o (buf / 2) with own := none }
      | none => s
    match r.goal with
    | .die n cross => if r.bad then s.raise (portDie p) { xferRefused .jobFatal (portDie p) ⟨buf / 2, r.head, [], true⟩ with unit := 0x0B, inst := p } else s.hopDeliver p r (buf / 2) n cross
    | _ => s

/-- A HEAD is due at a receive buffer: the die decrements HOPS, looks up DST and forwards, crosses, delivers or drains. -/
def State.hopStart (s : State) (p buf : Nat) (f : Flit) : State :=
  let pd := portDie p
  let n := fld f.pay 0 2048
  let h := headOf n
  let cls := buf / 2
  if f.typ ≠ 1 then (s.freeRx p buf).hopRefused p buf XHead.zero
  else if headBad n then (s.freeRx p buf).hopRefused p buf h
  else
    let y := { h with hops := h.hops - 1, vl := nextVl (s.route pd h.plane h.dst) h.vl }
    match s.hopGoal pd h with
    | none => s
    | some g => (match outOf g with
      | none => (((s.freeRx p buf).bump pd fEwMisrouteCntCount 1).misroute pd 0x0B p h).hopStep p buf ⟨g, y, dataFlits h, [], false⟩
      | some o =>
        if !s.xbarGrants pd o cls (inputOf p buf) then s
        else
          let t := ((s.freeRx p buf).setXbar pd o cls ⟨some (inputOf p buf), inputOf p buf + 1⟩)
          match g with
          | .port q => if s.portTakes q (2 * cls + y.vl) then (t.portFlits q (2 * cls + y.vl) [headFlit cls y]).hopStep p buf ⟨g, y, dataFlits h, [], false⟩ else s
          | _ => t.hopStep p buf ⟨g, y, dataFlits h, [], false⟩)

/-- A flit of the transfer in progress is next in a receive buffer. A HEAD ends the transfer early: its granules do not match NGR (Table 8.7). -/
def State.hopNext (s : State) (p buf : Nat) (f : Flit) (r : HopRun) : State :=
  let cls := buf / 2
  if f.typ = 1 then s.hopStep p buf { r with left := 0, bad := true }
  else
    let a : DGran := ⟨BitVec.ofNat 1024 (fld f.pay 0 1024), f.chk0⟩
    let b : DGran := ⟨BitVec.ofNat 1024 (fld f.pay 1024 1024), f.chk1⟩
    match r.goal with
    | .port q => if s.portTakes q (2 * cls + r.head.vl) then ((s.freeRx p buf).portFlits q (2 * cls + r.head.vl) [f]).hopStep p buf { r with left := r.left - 1 } else s
    | .die _ _ => (s.freeRx p buf).hopStep p buf { r with left := r.left - 1, took := r.took ++ [a, b], bad := r.bad || f.idx + r.left != dataFlits r.head }
    | .drain => (s.freeRx p buf).hopStep p buf { r with left := r.left - 1 }

/-- TRANSFER_HOP (R257, R261 to R263): the next flit of a receive buffer moves on through its port die. (DEDUCED, log entry 38.) -/
def execTransferHop (p : Fin 12) (buf : Fin 8) (s : State) : Host.Outcome State Fault Refusal :=
  .next (
    if !s.admitted (portDie p) then s
    else match s.rxFlit p buf, s.hop p buf with
      | none, _ => s
      | some f, none => s.hopStart p buf f
      | some f, some r => s.hopNext p buf f r)

/-! ### What the receiver does with each kind (R264 to R267) -/

/-- The first transfer of a kind at a die with no earlier transfer of its flow, and the transfers without it. -/
def takeArrived (kind : Nat) : List (Nat × Nat) → List Xfer → Option (Xfer × List Xfer)
  | _, [] => none
  | seen, x :: r =>
    if x.h.kind = kind ∧ !seen.contains (x.h.src, x.h.flow) then some (x, r)
    else (takeArrived kind ((x.h.src, x.h.flow) :: seen) r).map (fun y => (y.1, x :: y.2))

/-- The first transfer of a kind, whatever is before it: responses and held kinds. -/
def takeKind (kind : Nat) (l : List Xfer) : Option (Xfer × List Xfer) := takeFirst (fun x => x.h.kind == kind) l

/-- A write of a flow has retired (R264, R265): signals and fences behind it move up, and a COMPLETION is sent when the transfer asks for
one or 16 are unreported. -/
def State.retire (s : State) (d : Nat) (x : Xfer) (failed : Bool) : State :=
  let t0 : Track := s.track d x.h.src x.h.flow
  let t1 : Track := { t0 with plane := x.h.plane, held := t0.held.map (fun (h : HeldX) => { h with after := h.after - 1 }) }
  let t : Track := if countedKind x.h.kind then { t1 with unreported := t1.unreported + 1, failed := t1.failed || failed } else t1
  if t.unreported ≠ 0 ∧ (x.h.ackreq = true ∨ t.unreported ≥ 16) then
    (s.setTrack d { t with unreported := 0, failed := false }).complete1 d x t.unreported (b2n t.failed)
  else s.setTrack d t

/-- Record at the target that a fabric access was refused (R51). -/
def State.fabricRefused (s : State) (d a : Nat) (x : Xfer) : State := s.raise d ⟨.info, 0x0048, 0x08, d, a, x.h.src, x.h.flow, 0⟩

/-- Write granules that arrive from the fabric; the result says whether one failed (R51, R264). -/
def State.fabricWrite (d : Nat) (x : Xfer) : List DGran → Nat → State → Bool × State
  | [], _, s => (false, s)
  | g :: r, a, s =>
    let w := s.memWrite (.fabric d) (a / 128) g.v g.chk
    match w.1 with
    | .ok _ _ => State.fabricWrite d x r (a + 128) w.2
    | .err kind =>
      let z := State.fabricWrite d x r (a + 128) (if kind = 0 then w.2.fabricRefused d a x else w.2)
      (true, z.2)
    | .wait => (true, (State.fabricWrite d x r (a + 128) w.2).2)

/-- WRITE (R264): the next WRITE of a flow is written and retires. -/
def execWrite (d : Fin 4) (s : State) : Host.Outcome State Fault Refusal :=
  .next (match takeArrived 0 [] (s.fi d) with
    | none => s
    | some (x, r) =>
      let w := State.fabricWrite d x x.data x.h.addr (s.setFi d r)
      w.2.retire d x w.1)

/-- Why a LAND is refused (Table 8.7): the queue is not an enabled RECV queue without ERR fed by this flow, or lacks room. -/
def landBad (v : BitVec 256) (x : Xfer) : Bool :=
  qKind v != 2 || !qEn v || qErr v || qPeerQ v != x.h.flow || decide (qHeld v + landEntries v x.h.ngr > qDepth v)

/-- Write landed granules into ring entries from entry `k`, padded with zeros (R240); whether one failed; a class-refused one is recorded (R51). -/
def State.landWrite (d : Nat) (x : Xfer) (v : BitVec 256) (k : Nat) (data : List DGran) (s : State) : Bool × State :=
  let per := qEsize v
  if per < 128 then
    data.foldl (fun (r : Bool × Nat × State) g =>
      let n := 128 / per
      let z := (span 0 n).foldl (fun (q : Bool × State) j =>
        let a := qEntryAt v (r.2.1 + j)
        match q.2.narrowAt (.fabric d) a (((leBytes g.v.toNat 128).drop (per * j)).take per) false with
        | (none, s) => (q.1, s)
        | (some kind, s) => (true, if kind = 0 then s.fabricRefused d a x else s)) (r.1, r.2.2)
      (z.1, r.2.1 + n, z.2)) (false, k, s) |> (fun r => (r.1, r.2.2))
  else
    let gpe := per / 128
    let n := ceilDiv data.length gpe * gpe
    (span 0 n).foldl (fun (q : Bool × State) i =>
      let g := (data[i]?).getD ⟨0, 0⟩
      let a := (qEntryAt v (k + i / gpe)) / 128 + i % gpe
      match q.2.memWrite (.fabric d) a g.v g.chk with
      | (.ok _ _, s) => (q.1, s)
      | (.err kind, s) => (true, if kind = 0 then s.fabricRefused d (128 * a) x else s)
      | (.wait, s) => (true, s)) (false, s)

/-- Keep the header of a landed transfer with the entry it begins at, for as long as the ring holds the entry (R281). (DEDUCED, log entry 38.) -/
def State.noteLand (s : State) (q : Nat) (v : BitVec 256) (h : XHead) : State :=
  let old := (mapGet (fun _ => []) s.landHeads q).filter (fun (e : Nat × XHead) => (qProd v + 2 ^ 32 - e.1) % 2 ^ 32 ≤ qHeld v)
  { s with landHeads := mapSet (fun _ => []) s.landHeads q (old ++ [(qProd v, h)]) }

/-- A LAND that Table 8.7 refuses: the record, and the transfer retires with an error, which is reported at once (R265, R267). -/
def State.landRefused (s : State) (d : Nat) (x : Xfer) : State :=
  (s.raise d (xferRefused .jobFatal d x)).retire d { x with h := { x.h with ackreq := true } } true

/-- LAND (R240, R264, R267): the next LAND of a flow is appended to its RECV queue; PROD advances and the consumer is notified. A landing
that Table 8.7 refuses ends the job and is answered with STATUS 1. -/
def execLand (d : Fin 4) (s : State) : Host.Outcome State Fault Refusal :=
  .next (match takeArrived 1 [] (s.fi d) with
    | none => s
    | some (x, r) =>
      let s := s.setFi d r
      let q := qSplit x.h.peerQ
      match s.qGet q.1 q.2 with
      | (none, s) => s.landRefused d x
      | (some v, s) =>
        if landBad v x then s.landRefused d x
        else
          let n := landEntries v x.h.ngr
          let w := State.landWrite q.1 x v (qProd v) x.data s
          let s := (((w.2.noteLand x.h.peerQ v x.h).qPut q.1 q.2 (qAddProd v n))).notify q.1 v n
          s.retire d x w.1)

/-- Hold a signal or a fence behind the writes of its flow that have not retired (R228, R230, R264). -/
def State.hold (s : State) (d : Nat) (x : Xfer) (r : List Xfer) : State :=
  let before := (s.fi d).takeWhile (fun y => y != x)
  let n := (before.filter (fun y => y.h.src == x.h.src && y.h.flow == x.h.flow && (countedKind y.h.kind || y.h.kind == 9))).length
  let t := s.track d x.h.src x.h.flow
  (s.setFi d r).setTrack d { t with plane := x.h.plane, held := t.held ++ [⟨x, n⟩] }

/-- Pass a signal to its Beryl unit (R264): port 19 on this die, a die-to-die port on another. -/
def State.passSignal (s : State) (d : Nat) (x : Xfer) : State :=
  let t := natBits x.h.addr 16 2
  if x.h.amount = 0 then s
  else s.berylSend t ⟨if t = d then 19 else diePort t d, .inc, x.h.addr % 65536, x.h.amount, .fabric x.h.src x.h.flow⟩

/-- SIGNAL (R228): a signal arrives and is held behind its flow's unretired writes. -/
def execSignal (d : Fin 4) (s : State) : Host.Outcome State Fault Refusal :=
  .next (match takeKind 2 (s.fi d) with
    | none => s
    | some (x, r) => s.hold d x r)

/-- FENCE (R230): a fence arrives and is held in the same way. -/
def execFence (d : Fin 4) (s : State) : Host.Outcome State Fault Refusal :=
  .next (match takeKind 3 (s.fi d) with
    | none => s
    | some (x, r) => s.hold d x r)

/-- The first held transfer of a kind with no write before it, its entry, and the entry without it; what is held before it in the
same flow must go first. -/
def releasable (kind : Nat) (l : List Track) : Option (Xfer × Track) :=
  l.findSome? (fun t => match t.held with
    | h :: r => if h.x.h.kind = kind ∧ h.after = 0 then some (h.x, { t with held := r }) else none
    | [] => none)

/-- SIGNAL_RELEASE (R228, R264): the earlier writes of a held signal have retired and it passes to its Beryl unit. -/
def execSignalRelease (d : Fin 4) (s : State) : Host.Outcome State Fault Refusal :=
  .next (match releasable 2 (s.trackTab d) with
    | none => s
    | some (x, t) => (s.setTrack d t).passSignal d x)

/-- FENCE_RELEASE (R230, R264): the earlier writes of a held fence have retired and FENCE_ACK goes to the source. -/
def execFenceRelease (d : Fin 4) (s : State) : Host.Outcome State Fault Refusal :=
  .next (match releasable 3 (s.trackTab d) with
    | none => s
    | some (x, t) => (s.setTrack d t).respond d ⟨1, s.answerHead x 4, [], false⟩)

/-- FENCE_ACK (R230): completes the sender's oldest SY.FENCE on the flow. -/
def execFenceAck (d : Fin 4) (s : State) : Host.Outcome State Fault Refusal :=
  .next (match takeKind 4 (s.fi d) with
    | none => s
    | some (x, r) =>
      let s := s.setFi d r
      match takeFirst (fun (f : Nat × Nat × Stream) => f.1 == x.h.flow) s.fences with
      | none => s
      | some ((_, lc, st), rest) => { s with fences := rest }.settleSy lc st .done)

/-- CREDIT (R242, R243): adds AMOUNT to CREDIT of the SEND queue named. -/
def execCredit (d : Fin 4) (s : State) : Host.Outcome State Fault Refusal :=
  .next (match takeKind 5 (s.fi d) with
    | none => s
    | some (x, r) => (s.setFi d r).addCredit x.h.peerQ x.h.amount)

/-- A DM word's transfer to another package has been answered; the first failing address stays. -/
def State.dmAnswered (s : State) (pc id : Nat) (done : Bool) (bad : Option Nat) : State :=
  s.modCore pc (fun c => { c with inflight := c.inflight.map (fun f =>
    if f.eng == .dm && f.id == id then
      { f with dm := { f.dm with waiting := f.dm.waiting - b2n done, bad := match f.dm.bad with | some b => some b | none => bad } }
    else f) })

/-- One transfer of a flow is reported retired to whoever waits for it; `failed` says that the COMPLETION reports an error and this is
the transfer taken to have failed. (DEDUCED, log entry 34.) -/
def State.retired (s : State) (q : Nat) (o : XOrigin) (failed : Bool) : State :=
  match o with
  | .none => s
  | .dm pc id a => s.dmAnswered pc id true (if failed then some a else none)
  | .desc =>
    if failed then
      match s.qGet (qSplit q).1 (qSplit q).2 with
      | (some v, s) => s.queueError (qSplit q).1 (qSplit q).2 v (qCons v) 3
      | (none, s) => s
    else s
  | .coll d ix => { s with collSent := mapSet (fun _ => 0) s.collSent (d * 4096 + ix) (mapGet (fun _ => 0) s.collSent (d * 4096 + ix) - 1) }

/-- COMPLETION (R265): AMOUNT transfers of a flow have retired at the receiver. With STATUS 1 the first of them is taken to have
failed. -/
def execCompletion (d : Fin 4) (s : State) : Host.Outcome State Fault Refusal :=
  .next (match takeKind 6 (s.fi d) with
    | none => s
    | some (x, r) =>
      let s := s.setFi d r
      let f := s.flow x.h.flow
      let mine := f.unacked.take x.h.amount
      let s := s.setFlow x.h.flow { f with unacked := f.unacked.drop x.h.amount }
      ((span 0 mine.length).zip mine).foldl (fun s o => s.retired x.h.flow o.2 (x.h.status = 1 && o.1 == 0)) s)

/-- COMPLETION_TIMER (R265): 1 µs after the first unreported retirement of a flow it is reported. -/
def execCompletionTimer (d : Fin 4) (src : BitVec 12) (flow : BitVec 20) (s : State) : Host.Outcome State Fault Refusal :=
  .next (
    let t := s.track d src.toNat flow.toNat
    if t.unreported = 0 then s
    else
      let x : Xfer := ⟨1, { XHead.zero with plane := t.plane, src := src.toNat, flow := flow.toNat }, [], false⟩
      (s.setTrack d { t with unreported := 0, failed := false }).complete1 d x t.unreported (b2n t.failed))

/-- Read granules for a READ: each with whether it failed (R51, R266). -/
def State.fabricRead (d : Nat) (x : Xfer) : Nat → Nat → State → List (DGran × Bool) × State
  | 0, _, s => ([], s)
  | n + 1, a, s =>
    let m := s.memRead (.fabric d) (a / 128)
    match m.1 with
    | .ok v k =>
      let z := State.fabricRead d x n (a + 128) m.2
      ((⟨v, k.chk⟩, false) :: z.1, z.2)
    | .err kind =>
      let z := State.fabricRead d x n (a + 128) (if kind = 0 then m.2.fabricRefused d a x else m.2)
      ((⟨0, 0⟩, true) :: z.1, z.2)
    | .wait =>
      let z := State.fabricRead d x n (a + 128) m.2
      ((⟨0, 0⟩, true) :: z.1, z.2)

/-- Cut answers into runs of granules of one status. (DEDUCED, log entry 34.) -/
def runsOf : List (DGran × Bool) → List (Bool × List DGran)
  | [] => []
  | (g, b) :: r =>
    match runsOf r with
    | (c, l) :: t => if b = c then (b, g :: l) :: t else (b, [g]) :: (c, l) :: t
    | [] => [(b, [g])]

/-- READ (R266): answered with READ_DATA in arrival order; granules that fail travel with STATUS 1. (DEDUCED, log entry 34.) -/
def execRead (d : Fin 4) (s : State) : Host.Outcome State Fault Refusal :=
  .next (match takeArrived 8 [] (s.fi d) with
    | none => s
    | some (x, r) =>
      let g := State.fabricRead d x x.h.ngr x.h.addr (s.setFi d r)
      (runsOf g.1).foldl (fun s p => s.readData d x p.2 (b2n p.1)) g.2)

/-- Write granules of READ_DATA for a DM.LOAD: into the scratchpad with the block checks received (R202). -/
def State.loadGrans (s : State) (pc w : Nat) (data : List DGran) : State :=
  ((span 0 data.length).zip data).foldl (fun (s : State) p => s.modCore pc (fun c => spadPutGran pc c (w / 2 + p.1) p.2.v p.2.chk)) s

/-- The address of a remote DM.LOAD's word, as the word named it, for a local address of the other package. -/
def State.loadAddr (s : State) (pc id a : Nat) : Nat :=
  match (s.core pc).inflight.find? (fun f => f.eng == .dm && f.id == id) with
  | some f => dmAddr f.ent + (a - dmAddr f.ent % 2 ^ 48)
  | none => a

end Sys2Proof.Machine
end

