-- ==== Sys2Proof/Machine/Runs.lean ====
section
/-!
DEFINITION. Runs of bytes in stack memory as an engine of a compute die reads and writes them, and elements of the data types in bytes.
-/

namespace Sys2Proof.Machine

/-- Read a granule of data. A collective engine reads IMAGE regions for its programs and an integrity block for its range lists only (Table 6.5), so
that a read of data there is refused. -/
def State.dataRead (s : State) (r : Requester) (g : Nat) : MemRes × State :=
  if (s.mem.region (granRegion g)).cls = 2 then (.err 0, s) else s.memRead r g

/-- Bytes of `n` granules of data from granule `g` on; none as soon as one completes with error. -/
def State.dataGrans (r : Requester) (g : Nat) : Nat → State → Option (List Byte) × State
  | 0, s => (some [], s)
  | n + 1, s =>
    match s.dataRead r g with
    | (.ok v _, s) =>
      (match State.dataGrans r (g + 1) n s with
       | (some l, s) => (some (leBytes v.toNat 128 ++ l), s)
       | (none, s) => (none, s))
    | (.err kind, s) => (none, s.accessFailed r g kind)
    | (.wait, s) => (none, s)

/-- `n` bytes of data from local address `a`. -/
def State.dataRun (s : State) (r : Requester) (a n : Nat) : Option (List Byte) × State :=
  let x := State.dataGrans r (a / 128) (ceilDiv (a % 128 + n) 128) s
  (x.1.map (fun l => (l.drop (a % 128)).take n), x.2)

/-- Bytes of `n` granules from granule `g` on; none as soon as one completes with error. -/
def State.readGrans (r : Requester) (g : Nat) : Nat → State → Option (List Byte) × State
  | 0, s => (some [], s)
  | n + 1, s =>
    match s.memRead r g with
    | (.ok v _, s) =>
      (match State.readGrans r (g + 1) n s with
       | (some l, s) => (some (leBytes v.toNat 128 ++ l), s)
       | (none, s) => (none, s))
    | (.err kind, s) => (none, s.accessFailed r g kind)
    | (.wait, s) => (none, s)

/-- `n` bytes from local address `a`. -/
def State.readRun (s : State) (r : Requester) (a n : Nat) : Option (List Byte) × State :=
  let x := State.readGrans r (a / 128) (ceilDiv (a % 128 + n) 128) s
  (x.1.map (fun l => (l.drop (a % 128)).take n), x.2)

/-- Write bytes from local address `a`, granule by granule: whole granules with a computed block check, parts as narrow writes. False as
soon as a write completes with error. -/
def State.writeRunFuel (r : Requester) : Nat → Nat → List Byte → State → Bool × State
  | 0, _, _, s => (true, s)
  | f + 1, a, bs, s =>
    if bs.isEmpty then (true, s)
    else
      let n := min bs.length (128 - a % 128)
      let part := bs.take n
      let w : Option Nat × State :=
        if n = 128 then
          (match s.memPut r (a / 128) (BitVec.ofNat 1024 (leNat part)) with
           | (.ok _ _, s) => (none, s)
           | (.err kind, s) => (some kind, s)
           | (.wait, s) => (none, s))
        else s.narrowAt r a part false
      match w.1 with
      | some kind => (false, w.2.accessFailed r (a / 128) kind)
      | none => State.writeRunFuel r f (a + n) (bs.drop n) w.2

/-- Write bytes from local address `a`. -/
def State.writeRun (s : State) (r : Requester) (a : Nat) (bs : List Byte) : Bool × State :=
  State.writeRunFuel r (bs.length / 128 + 2) a bs s

/-- Bytes padded with zeros to whole granules. -/
def padGran (bs : List Byte) : List Byte := bs ++ List.replicate ((128 - bs.length % 128) % 128) 0

/-- Bytes as granules with computed block checks. -/
def gransOf (bs : List Byte) : List DGran :=
  (span 0 (ceilDiv bs.length 128)).map (fun i =>
    let v : GranBits := BitVec.ofNat 1024 (leNat ((bs.drop (128 * i)).take 128))
    ⟨v, chkOf v⟩)

/-- The bytes of granules. -/
def granBytes (l : List DGran) : List Byte := l.flatMap (fun g => leBytes g.v.toNat 128)

/-- Elements of width `w` packed into bytes (R101), the last byte filled with zeros. -/
def packBytes (w : Nat) (l : List Nat) : List Byte := leBytes (packElems w l) (ceilDiv (w * l.length) 8)

/-- `n` elements of width `w` from bytes. -/
def unpackBytes (w n : Nat) (bs : List Byte) : List Nat :=
  let v := leNat bs
  (span 0 n).map (fun i => elemAt v w i)

/-- Convert an element pattern to another type under a rounding (R158); no change between equal types. (DESIGN CHOICE, log entry 15.) -/
def convElem (src dst : Nat) (rnd : Rnd) (b : Nat) : Nat :=
  if src = dst then b
  else if src = 12 ∨ dst = 12 then Config.bit1Conv src dst b
  else (toElem dst rnd false (decodeElem src b)).pat

/-- The generator of a die (R160): VX_SR_SEED and VX_SR_STEP of the core that holds the die's lowest logical core. (DEDUCED, log entry 40.) -/
def State.dieSrEnv (s : State) (d : Nat) : SrEnv :=
  match (span 0 16).findSome? (fun i => s.physOf (16 * d + i)) with
  | some pc => s.srEnv pc
  | none => ⟨0, 0⟩

/-- The tables of no image. -/
def noImage : ImageTables := ⟨0, 0, 0, false, 0, [], 0, 0, [], [], [], [], [], [], [], [], [], 0⟩

/-- The tables of the loaded image, or of the layout installed since (R329). -/
def State.image (s : State) : ImageTables :=
  match s.ctl.installed.orElse (fun _ => s.ctl.image) with
  | some bs => Config.imageOf bs
  | none => noImage

end Sys2Proof.Machine
end

