-- ==== Sys2Proof/Machine/Collective.lean ====
section
/-!
DEFINITION. The collective engine (R274 to R284): descriptors and their checks, chunks on the wire, what each rank sends and combines,
and the verdict record.
-/

namespace Sys2Proof.Machine

/-! ### Descriptors (Table 8.9) -/

/-- OP. -/
def cOp (x : BitVec 512) : Nat := fld x 0 3
/-- TOPO: true for a tree. -/
def cTree (x : BitVec 512) : Bool := bit x 3
/-- COMBINE. -/
def cComb (x : BitVec 512) : Nat := fld x 4 3
/-- ETYPE. -/
def cEtype (x : BitVec 512) : Nat := fld x 8 4
/-- DTYPE. -/
def cDtype (x : BitVec 512) : Nat := fld x 12 4
/-- WTYPE. -/
def cWtype (x : BitVec 512) : Nat := fld x 16 4
/-- WSCALE. -/
def cWscale (x : BitVec 512) : Nat := fld x 20 2
/-- ROUND. -/
def cRound (x : BitVec 512) : Nat := fld x 22 2
/-- N, the number of ranks. -/
def cN (x : BitVec 512) : Nat := fld x 32 13
/-- RANK. -/
def cRank (x : BitVec 512) : Nat := fld x 48 12
/-- SRC. -/
def cSrc (x : BitVec 512) : Nat := fld x 64 64
/-- DST. -/
def cDst (x : BitVec 512) : Nat := fld x 128 64
/-- LEN. -/
def cLen (x : BitVec 512) : Nat := fld x 192 32
/-- GEN. -/
def cGen (x : BitVec 512) : Nat := fld x 224 16
/-- PEERS. -/
def cPeers (x : BitVec 512) : Nat := fld x 256 64
/-- FORM RIGHT. -/
def cRight (x : BitVec 512) : Bool := fld x 320 2 == 1
/-- ROOT. -/
def cRoot (x : BitVec 512) : Nat := fld x 336 12
/-- TENSOR. -/
def cTensor (x : BitVec 512) : Nat := fld x 384 32
/-- DCTR. -/
def cDctr (x : BitVec 512) : Nat := fld x 416 16
/-- DAMT. -/
def cDamt (x : BitVec 512) : Nat := fld x 432 8
/-- CHUNK. -/
def cChunk (x : BitVec 512) : Nat := fld x 448 32

/-- Does the operation combine (R279)? VERDICT has its own combination (R283). -/
def cCombining (x : BitVec 512) : Bool := cOp x == 0 || cOp x == 2

/-- An XA type. -/
def isXa (t : Nat) : Bool := t == 10 || t == 11

/-- Peer table entries of an operation (R275). -/
def cEntries (x : BitVec 512) : Nat := if cOp x = 4 then cN x else if cTree x then 9 else 2

/-- Bytes of the peer table. -/
def cPeerBytes (x : BitVec 512) : Nat := 16 * cEntries x

/-- Is a combination of operation and type listed in Table 0.7? -/
def combOk (op t : Nat) : Bool := decide (3 ≤ op ∧ op ≤ 5) || (decide (op ≤ 2) && (decide (t ≤ 2) || isXa t))

/-- Does LEN meet Table 8.10? -/
def cLenOk (x : BitVec 512) : Bool :=
  match cOp x with
  | 1 => cLen x % 32 == 0
  | 3 => cLen x % 32 == 0
  | 5 => cLen x == 1
  | _ => cLen x % (32 * cN x) == 0

/-- A reserved field or code, or a field outside its range (Table 8.9). -/
def cReserved (x : BitVec 512) : Bool :=
  decide (cOp x ≥ 6) || decide (cComb x ≥ 6) || bit x 7 || decide (cEtype x ≥ 13) || decide (cDtype x ≥ 13) || decide (cWtype x ≥ 13)
    || !(cWscale x == 0 || (cWscale x == 2 && mxScalable (cWtype x))) || cRound x == 3 || fld x 24 8 != 0 || fld x 45 3 != 0 || fld x 60 4 != 0
    || fld x 240 16 != 0 || decide (fld x 320 2 ≥ 2) || fld x 322 14 != 0 || fld x 348 36 != 0 || fld x 440 8 != 0 || fld x 480 32 != 0
    || !decide (1 ≤ cN x ∧ cN x ≤ 4096) || decide (cRank x ≥ cN x) || cDamt x == 0
    || !decide (32 ≤ cChunk x ∧ cChunk x ≤ 2 ^ 24) || cChunk x % 32 != 0
    || [cSrc x, cDst x].any (fun a => a % 128 != 0 || decide (a ≥ stackBytes)) || decide (cPeers x ≥ stackBytes)

/-- Is a descriptor refused before its peer table is read (R276)? -/
def cRefused (x : BitVec 512) (gen : Nat) : Bool :=
  cReserved x || (cCombining x && decide (typeWidth (cDtype x) < typeWidth (cEtype x)))
    || ((isXa (cEtype x) || isXa (cDtype x) || isXa (cWtype x)) &&
        !(cEtype x == cWtype x && cDtype x == cWtype x && cWscale x == 0 && cRound x == 0))
    || (cCombining x && !combOk (cComb x) (cDtype x))
    || (cTree x && (cOp x == 0 || cOp x == 1 || cOp x == 4)) || !cLenOk x || cGen x != gen

/-- The entries of a peer table, and whether a reserved bit is set. -/
def peersOf (bs : List Byte) (n : Nat) : List CPeer × Bool :=
  let e (i : Nat) : Nat := leAt bs (16 * i) 16
  ((span 0 n).map (fun i => ⟨natBits (e i) 16 8, natBits (e i) 0 12, natBits (e i) 32 20, natBits (e i) 64 20⟩),
    (span 0 n).any (fun i => natBits (e i) 12 4 != 0 || natBits (e i) 24 8 != 0 || natBits (e i) 52 12 != 0 || natBits (e i) 84 44 != 0))

/-- Do the ROLE entries match OP and TOPO (R275)? -/
def rolesOk (x : BitVec 512) (l : List CPeer) : Bool :=
  if cOp x = 4 then l.all (fun p => p.role == 4)
  else if cTree x then (match l with
    | p :: r => (p.role == 2 || p.role == 5) && r.all (fun q => q.role == 3 || q.role == 5)
    | [] => false)
  else l.map CPeer.role == [0, 1]

/-! ### Shape of the data -/

/-- Granules of ETYPE in one shard: what one pass of chunks covers. -/
def cShard (x : BitVec 512) : Nat :=
  if cOp x = 5 then 1
  else if cTree x then cLen x
  else if cOp x = 0 ∨ cOp x = 2 ∨ cOp x = 4 then cLen x / cN x else cLen x

/-- Chunks of a shard (R277). -/
def cCount (x : BitVec 512) : Nat := ceilDiv (cShard x) (cChunk x)

/-- Elements in `g` granules of ETYPE. -/
def cElems (x : BitVec 512) (g : Nat) : Nat := g * 1024 / typeWidth (cEtype x)

/-- First element, counted in its shard, and elements of chunk `c`. (DEDUCED, log entry 39.) -/
def cSpan (x : BitVec 512) (c : Nat) : Nat × Nat :=
  let a := cElems x (c * cChunk x)
  (a, cElems x (min (cShard x) ((c + 1) * cChunk x)) - a)

/-- Bytes, padded to granules, of `n` elements of width `w`. -/
def elemGrans (w n : Nat) : Nat := ceilDiv (n * w) 1024

/-- Wire granules of a chunk of `n` elements: data, MX32 scales, tags (R279, R280). -/
def wireLen (x : BitVec 512) (n : Nat) : Nat :=
  if cOp x = 5 then 1
  else elemGrans (typeWidth (cWtype x)) n + (if cWscale x = 2 then elemGrans 8 (ceilDiv n 32) else 0) + (if isXa (cWtype x) then elemGrans 2 n else 0)

/-- Elements as patterns with tags. -/
abbrev Elems := List (Nat × Nat)

/-- Narrow elements of type `src` for the wire, element `first` of the full tensor being the first (R279, R280). -/
def toWire (x : BitVec 512) (env : SrEnv) (src first : Nat) (l : Elems) : List DGran :=
  let rnd (i : Nat) : Rnd := env.rnd (cRound x) (cTensor x) first i
  let w := typeWidth (cWtype x)
  let tags := if isXa (cWtype x) then padGran (packBytes 2 (l.map Prod.snd)) else []
  if cWscale x = 2 then
    let bs := (span 0 (ceilDiv l.length 32)).map (fun b =>
      mxBlock (cWtype x) rnd (32 * b) (((l.drop (32 * b)).take 32).map (fun e => decodeElem src e.1)))
    gransOf (padGran (packBytes w (bs.flatMap (fun b => b.2.1))) ++ padGran (packBytes 8 (bs.map Prod.fst)))
  else
    gransOf (padGran (packBytes w (((span 0 l.length).zip l).map (fun e => convElem src (cWtype x) (rnd e.1) e.2.1))) ++ tags)

/-- Widen `n` elements from the wire to DTYPE (R279). -/
def fromWire (x : BitVec 512) (n : Nat) (data : List DGran) : Elems :=
  let bs := granBytes data
  let w := typeWidth (cWtype x)
  let els := unpackBytes w n bs
  let rest := bs.drop (128 * elemGrans w n)
  if isXa (cWtype x) then els.zip (unpackBytes 2 n rest)
  else if cWscale x = 2 then
    ((span 0 n).zip els).map (fun e =>
      let v := decodeElem (cWtype x) e.2
      let y := match e8m0 (((rest[e.1 / 32]?).getD 0).toNat) with
        | none => Num.nan
        | some k => v.scale2 k
      ((toElem (cDtype x) .rne false y).pat, 0))
  else els.map (fun b => (convElem (cWtype x) (cDtype x) .rne b, 0))

/-- Widen a rank's own contribution from ETYPE to DTYPE. -/
def widenOwn (x : BitVec 512) (l : Elems) : Elems := l.map (fun e => (convElem (cEtype x) (cDtype x) .rne e.1, e.2))

/-- Combine two chunks in DTYPE, element by element, with the wraps (R21, R22, R120). -/
def combElems (x : BitVec 512) (a b : Elems) : Elems × Nat :=
  let c : VCtx := { VCtx.reset with etype := cDtype x }
  let r := (a.zip b).map (fun p => redComb c (cComb x) ⟨p.1.1, p.1.2⟩ ⟨p.2.1, p.2.2⟩)
  (r.map (fun e => (e.1.bits, e.1.tag)), r.foldl (fun n e => n + e.2) 0)

/-! ### Buffers -/

/-- Read `n` elements of ETYPE from element `i` of the source buffer, with their tags (R280). -/
def State.srcElems (s : State) (d : Nat) (x : BitVec 512) (i n : Nat) : Option Elems × State :=
  let w := typeWidth (cEtype x)
  match s.dataRun (.collective d) (cSrc x + i * w / 8) (ceilDiv (n * w) 8) with
  | (none, s) => (none, s)
  | (some bs, s) =>
    let els := unpackBytes w n bs
    if isXa (cEtype x) then
      match s.dataRun (.collective d) (cSrc x + 128 * cLen x + i / 4) (ceilDiv n 4) with
      | (none, s) => (none, s)
      | (some ts, s) => (some (els.zip (unpackBytes 2 n ts)), s)
    else (some (els.map (fun e => (e, 0))), s)

/-- Elements of the destination buffer (Table 8.10). (DEDUCED, log entry 39.) -/
def dstElems (x : BitVec 512) : Nat :=
  match cOp x with
  | 0 => cElems x (cLen x / cN x)
  | 1 => cElems x (cLen x) * cN x
  | _ => cElems x (cLen x)

/-- Where the tags of the destination buffer begin (R280): LEN × 128 bytes on, or behind the data of an ALL_GATHER's larger buffer.
(DEDUCED, log entry 39.) -/
def dstTags (x : BitVec 512) : Nat := cDst x + 128 * max (cLen x) (elemGrans (typeWidth (cDtype x)) (dstElems x))

/-- Write elements of DTYPE from element `i` of the destination buffer, and their tags. -/
def State.putElems (s : State) (d : Nat) (x : BitVec 512) (i : Nat) (l : Elems) : Bool × State :=
  let w := typeWidth (cDtype x)
  match s.writeRun (.collective d) (cDst x + i * w / 8) (packBytes w (l.map Prod.fst)) with
  | (false, s) => (false, s)
  | (true, s) =>
    if isXa (cDtype x) then s.writeRun (.collective d) (dstTags x + i / 4) (packBytes 2 (l.map Prod.snd))
    else (true, s)

/-! ### The engine -/

/-- Is the collective engine of a die READY? -/
def State.ceUp (s : State) (d : Nat) : Bool := s.dieUp d && s.funcUp (funcId 7 d 0)

/-- Descriptors in progress on a die. -/
def State.runs (s : State) (d : Nat) : List CRun := mapGet (fun _ => []) s.ces d

/-- Replace them; INFLIGHT follows. -/
def State.setRuns (s : State) (d : Nat) (l : List CRun) : State :=
  { s with ces := mapSet (fun _ => []) s.ces d l }.setF d fCeStatusInflight l.length

/-- Put a run back in its place. -/
def State.setRun (s : State) (d : Nat) (r : CRun) : State := s.setRuns d ((s.runs d).map (fun (y : CRun) => if y.ix = r.ix then r else y))

/-- Local address of descriptor `ix` of a die's program. -/
def State.ceAddr (s : State) (d ix : Nat) : Nat := s.getF d fCeCfgProg * 65536 + 64 * ix

/-- Stop a die's program (R276, R281): HALTED and a JOB_FATAL record that names the descriptor. (DEDUCED, log entry 40.) -/
def State.ceHalt (s : State) (d ix why : Nat) : State :=
  (s.setF d fCeStatusHalted 1).raise d ⟨.jobFatal, 0x0045, 0x07, d, s.ceAddr d ix, ix, (Config.recordArg 0x45 1 [why]).toNat, 0⟩

/-- Send a chunk to a peer (R258, R279, R281): LAND of a combining operation, else CHUNK; the last transfer asks for a completion. A flow
that is no enabled SEND queue to the peer stops the program. -/
def State.ceSend (s : State) (d : Nat) (r : CRun) (p : CPeer) (land : Bool) (num : Nat) (data : List DGran) : Option State × State :=
  match s.sendQueue p.flow (some p.pkg) with
  | (none, s) => (none, s.ceHalt d r.ix 4)
  | (some _, s) =>
    let sizes := xferSizes data.length
    let z := sizes.foldl (fun (a : Nat × State) g =>
      match a.2.qGet (p.flow / 2 ^ 18) (p.flow % 2 ^ 18) with
      | (none, s) => (a.1 + g, s)
      | (some v, s) =>
        let h := { s.flowHead p.flow v (if land then 1 else 7) with
          ackreq := decide (a.1 + g = data.length), ngr := g, peerQ := if land then qPeerQ v else 0
          gen := s.getF d fCeLayoutGenGen, coll := r.ix, chunk := num, ctype := cWtype r.desc, cscale := cWscale r.desc }
        let s := { s with collSent := mapSet (fun _ => 0) s.collSent (d * 4096 + r.ix) (mapGet (fun _ => 0) s.collSent (d * 4096 + r.ix) + 1) }
        (a.1 + g, s.toFlow p.flow v ⟨⟨if land then qClass v else 2, h, (data.drop a.1).take g, false⟩, if land then landEntries v g else 0,
          .coll d r.ix⟩)) (0, s)
    (some z.2, z.2)

/-- Run `f` and go on while it succeeds. -/
def ceAll {α : Type} (f : α → State → Option State × State) : List α → State → Option State × State
  | [], s => (some s, s)
  | a :: r, s =>
    match f a s with
    | (some s, _) => ceAll f r s
    | (none, s) => (none, s)

/-- Peer by entry number. -/
def CRun.peer (r : CRun) (i : Nat) : CPeer := (r.peers[i]?).getD ⟨5, 0, 0, 0⟩

/-- Entries with a role. -/
def CRun.withRole (r : CRun) (role : Nat) : List Nat := (span 0 r.peers.length).filter (fun i => (r.peer i).role == role)

/-- Write converted elements to DST, or stop the program. -/
def State.ceWrite (s : State) (d : Nat) (r : CRun) (i : Nat) (l : Elems) : Option State × State :=
  match s.putElems d r.desc i l with
  | (true, s) => (some s, s)
  | (false, s) => (none, s.ceHalt d r.ix 5)

/-- Read a chunk of the rank's own data of shard `sh`, or stop the program. -/
def State.ceOwn (s : State) (d : Nat) (r : CRun) (sh c : Nat) (k : Elems → Nat → State → Option State × State) : Option State × State :=
  let x := r.desc
  let sp := cSpan x c
  let first := cElems x (cShard x) * sh + sp.1
  match s.srcElems d x first sp.2 with
  | (none, s) => (none, s.ceHalt d r.ix 5)
  | (some l, s) => k l first s

/-- Copy the rank's own shard `sh` to element `at_` of DST. -/
def State.ceCopy (d : Nat) (r : CRun) (sh at_ : Nat) (s : State) : Option State × State :=
  ceAll (fun c s => s.ceOwn d r sh c (fun l _ s => s.ceWrite d r (at_ + (cSpan r.desc c).1) (widenOwn r.desc l))) (span 0 (cCount r.desc)) s

/-- Send the rank's own shard `sh` to a peer, chunks numbered from `num`. (DEDUCED, log entry 39.) -/
def State.ceSendOwn (d : Nat) (r : CRun) (p : CPeer) (land : Bool) (sh tensorSh num : Nat) (s : State) : Option State × State :=
  ceAll (fun c s => s.ceOwn d r sh c (fun l _ s =>
    s.ceSend d r p land (num + c) (toWire r.desc (s.dieSrEnv d) (cEtype r.desc) (cElems r.desc (cShard r.desc) * tensorSh + (cSpan r.desc c).1) l)))
    (span 0 (cCount r.desc)) s

/-! ### The verdict record (Table 8.11) -/

/-- Combine two verdict records. -/
def combVerdict (a b : Nat) : Nat :=
  let g (n lo w : Nat) := natBits n lo w
  g a 0 128 + g b 0 128 - (g a 0 128 + g b 0 128) / 2 ^ 128 * 2 ^ 128
    + 2 ^ 128 * ((g a 128 64 + g b 128 64) % 2 ^ 64) + 2 ^ 192 * ((g a 192 64 + g b 192 64) % 2 ^ 64) + 2 ^ 256 * ((g a 256 64 + g b 256 64) % 2 ^ 64)
    + 2 ^ 320 * (g a 320 32 ||| g b 320 32) + 2 ^ 352 * ((g a 352 32 + g b 352 32) % 2 ^ 32)
    + 2 ^ 384 * (g a 384 32 &&& g b 384 32) + 2 ^ 416 * (g a 416 32 ||| g b 416 32)
    + 2 ^ 448 * (g a 448 16 &&& g b 448 16) + 2 ^ 464 * (g a 464 16 ||| g b 464 16) + 2 ^ 480 * (g a 480 32 ||| g b 480 32)

/-- Wraps of the exact sums when two verdict records are combined (R120): of SUMSQ, and of LOSS. -/
def verdictWraps (a b : Nat) : Nat :=
  let one (lo n : Nat) : Nat :=
    let z := signed n (natBits a lo n) + signed n (natBits b lo n)
    b2n (decide (z < -2 ^ (n - 1) ∨ 2 ^ (n - 1) ≤ z))
  one 0 128 + one 128 64

/-- Combine two verdict records in the engine of a die, wraps counted (R120, R280). -/
def State.ceVerdict (s : State) (d a b : Nat) : Nat × State :=
  let n := verdictWraps a b
  (combVerdict a b, if n = 0 then s else s.bump d fCeStepOvfCount n)

/-- The number of the first check of R284 that fails. -/
def verdictFail (rec n gen : Nat) : Option Nat :=
  if natBits rec 352 32 ≠ n then some 0
  else if natBits rec 384 32 ≠ natBits rec 416 32 then some 1
  else if natBits rec 448 16 ≠ gen ∨ natBits rec 464 16 ≠ gen then some 2
  else if natBits rec 480 32 ≠ 0 then some 3
  else none

/-- The combined record has landed (R284): it is written to DST, or the job ends and the program stops. -/
def State.verdictLand (s : State) (d : Nat) (r : CRun) (rec : Nat) : Option State × State :=
  match verdictFail rec (cN r.desc) (s.getF d fCeLayoutGenGen) with
  | some k =>
    (none, (s.setF d fCeStatusHalted 1).raise d ⟨.jobFatal, 0x0046, 0x07, d, 0, natBits rec 352 32, (Config.recordArg 0x46 1 [k]).toNat, 0⟩)
  | none =>
    match s.writeRun (.collective d) (cDst r.desc) (leBytes (rec % 2 ^ 512) 128) with
    | (true, s) => (some s, s)
    | (false, s) => (none, s.ceHalt d r.ix 5)

/-- A verdict record as a wire granule. -/
def verdictGran (rec : Nat) : List DGran := gransOf (leBytes (rec % 2 ^ 512) 128)

/-- Read the rank's own record. -/
def State.ownVerdict (s : State) (d : Nat) (r : CRun) : Option Nat × State :=
  match s.dataRun (.collective d) (cSrc r.desc) 64 with
  | (some bs, s) => (some (leNat bs), s)
  | (none, s) => (none, s.ceHalt d r.ix 5)

/-- The record a run has combined so far, if any. -/
def CRun.verdict (r : CRun) : Option Nat := r.acc.head?.map Prod.fst

/-! ### Starting a descriptor -/

/-- A residue check of the engine's adders or conversion stages fails (R345): the operation completes, and a record names the descriptor. -/
def State.ceResidue (s : State) (d ix : Nat) (res : Bool) : State :=
  if !res then s
  else s.raise d ⟨.tainted, 0x0021, 0x07, d, s.ceAddr d ix, (Config.recordArg 0x21 0 [d, ix]).toNat, (Config.recordArg 0x21 1 [d, ix]).toNat, 0⟩

/-- Does a descriptor's start pass data of its own through the conversion stages? -/
def cConverts (x : BitVec 512) : Bool := cOp x != 5 && (cEtype x != cWtype x || cEtype x != cDtype x || cWscale x == 2)

/-- Children of a tree node. -/
def CRun.kids (r : CRun) : List Nat := r.withRole 3

/-- Is this the root of its tree? -/
def CRun.isRoot (r : CRun) : Bool := (r.peer 0).role == 5

/-- What a rank does when a VERDICT descriptor starts: on a ring it sends its own record; a leaf sends it to its parent. (DEDUCED, log entry 39.) -/
def State.startVerdict (s : State) (d : Nat) (r : CRun) : Option State × State :=
  match s.ownVerdict d r with
  | (none, s) => (none, s)
  | (some own, s) =>
    let r' : CRun := { r with acc := [(own, 0)] }
    if cTree r.desc then
      if !r.kids.isEmpty then (some s, s)
      else if r.isRoot then s.verdictLand d r own
      else s.ceSend d r (r.peer 0) true 0 (verdictGran own)
    else if cN r.desc = 1 then s.verdictLand d r own
    else (s.setRun d r').ceSend d r (r.peer 0) true 0 (verdictGran own)

/-- What a rank sends and copies when a descriptor starts (R277, R278). (DEDUCED, log entry 40.) -/
def State.ceBegin (s : State) (d : Nat) (r : CRun) : Option State × State :=
  let x := r.desc
  let n := cN x
  let me := cRank x
  let shard := cElems x (cShard x)
  match cOp x with
  | 5 => s.startVerdict d r
  | 4 => match State.ceCopy d r me (shard * me) s with
    | (none, s) => (none, s)
    | (some s, _) => ceAll (fun j s => State.ceSendOwn d r (r.peer j) false j j 0 s) ((span 0 n).filter (fun j => j != me)) s
  | 3 =>
    let root := if cTree x then r.isRoot else decide (me = cRoot x)
    if !root then (some s, s)
    else match State.ceCopy d r 0 0 s with
      | (none, s) => (none, s)
      | (some s, _) =>
        if cTree x then ceAll (fun i s => State.ceSendOwn d r (r.peer i) false 0 0 0 s) r.kids s
        else if n = 1 then (some s, s) else State.ceSendOwn d r (r.peer 0) false 0 0 0 s
  | 1 => match State.ceCopy d r 0 (shard * me) s with
    | (none, s) => (none, s)
    | (some s, _) => if n = 1 then (some s, s) else State.ceSendOwn d r (r.peer 0) false 0 me 0 s
  | _ =>
    if cTree x then
      if !r.kids.isEmpty then (some s, s)
      else if r.isRoot then State.ceCopy d r 0 0 s
      else State.ceSendOwn d r (r.peer 0) true 0 0 0 s
    else if n = 1 then State.ceCopy d r 0 0 s
    else State.ceSendOwn d r (r.peer 0) true ((me + n - 1) % n) ((me + n - 1) % n) 0 s

/-- CE_DESCRIPTOR_START (R274, R276): the engine takes an entry of its trigger queue and checks and starts the next descriptor; `residue` says that a
residue check of its conversion stages fails (R345). -/
def execCeDescriptorStart (d : Fin 4) (residue : Bool) (s : State) : Host.Outcome State Fault Refusal :=
  .next (
    if !s.ceUp d || s.flag d fCeStatusHalted || decide ((s.runs d).length ≥ 8) then s
    else
      let q := s.getF d fCeCfgTrigq
      match s.qGet d q with
      | (none, s) => s
      | (some v, s) =>
        if qKind v ≠ 2 ∨ qEn v = false ∨ qErr v = true ∨ qDepth v < 16 ∨ qPeerPkg v ≠ s.pkgId ∨ qHeld v = 0 then s
        else
          let s := (s.qPut d q (qAddCons v 1)).noteFreed d q v 1
          let ix := s.getF d fCeStatusNext
          match s.readRun (.collective d) (s.ceAddr d ix) 64 with
          | (none, s) => s.ceHalt d ix 5
          | (some bs, s) =>
            let x : BitVec 512 := BitVec.ofNat 512 (leNat bs)
            if cRefused x (s.getF d fCeLayoutGenGen) then s.ceHalt d ix 1
            else match s.dataRun (.collective d) (cPeers x) (cPeerBytes x) with
              | (none, s) => s.ceHalt d ix 5
              | (some ps, s) =>
                let p := peersOf ps (cEntries x)
                if p.2 || !rolesOk x p.1 then s.ceHalt d ix 2
                else
                  let r : CRun := ⟨ix, x, p.1, [], [], []⟩
                  let s := (s.setF d fCeStatusNext (ix + 1)).setRuns d (s.runs d ++ [r])
                  ((s.ceResidue d ix (residue && cConverts x)).ceBegin d r).2)

/-! ### Chunks -/

/-- Chunks that a run expects from entry `i`. -/
def CRun.expects (r : CRun) (i : Nat) : Nat :=
  let x := r.desc
  let c := cCount x
  let n := cN x
  match cOp x, (r.peer i).role with
  | 0, 1 => (n - 1) * c
  | 1, 1 => (n - 1) * c
  | 2, 1 => 2 * (n - 1) * c
  | 3, 1 => if cRank x = cRoot x then 0 else c
  | 5, 1 => n - 1
  | 4, 4 => if i = cRank x then 0 else c
  | 2, 3 => c
  | 5, 3 => 1
  | 2, 2 => c
  | 3, 2 => c
  | 5, 2 => 1
  | _, _ => 0

/-- Chunks taken from entry `i`. -/
def CRun.gotOf (r : CRun) (i : Nat) : Nat := mapGet (fun _ => 0) r.got i

/-- Is the chunk `m` from entry `i` a LAND of a combining step, rather than a CHUNK (R279)? -/
def CRun.landing (r : CRun) (i m : Nat) : Bool :=
  match cOp r.desc, (r.peer i).role with
  | 0, _ => true
  | 2, 1 => decide (m < (cN r.desc - 1) * cCount r.desc)
  | 2, 3 => true
  | 5, 1 => true
  | 5, 3 => true
  | _, _ => false

/-- The chunk of a shard that chunk number `m` from entry `i` carries. -/
def CRun.chunkOf (r : CRun) (m : Nat) : Nat := if cCount r.desc = 0 then 0 else m % cCount r.desc

/-- May a run take chunk `m` from child entry `i` now: the entries before it have been combined for this chunk (R278)? -/
def CRun.turnOk (r : CRun) (i m : Nat) : Bool :=
  if (r.peer i).role ≠ 3 then true
  else r.kids.all (fun j => if j < i then decide (r.gotOf j = m + 1) else if j = i then true else decide (r.gotOf j = m))

/-- Combine in the order FORM gives: incoming first, or own first, wraps counted (R277, R280). -/
def State.ceComb (s : State) (d : Nat) (x : BitVec 512) (inc own : Elems) : Elems × State :=
  let r := if cRight x then combElems x own inc else combElems x inc own
  (r.1, if r.2 = 0 then s else s.bump d fCeStepOvfCount r.2)

/-- A combined chunk of a tree node is whole: it goes up, or at the root lands and goes down (R278). -/
def State.treeResult (s : State) (d : Nat) (r : CRun) (c : Nat) (l : Elems) : Option State × State :=
  let x := r.desc
  let first := (cSpan x c).1
  let wire (s : State) : List DGran := toWire x (s.dieSrEnv d) (cDtype x) first l
  if !r.isRoot then s.ceSend d r (r.peer 0) true c (wire s)
  else match s.ceWrite d r first l with
    | (none, s) => (none, s)
    | (some s, _) => ceAll (fun i s => s.ceSend d r (r.peer i) false c (wire s)) r.kids s

/-- A whole chunk of a child of a tree node: combined in ascending entry order, then with the node's own contribution (first, with FORM
RIGHT). (DEDUCED, log entry 39.) -/
def State.takeChild (s : State) (d : Nat) (r : CRun) (i c : Nat) (inc : Elems) : Option State × State :=
  let x := r.desc
  let firstKid := r.kids.head? == some i
  let lastKid := r.kids.getLast? == some i
  let start (k : Elems → State → Option State × State) : Option State × State :=
    if firstKid then
      (if cRight x then s.ceOwn d r 0 c (fun own _ s => let z := combElems x (widenOwn x own) inc; k z.1 (if z.2 = 0 then s else s.bump d fCeStepOvfCount z.2))
       else k inc s)
    else let z := combElems x r.acc inc; k z.1 (if z.2 = 0 then s else s.bump d fCeStepOvfCount z.2)
  start (fun acc s =>
    if !lastKid then let s := s.setRun d { r with acc := acc }; (some s, s)
    else if cRight x then (s.setRun d { r with acc := [] }).treeResult d r c acc
    else s.ceOwn d r 0 c (fun own _ s =>
      let z := combElems x acc (widenOwn x own)
      ((if z.2 = 0 then s else s.bump d fCeStepOvfCount z.2).setRun d { r with acc := [] }).treeResult d r c z.1))

/-- A verdict record from entry `i` (R283): on a ring combined and passed on, at a tree node combined and sent up, from the parent checked
and sent down. -/
def State.takeVerdict (s : State) (d : Nat) (r : CRun) (i m : Nat) (rec : Nat) : Option State × State :=
  if !cTree r.desc then
    let z := s.ceVerdict d ((r.verdict).getD 0) rec
    let s := z.2.setRun d { r with acc := [(z.1, 0)] }
    if m + 2 = cN r.desc then s.verdictLand d r z.1 else s.ceSend d r (r.peer 0) true (m + 1) (verdictGran rec)
  else if i = 0 then
    match s.verdictLand d r rec with
    | (none, s) => (none, s)
    | (some s, _) => ceAll (fun j s => s.ceSend d r (r.peer j) false 0 (verdictGran rec)) r.kids s
  else
    let z := match r.verdict with | some v => s.ceVerdict d v rec | none => (rec, s)
    if r.kids.getLast? ≠ some i then let s := z.2.setRun d { r with acc := [(z.1, 0)] }; (some s, s)
    else match z.2.ownVerdict d r with
      | (none, s) => (none, s)
      | (some own, s) =>
        let all := s.ceVerdict d z.1 own
        if !r.isRoot then all.2.ceSend d r (r.peer 0) true 0 (verdictGran all.1)
        else match all.2.verdictLand d r all.1 with
          | (none, s) => (none, s)
          | (some s, _) => ceAll (fun j s => s.ceSend d r (r.peer j) false 0 (verdictGran all.1)) r.kids s

/-- A whole chunk, number `m`, from entry `i` (R277, R278). (DEDUCED, log entry 39.) -/
def State.takeChunk (s : State) (d : Nat) (r : CRun) (i m : Nat) (data : List DGran) : Option State × State :=
  let x := r.desc
  let n := cN x
  let me := cRank x
  let cc := cCount x
  let c := r.chunkOf m
  let k := if cc = 0 then 0 else m / cc
  let sp := cSpan x c
  let shard := cElems x (cShard x)
  let els := fromWire x sp.2 data
  let pass (ok : Bool) (y : Option State × State) : Option State × State :=
    match y with
    | (some s, _) => if ok then s.ceSend d r (r.peer 0) false (m + cc) data else (some s, s)
    | z => z
  match cOp x with
  | 5 => s.takeVerdict d r i m (leNat ((granBytes data).take 64))
  | 4 => s.ceWrite d r (shard * i + sp.1) els
  | 3 =>
    if cTree x then
      match s.ceWrite d r sp.1 els with
      | (some s, _) => ceAll (fun j s => s.ceSend d r (r.peer j) false m data) r.kids s
      | z => z
    else match s.ceWrite d r sp.1 els with
      | (some s, _) => if (me + 1) % n = cRoot x % n then (some s, s) else s.ceSend d r (r.peer 0) false m data
      | z => z
  | 1 => pass (decide (k + 2 < n)) (s.ceWrite d r (shard * ((me + 2 * n - 1 - k) % n) + sp.1) els)
  | _ =>
    if cTree x then
      if i = 0 then
        match s.ceWrite d r sp.1 els with
        | (some s, _) => ceAll (fun j s => s.ceSend d r (r.peer j) false m data) r.kids s
        | z => z
      else s.takeChild d r i c els
    else if k + 1 < n then
      let sh := (me + 2 * n - 2 - k) % n
      s.ceOwn d r sh c (fun own first s =>
        let z := s.ceComb d x els (widenOwn x own)
        let wire := toWire x (z.2.dieSrEnv d) (cDtype x) first z.1
        if k + 2 < n then z.2.ceSend d r (r.peer 0) true (m + cc) wire
        else if cOp x = 0 then z.2.ceWrite d r sp.1 z.1
        else match z.2.ceWrite d r (shard * me + sp.1) z.1 with
          | (some s, _) => s.ceSend d r (r.peer 0) false (m + cc) wire
          | q => q)
    else
      let k2 := k + 1 - n
      pass (decide (k2 + 2 < n)) (s.ceWrite d r (shard * ((me + 2 * n - 1 - k2) % n) + sp.1) els)

/-- Does chunk `m` from entry `i` pass the engine's adders or conversion stages? -/
def CRun.computes (r : CRun) (i m : Nat) : Bool :=
  r.landing i m || (cOp r.desc != 5 && (cWtype r.desc != cDtype r.desc || cWscale r.desc == 2))

/-- Transfer data of a chunk, from entry `i` of run `r`: kept until the chunk is whole. Data beyond the chunk stops the program. -/
def State.chunkData (s : State) (d : Nat) (r : CRun) (i : Nat) (data : List DGran) (res : Bool) : State :=
  let m := r.gotOf i
  let part := mapGet (fun _ => []) r.part i ++ data
  let want := wireLen r.desc (cSpan r.desc (r.chunkOf m)).2
  if part.length < want then s.setRun d { r with part := mapSet (fun _ => []) r.part i part }
  else if part.length > want then s.ceHalt d r.ix 3
  else
    let r' : CRun := { r with part := mapSet (fun _ => []) r.part i [], got := mapSet (fun _ => 0) r.got i (m + 1) }
    let s := (s.setRun d r').ceResidue d r.ix (res && r.computes i m)
    (s.takeChunk d r' i m part).2

/-- What the engine does about the header of a chunk (R281). -/
inductive ChunkFate
  | stale
  | wait
  | halt (ix : Nat)
  | take (r : CRun) (i : Nat)
deriving DecidableEq, Repr

/-- Does a chunk carry a verdict record? Its generation is R284's to judge, so that a member with another layout ends the job (R331).
(DEDUCED, log entry 40.) -/
def State.verdictChunk (s : State) (d : Nat) (h : XHead) : Bool :=
  match (s.runs d).find? (fun r => r.ix == h.coll) with
  | some r => cOp r.desc == 5
  | none => d == 0 && h.coll == s.image.verdict && decide (s.getF d fCeStatusNext ≤ h.coll)

/-- Compare a header with the descriptors in progress; `from_` picks the peer entries it can have come from. A chunk of a descriptor that has
not started waits. (DEDUCED, log entry 40.) -/
def State.chunkFate (s : State) (d : Nat) (h : XHead) (land : Bool) (from_ : CPeer → Bool) : ChunkFate :=
  if h.gen ≠ s.getF d fCeLayoutGenGen ∧ s.verdictChunk d h = false then .stale
  else match (s.runs d).find? (fun r => r.ix == h.coll) with
    | none => if h.coll ≥ s.getF d fCeStatusNext then .wait else .halt h.coll
    | some r =>
      match (span 0 r.peers.length).find? (fun i => from_ (r.peer i) && decide (r.expects i ≠ 0) && r.landing i h.chunk == land) with
      | none => .halt r.ix
      | some i =>
        let m := r.gotOf i
        if h.chunk ≠ m ∨ m ≥ r.expects i ∨ h.ctype ≠ cWtype r.desc ∨ h.cscale ≠ cWscale r.desc then .halt r.ix
        else if r.turnOk i m then .take r i else .wait

/-- Reject a chunk of another generation (R281). (DEDUCED, log entry 40.) -/
def State.staleChunk (s : State) (d : Nat) (h : XHead) : State :=
  (s.bump d fCeStaleCntCount 1).raise d
    ⟨.contained, 0x0044, 0x07, d, 0, h.src, (Config.recordArg 0x44 1 [h.gen, s.getF d fCeLayoutGenGen]).toNat, 0⟩

/-- Read `g` granules that landed in a RECV ring from its entry CONS on (R240). -/
def State.readLanded (d : Nat) (v : BitVec 256) (g : Nat) (s : State) : Option (List DGran) × State :=
  let n := landEntries v g
  let z := (span 0 n).foldl (fun (a : Option (List Byte) × State) j =>
    match a.1 with
    | none => a
    | some l =>
      let x := a.2.dataRun (.collective d) (qEntryAt v (qCons v + j)) (qEsize v)
      (x.1.map (fun b => l ++ b), x.2)) (some [], s)
  (z.1.map (fun l => gransOf (l.take (128 * g))), z.2)

/-- The engine consumes the oldest landed transfer of a RECV queue (R279, R281, R242). -/
def State.chunkLanded (s : State) (d q : Nat) (res : Bool) : State :=
  let a := qSplit q
  match s.qGet a.1 a.2 with
  | (none, s) => s
  | (some v, s) =>
    match (mapGet (fun _ => []) s.landHeads q).find? (fun (e : Nat × XHead) => e.1 == qCons v) with
    | none => s
    | some (_, h) =>
      if qHeld v = 0 then s
      else
        let n := landEntries v h.ngr
        let done (s : State) : State := (s.qPut a.1 a.2 (qAddCons v n)).noteFreed a.1 a.2 v n
        match s.chunkFate d h true (fun p => p.rq == q) with
        | .wait => s
        | .stale => (done s).staleChunk d h
        | .halt ix => (done s).ceHalt d ix 3
        | .take r i =>
          match State.readLanded d v h.ngr s with
          | (none, s) => (done s).ceHalt d r.ix 5
          | (some data, s) => (done s).chunkData d r i data res

/-- The engine takes a CHUNK transfer (R281). A granule that fails its block check fails the transfer, which is not taken (R196). -/
def State.chunkArrived (s : State) (d : Nat) (x : Xfer) (rest : List Xfer) (res : Bool) : State :=
  match s.chunkFate d x.h false (fun p => p.pkg == x.h.src) with
  | .wait => s
  | .stale => ((s.setFi d rest).staleChunk d x.h).retire d x false
  | .halt ix => ((s.setFi d rest).ceHalt d ix 3).retire d x false
  | .take r i =>
    if x.data.any (fun g => chkOf g.v != g.chk) then (s.setFi d rest).retire d x true
    else ((s.setFi d rest).chunkData d r i x.data res).retire d x false

/-- CHUNK (R279, R281): the engine takes the next landed transfer of RECV queue `rq`, or without one the next CHUNK transfer that has
arrived; `residue` says that a residue check of its arithmetic fails (R345). -/
def execChunk (d : Fin 4) (rq : Option (BitVec 20)) (residue : Bool) (s : State) : Host.Outcome State Fault Refusal :=
  .next (
    if !s.ceUp d || s.flag d fCeStatusHalted then s
    else match rq with
      | some q => s.chunkLanded d q.toNat residue
      | none =>
        match takeArrived 7 [] (s.fi d) with
        | none => s
        | some (x, r) => s.chunkArrived d x r residue)

/-- Has a run taken every chunk it expects? -/
def CRun.received (r : CRun) : Bool := (span 0 r.peers.length).all (fun i => decide (r.gotOf i = r.expects i))

/-- CE_DESCRIPTOR_COMPLETE (R274): all writes here have retired and all sends have been reported; DAMT is applied to DCTR. -/
def execCeDescriptorComplete (d : Fin 4) (s : State) : Host.Outcome State Fault Refusal :=
  .next (
    if !s.ceUp d || s.flag d fCeStatusHalted then s
    else match (s.runs d).find? (fun r => r.received && decide (mapGet (fun _ => 0) s.collSent (d * 4096 + r.ix) = 0)) with
      | none => s
      | some r => (s.setRuns d ((s.runs d).filter (fun y => y.ix != r.ix))).localInc d 17 (cDctr r.desc) (cDamt r.desc))

end Sys2Proof.Machine
end

