-- ==== Sys2Proof/Machine/FabTime.lean ====
section
/-!
DEFINITION. Fabric time (R271, R272), the clocks of the dies, and the messages between Jasper clusters (R289).
-/

namespace Sys2Proof.Machine

/-- A microsecond of the timebase passes on a die: the rate correction gathers, whole nanoseconds of it join the slew, and the count slews by at most 1 ns; the
second result is that nanosecond (R271). -/
def Die.slewOne (x : Die) : Die × Int :=
  let f := x.frac + x.rate
  let whole := f.tdiv 1000000
  let k : Int := max (-1) (min 1 (x.slew + whole))
  ({ x with frac := f - whole * 1000000, slew := x.slew + whole - k }, k)

/-- One period of REFCLK_100 passes (10 ns): every running die's timebase and fabric time advance; fabric time slews by at most 1 ns for
each microsecond of the timebase (R271). (DESIGN CHOICE, log entries 3 and 29.) -/
def State.tick (s : State) : State :=
  (span 0 6).foldl (fun (s : State) d =>
    if !s.dieUp d then s
    else
      let tb := s.reg d oDieTimebase + 10
      let s := s.setReg d oDieTimebase tb
      if d ≥ 4 then s
      else
        let z : Die × Int := if tb.toNat % 1000 < 10 then (s.die d).slewOne else (s.die d, 0)
        (s.setReg d oFiTime (s.reg d oFiTime + BitVec.ofInt 64 (10 + z.2))).setDie d z.1) s

/-- The rate of the count in parts in 10⁹ from two successive entries: root time against the timebase (R271). -/
def rateOf (old : Nat × Nat) (root base : Nat) : Int :=
  let n : Int := (base : Int) - (old.2 : Int)
  if n ≤ 0 then 0 else max (-1000000) (min 1000000 ((((root : Int) - (old.1 : Int)) - n) * 1000000000 / n))

/-- Take a correction of fabric time on a die (R271): its phase, a step at first lock and later a slew, and its rate. (DEDUCED, log entry 41.) -/
def State.syncTime (s : State) (d target depth : Nat) : State :=
  let x := s.die d
  let now := (s.reg d oFiTime).toNat
  let base := (s.reg d oDieTimebase).toNat
  let diff : Int := (target : Int) - (now : Int)
  let x := { x with rate := (match x.syncAt with | some o => rateOf o target base | none => x.rate), syncAt := some (target, base) }
  let s := if x.timed then s.setDie d { x with slew := diff }
    else (s.setReg d oFiTime (BitVec.ofNat 64 target)).setDie d { x with timed := true, slew := 0 }
  ((s.setF d fFiTimeStatLocked 1).setF d fFiTimeStatDepth (depth + 1)).setF d fFiTimeStatLastAdj (unsigned 16 diff)

/-- A time-sync entry stamped `stamp` by a partner `depth` hops from the root arrives on a port (R271): the dies whose time-up port
it is take it with the link's delay added. -/
def State.takeTime (s : State) (p stamp depth : Nat) : State :=
  if !s.portUp p then s
  else (span 0 4).foldl (fun (s : State) d =>
    if s.dieUp d && s.getF d fFiCfgTimeUp == p && !s.flag d fFiCfgTimeRoot
    then s.syncTime d (stamp + mapGet (fun _ => 0) s.rtts p / 2) depth else s) s

/-- TIME_SYNC_ENTRY (R271). -/
def execTimeSyncEntry (p : Fin 12) (stamp : BitVec 64) (depth : BitVec 6) (s : State) : Host.Outcome State Fault Refusal :=
  .next (s.takeTime p stamp.toNat depth.toNat)

/-- A link control entry of the partner takes effect (Table 8.3): a NAK, a retrain request, a time-sync entry; the round trip of a delay measurement is
DELAY_MEASUREMENT's. -/
def State.takeEntry (s : State) (p : Nat) (e : LinkEntry) : State :=
  match e with
  | .nak seq => s.takeNak p seq
  | .retrain => if s.portUp p then s.portRetrain p else s
  | .delay => s
  | .timeSync stamp depth => s.takeTime p stamp depth

/-- The entries of a CTRL flit take effect, those of zeros apart (Table 8.3). -/
def State.takeEntries (s : State) (p : Nat) (pay : BitVec 2048) : State :=
  (span 0 16).foldl (fun (s : State) i =>
    let b := pay.extractLsb' (128 * i) 128
    if b = 0 then s else match Config.linkEntryOf b with | some e => s.takeEntry p e | none => s) s

/-- EW_FLIT_RECEIVE (R250, R253 to R257): the 270 bytes of a flit arrive at a port, with wrong symbols in the codewords that begin with it.
(DEDUCED, log entry 37.) -/
def execEwFlitReceive (p : Fin 12) (flit : BitVec 2160) (hits : List FecHit) (s : State) : Host.Outcome State Fault Refusal :=
  .next (
    if !s.portUp p then s
    else
      let o := (s.port p).fec flit hits
      let s := s.takeLine p o
      let x := s.port p
      match x.refuse o.flit o.bad, x.skip with
      | some k, some n => if x.passes o.flit k n then s.setPort p { x with skip := some (nextSkip o.flit n) } else s.refuseFlit p k o.flit
      | some k, none => s.refuseFlit p k o.flit
      | none, _ =>
        let f := flitOf o.flit
        let s := s.acceptFlit p f
        State.pump p pumpFuel (if f.typ = 3 then s.takeEntries p f.pay else s))

/-- DELAY_MEASUREMENT (R271): a round trip of the link of a port has been measured, in ns; the one-way delay is half of it. -/
def execDelayMeasurement (p : Fin 12) (rtt : BitVec 16) (s : State) : Host.Outcome State Fault Refusal :=
  .next (
    if !s.portUp p then s
    else ({ s with rtts := mapSet (fun _ => 0) s.rtts p rtt.toNat }).setF (portDie p) (portF p fEwPortStatusRtt) (min 255 rtt.toNat))

/-- FABRIC_TIME_UNLOCK (R272): no entry for 10 ms, or the time-up port failed. -/
def execFabricTimeUnlock (d : Fin 4) (s : State) : Host.Outcome State Fault Refusal :=
  .next (
    if !s.dieUp d || !s.flag d fFiTimeStatLocked || s.flag d fFiCfgTimeRoot then s
    else ((s.setF d fFiTimeStatLocked 0).modDie d (fun x => { x with slew := 0, rate := 0, frac := 0, syncAt := none })).raise d
      ⟨.info, 0x0047, 0x08, d, 0, s.getF d fFiCfgTimeUp, 0, 0⟩)

/-- TIME_SYNC_SEND (R271): entries, stamped and with this package's depth, go to the partners on `ports`, whose time-up ports face this package.
(DEDUCED, log entry 41.) -/
def execTimeSyncSend (ports : List (Fin 12)) (s : State) : Host.Outcome State Fault Refusal :=
  .next (
    let s := { s with timeKids := ports.map Fin.val }
    if !s.flag s.lead fFiTimeStatLocked then s
    else (ports.filter (fun p => s.portUp p)).foldl (fun (s : State) p => s.sendCtrl p (.timeSync (s.reg s.lead oFiTime).toNat (s.getF s.lead fFiTimeStatDepth))) s)

/-- The boundary message of a JASPER transfer (Table 9.3), if it has that form: one granule, reserved bytes zero, codes in range. -/
def boundOf (data : List DGran) : Option BMsg :=
  match data with
  | [g] =>
    let n := g.v.toNat
    let m : BMsg := ⟨natBits n 0 64, natBits n 64 8, natBits n 72 8, natBits n 80 8, natBits n 96 16⟩
    if m.phase ≤ 4 ∧ m.kind ≤ 1 ∧ m.status ≤ 2 ∧ m.src < 4096 ∧ natBits n 88 8 = 0 ∧ n >>> 112 = 0 then some m else none
  | _ => none

/-- JASPER (R289): the next message between clusters is taken; a boundary message waits for PHASE_END or PHASE_GO. The content of any other
message is the clusters' own and is passed over. (DEDUCED, log entry 41.) -/
def execJasper (d : Fin 4) (s : State) : Host.Outcome State Fault Refusal :=
  .next (match takeKind 10 (s.fi d) with
    | none => s
    | some (x, r) =>
      let s := s.setFi d r
      match boundOf x.data with
      | some m => { s with bounds := s.bounds ++ [m] }
      | none => s)

end Sys2Proof.Machine
end

