-- ==== Sys2Proof/Machine/Loads.lean ====
section
/-!
DEFINITION. Bulk streams (R420) and what their completion does: schedule images (R439), layouts (R329), firmware (R446, R428) and calibration
tables (R443, R444); the flash operations that wait (R449).
-/

namespace Sys2Proof.Machine

/-- The cluster of the lead die as a memory requester. -/
def State.jas (s : State) : Requester := .jasper s.lead

/-- A bulk stream by handle. -/
def State.bulk (s : State) (h : Nat) : Option Bulk := s.ctl.bulks.find? (fun b => b.handle == h)

/-- Replace a bulk stream. -/
def State.setBulk (s : State) (b : Bulk) : State := s.modCtl (fun x => { x with bulks := x.bulks.map (fun (y : Bulk) => if y.handle = b.handle then b else y) })

/-- Forget a bulk stream. -/
def State.dropBulk (s : State) (h : Nat) : State := s.modCtl (fun x => { x with bulks := x.bulks.filter (fun b => b.handle != h) })

/-- Bytes of the contiguous prefix that parts cover, from `n` on. -/
def prefixLen : Nat → Nat → List (Nat × List Byte) → Nat
  | 0, n, _ => n
  | f + 1, n, l =>
    match l.find? (fun p => decide (p.1 ≤ n ∧ n < p.1 + p.2.length)) with
    | some p => prefixLen f (p.1 + p.2.length) l
    | none => n

/-- The contiguous prefix of a stream. -/
def Bulk.prefixBytes (b : Bulk) : Nat := prefixLen b.parts.length 0 b.parts

/-- The contents of a stream up to byte `n`, later parts over earlier ones. -/
def Bulk.contents (b : Bulk) (n : Nat) : List Byte :=
  (span 0 n).map (fun i => match (b.parts.reverse.find? (fun p => decide (p.1 ≤ i ∧ i < p.1 + p.2.length))) with
    | some p => (p.2[i - p.1]?).getD 0
    | none => 0)

/-- The connection that an in-service load names: an INGEST connection with no stream bound. -/
def State.freeIngest (s : State) (id : Nat) : Bool :=
  (match s.conn id with | some c => c.kind == 2 | none => false) && !s.ctl.bulks.any (fun b => b.conn == id)

/-- Bind a stream to a connection. -/
def State.bind (s : State) (conn : Nat) (ingest : Bool) (use : StreamUse) (addr len nctr ngr : Nat) : Nat × State :=
  let h := s.ctl.nextBulk
  (h, s.modCtl (fun x => { x with bulks := x.bulks ++ [⟨h, conn, ingest, use, addr, len, nctr, ngr, [], 0, 0⟩], nextBulk := h + 1 }))

/-- Set a register of all four compute dies. -/
def State.setAll (s : State) (f : Fld) (v : Nat) : State := (span 0 4).foldl (fun (s : State) d => s.setF d f v) s

/-! ### Flash operations (R449) -/

/-- Ask for a flash operation. -/
def State.flashAsk (s : State) (o : FlashOp) : State := { s with flash := { s.flash with ops := s.flash.ops ++ [o] } }

/-! ### Schedule images (R439) -/

/-- Is an image accepted: slot enrolled, the hash of the bytes is the hash signed, and the signature verifies? (DEDUCED, log entry 57.) -/
def State.imageOk (s : State) (bs : List Byte) : Bool :=
  let t := Config.imageOf bs
  match s.flash.opKey t.slot with
  | none => false
  | some k => Config.sha512 bs == t.hash && Config.ed25519Ok k (leBytes t.hash.toNat 64) t.sig

/-- LOAD_IMAGE's data is complete: verified, and written to IMAGE regions. -/
def State.imageDone (s : State) (b : Bulk) (bs : List Byte) : State :=
  let w : Waits → Bool := fun x => x == .stream b.handle
  let s := s.dropBulk b.handle
  if !s.imageOk bs then s.finish w 0x103 0
  else match s.writeRun s.jas (Config.imageOf bs).base bs with
    | (true, s) => (s.modCtl (fun x => { x with image := some bs })).finish w 0 0
    | (false, s) => s.finish w 0x200 0x0011

/-- LOAD_LAYOUT's data is complete: verified and staged (R329). A generation other than the next one is out of range. (DEDUCED, log entry 46.) -/
def State.layoutDone (s : State) (b : Bulk) (bs : List Byte) : State :=
  let w : Waits → Bool := fun x => x == .stream b.handle
  let s := s.dropBulk b.handle
  let gen := (Config.imageOf bs).gen
  if !s.imageOk bs then s.finish w 0x103 0
  else if gen ≠ (s.getF s.lead fCeLayoutGenGen + 1) % 65536 then s.finish w 0x107 0
  else (((s.modCtl (fun x => { x with layout := some bs })).setAll fLayoutStatusGen gen).setAll fLayoutStatusStaged 1).finish w 0 0

/-! ### Firmware images (R428, Table 14.4) -/

/-- BODY_LEN of an image. -/
def fwBodyLen (img : List Byte) : Nat := leAt img 32 4

/-- The reason code of the first of checks 1 to 6 that an image fails on a die with this FUSE_STATE; 0 if it passes. -/
def fwCheck (img : List Byte) (fuse : BitVec 64) : Nat :=
  let zero (off n : Nat) : Bool := leAt img off n == 0
  let key : BitVec 256 := BitVec.ofNat 256 (leAt img 128 32)
  let ix := leAt img 5 1
  let body := (img.drop 256).take (fwBodyLen img)
  if img.length < 256 then 1
  else if leAt img 0 4 ≠ 0x4D57465A ∨ leAt img 4 1 ≠ 1 ∨ ix ≥ 4 ∨ leAt img 6 1 ≥ 128
      ∨ (zero 7 1 && zero 14 2 && zero 36 28 && zero 160 32) = false then 2
  else if Config.sha512 (leBytes key.toNat 32) ≠ Config.fuseKeyHash ix ∨ bit fuse (8 + ix) = true then 3
  else if Config.ed25519Ok key (img.take 192) (BitVec.ofNat 512 (leAt img 192 64)) = false then 4
  else if fwBodyLen img > 2 ^ 25 - 256 ∨ body.length ≠ fwBodyLen img ∨ (Config.sha512 body).toNat ≠ leAt img 64 64
      ∨ leAt img 16 4 + leAt img 20 4 > fwBodyLen img ∨ leAt img 24 4 + leAt img 28 4 > fwBodyLen img then 5
  else if leAt img 6 1 < fld fuse 0 8 then 6
  else 0

/-- The command that a stream served waits for flash now. -/
def State.toFlash (s : State) (h : Nat) : State :=
  s.modCtl (fun x => { x with progs := x.progs.map (fun (g : Prog) => if g.waits == .stream h then { g with waits := .flash } else g) })

/-- Give the final reply of the oldest command of an opcode that waits for flash. -/
def State.finishFlash (s : State) (code status detail : Nat) : State :=
  match takeFirst (fun (g : Prog) => g.waits == .flash && g.cmd.opcode == code) s.ctl.progs with
  | some (g, r) => (s.modCtl (fun x => { x with progs := r })).reply g.cmd true status detail []
  | none => s

/-- FW_STAGE's data is complete: the write of slot B is asked for (R446, R449). -/
def State.stageDone (s : State) (b : Bulk) (bs : List Byte) : State :=
  ((s.dropBulk b.handle).toFlash b.handle).flashAsk (.stage bs)

/-! ### The calibration table (R443, R444) -/

/-- Does a table meet R443 for this package? -/
def calValid (t asm : List Byte) : Bool :=
  let n := leAt t 16 4
  leAt t 0 4 == 0x4C41435A && leAt t 4 1 == 1 && decide (leAt t 5 1 ≤ 1) && leAt t 6 2 == 0 && leAt t 8 8 == leAt asm 8 8
    && decide (2312 ≤ n ∧ n ≤ 262144) && decide (n ≤ t.length) && (crc32c ((t.take n).drop 24)).toNat == leAt t 20 4
    && ((t.take n).drop 2312).all (fun b => b == 0)

/-- V/F voltage of compute die `d` in power state `k`, in mV (Table 14.9). -/
def calVf (t : List Byte) (d k : Nat) : Nat := leAt t (24 + 12 * d + 2 * k) 2

/-- Do the voltages meet R444? -/
def calVfOk (t : List Byte) : Bool :=
  (span 0 4).all (fun d => (span 0 6).all (fun k => decide (600 ≤ calVf t d k ∧ calVf t d k ≤ 850) && (k == 0 || decide (calVf t d k ≤ calVf t d (k - 1)))))

/-- Does an assembly certificate bear its MAGIC and FORMAT and verify against the manufacturing key (R436, R437)? -/
def asmSigOk (a : List Byte) : Bool :=
  leAt a 0 4 == 0x5341435A && leAt a 4 1 == 1 && decide (a.length = 416)
    && Config.ed25519Ok Config.makerKey (a.take 352) (BitVec.ofNat 512 (leAt a 352 64))

/-- The assembly certificate: flash A's copy, or flash B's if it fails (R437). -/
def Flash.asm (f : Flash) : List Byte := if asmSigOk f.asmA then f.asmA else f.asmB

/-- CAL_WRITE's data is complete: checked, and its write asked for (R444). -/
def State.calDone (s : State) (b : Bulk) (bs : List Byte) : State :=
  let s := s.dropBulk b.handle
  if !(calValid bs s.flash.asm && calVfOk bs) then s.finish (fun x => x == .stream b.handle) 0x107 0
  else (s.toFlash b.handle).flashAsk (.cal bs)

/-- A load's data is complete. -/
def State.bulkDone (s : State) (b : Bulk) : State :=
  let bs := b.contents b.length
  match b.use with
  | .image => s.imageDone b bs
  | .layout => s.layoutDone b bs
  | .firmware => s.stageDone b bs
  | .calibration => s.calDone b bs
  | _ => s

/-! ### Ingest -/

/-- One INGEST segment of a stream (R420): a segment that breaks the rules, or a write that fails, resets the connection with reason 4. -/
def State.ingest (s : State) (c : Conn) (off : Nat) (data : List Byte) : State :=
  match s.ctl.bulks.find? (fun b => b.conn == c.id && b.ingest) with
  | none => s.resetConn c 4
  | some b =>
    let last : Bool := b.use != .user && decide (off + data.length = b.length)
    if off % 128 ≠ 0 ∨ (data.length % 128 ≠ 0 ∧ last = false) ∨ off + data.length > b.length then s.resetConn c 4
    else
      let b' := { b with parts := b.parts ++ [(off, data)], sent := b.sent + data.length }
      if b.use = .user then
        match s.writeRun s.jas (b.addr + off) data with
        | (true, s) => s.setBulk b'
        | (false, s) => s.resetConn c 4
      else
        let s := s.setBulk b'
        if b'.prefixBytes ≥ b.length then s.bulkDone b' else s

/-- Read `n` bytes from local address `a` for an EGRESS stream; none on an error completion. -/
def State.egressSegs (s : State) (a n : Nat) : Option (List Seg) × State :=
  match s.readRun s.jas a n with
  | (none, s) => (none, s)
  | (some bs, s) =>
    (some ((span 0 (ceilDiv n 8192)).map (fun i => ⟨2, 0, 0, 0, 0, 0, 0, 8192 * i, (bs.drop (8192 * i)).take 8192⟩)), s)

end Sys2Proof.Machine
end

