-- ==== Sys2Proof/Machine/CstRows.lean ====
section
/-!
DEFINITION. The rows of Ceska Service Transport (R419 to R421): segments taken, timers, closing; and the bulk-stream and memory commands
of Table 13.7.
-/

namespace Sys2Proof.Machine

/-- CST_SYN (R420): a new connection is answered SYN_ACK; a repeated SYN gets the same one; a 65th connection is refused.
(DESIGN CHOICE, log entry 11.) -/
def execCstSyn (s : State) : Host.Outcome State Fault Refusal :=
  .next (match takeSeg 0 [] s.ctl.segsIn with
    | none => s
    | some ((from_, g), r) =>
      let s := s.modCtl (fun x => { x with segsIn := r })
      match s.ctl.conns.find? (fun c => c.peer.same from_ && c.synPsn == g.psn) with
      | some c => s.segOut c ⟨1, c.id, 0, 0, c.myPsn, 0, 0, 0, []⟩
      | none =>
        if s.ctl.conns.length ≥ 64 then s.rstTo from_ 0 5
        else
          let k := s.draw
          let my := (Config.random k.1).toNat % psnMod
          let g0 : Seg := ⟨1, 0, 0, 0, my, 0, 0, 0, []⟩
          let c : Conn := ⟨s.ctl.nextConn, g.kind, from_, false, g.psn, my, (g.psn + 1) % psnMod, [], [], 0, (my + 1) % psnMod, [], [g0], 64, 0, g.window, 0, []⟩
          ((k.2.modCtl (fun x => { x with conns := x.conns ++ [c], nextConn := x.nextConn + 1 })).showCtl).segOut c g0)

/-- Deliver one DATA segment in order (R420). -/
def State.deliverSeg (s : State) (id : Nat) (g : Seg) : State :=
  match s.conn id with
  | none => s
  | some c =>
    if c.kind = 2 then s.ingest c g.offset g.data
    else
      let m := c.msg ++ g.data
      if m.length > 65568 then s.resetConn c 1
      else if natBits g.flags 0 1 = 1 then
        let s := s.setConn { c with msg := [] }
        if c.kind = 0 then s.packet id m else s
      else s.setConn { c with msg := m }

/-- Deliver what has become in order: DATA, or a FIN, which closes the connection (R421). -/
def State.drainSegs (id : Nat) : Nat → State → State
  | 0, s => s
  | n + 1, s =>
    match s.conn id with
    | none => s
    | some c =>
      match takeFirst (fun (g : Seg) => g.psn == c.rxNext) c.rxHeld with
      | none => s
      | some (g, r) =>
        let c' := { c with rxHeld := r, rxNext := (c.rxNext + 1) % psnMod }
        let s := s.setConn c'
        if g.typ = 4 then (s.sendAck c').dropConn id
        else State.drainSegs id n (s.deliverSeg id g)

/-- Put a segment among those received beyond ACK, in PSN order. -/
def holdSeg (base : Nat) (g : Seg) : List Seg → List Seg
  | [] => [g]
  | x :: r => if psnDist g.psn base < psnDist x.psn base then g :: x :: r else x :: holdSeg base g r

/-- Take a segment that consumes a PSN from the partner (R420, R421): in order it is delivered; out of order it is held and ACK sent; beyond
the window it is dropped, counted and ACK sent. -/
def State.takePsn (s : State) (c : Conn) (g : Seg) : State :=
  let ahead := psnDist g.psn c.rxNext
  if ahead ≥ 2 ^ 31 then s.sendAck c
  else if ahead ≥ c.offer then (s.bump common fCstDropCntCount 1).sendAck c
  else if c.rxHeld.any (fun x => x.psn == g.psn) then s.sendAck c
  else
    let c' := { c with rxHeld := holdSeg c.rxNext g c.rxHeld, owed := c.owed + 1 }
    let s := State.drainSegs c.id (c'.rxHeld.length + 1) (s.setConn c')
    match s.conn c.id with
    | none => s
    | some c2 => if ahead ≠ 0 ∨ natBits g.flags 1 1 = 1 ∨ c2.owed ≥ 16 then s.sendAck c2 else s

/-- CST_DATA (R420, R421). -/
def execCstData (s : State) : Host.Outcome State Fault Refusal :=
  .next (s.withSeg 2 (fun c g s => s.takePsn c g))

/-- CST_FIN (R421): in order it closes the connection. -/
def execCstFin (s : State) : Host.Outcome State Fault Refusal :=
  .next (s.withSeg 4 (fun c g s => s.takePsn c g))

/-- The ranges of a SACK list. -/
def sackOf (data : List Byte) : List (Nat × Nat) := (span 0 (leAt data 0 2)).map (fun i => (leAt data (4 + 8 * i) 4, leAt data (8 + 8 * i) 4))

/-- CST_ACK (R421): what SACK names is acknowledged and leaves flight; a segment it reports missing is sent again once three later ones are acknowledged.
(DEDUCED, log entry 58.) -/
def execCstAck (s : State) : Host.Outcome State Fault Refusal :=
  .next (s.withSeg 3 (fun c g s =>
    let rs := sackOf g.data
    let has (p : Nat) : Bool := rs.any (fun r => decide (psnDist p r.1 ≤ psnDist r.2 r.1))
    let left := c.flight.filter (fun x => !has x.psn)
    let later (p : Nat) : Nat := rs.foldl (fun (n : Nat) r => if psnLt p r.1 && psnLt r.2 c.txNext then n + psnDist r.2 r.1 + 1 else n) 0
    let late := left.filter (fun x => decide (later x.psn ≥ 3) && !c.fast.contains x.psn)
    let c' := { c.acked left with fast := c.fast ++ late.map Seg.psn }
    let s := late.foldl (fun (s : State) x => match s.conn c.id with | some y => s.resendSeg y x | none => s) (s.setConn c')
    State.pumpConn c.id c'.queue.length s))

/-- CST_RST (R419): closes the connection. -/
def execCstRst (s : State) : Host.Outcome State Fault Refusal :=
  .next (s.withSeg 5 (fun c _ s => s.dropConn c.id))

/-- CST_PING (R421): answered with PONG. -/
def execCstPing (s : State) : Host.Outcome State Fault Refusal :=
  .next (s.withSeg 6 (fun c _ s => s.segPlain c 7 []))

/-- CST_PONG (R421): shows that the partner is there. -/
def execCstPong (s : State) : Host.Outcome State Fault Refusal :=
  .next (s.withSeg 7 (fun _ _ s => s))

/-- CST_ACK_TIMER (R421): 20 µs after the first segment not acknowledged. -/
def execCstAckTimer (conn : BitVec 32) (s : State) : Host.Outcome State Fault Refusal :=
  .next (match s.conn conn.toNat with
    | some c => if c.owed = 0 then s else s.sendAck c
    | none => s)

/-- CST_RETX_TIMER (R421): the oldest segment in flight is sent again; after 16 expiries in succession the connection is reset.
(DEDUCED, log entry 58.) -/
def execCstRetxTimer (conn : BitVec 32) (s : State) : Host.Outcome State Fault Refusal :=
  .next (match s.conn conn.toNat with
    | none => s
    | some c => match c.flight with
      | [] => s
      | g :: _ => if c.expiries + 1 ≥ 16 then s.resetConn c 3 else s.resendSeg { c with expiries := c.expiries + 1 } g)

/-- CST_PING_TIMER (R421): 10 s without a segment. -/
def execCstPingTimer (conn : BitVec 32) (s : State) : Host.Outcome State Fault Refusal :=
  .next (match s.conn conn.toNat with
    | some c => s.segPlain c 6 []
    | none => s)

/-- CST_IDLE_CLOSE (R421): 30 s without a segment. -/
def execCstIdleClose (conn : BitVec 32) (s : State) : Host.Outcome State Fault Refusal :=
  .next (match s.conn conn.toNat with
    | some c => s.resetConn c 7
    | none => s)

/-! ### Streams and memory by command (Table 13.7) -/

/-- Do the granules from `a` on for `n` bytes lie in USER regions, and none LOST unless `lost`? -/
def State.userRun (s : State) (a n : Nat) (lost : Bool) : Bool :=
  decide (a + n ≤ stackBytes) && (span (a / 0x1000000) ((a + n - 1) / 0x1000000 + 1 - a / 0x1000000)).all (fun r =>
    (s.mem.region r).cls == 0 && (lost || !(s.mem.region r).lost))

/-- STREAM_OPEN (R420, Table 13.10). (DEDUCED, log entry 57.) -/
def execStreamOpen (s : State) : Host.Outcome State Fault Refusal :=
  .next (s.serve 0x0501 (fun c b s =>
    let id := leAt b 0 4
    let ctr := leAt b 4 4
    let addr := leAt b 8 8
    let len := leAt b 16 8
    match s.conn id with
    | none => s.refuse c 0x107 32
    | some n =>
      if n.kind < 2 then s.refuse c 0x107 32
      else if leAt b 28 4 ≠ 0 ∨ ctr ≥ 2 ^ 18 then s.refuse c 0x100 (if ctr ≥ 2 ^ 18 then 36 else 60)
      else if len % 128 ≠ 0 ∨ len = 0 then s.refuse c 0x107 48
      else if addr % 128 ≠ 0 ∨ s.userRun addr len false = false then s.refuse c 0x107 40
      else if s.ctl.bulks.any (fun x => x.conn == id) then s.refuse c 0x105 0
      else
        let r := s.bind id (n.kind == 2) .user addr len ctr (leAt b 24 4)
        let s := r.2.replyOk c (leBytes r.1 4)
        if n.kind = 2 then s
        else match s.egressSegs addr len with
          | (none, s) => s.resetConn n 4
          | (some l, s) => s.queueSegs id l))

/-- STREAM_NOTIFY (R420): one more NOTIFY_GR granules of a stream's contiguous prefix have retired. -/
def execStreamNotify (handle : BitVec 32) (s : State) : Host.Outcome State Fault Refusal :=
  .next (match s.bulk handle.toNat with
    | none => s
    | some b =>
      if b.ngr = 0 ∨ b.ingest = false ∨ b.prefixBytes / 128 / b.ngr ≤ b.notified then s
      else
        let t := b.nctr / 65536
        let d := s.lead
        (s.setBulk { b with notified := b.notified + 1 }).berylSend t ⟨if t = d then 23 else diePort t d, .inc, b.nctr % 65536, 1, .unit d⟩)

/-- STREAM_CLOSE: bytes moved, and the CRC-32C of the contents in offset order. -/
def execStreamClose (s : State) : Host.Outcome State Fault Refusal :=
  .next (s.serve 0x0502 (fun c b s =>
    match s.bulk (leAt b 0 4) with
    | none => s.refuse c 0x107 32
    | some x =>
      if x.use ≠ .user then s.refuse c 0x107 32
      else if x.ingest then
        (s.dropBulk x.handle).replyOk c (leBytes x.sent 8 ++ leBytes (crc32c ((x.parts.mergeSort (fun p q => decide (p.1 ≤ q.1))).flatMap Prod.snd)).toNat 4)
      else
        let waiting := match s.conn x.conn with
          | some n => (n.queue.map (fun g => g.data.length)).foldl (· + ·) 0
          | none => 0
        let n := x.length - waiting
        match s.readRun s.jas x.addr n with
        | (some bs, s) => (s.dropBulk x.handle).replyOk c (leBytes n 8 ++ leBytes (crc32c bs).toNat 4)
        | (none, s) => (s.dropBulk x.handle).refuse c 0x200 0x0011))

/-- MEM_READ: stack memory only; an error completion gives DEVICE_FAULT. (DEDUCED, log entry 57.) -/
def execMemRead (s : State) : Host.Outcome State Fault Refusal :=
  .next (s.serve 0x0503 (fun c b s =>
    let a := leAt b 0 8
    let n := leAt b 8 4
    if a % 128 ≠ 0 ∨ a + n > stackBytes then s.refuse c 0x107 32
    else if n % 128 ≠ 0 ∨ n = 0 ∨ n > 32768 then s.refuse c 0x107 40
    else match s.readRun s.jas a n with
      | (some bs, s) => s.replyOk c bs
      | (none, s) => s.refuse c 0x200 0x0011))

/-- MEM_WRITE: USER regions only. (DEDUCED, log entry 57.) -/
def execMemWrite (s : State) : Host.Outcome State Fault Refusal :=
  .next (s.serve 0x0504 (fun c b s =>
    let a := leAt b 0 8
    let data := b.drop 8
    if a % 128 ≠ 0 ∨ a + data.length > stackBytes then s.refuse c 0x107 32
    else if !s.userRun a data.length true then s.refuse c 0x105 0
    else match s.writeRun s.jas a data with
      | (true, s) => s.replyOk c []
      | (false, s) => s.refuse c 0x200 0x0011))

/-- REGION_CMD: as MC_REGION_CMD (R218); the final reply follows once every controller has applied it. -/
def execRegionCmd (s : State) : Host.Outcome State Fault Refusal :=
  .next (s.serve 0x0505 (fun c b s =>
    let first := leAt b 0 2
    let count := leAt b 2 2
    let op := leAt b 4 1
    let cls := leAt b 5 1
    if op > 3 then s.refuse c 0x107 36
    else if cls > 3 then s.refuse c 0x107 37
    else if s.regionBad op first count then s.refuse c 0x105 0
    else (s.regionStart .command op first count cls).progress c 2 (.region op first count cls)))

/-- REGION_CMD_COMPLETE (R200): every controller has applied the `nth` region command that is under way; a DM.RCLEAR completes, in
the order of its engine and stream, and a REGION_CMD gives its final reply. -/
def execRegionCmdComplete (nth : Nat) (s : State) : Host.Outcome State Fault Refusal :=
  .next (match s.mem.regionOps[nth]? with
    | none => s
    | some o =>
      let s' := { s with mem := { s.mem with regionOps := s.mem.regionOps.take nth ++ s.mem.regionOps.drop (nth + 1) } }.regionRun o.op o.cls o.first o.count
      match o.src with
      | .word lc st =>
        (match s.physOf lc with
        | none => s'
        | some pc => match (s.core pc).oldest .dm st with
          | some (i, f) => if opcodeOf f.ent.word = 0x004 then s'.complete pc lc i f else s
          | none => s')
      | .register _ => s'
      | .command => s'.finish (fun w => w == .region o.op o.first o.count o.cls) 0 0)

/-- EVENT_SUBSCRIBE (R418): a new subscription replaces the old one. -/
def execEventSubscribe (s : State) : Host.Outcome State Fault Refusal :=
  .next (s.serve 0x0702 (fun c b s =>
    let id := leAt b 0 4
    if leAt b 4 1 ≥ 4 then s.refuse c 0x100 36
    else if leAt b 5 1 > 5 then s.refuse c 0x107 37
    else match s.conn id with
      | some n => if n.kind = 1 then (s.modCtl (fun x => { x with sub := some ⟨id, leAt b 4 1, leAt b 5 1⟩ })).replyOk c [] else s.refuse c 0x107 32
      | none => s.refuse c 0x107 32))

/-- COMMAND_STATUS: the cached reply of a sequence of the session, as a DUPLICATE gives it. -/
def execCommandStatus (s : State) : Host.Outcome State Fault Refusal :=
  .next (s.serve 0x0703 (fun c b s =>
    match ((match s.session c.session with | some x => x.cache.find? (fun (r : Reply) => r.seq == leAt b 0 8) | none => none) : Option Reply) with
    | some r =>
      let s := s.giveCredit c
      let s := s.modSession c.session (fun x => x.remember c.seq 0x102 r.body)
      (s.countStatus 0x102).sendMsg (s.replyConn c) (replyBytes c.head true 0x102 r.status (s.credits c) 0 r.body)
    | none =>
      let s := s.giveCredit c
      let s := s.modSession c.session (fun x => x.remember c.seq 0x102 [])
      (s.countStatus 0x102).sendMsg (s.replyConn c) (replyBytes c.head true 0x102 0xFFFF (s.credits c) 0 [])))

end Sys2Proof.Machine
end

