-- ==== Sys2Proof/Machine/Train.lean ====
section
/-!
DEFINITION. The training step (R286 to R311): the ends of its phases, the boundary messages, the NORM pass, the verdict and its decision, and
the restore of a checkpoint.
-/

namespace Sys2Proof.Machine

/-! ### What the image says -/

/-- The index after the collective descriptors of a die that a phase ends with (Table 9.1). -/
def State.ceEnd (s : State) (d phase : Nat) : Nat :=
  match s.image.ends.find? (fun e => e.1 == d && e.2.1 == phase) with
  | some e => e.2.2
  | none => 0

/-- Have all collective descriptors of a die that a phase ends with completed? -/
def State.ceDone (s : State) (d phase : Nat) : Bool :=
  decide (s.ceEnd d phase ≤ s.getF d fCeStatusNext) && (s.runs d).all (fun r => decide (s.ceEnd d phase ≤ r.ix))

/-- The logical cores of a die that the package presents, with their physical cores. -/
def State.presented (s : State) (d : Nat) : List (Nat × Nat) :=
  (span (16 * d) 16).filterMap (fun lc => (s.physOf lc).map (fun pc => (lc, pc)))

/-- Is every presented core of a die DONE (R67)? -/
def State.coresDone (s : State) (d : Nat) : Bool := (s.presented d).all (fun e => (s.core e.2).done)

/-- The decision of the step, once derived. -/
def State.decision (s : State) : Option Nat :=
  if s.flag s.lead fStepResultValid then some (s.getF s.lead fStepResultDecision) else none

/-- Is the COMMIT in hand that of a digest step (R351)? -/
def State.digestStep (s : State) : Bool :=
  let k := s.getF s.lead fAgateDigCfgK
  s.job.phase == 4 && k != 0 && ((s.reg s.lead oStepIndex).toNat + 1) % k == 0 && s.decision == some 0

/-- Is the step a skipped one (R307)? -/
def State.skipped (s : State) : Bool := match s.decision with | some n => n != 0 | none => false

/-! ### Sums in a window -/

/-- A sum in an XA window: its pattern, over-range values and wraps, and findings. -/
structure WinSum where
  bits : Nat
  ovf : Nat
  wrap : Bool
  nonfin : Bool
deriving DecidableEq, Repr

/-- Add a value to a sum of `n` bits at window LSB exponent `l` (R118 with RNE, R119, R120); a non-finite value contributes 0. -/
def WinSum.add (n : Nat) (l : Int) (a : WinSum) (x : Num) : WinSum :=
  if !x.isFin then { a with nonfin := true }
  else
    let b := alignAdd .rne l (if n = 64 then 2 ^ 43 else 2 ^ 87) ⟨0, 0, 0, false⟩ x
    let r := combXa 0 n ⟨a.bits, 0⟩ ⟨unsigned n b.val, 0⟩
    { a with bits := r.1.bits, ovf := a.ovf + b.ovf + r.2, wrap := a.wrap || r.2 != 0 }

/-- L_SS of STEP_WINDOWS. -/
def State.lSs (s : State) (d : Nat) : Int := signed 10 (s.getF d fStepWindowsLSs)
/-- L_LOSS of STEP_WINDOWS. -/
def State.lLoss (s : State) (d : Nat) : Int := signed 10 (s.getF d fStepWindowsLLoss)

/-- Is a bucket parked: does its park queue hold an entry (R325)? -/
def State.parked (s : State) (d q : Nat) : Bool × State :=
  match s.qGet d q with
  | (some v, s) => (decide (1 ≤ qHeld v), s)
  | (none, s) => (false, s)

/-- A residue check of an update unit's squarers or adders fails (R345): the operation completes, and a record names its address. -/
def State.updResidue (s : State) (d addr : Nat) (res : Bool) : State :=
  if !res then s
  else s.raise d ⟨.tainted, 0x0021, 0x09, d, addr, (Config.recordArg 0x21 0 [d, addr]).toNat, (Config.recordArg 0x21 1 [d, addr]).toNat, 0⟩

/-- NORM_PASS (R302): the update unit squares the `ix`-th NORM range of its die, once its bucket is parked; `residue` says that a residue check of
its squarers or adders fails (R345). (DEDUCED, log entry 45.) -/
def execNormPass (d : Fin 4) (ix : Nat) (residue : Bool) (s : State) : Host.Outcome State Fault Refusal :=
  .next (
    match (s.image.norm.filter (fun r => r.die == d.val))[ix]? with
    | none => s
    | some r =>
      let u := s.upd d
      if !s.dieUp d || !s.job.running || s.job.starting || s.job.phase != 1 || u.normDone.contains ix then s
      else match s.parked d r.parkq with
        | (false, s) => s
        | (true, s) =>
          match s.readRun (.update d) r.addr (128 * r.grans) with
          | (none, s) => s
          | (some bs, s) =>
            let w := typeWidth r.etype
            let z := (unpackBytes w (1024 * r.grans / w) bs).foldl (fun (a : WinSum) e =>
              let x := decodeElem r.etype e
              WinSum.add 128 (s.lSs d) a (if x.isFin then x.mul x else .nan)) ⟨u.sumsq.toNat, u.normOvf, u.normWrap, u.normNonfin⟩
            (s.updResidue d r.addr residue).setUpd d { s.upd d with normDone := u.normDone ++ [ix], sumsq := BitVec.ofNat 128 z.bits, normOvf := z.ovf, normWrap := z.wrap, normNonfin := z.nonfin })

/-! ### Capture windows (R288, R300) -/

/-- A capture window: key `d` the verdict window of die `d`, 4 + d its post-verdict window. -/
def State.win (s : State) (k : Nat) : Win := mapGet (fun _ => Win.none) s.wins k

/-- Read the step counters and flags of a die. -/
def State.stepFindings (s : State) (d : Nat) : Win :=
  let pcs := span (18 * d) 18
  let any (f : Fld) : Bool := pcs.any (fun pc => s.coreGet pc f == 1)
  let ce := s.getF d fCeStepOvfCount
  { ovf := pcs.foldl (fun n pc => n + s.coreGet pc fAccStepOvfCount + s.coreGet pc fVxStepOvfCount) 0 + ce
    nonfin := any fAccStepFlagsNonfin || any fVxStepFlagsNonfin
    wrap := any fAccStepFlagsWrap || any fVxStepFlagsWrap || ce != 0
    residue := any fVxStepFlagsResidue
    taint := (s.die d).taints != 0 }

/-- Clear them. -/
def State.clearFindings (s : State) (d : Nat) : State :=
  let s := (span (18 * d) 18).foldl (fun (s : State) pc =>
    [oAccStepOvf, oAccStepFlags, oVxStepOvf, oVxStepFlags].foldl (fun (s : State) o => s.setReg d (o + (pc % 18) * 0x10000) 0) s) s
  (s.setF d fCeStepOvfCount 0).modDie d (fun x => { x with taints := 0 })

/-- Step 2 of R288 on one die: read, clear, and file under the window of the phase. -/
def State.fileWindow (s : State) (p d : Nat) : State :=
  let f := s.stepFindings d
  let k := if p ≤ 1 then d else 4 + d
  let w := s.win k
  let v : Win := ⟨w.ovf + f.ovf, w.nonfin || f.nonfin, w.wrap || f.wrap, w.residue || f.residue, w.taint || f.taint⟩
  { s.clearFindings d with wins := mapSet (fun _ => Win.none) s.wins k v }

/-- Does a die's post-verdict window exceed OVF_LIMIT? (DEDUCED, log entry 43.) -/
def State.postOvf (s : State) (d : Nat) : Bool := decide (s.getF d fStepLimitsOvfLimit < (s.win (4 + d)).ovf)

/-- Show the post-verdict windows in STEP_POST of every die. (DEDUCED, log entry 43.) -/
def State.showPost (s : State) : State :=
  let any (f : Nat → Bool) : Nat := b2n ((span 0 4).any f)
  let v := any (fun d => (s.win (4 + d)).nonfin) + 2 * any (fun d => (s.win (4 + d)).wrap)
    + 4 * any (fun d => (s.win (4 + d)).residue || (s.win (4 + d)).taint) + 8 * any (fun d => s.postOvf d)
  (span 0 4).foldl (fun (s : State) d => s.setReg d oStepPost (BitVec.ofNat 64 v)) s

/-! ### The step parameter granule and the checkpoint header -/

/-- E of STEP_LSCALE. -/
def State.lscaleE (s : State) (d : Nat) : Int := signed 8 (s.getF d fStepLscaleE)

/-- The step parameter granule (Table 9.4) with its bytes 28 to 36. -/
def State.paramGran (s : State) (d unscale clip decision : Nat) : List Byte :=
  let e := s.lscaleE d
  leBytes (s.reg d oStepIndex).toNat 8 ++ leBytes (toF32 (Num.ofInt 1 e)) 4 ++ leBytes (toF32 (Num.ofInt 1 (-e))) 4
    ++ leBytes (s.reg d oStepCursor).toNat 8 ++ leBytes (s.getF d fStepSkipConsec) 2 ++ leBytes (s.getF d fCeLayoutGenGen) 2
    ++ leBytes unscale 4 ++ leBytes clip 4 ++ leBytes decision 1 ++ List.replicate 91 0

/-- Write the granule whole. -/
def State.putParam (s : State) (r : Requester) (unscale clip decision : Nat) : State :=
  (s.writeRun r (128 * s.getF 0 fStepParamAddrAddr) (s.paramGran 0 unscale clip decision)).2

/-- The values that action 1 of Table 9.2 sets (R308): STEP_INDEX, STEP_CURSOR, STEP_LSCALE, STEP_SKIP. -/
structure StepVals where
  index : BitVec 64
  cursor : BitVec 64
  lscale : BitVec 64
  skip : BitVec 64
deriving DecidableEq, Repr

/-- STEP_SKIP with TOTAL and CONSEC each raised by one. -/
def skipRaised (v : BitVec 64) : BitVec 64 :=
  putFld (putFld v 0 32 (satAdd (2 ^ 32 - 1) (fld v 0 32) 1)) 32 16 (satAdd 65535 (fld v 32 16) 1)

/-- The effect of the decision (R308). (DEDUCED, log entry 43.) -/
def State.decided (s : State) (d : Nat) : StepVals :=
  let e := s.lscaleE d
  let good := s.getF d fStepLscaleGood + 1
  let grow := s.getF d fStepLscfgGrowEvery
  let eMax := signed 8 (s.getF d fStepLscfgEMax)
  let eMin := signed 8 (s.getF d fStepLscfgEMin)
  let ls := s.reg d oStepLscale
  let put (e : Int) (g : Nat) : BitVec 64 := putFld (putFld ls 0 8 (unsigned 8 e)) 16 16 g
  let sk := s.reg d oStepSkip
  if s.skipped then ⟨s.reg d oStepIndex, s.reg d oStepCursor, put (max (e - 1) eMin) 0, skipRaised sk⟩
  else
    ⟨s.reg d oStepIndex + 1, s.reg d oStepCursor + BitVec.ofNat 64 (s.getF d fStepBatchBatch),
      if grow ≠ 0 ∧ good ≥ grow then put (min (e + 1) eMax) 0 else put e good, putFld sk 32 16 0⟩

/-- Set the STEP registers of a die. -/
def State.setStep (s : State) (d : Nat) (v : StepVals) : State :=
  (((s.setReg d oStepIndex v.index).setReg d oStepCursor v.cursor).setReg d oStepLscale v.lscale).setReg d oStepSkip v.skip

/-- The region that holds the checkpoint header: the lowest data slot of block 0 (R335). -/
def State.headerAddr (s : State) (d : Nat) : Nat :=
  0x1000000 * (s.getF d fParCfgBase + (if s.getF d fParCfgMember = 0 then 1 else 0))

/-- The checkpoint header (Table 10.4). -/
def State.headerBytes (s : State) (v : StepVals) : List Byte :=
  leBytes v.index.toNat 8 ++ leBytes v.cursor.toNat 8 ++ leBytes v.lscale.toNat 8 ++ leBytes v.skip.toNat 8 ++ leBytes (s.getF 0 fCeLayoutGenGen) 2
    ++ leBytes (s.getF 0 fParCfgMember) 2 ++ leBytes s.pkgId 2 ++ leBytes (s.getF 0 fParCfgG) 2 ++ List.replicate 88 0

/-- Write the header of the state that the COMMIT in hand makes (R335). -/
def State.putHeader (s : State) : State :=
  if s.getF 0 fParCfgG = 0 then s else (s.writeRun (.jasper 0) (s.headerAddr 0) (s.headerBytes (s.decided 0))).2

/-! ### Boundaries -/

/-- Write bytes into a core's scratchpad granule by granule, each with its block check, from granule `g` on. -/
def Core.putBytes (pc : Nat) (c : Core) : Nat → Nat → List Byte → Core
  | 0, _, _ => c
  | n + 1, g, bs =>
    let v : GranBits := BitVec.ofNat 1024 (leNat (bs.take 128))
    Core.putBytes pc (spadPutGran pc c g v (chkOf v)) n (g + 1) (bs.drop 128)

/-- The Jasper cluster writes the instruction region of a core before a task (R80): as much as the region holds.
(DESIGN CHOICE, log entry 4; DEDUCED, log entry 30.) -/
def State.putCode (s : State) (pc : Nat) (bs : List Byte) : State :=
  let n := min (ceilDiv bs.length 128) (s.coreGet pc fSeqIrCfgPages * 512)
  s.modCore pc (fun c => c.putBytes pc n (s.irBase pc / 2) bs)

/-- Write the instruction regions, start words and GO of every presented core for a phase (R80, R288).
(DESIGN CHOICE, log entry 4; DEDUCED, log entry 30.) -/
def State.startCores (s : State) (p : Nat) : State :=
  (span 0 4).foldl (fun (s : State) d => (s.presented d).foldl (fun (s : State) e =>
    let s := match s.image.code.find? (fun x => x.1 == e.1 && x.2.1 == p) with
      | some x => s.putCode e.2 x.2.2
      | none => s
    let s := match s.image.starts.find? (fun x => x.lc == e.1 && x.phase == p) with
      | some x => (s.coreSet e.2 fSeqPcCritStart x.crit).coreSet e.2 fSeqPcDefStart x.defr
      | none => s
    s.goCore e.2) s) s

/-- What an update unit forgets when a phase begins: its NORM sums before COMPUTE, and its place in the rule program before UPDATE and COMMIT. In COMMIT of
an applied step (`owed`) it owes the descriptors of PHASE 1 (R312). -/
def Upd.forPhase (p : Nat) (owed : Bool) (u : Upd) : Upd :=
  let u := { u with released := [], begun := false }
  if p = 0 then { u with normDone := [], sumsq := 0, normOvf := 0, normWrap := false, normNonfin := false }
  else if 3 ≤ p then { u with rule := none, stopped := false, late := owed }
  else u

/-- Every update unit is made ready for phase `p`; before UPDATE and COMMIT its program starts anew (R312). -/
def State.updPhase (s : State) (p : Nat) (owed : Bool) : State :=
  let s := if 3 ≤ p then s.stopRules else s
  (span 0 4).foldl (fun (s : State) d =>
    let s := (s.snap d).setUpd d ((s.upd d).forPhase p owed)
    if 3 ≤ p then s.setF d fUpdStatusNext 0 else s) s

/-- A phase begins (R288 step 5): SNAP on every die, then GO on every presented core. VERDICT has no core streams (Table 9.1); UPDATE and
COMMIT of a skipped step start none (R307). (DEDUCED, log entry 42.) -/
def State.beginPhase (s : State) (p : Nat) : State :=
  let skip := s.skipped && decide (3 ≤ p)
  let s := s.moveBack
  let s := if p = 4 ∧ skip = false then s.putHeader else s
  let s := s.updPhase p (p == 4 && !skip)
  let s := { s with job := { s.job with phase := p, starting := false, ended := false, sent := false, status := 0, childEnds := [], recorded := false, held := false, digs := [], digBlock := false, compared := false, digStatus := 0 } }
  if p = 2 ∨ skip then s else s.startCores p

/-- Act on the status that PHASE_GO brings (R290); a package found ODD leaves its domain on ROLLBACK (R355). -/
def State.actGo (s : State) (status : Nat) : State :=
  match status with
  | 0 =>
    if s.job.starting then (s.beginPhase 0).finish (fun w => w == .jobStart) 0 0
    else if s.job.phase = 4 then { s with job := { s.job with atCommit := true } }
    else if s.job.phase = 2 ∧ s.ctl.reading ∧ s.skipped = false then { s with job := { s.job with held := true } }
    else s.beginPhase (s.job.phase + 1)
  | 1 =>
    if s.pkgFatal then (s.setF common fPkgIdIdValid 0).endFatal 0x23
    else { s with job := { s.job with rollback := true } }
  | _ => s.endFatal ((Config.recordArg 0 0 [s.job.phase]).toNat % 65536)

/-- Forward PHASE_GO to the children and act on it. -/
def State.goDown (s : State) (status : Nat) : State :=
  (s.boundDown 1 s.boundStep s.job.phase status).actGo status

/-- Once this package has ended its phase and every child has reported, PHASE_END goes up, or at the root PHASE_GO goes down (R289). -/
def State.tryPass (s : State) : State :=
  let j := s.job
  if !j.running || !j.ended || j.sent || decide (j.childEnds.length < s.timeKids.length) then s
  else
    let st := j.childEnds.foldl (fun (m : Nat) c => max m c.2) j.status
    let s := { s with job := { j with sent := true, status := st } }
    if s.treeRoot then s.goDown st else s.boundUp 0 s.boundStep j.phase st

/-- Has a die reached the end of a phase (Table 9.1), its Beryl check apart? -/
def State.dieEnded (s : State) (p d : Nat) : Bool :=
  s.dieUp d &&
  match p with
  | 0 => s.coresDone d
  | 1 => s.coresDone d && s.ceDone d 1
      && (span 0 (s.image.norm.filter (fun r => r.die == d)).length).all (fun i => (s.upd d).normDone.contains i)
  | 2 => s.flag d fStepResultValid
  | 3 => s.skipped || (s.coresDone d && (s.upd d).rule.isNone && decide (s.getF d fUpdProgCount ≤ s.getF d fUpdStatusNext))
  | _ => s.skipped || (s.coresDone d && s.ceDone d 4)

/-- Run the Beryl check of every die: the first that fails, with its first differing counter (R236). -/
def State.allChecks : List Nat → State → Option (Nat × Nat × Nat) × State
  | [], s => (none, s)
  | d :: r, s =>
    let z := s.berylCheck d
    let y := State.allChecks r z.2
    ((match z.1 with | some (i, v) => some (d, i, v) | none => y.1), y.2)

/-- Steps 2 and 3 of R288 once every die has reached its end: windows, the status of the package, and the boundary message.
(DEDUCED, log entry 42.) -/
def State.closePhase (s : State) : State :=
  let p := s.job.phase
  let s := (span 0 4).foldl (fun (s : State) d => s.fileWindow p d) s
  let s := if p ≥ 2 then s.showPost else s
  let bad : Bool := (p == 2 && s.decision == some 2) || (p == 4 && (s.reg s.lead oStepPost != 0))
  { s with job := { s.job with ended := true, status := max (b2n bad) s.job.digStatus } }.tryPass

/-- PHASE_END_DETECT (R286, R288, R309, R354): every die has reached its end condition, and a digest step's digests have been compared; a Beryl
check that fails ends the job (R236). -/
def execPhaseEndDetect (s : State) : Host.Outcome State Fault Refusal :=
  .next (
    let p := s.job.phase
    if !s.job.running || s.job.starting || s.job.ended || !(span 0 4).all (s.dieEnded p) || (s.digestStep && !s.job.compared) then s
    else if p = 2 then s.closePhase
    else match State.allChecks (span 0 4) s with
      | (none, s) => s.closePhase
      | (some (d, i, v), s) => s.raise s.lead ⟨.jobFatal, 0x0002, 0x0A, s.lead, d * 65536 + i, v, (s.beryl d).ctr i, 0⟩)

/-- The first boundary message of a KIND, and the rest. -/
def takeBound (kind : Nat) (l : List BMsg) : Option (BMsg × List BMsg) := takeFirst (fun m => m.kind == kind) l

/-- Does a boundary message name another step or phase than the package's own (R290)? (DEDUCED, log entry 42.) -/
def State.strange (s : State) (m : BMsg) : Bool := m.step != s.boundStep || m.phase != s.job.phase

/-- A boundary message is refused (R290). -/
def State.boundMismatch (s : State) (m : BMsg) : State :=
  s.raise s.lead ⟨.jobFatal, 0x0005, 0x0A, s.lead, 0, m.step % 2 ^ 32, m.phase, 0⟩

/-- Is the package between a PHASE_GO and what it does on it? -/
def State.between (s : State) : Bool := s.job.atCommit || s.job.rollback || s.job.held

/-- PHASE_END (R289, R290): a child's message is taken; ABORT is passed on at once. Without a job the message waits for one.
(DEDUCED, log entry 42.) -/
def execPhaseEnd (s : State) : Host.Outcome State Fault Refusal :=
  .next (match takeBound 0 s.bounds with
    | none => s
    | some (m, r) =>
      let s' := { s with bounds := r }
      if !s.job.running then (if m.status = 2 then s' else s)
      else if s.between then s
      else if s.strange m then s'.boundMismatch m
      else if m.status = 2 then s'.abortJob ((Config.recordArg 0 0 [m.phase, m.src]).toNat % 65536)
      else { s' with job := { s.job with childEnds := s.job.childEnds.filter (fun (c : Nat × Nat) => c.1 != m.src) ++ [(m.src, m.status)] } }.tryPass)

/-- PHASE_GO (R289, R290): forwarded, and acted on. (DEDUCED, log entry 42.) -/
def execPhaseGo (s : State) : Host.Outcome State Fault Refusal :=
  .next (match takeBound 1 s.bounds with
    | none => s
    | some (m, r) =>
      let s' := { s with bounds := r }
      if !s.job.running then
        (if m.status = 2 then s'.boundDown 1 m.step m.phase 2 else s')
      else if s.between then s
      else if s.strange m || (m.status != 2 && !s.job.sent) then s'.boundMismatch m
      else s'.goDown m.status)

/-! ### The verdict -/

/-- Local address of the verdict region. -/
def State.vrec (s : State) (d : Nat) : Nat := 0x1000000 * s.getF d fStepVrecAddrRegion

/-- Sums of a die's core contributions (Table 9.7, R303): LOSS, TOKENS, and whether one was NONFIN. A slot that cannot be read counts as
non-finite. -/
def State.contribs (d : Nat) : List Nat → WinSum × Nat → State → (WinSum × Nat) × State
  | [], a, s => (a, s)
  | n :: r, a, s =>
    match s.readRun (.update d) (s.vrec d + 0x400 + 128 * n) 16 with
    | (some bs, s) =>
      let w := WinSum.add 64 (s.lLoss d) a.1 (ofF32 (leAt bs 0 4))
      State.contribs d r ({ w with nonfin := w.nonfin || leAt bs 4 4 % 2 == 1 }, (a.2 + leAt bs 8 8) % 2 ^ 64) s
    | (none, s) => State.contribs d r ({ a.1 with nonfin := true }, a.2) s

/-- The die record of die `d` (R303) as a number. (DEDUCED, log entry 43.) -/
def State.dieRecord (s : State) (d : Nat) : Nat × State :=
  let c := State.contribs d (span (16 * d) 16) (⟨0, 0, false, false⟩, 0) s
  let s := c.2
  let u := s.upd d
  let w := s.win d
  let l := c.1.1
  let nonfin := w.nonfin || u.normNonfin || l.nonfin
  let wrap := w.wrap || u.normWrap || l.wrap
  (u.sumsq.toNat + 2 ^ 128 * l.bits + 2 ^ 192 * c.1.2 + 2 ^ 256 * ((w.ovf + u.normOvf + l.ovf) % 2 ^ 64)
    + 2 ^ 320 * (b2n nonfin + 2 * b2n (w.residue || w.taint) + 4 * b2n wrap), s)

/-- Combine two die records in the update unit of C0 (R303); a wrap of an exact sum sets WRAP (R120). (DEDUCED, log entry 43.) -/
def joinRecords (a b : Nat) : Nat := combVerdict a b ||| (if verdictWraps a b = 0 then 0 else 2 ^ 322)

/-- Build and write the die records, and combine them. -/
def State.dieRecords : List Nat → Option Nat → State → Option Nat × State
  | [], a, s => (a, s)
  | d :: r, a, s =>
    let z := s.dieRecord d
    let s := (z.2.writeRun (.update d) (s.vrec d + 128 * d) (leBytes z.1 128)).2
    State.dieRecords r (some (match a with | none => z.1 | some x => joinRecords x z.1)) s

/-- DIE_RECORD_BUILD (R303): the die records and the package record are written in VERDICT, and the trigger of C0's collective engine is
rung. `residue` names a die whose update unit fails a residue check of its sums (R345). -/
def execDieRecordBuild (residue : Option (Fin 4)) (s : State) : Host.Outcome State Fault Refusal :=
  .next (
    if !s.job.running || s.job.starting || s.job.phase != 2 || s.job.recorded || !(span 0 4).all s.dieUp then s
    else
      let z := State.dieRecords (span 0 4) none s
      let s := match residue with | some d => z.2.updResidue d (z.2.vrec d) true | none => z.2
      let sums := (z.1.getD 0) % 2 ^ 352
      let step := fld (s.reg 0 oStepIndex) 0 32
      let gen := s.getF 0 fCeLayoutGenGen
      let rec_ := sums + 2 ^ 352 + 2 ^ 384 * step + 2 ^ 416 * step + 2 ^ 448 * gen + 2 ^ 464 * gen
      let s := (s.writeRun (.update 0) (s.vrec 0 + 0x200) (leBytes rec_ 128)).2
      let s := { s with job := { s.job with recorded := true } }
      s.qSubmit 0 ⟨s.getF 0 fCeCfgTrigq, .doorbell 1, .unit⟩)

/-! ### The decision (R305) -/

/-- What R305 derives: decision, cause bits (NONFIN, WRAP, OVF, NORM_OVF, TAINT as bits 0 to 4), NORM, CLIP, UNSCALE, LOSS_MEAN. -/
structure Verdict where
  decision : Nat
  cause : Nat
  norm : Nat
  clip : Nat
  unscale : Nat
  lossMean : Nat
deriving DecidableEq, Repr

/-- The function of R305 on a combined record. (DEDUCED, log entry 43.) -/
def decide305 (rec_ : Nat) (e lSs lLoss : Int) (clipMax ovfLimit : Nat) : Verdict :=
  let flags := natBits rec_ 320 32
  if natBits flags 1 1 = 1 then ⟨2, 16, 0, 0, 0, 0⟩
  else
    let q := toF32 (Num.ofInt (signed 128 (natBits rec_ 0 128)) (lSs - 2 * e))
    let cause := natBits flags 0 1 + 2 * natBits flags 2 1 + 4 * b2n (Decidable.decide (ovfLimit < natBits rec_ 256 64)) + 8 * b2n (q == f32Inf)
    if cause ≠ 0 then ⟨1, cause, 0, 0, 0, 0⟩
    else
      let norm := specialF32 6 q
      let le : Bool := (ofF32 norm).lt (ofF32 clipMax) || (ofF32 norm).eqv (ofF32 clipMax)
      let clip := if clipMax = 0 ∨ le = true then f32One else f32Mul clipMax (specialF32 4 norm)
      let unscale := toF32 ((ofF32 clip).scale2 (-e))
      let tokens := natBits rec_ 192 64
      let loss := toF32 (Num.ofInt (signed 64 (natBits rec_ 128 64)) lLoss)
      ⟨0, 0, norm, clip, unscale, if tokens = 0 then 0 else f32Mul loss (specialF32 4 (toF32 (Num.ofInt tokens 0)))⟩

/-- Write the results of R305 to the step registers of a die. -/
def State.putVerdict (s : State) (d : Nat) (v : Verdict) : State :=
  let r := v.decision + 4 + 16 * natBits v.cause 4 1 + 32 * natBits v.cause 0 1 + 64 * natBits v.cause 1 1 + 128 * natBits v.cause 2 1 + 256 * natBits v.cause 3 1
  ((s.setReg d oStepResult (BitVec.ofNat 64 r)).setReg d oStepNorm (BitVec.ofNat 64 (v.norm + 2 ^ 32 * v.clip))).setReg d oStepUnscale
    (BitVec.ofNat 64 (v.unscale + 2 ^ 32 * v.lossMean))

/-- The park queues that a die's UPDATE descriptors and NORM ranges name. -/
def State.parkQueues (d : Nat) : List Nat → State → List Nat × State
  | [], s => ((s.image.norm.filter (fun r => r.die == d)).map (fun r => r.parkq), s)
  | k :: r, s =>
    match s.readRun (.update d) (s.getF d fUpdProgAddr * 65536 + 128 * k) 16 with
    | (some bs, s) =>
      let z := State.parkQueues d r s
      (if leAt bs 0 1 / 64 % 2 = 0 then leAt bs 12 4 % 2 ^ 18 :: z.1 else z.1, z.2)
    | (none, s) => State.parkQueues d r s

/-- On a skip, CONS passes over every parked bucket of the step (R307, R325). (DEDUCED, log entry 44.) -/
def State.skipBuckets (s : State) (d : Nat) : State :=
  let z := State.parkQueues d (span 0 (s.getF d fUpdProgCount)) s
  z.1.dedup.foldl (fun (s : State) q =>
    match s.qGet d q with
    | (some v, s) => if qHeld v = 0 then s else s.qPut d q (qAddCons v (qHeld v))
    | (none, s) => s) z.2

/-- DECISION_DERIVE (R304, R305, R307): the update unit of a die reads the combined record once the VERDICT descriptor has completed; the
unit of C0 also rewrites the step parameter granule. -/
def execDecisionDerive (d : Fin 4) (s : State) : Host.Outcome State Fault Refusal :=
  .next (
    let ix := s.image.verdict
    if !s.job.running || s.job.phase != 2 || !s.job.recorded || !s.dieUp d || s.flag d fStepResultValid || s.flag 0 fCeStatusHalted
        || decide (s.getF 0 fCeStatusNext ≤ ix) || (s.runs 0).any (fun r => r.ix == ix) then s
    else match s.readRun (.update d) (s.vrec d + 0x280) 64 with
      | (none, s) => s
      | (some bs, s) =>
        let v := decide305 (leNat bs) (s.lscaleE d) (s.lSs d) (s.lLoss d) (s.getF d fStepLimitsClipMax) (s.getF d fStepLimitsOvfLimit)
        let s := s.putVerdict d v
        let s := if d.val = 0 then s.putParam (.update 0) v.unscale v.clip v.decision else s
        if v.decision = 0 then s else s.skipBuckets d)

/-! ### Actions 2 to 6 of Table 9.2, and the restore -/

/-- Actions 2 to 6 of Table 9.2. -/
def State.boundaryActions (s : State) : State :=
  let s := (span 0 72).foldl (fun (s : State) pc => s.setReg (pcDie pc) (oVxSrStep + (pc % 18) * 0x10000)
    (BitVec.ofNat 64 (fld (s.reg (pcDie pc) oStepIndex) 0 32))) s
  let s := s.putParam (.jasper 0) 0 0 0
  let s := { s.regionRun 0 0 (s.getF 0 fStepVrecAddrRegion) 1 with wins := [] }
  (span 0 4).foldl (fun (s : State) d => ((s.setF d fStepResultValid 0).setReg d oStepPost 0).setF d fCeStatusNext 0) s

/-- Is a JOB_STOP due, now that the step it names has been applied (R411)? -/
def State.stopDue (s : State) : Bool :=
  match s.job.stopAt with
  | some n => decide ((s.reg s.lead oStepIndex).toNat = (n + 1) % 2 ^ 64)
  | none => false

/-- The job ends in good order (R411). -/
def State.endStopped (s : State) : State :=
  let s := { s with job := { Job.none with phase := s.job.phase, digestBad := s.job.digestBad }, bounds := [] }
  s.finish (fun w => w == .jobStop) 0 0

/-- After the COMMIT boundary: the next COMPUTE begins, unless the job stops here (R411). -/
def State.nextCompute (s : State) : State := if s.stopDue then s.endStopped else s.beginPhase 0

/-- Has CONSEC reached a non-zero SKIP_LIMIT (R308)? The record then ends the job. -/
def State.skipLimit (s : State) : Option State :=
  let lim := s.getF s.lead fStepLscfgSkipLimit
  let n := s.getF s.lead fStepSkipConsec
  if lim ≠ 0 ∧ n ≥ lim then
    some (s.raise s.lead ⟨.jobFatal, 0x0004, 0x0A, s.lead, 0, n, (Config.recordArg 4 1 [s.getF s.lead fStepLscaleE]).toNat, 0⟩)
  else none

/-- Reload the STEP registers from a checkpoint header; after a SKIP_ROLLBACK, STEP_SKIP is the noted value with its counts raised (R308). -/
def State.reload (s : State) (bs : List Byte) (taint : Bool) (d : Nat) : State :=
  let w (off : Nat) : BitVec 64 := BitVec.ofNat 64 (leAt bs off 8)
  s.setStep d ⟨w 0, w 8, regValue d oStepLscale (w 16), if taint then skipRaised (s.reg d oStepSkip) else regValue d oStepSkip (w 24)⟩

/-- Does parity cover the state the step began from, with no digest disagreeing since (R337)? (DEDUCED, log entry 44.) -/
def State.committedOk (s : State) : Bool :=
  (span 0 4).all (fun d => s.flag d fParStatusValid && s.getF d fParStatusStep == fld (s.reg d oStepIndex) 0 56) && !s.job.digestBad

/-- CHECKPOINT_RESTORE (R337, R308): the committed state, and the step replays from COMPUTE; or, where that does not serve, the lead die
reports that a stored checkpoint is needed and the job ends. (DEDUCED, log entry 44.) -/
def execCheckpointRestore (s : State) : Host.Outcome State Fault Refusal :=
  .next (
    if !s.job.running || !s.job.rollback then s
    else
      let s := { s with job := { s.job with rollback := false } }
      let fail (s : State) : State := s.raise s.lead ⟨.jobFatal, (Config.recordArg 0 1 []).toNat % 65536, 0x0A, s.lead, 0, 0, 0, 0⟩
      if !s.committedOk then fail s
      else match s.readRun (.jasper 0) (s.headerAddr 0) 128 with
        | (none, s) => fail s
        | (some bs, s) =>
          let taint := s.decision == some 2
          let s := (span 0 4).foldl (fun (s : State) d => s.reload bs taint d) s
          match (if taint then s.skipLimit else none) with
          | some s => s
          | none => s.boundaryActions.beginPhase 0)

end Sys2Proof.Machine
end

