-- ==== Sys2Proof/Machine/Update.lean ====
section
/-!
DEFINITION. The update units (R312 to R340): rule programs, items, the remote tier, checkpoint parity, stored checkpoints, layouts and
reconstruction.
-/

namespace Sys2Proof.Machine

/-! ### Rule descriptors (Table 10.1) -/

/-- A rule descriptor. -/
abbrev RuleDesc := BitVec 1024

/-- RULE. -/
def rRule (x : RuleDesc) : Nat := fld x 0 3
/-- TIER. -/
def rTier (x : RuleDesc) : Bool := bit x 3
/-- RES. -/
def rRes (x : RuleDesc) : Bool := bit x 4
/-- LAST. -/
def rLast (x : RuleDesc) : Bool := bit x 5
/-- PHASE. -/
def rPhase (x : RuleDesc) : Nat := fld x 6 1
/-- WTYPE. -/
def rWtype (x : RuleDesc) : Nat := fld x 8 4
/-- GTYPE. -/
def rGtype (x : RuleDesc) : Nat := fld x 12 4
/-- CORES as local core numbers, ascending. -/
def rCores (x : RuleDesc) : List Nat := maskBits (fld x 16 16) 16
/-- NELEM. -/
def rNelem (x : RuleDesc) : Nat := fld x 32 32
/-- ITEM. -/
def rItem (x : RuleDesc) : Nat := fld x 64 17
/-- PARKQ. -/
def rParkq (x : RuleDesc) : Nat := fld x 96 18
/-- WADDR. -/
def rWaddr (x : RuleDesc) : Nat := fld x 128 64
/-- SADDR. -/
def rSaddr (x : RuleDesc) : Nat := fld x 192 64
/-- GADDR. -/
def rGaddr (x : RuleDesc) : Nat := fld x 256 64
/-- HOLDER. -/
def rHolder (x : RuleDesc) : Nat := fld x 320 12
/-- FLOW. -/
def rFlow (x : RuleDesc) : Nat := fld x 352 20
/-- ROWS. -/
def rRows (x : RuleDesc) : Nat := fld x 544 16
/-- COLS. -/
def rCols (x : RuleDesc) : Nat := fld x 560 16
/-- ITER. -/
def rIter (x : RuleDesc) : Nat := fld x 576 4
/-- ROOT. -/
def rRoot (x : RuleDesc) : Nat := fld x 580 4
/-- PERIOD. -/
def rPeriod (x : RuleDesc) : Nat := fld x 592 16
/-- PADDR. -/
def rPaddr (x : RuleDesc) : Nat := fld x 768 64
/-- XADDR. -/
def rXaddr (x : RuleDesc) : Nat := fld x 832 64

/-- Is the rule a matrix rule (R317)? -/
def rMatrix (x : RuleDesc) : Bool := rRule x == 2 || rRule x == 3

/-- The reserved bits of a descriptor (Table 10.1). -/
def rReserved (x : RuleDesc) : Bool :=
  [(7, 1), (81, 15), (114, 14), (332, 4), (336, 16), (372, 12), (584, 8), (746, 6), (752, 16), (896, 128)].any (fun p => fld x p.1 p.2 != 0)

/-- The fields, by first bit and width, that a rule may use beside those of every rule with cores (Table 10.2). -/
def rOptional : List (Nat × Nat × List Nat) :=
  [(384, 32, [0, 1, 2, 3]), (416, 32, [0, 1, 2, 3]), (448, 32, [1, 3]), (480, 32, [1, 2]), (512, 32, [0, 1, 2, 3]), (544, 32, [2, 3]), (576, 4, [2, 3]),
   (580, 4, [3]), (592, 16, [3]), (608, 96, [2]), (704, 32, [3]), (736, 10, [2]), (768, 64, [3]), (832, 64, [2, 3]),
   (4, 1, [0, 1, 2, 3]), (8, 8, [0, 1, 2, 3]), (16, 16, [0, 1, 2, 3]), (64, 17, [0, 1, 2, 3]), (256, 64, [0, 1, 2, 3]), (320, 12, [0, 1]), (352, 20, [0, 1])]

/-- Items of a descriptor (R317). -/
def rItems (x : RuleDesc) : Nat :=
  if rRule x = 4 ∨ rCores x = [] then 0 else if rMatrix x then (rCores x).length else ceilDiv (rNelem x) (rItem x)

/-- Does a descriptor meet R313 and R314, addresses apart? (DEDUCED, log entry 45.) -/
def ruleOk (x : RuleDesc) : Bool :=
  let r := rRule x
  let dim (n : Nat) : Bool := n % 64 == 0 && decide (64 ≤ n ∧ n ≤ 8192)
  decide (r ≤ 4) && !rReserved x
    && rOptional.all (fun f => f.2.2.contains r || fld x f.1 f.2.1 == 0)
    && (rTier x || (rHolder x == 0 && rFlow x == 0))
    && [rWaddr x, rSaddr x, rGaddr x, rPaddr x, rXaddr x].all (fun a => a % 128 == 0 && decide (a < 2 ^ 48))
    && (match r with
      | 4 => rPhase x == 1 && !rTier x && rNelem x == 131072
      | 2 => !rTier x && dim (rRows x) && dim (rCols x) && rNelem x == rRows x * rCols x && rIter x != 0
      | 3 => !rTier x && dim (rRows x) && dim (rCols x) && rNelem x == rRows x * rCols x && rIter x != 0 && (rRoot x == 2 || rRoot x == 4) && rPeriod x != 0
      | _ => true)
    && (r == 4 || (rItem x % 64 == 0 && decide (64 ≤ rItem x ∧ rItem x ≤ 65536)))
    && (r == 4 || ((rWtype x == 1 || rWtype x == 2) && decide (rGtype x ≤ 2)))

/-- Bytes of an array of `n` elements of `w` bytes, in whole granules (R316). -/
def arrBytes (n w : Nat) : Nat := 128 * ceilDiv (n * w) 128

/-- The arrays of a state block in order: width in bytes, and whether the rule has it (R316). -/
def rArrays (x : RuleDesc) : List (Nat × Bool) := [(4, true), (2, rRes x), (4, true), (4, rRule x == 1)]

/-- Offset of the `k`-th array of a state block of `n` elements. -/
def rArrayOff (x : RuleDesc) (n k : Nat) : Nat :=
  (((rArrays x).take k).map (fun a => if a.2 then arrBytes n a.1 else 0)).foldl (· + ·) 0

/-- Bytes of the state of `n` elements. -/
def rStateBytes (x : RuleDesc) (n : Nat) : Nat := rArrayOff x n 4

/-- Do all regions of a range of stack memory have a class that `p` allows? -/
def State.rangeClass (s : State) (a n : Nat) (p : Nat → Bool) : Bool :=
  n == 0 || (decide (a + n ≤ stackBytes) && (span (a / 0x1000000) ((a + n - 1) / 0x1000000 + 1 - a / 0x1000000)).all (fun r => p (s.mem.region r).cls))

/-- Do the addresses of a descriptor lie in regions of the right classes (Table 6.5)? (DEDUCED, log entry 45.) -/
def State.ruleAddrOk (s : State) (d g : Nat) (x : RuleDesc) : Bool :=
  let rd := fun c => mayRead c (.update d)
  let wr := fun c => mayRead c (.update d) && mayWrite c (.update d)
  let n := rNelem x
  if rRule x = 4 then s.rangeClass (rWaddr x) 0x1000000 wr && s.rangeClass (rSaddr x) (g * 0x1000000) rd
  else s.rangeClass (rWaddr x) (2 * n) wr && s.rangeClass (rGaddr x) (ceilDiv (n * typeWidth (rGtype x)) 8) rd
    && (rTier x || s.rangeClass (rSaddr x) (rStateBytes x n) wr)
    && (rRule x != 3 || s.rangeClass (rPaddr x) (8 * (rRows x * rRows x + rCols x * rCols x)) wr)
    && (!rMatrix x || s.rangeClass (rXaddr x) 128 wr)

/-- Items that a program of descriptors gives a local core in a phase. -/
def itemsFor (l : List RuleDesc) (phase n : Nat) : Nat :=
  (l.map (fun x => if rPhase x ≠ phase then 0
    else match (rCores x).findIdx? (fun c => c == n) with
      | none => 0
      | some k => if rMatrix x then 1 else (rItems x + (rCores x).length - 1 - k) / (rCores x).length)).foldl (· + ·) 0

/-- Read descriptors `k` on of the program at `base`. -/
def State.readProg (d base : Nat) : Nat → Nat → State → Option (List RuleDesc) × State
  | 0, _, s => (some [], s)
  | n + 1, k, s =>
    match s.readRun (.update d) (base + 128 * k) 128 with
    | (some bs, s) =>
      let z := State.readProg d base n (k + 1) s
      (z.1.map (fun l => BitVec.ofNat 1024 (leNat bs) :: l), z.2)
    | (none, s) => (none, s)

/-- The rule program of a die meets R315: `prog`, `iring` and `par` are the register values the image gives. -/
def State.progOk (s : State) (d : Nat) (prog iring par : BitVec 64) : Bool :=
  let count := fld prog 0 15
  let base := fld prog 16 32 * 65536
  if count = 0 then true
  else if count > 16384 ∨ s.rangeClass base (128 * count) (fun c => c == 2) = false then false
  else match State.readProg d base count 0 s with
    | (none, _) => false
    | (some l, _) =>
      l.all (fun x => ruleOk x && s.ruleAddrOk d (fld par 0 5) x)
        && (span 0 2).all (fun ph => (span 0 16).all (fun n => decide (itemsFor l ph n ≤ fld iring 44 20)))

/-! ### Rules in progress -/

/-- Is the update unit of a die in service? -/
def State.updUp (s : State) (d : Nat) : Bool := s.dieUp d && s.funcUp (funcId 8 d 0)

/-- The PHASE whose rules run now (R312, R329). Descriptors of PHASE 1 are run to their end, also once COMMIT has ended (Table 9.1).
(DEDUCED, log entry 45.) -/
def State.ruleTime (s : State) (d : Nat) : Option Nat :=
  let j := s.job
  if !s.updUp d || (s.upd d).stopped then none
  else if (s.upd d).late then some 1
  else if !j.running || j.starting || j.ended || s.skipped || j.phase != 3 then none
  else some 0

/-- A rule has ended: with LAST its park queue's CONS advances (R325). -/
def State.endRule (s : State) (d : Nat) (x : RuleDesc) : State :=
  let u := s.upd d
  let s := (s.setUpd d { u with rule := none }).setF d fUpdStatusBusy 0
  if rLast x then
    match s.qGet d (rParkq x) with
    | (some v, s) => s.qPut d (rParkq x) (qAddCons v 1)
    | (none, s) => s
  else s

/-- RULE_START (R312, R325): the next descriptor of the phase starts once its bucket is parked, and one without items ends at once; a descriptor of the
other phase is passed over. (DEDUCED, log entry 45.) -/
def execRuleStart (d : Fin 4) (s : State) : Host.Outcome State Fault Refusal :=
  .next (match s.ruleTime d with
    | none => s
    | some ph =>
      let ix := s.getF d fUpdStatusNext
      if (s.upd d).rule.isSome || decide (s.getF d fUpdProgCount ≤ ix) then s
      else match s.readRun (.update d) (s.getF d fUpdProgAddr * 65536 + 128 * ix) 128 with
        | (none, s) => s
        | (some bs, s) =>
          let x : RuleDesc := BitVec.ofNat 1024 (leNat bs)
          if rPhase x ≠ ph then s.setF d fUpdStatusNext (ix + 1)
          else match s.parked d (rParkq x) with
            | (false, s) => s
            | (true, s) =>
              let s := ((s.setUpd d { s.upd d with rule := some ⟨ix, x, 0, []⟩ }).setF d fUpdStatusNext (ix + 1)).setF d fUpdStatusBusy 1
              let s := if ph = 1 ∧ s.getF d fParCfgG ≠ 0 then (span 0 4).foldl (fun (s : State) k => s.setF k fParStatusGenRun 1) s else s
              if rRule x ≠ 4 ∧ rItems x = 0 then s.endRule d x else s)

/-! ### Item records (R317 to R319) -/

/-- b to the power t by squaring, one bit of `t` at a time (R319). -/
def powStep : Nat → Nat → Nat → Nat → Nat
  | 0, r, _, _ => r
  | n + 1, r, p, t => if t = 0 then r else powStep n (if t % 2 = 1 then f32Mul r p else r) (f32Mul p p) (t / 2)

/-- LR_T, B1, B2, BC1, BC2, EPS, WD and UNSCALE of a rule (R319). -/
def State.ruleScalars (s : State) (d : Nat) (x : RuleDesc) : Option (List Nat) × State :=
  let t := ((s.reg d oStepIndex).toNat + 1) % 2 ^ 64
  let len := s.getF d fUpdLrtLen
  let k := min ((t + 2 ^ 64 - 1) % 2 ^ 64) (len - 1)
  let z : Option Nat × State :=
    if len = 0 then (some f32One, s)
    else match s.readRun (.update d) (128 * s.getF d fUpdLrtAddr + 4 * k) 4 with
      | (some bs, s) => (some (leNat bs), s)
      | (none, s) => (none, s)
  let bc (b : Nat) : Nat := if rRule x = 1 then f32Sub f32One (powStep 64 f32One b t) else 0
  (z.1.map (fun sc => [f32Mul (fld x 384 32) sc, fld x 416 32, fld x 448 32, bc (fld x 416 32), bc (fld x 448 32), fld x 480 32, fld x 512 32,
    s.getF d fStepUnscaleUnscale]), z.2)

/-- The element range of item `i`: first element and count. -/
def rSpan (x : RuleDesc) (i : Nat) : Nat × Nat :=
  if rMatrix x then (0, rNelem x) else (i * rItem x, min (rItem x) (rNelem x - i * rItem x))

/-- The local core of item `i`. -/
def rCore (x : RuleDesc) (i : Nat) : Nat := ((rCores x)[i % (rCores x).length]?).getD 0

/-- Addresses of the four arrays of an item: at `base`, laid out for `n` elements, from element `e` on; none for an absent one. -/
def rAddrs (x : RuleDesc) (base n e : Nat) : List (Option Nat) :=
  ((span 0 4).zip (rArrays x)).map (fun a => if a.2.2 then some (base + rArrayOff x n a.1 + e * a.2.1) else none)

/-- The item record (Table 10.3) of item `i`; `stage` is its entry of the stage queue with the remote tier. -/
def itemRecord (x : RuleDesc) (ix i stage : Nat) (scal : List Nat) : List Byte :=
  let e := rSpan x i
  let wr := rAddrs x (rSaddr x) (rNelem x) e.1
  let far (a : Nat) : Nat := 2 ^ 60 + rHolder x * 2 ^ 48 + a
  let reads := if rTier x then rAddrs x stage e.2 0 else wr
  let writes := if rTier x then wr.map (fun (a : Option Nat) => a.map far) else wr
  leBytes (fld x 0 8) 1 ++ leBytes (if rMatrix x then i else 0) 1 ++ leBytes ix 2 ++ leBytes e.2 4 ++ leBytes (rWaddr x + 2 * e.1) 8
    ++ leBytes (rGaddr x + e.1 * typeWidth (rGtype x) / 8) 8 ++ reads.flatMap (fun (a : Option Nat) => leBytes (a.getD 0) 8) ++ writes.flatMap (fun (a : Option Nat) => leBytes (a.getD 0) 8)
    ++ scal.flatMap (fun v => leBytes v 4) ++ List.replicate 8 0

/-- Items of a rule fetched or being fetched for a local core, in order. -/
def RuleRun.ahead (r : RuleRun) (n : Nat) : List (Nat × Nat) := r.fetch.filter (fun f => rCore r.desc f.1 == n)

/-- With the remote tier an item is released only once its state has arrived; PROD of its stage queue then counts it, and notifies (R239, R327). The result is
the address of its stage entry. -/
def State.stageItem (s : State) (d : Nat) (r : RuleRun) : Option Nat × State :=
  if !rTier r.desc then (some 0, s)
  else if !r.fetch.contains (r.next, 0) then (none, s)
  else
    let q := s.getF d fUpdIctrSq + rCore r.desc r.next
    match s.qGet d q with
    | (some v, s) => (some (qEntryAt v (qProd v)), (s.qPut d q (qAddProd v 1)).notify d v 1)
    | (none, s) => (none, s)

/-- ITEM_RELEASE (R317, R318, R334): the next item's record is written into its core's ring, and once it has retired the core's item counter
is raised. The first item of an UPDATE clears PAR_STATUS.VALID on every die. -/
def execItemRelease (d : Fin 4) (s : State) : Host.Outcome State Fault Refusal :=
  .next (match s.ruleTime d, (s.upd d).rule with
    | some ph, some r =>
      let x := r.desc
      if decide (rItems x ≤ r.next) then s
      else match s.ruleScalars d x with
        | (none, s) => s
        | (some scal, s) =>
          match s.stageItem d r with
          | (none, s) => s
          | (some stage, s) =>
            let n := rCore x r.next
            let u := s.upd d
            let k := mapGet (fun _ => 0) u.released n
            let items := s.getF d fUpdIringItems
            match s.writeRun (.update d) (128 * s.getF d fUpdIringBase + 128 * (n * items + k)) (itemRecord x r.ix r.next stage scal) with
            | (false, s) => s.setUpd d { u with stopped := true }
            | (true, s) =>
              let r' : RuleRun := { r with next := r.next + 1, fetch := r.fetch.filter (fun (f : Nat × Nat) => f.1 != r.next) }
              let s := if ph = 0 ∧ u.begun = false then (span 0 4).foldl (fun (s : State) k => s.setF k fParStatusValid 0) s else s
              let s := s.setUpd d { u with rule := some r', released := mapSet (fun _ => 0) u.released n (k + 1), begun := u.begun || ph == 0 }
              let s := s.localInc d 18 (s.getF d fUpdIctrCtr + n) 1
              if r'.next ≥ rItems x then s.endRule d x else s
    | _, _ => s)

/-! ### The remote tier (R327, R328) -/

/-- A READ of the remote tier fails: no further item is released, and the job ends. -/
def State.tierFailed (s : State) (d addr : Nat) : State :=
  let u := s.upd d
  let s := s.setUpd d { u with stopped := true }
  match u.rule with
  | some r => s.raise d ⟨.jobFatal, 0x0049, 0x09, d, addr, rHolder r.desc, rFlow r.desc, 0⟩
  | none => s

/-- Read the arrays of an item into its stage entry, over the descriptor's flow: the number of READs sent. -/
def State.fetchArrays (d q item : Nat) (v : BitVec 256) (n : Nat) : List (Nat × Option Nat × Option Nat) → State → Nat × State
  | [], s => (0, s)
  | (w, src, dst) :: r, s =>
    match src, dst with
    | some src, some dst =>
      let g := ceilDiv (n * w) 128
      let z := State.fetchArrays d q item v n r (s.sendReads q v (fun k => .item d item (dst / 128 + 64 * k)) src g)
      (ceilDiv g 64 + z.1, z.2)
    | _, _ => State.fetchArrays d q item v n r s

/-- REMOTE_TIER_FETCH (R327): the state of the next item not yet fetched is read into an entry of its core's stage queue, once one is free and
at most 16 items of the core are ahead. -/
def execRemoteTierFetch (d : Fin 4) (s : State) : Host.Outcome State Fault Refusal :=
  .next (match s.ruleTime d, (s.upd d).rule with
    | some _, some r =>
      let x := r.desc
      let i := r.next + r.fetch.length
      if !rTier x || decide (rItems x ≤ i) then s
      else
        let n := rCore x i
        let ahead := (r.ahead n).length
        match s.qGet d (s.getF d fUpdIctrSq + n) with
        | (none, s) => s
        | (some sv, s) =>
          if qHeld sv + ahead ≥ qDepth sv ∨ ahead ≥ 16 then s
          else match s.sendQueue (rFlow x) (some (rHolder x)) with
            | (none, s) => s.tierFailed d (rSaddr x)
            | (some v, s) =>
              let e := rSpan x i
              let src := rAddrs x (rSaddr x) (rNelem x) e.1
              let dst := rAddrs x (qEntryAt sv (qProd sv + ahead)) e.2 0
              let l := ((rArrays x).map Prod.fst).zip (src.zip dst)
              let z := State.fetchArrays d (rFlow x) i v e.2 l s
              let u := z.2.upd d
              z.2.setUpd d { u with rule := some { r with fetch := r.fetch ++ [(i, z.1)] } }
    | _, _ => s)

/-- Granules of READ_DATA for an item go to its stage entry. -/
def State.stageWrite (d : Nat) : List DGran → Nat → State → Bool × State
  | [], _, s => (true, s)
  | x :: r, g, s =>
    match s.memWrite (.update d) g x.v x.chk with
    | (.ok _ _, s) => State.stageWrite d r (g + 1) s
    | (.err kind, s) => (false, s.accessFailed (.update d) g kind)
    | (.wait, s) => (false, s)

/-- READ_DATA for an item of the update unit of die `d` (R327, R328). -/
def State.itemData (s : State) (d item gran : Nat) (o : ReadOut) (x : Xfer) (left : Nat) : State :=
  let s := { s with reads := s.reads.map (fun (p : ReadOut) => if p.tag = o.tag then { p with who := .item d item (gran + x.h.ngr) } else p) }
  if x.h.status ≠ 0 then s.tierFailed d o.addr
  else
    let z := State.stageWrite d x.data gran (s.bump d fUpdFetchCntCount x.h.ngr)
    let u := z.2.upd d
    if !z.1 then z.2.setUpd d { u with stopped := true }
    else if left ≠ 0 then z.2
    else match u.rule with
      | some r => z.2.setUpd d { u with rule := some { r with fetch := r.fetch.map (fun (f : Nat × Nat) => if f.1 = item then (f.1, f.2 - 1) else f) } }
      | none => z.2

/-! ### Parity (R332 to R334) -/

/-- XOR of one granule of several regions, and of their block checks (R344); none as soon as one cannot be read. -/
def State.xorGran (d : Nat) : List Nat → DGran → State → Option DGran × State
  | [], a, s => (some a, s)
  | g :: r, a, s =>
    match s.memRead (.update d) g with
    | (.ok v k, s) => State.xorGran d r ⟨a.v ^^^ v, a.chk ^^^ k.chk⟩ s
    | (.err kind, s) => (none, s.accessFailed (.update d) g kind)
    | (.wait, s) => (none, s)

/-- XOR `n` granules from granule `i` on of the regions at granules `srcs`, and write them at granule `dst` with the XOR of the block checks, so that a
fault of the XOR datapath, by granule in `faults`, fails the write (R344). -/
def State.xorRegion (d dst : Nat) (srcs : List Nat) (faults : List (Nat × GranBits)) : Nat → Nat → State → Bool × State
  | 0, _, s => (true, s)
  | n + 1, i, s =>
    match State.xorGran d (srcs.map (· + i)) ⟨0, 0⟩ s with
    | (none, s) => (false, s)
    | (some x, s) =>
      let flips := ((faults.find? (fun f => f.1 == i)).map Prod.snd).getD 0
      match s.memWrite (.update d) (dst + i) (x.v ^^^ flips) x.chk with
      | (.ok _ _, s) => State.xorRegion d dst srcs faults n (i + 1) s
      | (.err kind, s) => (false, s.accessFailed (.update d) (dst + i) kind)
      | (.wait, s) => (false, s)

/-- PXOR (R333, R344): the staged regions of the other members are XORed into the member's parity slot; `faults` gives what faults of the XOR datapath
flip in the output, by granule. -/
def execPxor (d : Fin 4) (faults : List (Nat × BitVec 1024)) (s : State) : Host.Outcome State Fault Refusal :=
  .next (match s.ruleTime d, (s.upd d).rule with
    | some _, some r =>
      let x := r.desc
      if rRule x ≠ 4 then s
      else
        let others := (span 0 (s.getF d fParCfgG)).filter (fun k => k != s.getF d fParCfgMember)
        match State.xorRegion d (rWaddr x / 128) (others.map (fun k => rSaddr x / 128 + 131072 * k)) faults 131072 0 s with
        | (true, s) => s.endRule d x
        | (false, s) => s.setUpd d { s.upd d with stopped := true }
    | _, _ => s)

/-- Have the descriptors of a phase completed on every die? -/
def State.rulesDone (s : State) : Bool :=
  (span 0 4).all (fun d => s.updUp d && (s.upd d).rule.isNone && decide (s.getF d fUpdProgCount ≤ s.getF d fUpdStatusNext))

/-- Parity covers the state of the step about to run (R334), which no digest has questioned yet. -/
def State.parityMade (s : State) (step : Nat) : State :=
  let s := { s with job := { s.job with digestBad := false } }
  (span 0 4).foldl (fun (s : State) d =>
    (((s.setUpd d { s.upd d with late := false }).setF d fParStatusValid 1).setF d fParStatusGenRun 0).setF d fParStatusStep step) s

/-- STEP_INDEX of the step about to run: as the COMMIT boundary in hand will leave it, or as it has left it. -/
def State.stepToRun (s : State) : Nat :=
  if s.job.running && s.job.phase == 4 && s.job.install == 0 then (s.decided 0).index.toNat else (s.reg 0 oStepIndex).toNat

/-- PARITY_VALID_SET (R334): every PHASE 1 descriptor of the COMMIT task has completed on all four dies. (DEDUCED, log entry 45.) -/
def execParityValidSet (s : State) : Host.Outcome State Fault Refusal :=
  .next (
    if !(span 0 4).all (fun d => (s.upd d).late) || !s.rulesDone || s.getF 0 fParCfgG == 0 || s.job.install != 0 then s
    else s.parityMade s.stepToRun)

/-! ### Stored checkpoints (R336, R422) -/

/-- Send an event message: its header (R418) and 64-byte entries. -/
def State.sendEvent (s : State) (conn kind first : Nat) (entries : List (List Byte)) : State :=
  if entries.isEmpty then s
  else s.sendMsg conn (leBytes entries.length 2 ++ leBytes kind 1 ++ leBytes 0 1 ++ leBytes first 4 ++ entries.flatMap id)

/-- The protected area: local address and bytes (R332). -/
def State.protected_ (s : State) : Nat × Nat :=
  (0x1000000 * s.getF s.lead fParCfgBase, 0x1000000 * (s.getF s.lead fParCfgNblk * s.getF s.lead fParCfgG))

/-- The bytes an EGRESS stream carries, from its segments still held. -/
def segData (l : List Seg) : List Byte := l.flatMap (fun g => g.data)

/-- STORED_CHECKPOINT_READOUT (R336, R422): a read-out that is due opens its EGRESS stream; once every byte has been acknowledged an event
names it, and an UPDATE held for it begins. A connection that is closed or stalled leaves it waiting.
(DESIGN CHOICE, log entry 18; DEDUCED, log entry 48.) -/
def execStoredCheckpointReadout (s : State) : Host.Outcome State Fault Refusal :=
  .next (
    let a := s.protected_
    let id := s.ctl.ckptConn
    if !s.ctl.reading then s
    else match s.conn id with
      | none => s
      | some c =>
        match s.ctl.bulks.find? (fun b => b.use == .checkpoint) with
        | none =>
          if c.kind ≠ 3 ∨ s.ctl.bulks.any (fun b => b.conn == id) then s
          else
            let r := s.bind id false .checkpoint a.1 a.2 0 0
            (match r.2.egressSegs a.1 a.2 with
             | (none, s) => s.resetConn c 4
             | (some l, s) => s.queueSegs id l)
        | some b =>
          if !c.queue.isEmpty || !c.flight.isEmpty then s
          else match s.readRun s.jas b.addr b.length with
            | (none, s) => s
            | (some bs, s) =>
              let s := (s.dropBulk b.handle).modCtl (fun x => { x with reading := false })
              let entry := Config.ckptEntry (s.reg s.lead oStepIndex).toNat b.length (crc32c bs).toNat
              let s := match s.ctl.sub with
                | some e => s.sendEvent e.conn 1 0 [leBytes entry.toNat 64]
                | none => s
              if s.job.held then s.beginPhase 3 else s)

/-! ### Layouts (R329) -/

/-- Give regions the classes that an image names (R197). -/
def State.setClasses (s : State) (t : ImageTables) : State :=
  { s with mem := t.classes.foldl (fun (m : MemState) e => if e.1 < nRegions then m.setRegion e.1 { m.region e.1 with cls := e.2 % 4 } else m) s.mem }

/-- Load the tables, programs and registers that an image names (R329, R410). Every die's route and flow planes tables are written with the same
contents, whole (R260, R285). (DESIGN CHOICE, log entry 13.) -/
def State.loadTables (s : State) (t : ImageTables) : State :=
  let s := s.setClasses t
  let s := t.regs.foldl (fun (s : State) e => 
    let d := e.1 / 0x1000000
    let off := e.1 % 0x1000000
    s.setReg d off (imageValue d off (s.reg d off) e.2)) s
  let s := { s with
    routes := (span 0 6).foldl (fun (m : SMap (BitVec 16)) d =>
      t.routes.foldl (fun (m : SMap (BitVec 16)) e => if e.1 < 2 ^ 14 then mapSet (fun _ => 0) m (d * 2 ^ 14 + e.1) (e.2 &&& 0x1FFF#16) else m) m) []
    planes := (span 0 4).foldl (fun (m : SMap Nat) d =>
      t.planes.foldl (fun (m : SMap Nat) e => if e.1 < 2 ^ 18 then mapSet (fun _ => 0) m (2 ^ 18 * d + e.1) (e.2 % 4) else m) m) []
    defFlows := t.defFlows.foldl (fun (m : SMap (Option Nat)) e => mapSet (fun _ => none) m e.1 (some e.2)) s.defFlows }
  t.queues.foldl (fun (s : State) e =>
    let d := e.1 / 2 ^ 18
    let i := e.1 % 2 ^ 18
    let q := s.qe d
    (s.setQe d { q with cache := mapErase q.cache i, freed := mapErase q.freed i }).qstWrite d i e.2) s

/-- Start a task of a layout's installation: phase codes 5 (migration) and 6 (parity generation) of the image's start table.
(DEDUCED, log entry 46.) -/
def State.layoutTask (s : State) (p install : Nat) : State :=
  let s := s.updPhase p (p == 6)
  { s with job := { s.job with install := install } }.startCores p

/-- LAYOUT_INSTALL (R329): at the COMMIT boundary of its step a committed layout is loaded once every collective has retired, its migration
task runs, then one parity generation; LAYOUT_COMMIT then completes, and COMPUTE begins. (DEDUCED, log entry 46.) -/
def execLayoutInstall (s : State) : Host.Outcome State Fault Refusal :=
  .next (
    let done (p : Nat) : Bool := (span 0 4).all (fun d => s.dieUp d && s.coresDone d && s.ceDone d p)
    if !s.job.running then s
    else match s.job.install, s.ctl.layout with
      | 1, some bs =>
        if (span 0 4).any (fun d => !(s.runs d).isEmpty) then s
        else
          let t := Config.imageOf bs
          let s := (s.setAll fLayoutStatusPending 0).setAll fLayoutStatusMigrating 1
          let s := (s.writeRun s.jas t.base bs).2
          let s := ((s.loadTables t).setAll fCeLayoutGenGen t.gen).modCtl (fun x => { x with installed := some bs })
          (s.setAll fCeStatusNext 0).layoutTask 5 2
      | 2, _ =>
        if !done 5 then s
        else
          let v : StepVals := ⟨s.reg 0 oStepIndex, s.reg 0 oStepCursor, s.reg 0 oStepLscale, s.reg 0 oStepSkip⟩
          let s := if s.getF 0 fParCfgG = 0 then s else (s.writeRun (.jasper 0) (s.headerAddr 0) (s.headerBytes v)).2
          (s.setAll fCeStatusNext 0).layoutTask 6 3
      | 3, _ =>
        if !done 6 || !s.rulesDone then s
        else
          let s := if s.getF 0 fParCfgG = 0 then s else s.parityMade (s.reg 0 oStepIndex).toNat
          let s := ((s.setAll fLayoutStatusMigrating 0).setAll fLayoutStatusStaged 0).setAll fCeStatusNext 0
          let s := s.modCtl (fun x => { x with layout := none })
          let s := { s with job := { s.job with install := 0, atCommit := false } }
          (s.finish (fun w => w == .layoutCommit) 0 0).nextCompute
      | _, _ => s)

/-! ### Reconstruction (R338, R339) -/

/-- Is a reconstruction under way? -/
def State.reconOn (s : State) : Bool := s.ctl.progs.any (fun g => g.waits == .reconstruct)

/-- A reconstruction begins. -/
def State.reconStart (s : State) : State :=
  ((s.setAll fUpdStatusBusy 1).setAll fUpdStatusRecon 1).modCtl (fun x => { x with recon := [], reconRun := [], reconAcc := [] })

/-- A reconstruction ends: the update units are idle again and RECONSTRUCT is answered. -/
def State.reconEnd (s : State) (status detail : Nat) : State :=
  (((s.setAll fUpdStatusBusy 0).setAll fUpdStatusRecon 0).modCtl (fun x => { x with recon := [], reconRun := [], reconAcc := [] })).finish
    (fun w => w == .reconstruct) status detail

/-- Regions of the protected area (R332). -/
def State.protRegions (s : State) : Nat := s.getF s.lead fParCfgNblk * s.getF s.lead fParCfgG

/-- Do the survivors' PAR_STATUS values show valid parity of one step (R338)? -/
def parAgree (g : Nat) (l : List (BitVec 64)) : Bool :=
  l.length + 1 == g && l.all (fun x => bit x 0 && fld x 8 56 == fld (l.headD 0) 8 56)

/-- The packages of the other members of the parity group, in member order. -/
def State.survivors (s : State) (d : Nat) : List Nat :=
  ((span 0 (s.getF d fParCfgG)).filter (fun k => k != s.getF d fParCfgMember)).map (fun k =>
    fld (s.reg d (oParMembers + 8 * (k / 4))) (16 * (k % 4)) 12)

/-- The flow that a die's update unit reads a package over: its lowest enabled SEND queue there. (DESIGN CHOICE, log entry 74.) -/
def State.flowTo (s : State) (d pkg : Nat) : Option Nat :=
  (span 0 (2 ^ 18)).find? (fun i => let v := s.qPeek d i; qKind v == 1 && qEn v && qPeerPkg v == pkg)

/-- READ one region of every survivor over the fabric; none as soon as a package has no flow. -/
def State.reconReads (d slot addr : Nat) : List Nat → State → Option State
  | [], s => some s
  | pkg :: r, s =>
    match s.flowTo d pkg with
    | none => none
    | some i =>
      match s.qGet d i with
      | (some v, s) => State.reconReads d slot addr r (s.sendReads (2 ^ 18 * d + i) v (fun k => .recon d slot (64 * k)) addr 131072)
      | (none, _) => none

/-- Every region has been rebuilt (R338): the STEP registers are loaded from the rebuilt header, and VALID is set. -/
def State.reconDone (s : State) : State :=
  match s.readRun (.jasper 0) (s.headerAddr 0) 128 with
  | (none, s) => s.reconEnd 0x200 0x0011
  | (some bs, s) =>
    let s := (span 0 4).foldl (fun (s : State) c => s.reload bs false c) s
    (s.parityMade (s.reg 0 oStepIndex).toNat).reconEnd 0 0

/-- One granule of a survivor joins its XOR; with the last source it is written whole, with the XOR of the block checks. A write that completes with
error ends the reconstruction. -/
def State.reconGran (s : State) (d slot gran : Nat) (x : DGran) : State :=
  let key := slot * 131072 + gran
  let a := mapGet (fun _ => XorAcc.mk 0 0 0) s.ctl.reconAcc key
  let b : XorAcc := ⟨a.v ^^^ x.v, a.chk ^^^ x.chk, a.n + 1⟩
  if b.n + 1 < s.getF s.lead fParCfgG then s.modCtl (fun y => { y with reconAcc := mapSet (fun _ => XorAcc.mk 0 0 0) y.reconAcc key b })
  else
    let g := 131072 * (s.getF s.lead fParCfgBase + slot) + gran
    match s.memWrite (.update d) g b.v b.chk with
    | (.ok _ _, s) => s.modCtl (fun y => { y with
        reconAcc := mapErase y.reconAcc key
        reconRun := y.reconRun.map (fun (r : Nat × Nat) => if r.1 = slot then (r.1, r.2 + 1) else r) })
    | (.err kind, s) => (s.accessFailed (.update d) g kind).reconEnd 0x200 0x0011
    | (.wait, s) => s

/-- Regions whose last granule has been written are done; after the last of them the package is rebuilt. -/
def State.reconNext (s : State) : State :=
  let done := (s.ctl.reconRun.filter (fun (r : Nat × Nat) => decide (131072 ≤ r.2))).map Prod.fst
  let s := s.modCtl (fun y => { y with recon := y.recon ++ done, reconRun := y.reconRun.filter (fun (r : Nat × Nat) => decide (r.2 < 131072)) })
  if s.reconOn && decide (s.protRegions ≤ s.ctl.recon.length) then s.reconDone else s

/-- READ_DATA for a region under reconstruction (R338): a failed READ ends it. -/
def State.reconData (s : State) (d slot gran : Nat) (o : ReadOut) (x : Xfer) : State :=
  let s := { s with reads := s.reads.map (fun (p : ReadOut) => if p.tag = o.tag then { p with who := .recon d slot (gran + x.h.ngr) } else p) }
  if !s.reconOn then s
  else if x.h.status ≠ 0 then s.reconEnd 0x200 0x0011
  else (((span 0 x.data.length).zip x.data).foldl (fun (s : State) e => if s.reconOn then s.reconGran d slot (gran + e.1) e.2 else s) s).reconNext

/-- RECONSTRUCTION (R338): the update unit of die `d` begins to rebuild the `slot`-th region of the protected area as the XOR of the same region on
every survivor, which it READs. `par` gives the survivors' PAR_STATUS in member order: where they show no valid parity of one step, the lead die reports
that a stored checkpoint is needed (R337). (DEDUCED, log entry 47.) -/
def execReconstruction (d : Fin 4) (slot : BitVec 16) (par : List (BitVec 64)) (s : State) : Host.Outcome State Fault Refusal :=
  .next (
    let k := slot.toNat
    if !s.reconOn || !s.updUp d || decide (s.protRegions ≤ k) || s.ctl.recon.contains k || s.ctl.reconRun.any (fun (r : Nat × Nat) => r.1 == k) then s
    else if !parAgree (s.getF s.lead fParCfgG) par then
      (s.raise s.lead ⟨.jobFatal, (Config.recordArg 0 1 []).toNat % 65536, 0x0A, s.lead, 0, 0, 0, 0⟩).reconEnd 0x200 ((Config.recordArg 0 2 []).toNat % 65536)
    else match State.reconReads d k (0x1000000 * (s.getF s.lead fParCfgBase + k)) (s.survivors d) s with
      | none => s.reconEnd 0x200 ((Config.recordArg 0 2 []).toNat % 65536)
      | some s => s.modCtl (fun x => { x with reconRun := x.reconRun ++ [(k, 0)] }))

/-! ### READ_DATA -/

/-- READ_DATA (R202, R264, R266): granules are written for the requester, and the transfer retires; those with STATUS 1 are discarded and fail
its word, its item or its reconstruction. -/
def execReadData (d : Fin 4) (s : State) : Host.Outcome State Fault Refusal :=
  .next (match takeArrived 9 [] (s.fi d) with
    | none => s
    | some (x, r) =>
      let s := (s.setFi d r).retire d x false
      match takeFirst (fun (o : ReadOut) => o.tag == x.h.tag) s.reads with
      | none => s
      | some (o, rest) =>
        let left := o.left - x.h.ngr
        let o' : ReadOut := { o with addr := o.addr + 128 * x.h.ngr, left := left }
        let s := { s with reads := if left = 0 then rest else o' :: rest }
        match o.who with
        | .dm pc id w =>
          let s := if x.h.status = 0 then s.loadGrans pc w x.data else s
          let bad := if x.h.status = 0 then none else some (s.loadAddr pc id o.addr)
          let s := s.dmAnswered pc id (left == 0) bad
          { s with reads := s.reads.map (fun (p : ReadOut) => if p.tag = o.tag then { p with who := .dm pc id (w + 2 * x.h.ngr) } else p) }
        | .item dd item gran => s.itemData dd item gran o x left
        | .recon dd slot gran => s.reconData dd slot gran o x)

end Sys2Proof.Machine
end

