-- ==== Sys2Proof/Machine/Integrity.lean ====
section
/-!
DEFINITION. The integrity blocks: weight digests (R351 to R356), error rings and the forwarding of records (R363, R366, R417, R418, R496).
-/

namespace Sys2Proof.Machine

/-! ### Digests -/

/-- The ranges of a digest list: local address and granules (R351). -/
def digRanges (bs : List Byte) (n : Nat) : List (Nat × Nat) := (span 0 n).map (fun i => (leAt bs (16 * i) 8, leAt bs (16 * i + 8) 4))

/-- XOR of the granule digests of `n` granules from granule `g` on (R352). -/
def State.digGrans (d : Nat) : Nat → Nat → BitVec 128 → State → Option (BitVec 128) × State
  | 0, _, a, s => (some a, s)
  | n + 1, g, a, s =>
    match s.dataRead (.integrity d) g with
    | (.ok v _, s) => State.digGrans d n (g + 1) (a ^^^ granuleDigest (s.reg d oAgateDigKeyLo) (s.reg d oAgateDigKeyHi) (128 * g) v) s
    | (.err kind, s) => (none, s.accessFailed (.integrity d) g kind)
    | (.wait, s) => (none, s)

/-- The die digest over a list of ranges. -/
def State.digAll (d : Nat) : List (Nat × Nat) → BitVec 128 → State → Option (BitVec 128) × State
  | [], a, s => (some a, s)
  | (x, n) :: r, a, s =>
    match State.digGrans d n (x / 128) a s with
    | (none, s) => (none, s)
    | (some a, s) => State.digAll d r a s

/-- Does the COMMIT task of a digest step run? -/
def State.digestTime (s : State) : Bool := s.job.running && !s.job.starting && !s.job.ended && s.digestStep

/-- DIGEST_RUN (R351, R352): the digest engine of a die reads its ranges and forms the die digest. (DEDUCED, log entry 45.) -/
def execDigestRun (d : Fin 4) (s : State) : Host.Outcome State Fault Refusal :=
  .next (
    if !s.digestTime || s.job.digs.contains d.val || !s.dieUp d then s
    else
      let n := s.getF d fAgateDigRangesCount
      match s.readRun (.integrity d) (4096 * s.getF d fAgateDigRangesAddr) (16 * n) with
      | (none, s) => s
      | (some bs, s) =>
        match State.digAll d (digRanges bs n) 0 s with
        | (none, s) => s
        | (some v, s) =>
          let s := (s.setReg d oAgateDigValLo (BitVec.ofNat 64 (fld v 0 64))).setReg d oAgateDigValHi (BitVec.ofNat 64 (fld v 64 64))
          { s with job := { s.job with digs := s.job.digs ++ [d.val] } })

/-- The step a digest names: STEP_INDEX + 1. -/
def State.digestOf (s : State) : Nat := ((s.reg s.lead oStepIndex).toNat + 1) % 2 ^ 64

/-- DIGEST_BLOCK_WRITE (R353): once every die's digest is complete, C0 writes the package's digest block and raises the counter that triggers
the ALL_GATHER. -/
def execDigestBlockWrite (s : State) : Host.Outcome State Fault Refusal :=
  .next (
    if !s.digestTime || s.job.digBlock || !(span 0 4).all (fun d => s.job.digs.contains d) then s
    else
      let bs := (span 0 4).flatMap (fun d => leBytes (s.reg d oAgateDigValLo).toNat 8 ++ leBytes (s.reg d oAgateDigValHi).toNat 8)
        ++ leBytes s.digestOf 8 ++ List.replicate 4024 0
      match s.writeRun (.integrity 0) (4096 * s.getF 0 fAgateDigOutAddr) bs with
      | (false, s) => s
      | (true, s) => ({ s with job := { s.job with digBlock := true } }).localInc 0 18 (s.getF 0 fAgateDigCfgCtr) 1)

/-- The gathered blocks: package digest and step of each rank from rank `r` on. -/
def State.gathered (c : Nat) : Nat → Nat → State → Option (List (Nat × Nat)) × State
  | 0, _, s => (some [], s)
  | n + 1, r, s =>
    match s.readRun (.jasper c) (4096 * s.getF 0 fAgateDigGathAddr + 4096 * r) 128 with
    | (none, s) => (none, s)
    | (some bs, s) =>
      let v := (span 0 4).foldl (fun (a : Nat) d => a ^^^ leAt bs (16 * d) 16) 0
      let z := State.gathered c n (r + 1) s
      (z.1.map (fun l => (v, leAt bs 64 8) :: l), z.2)

/-- Record a comparison in AGATE_DIG_STATUS of every die: outcome 0 AGREE, 1 ODD, 2 SUSPECT, which stays set until an AGREE (Table 11.16).
(DEDUCED, log entry 71.) -/
def State.digRecord (s : State) (outcome votes status : Nat) : State :=
  let v := 2 ^ outcome + (if outcome = 1 ∧ s.flag s.lead fAgateDigStatusSuspect = true then 4 else 0) + 16 * votes + 2 ^ 16 * (s.digestOf % 2 ^ 48)
  let s := (span 0 4).foldl (fun (s : State) d => s.setReg d oAgateDigStatus (BitVec.ofNat 64 v)) s
  { s with job := { s.job with compared := true, digStatus := status, digestBad := s.job.digestBad || status != 0 } }

/-- DIGEST_COMPARE (R354, R356, Table 11.3): after the COMMIT task has ended, the lead die compares the gathered package digests. A second SUSPECT in
succession is recorded in its highest class alone (R24). (DEDUCED, log entry 71.) -/
def execDigestCompare (s : State) : Host.Outcome State Fault Refusal :=
  .next (
    let c := s.lead
    let r := s.getF c fAgateDigCfgR
    let was := s.flag c fAgateDigStatusSuspect
    let rec_ (cls : ErrClass) (cause votes : Nat) : ErrInfo := ⟨cls, cause, 0x0E, c, 0, votes, r, 0⟩
    if !s.digestTime || s.job.compared || !s.job.digBlock || !(span 0 4).all (s.dieEnded 4) then s
    else if r ≤ 1 then s.digRecord 0 1 0
    else match State.gathered c r 0 s with
      | (none, s) => s
      | (some l, s) =>
        match ((span 0 l.length).zip l).find? (fun e => e.2.2 != s.digestOf) with
        | some e => s.raise c ⟨.jobFatal, 0x0025, 0x0E, c, 0, e.1, e.2.2 % 2 ^ 32, 0⟩
        | none =>
          let own := ((l[s.getF c fAgateDigCfgRank]?).map Prod.fst).getD 0
          let votes (v : Nat) : Nat := (l.filter (fun e => e.1 == v)).length
          let mine := votes own
          if mine = r then s.digRecord 0 mine 0
          else if 2 * mine > r then s.digRecord 0 mine 1
          else if l.any (fun e => decide (2 * votes e.1 > r)) then (s.digRecord 1 mine 1).raise c (rec_ .packageFatal 0x23 mine)
          else
            let s := (s.digRecord 2 mine 1).modCtl (fun x => { x with testAll := true })
            s.raise c (if was then rec_ .packageFatal 0x23 mine else rec_ .tainted 0x24 mine))

/-! ### Error records on their way out -/

/-- An error record as bytes (Table 11.7). -/
def ErrRec.bytes (r : ErrRec) : List Byte :=
  let b := leBytes r.time 8 ++ leBytes r.seq 2 ++ leBytes (r.cls + 8 * b2n r.locked + 16 * r.die) 1 ++ leBytes r.phase 1 ++ leBytes r.cause 2
    ++ leBytes r.unit 1 ++ leBytes r.inst 1 ++ leBytes r.step 8 ++ leBytes (r.pkg + 2 ^ 12 * b2n r.idValid) 2 ++ leBytes r.dropped 2
    ++ leBytes r.addr 8 ++ leBytes r.arg0 4 ++ leBytes r.arg1 4 ++ leBytes r.arg2 16
  b ++ leBytes (crc32c b).toNat 4

/-- ERROR_RING_WRITE (R366): the die's oldest buffered record is written into its error ring, when the ring has room. -/
def execErrorRingWrite (d : Fin 4) (s : State) : Host.Outcome State Fault Refusal :=
  .next (
    let q := s.getF d fErrCfgQueue
    match (s.die d).recs with
    | [] => s
    | r :: rest =>
      if !s.dieUp d then s
      else match s.qGet d q with
        | (none, s) => s
        | (some v, s) =>
          if !qEn v || qErr v || decide (qDepth v ≤ qHeld v) then s
          else
            let r := { r with dropped := satAdd 65535 r.dropped (s.die d).recDropped }
            match s.narrowAt (.integrity d) (qEntryAt v (qProd v)) r.bytes true with
            | (some kind, s) => s.accessFailed (.integrity d) (qEntryAt v (qProd v) / 128) kind
            | (none, s) => ((s.modDie d (fun x => { x with recs := rest, recDropped := 0 })).qPut d q (qAddProd v 1)).notify d v 1)

/-- PORT_RECORD_FORWARD (R496): the oldest record that waits on a port die crosses to its compute neighbour, once one is available, and takes that die's
SEQ and timebase; it carries the number of records dropped meanwhile. -/
def execPortRecordForward (pd : Fin 2) (s : State) : Host.Outcome State Fault Refusal :=
  .next (
    let d := 4 + pd.val
    let x := s.die d
    match x.portRecs, s.recordHandler d with
    | r :: rest, some h =>
      let cls : ErrClass := match r.cls with | 0 => .info | 1 => .corrected | 2 => .contained | 3 => .tainted | 4 => .jobFatal | _ => .packageFatal
      let r := { r with seq := s.getF h fErrStatusNextSeq, time := s.stamp h, locked := s.flag h fFiTimeStatLocked, dropped := satAdd 65535 r.dropped x.portDropped }
      let kept := (bufferRec (s.die h).recs r).1.contains r
      (s.setDie d { x with portRecs := rest, portDropped := if kept then 0 else x.portDropped }).fileRec h r cls
    | _, _ => s)

/-- Send a forwarded record to the subscriber (R418). (DEDUCED, log entry 50.) -/
def State.recordEvent (s : State) (index : Nat) (bs : List Byte) : State :=
  match s.ctl.sub with
  | some e => if natBits e.mask 0 1 = 1 ∧ e.minCls ≤ leAt bs 10 1 % 8 then s.sendEvent e.conn 0 (index % 2 ^ 32) [bs] else s
  | none => s

/-- Drain a die's error ring into the forward buffer of the last 4,096 records (R417). -/
def State.drainRing (d q : Nat) : Nat → State → State
  | 0, s => s
  | n + 1, s =>
    match s.qGet d q with
    | (none, s) => s
    | (some v, s) =>
      if qHeld v = 0 then s
      else match s.readRun s.jas (qEntryAt v (qCons v)) 64 with
        | (none, s) => s
        | (some bs, s) =>
          let ix := s.ctl.forwarded
          let s := s.qPut d q (qAddCons v 1)
          let s := s.modCtl (fun x => { x with
            forward := (x.forward ++ [BitVec.ofNat 512 (leNat bs)]).drop (x.forward.length + 1 - 4096), forwarded := x.forwarded + 1 })
          State.drainRing d q n (s.recordEvent ix bs)

/-- ERROR_FORWARD (R417, R418): the lead die drains every die's error ring. (DEDUCED, log entry 50.) -/
def execErrorForward (s : State) : Host.Outcome State Fault Refusal :=
  .next (
    if !s.jasperUp then s
    else (span 0 4).foldl (fun (s : State) d =>
      if !s.dieUp d then s
      else
        let q := s.getF d fErrCfgQueue
        match s.qGet d q with
        | (some v, s) => State.drainRing d q (qHeld v) s
        | (none, s) => s) s)

end Sys2Proof.Machine
end

