-- ==== Sys2Proof/Machine/Commit.lean ====
section
/-!
DEFINITION. The COMMIT boundary (R291, Table 9.2): the decision, column tests and spares (R108, R109, R356), retirement (R361), layouts, stops
and read-outs that take effect there.
-/

namespace Sys2Proof.Machine

/-! ### Column tests at the boundary (R109) -/

/-- Is array `j` of a physical core tested at this boundary: quarantined, next in the rotation, or one of a SUSPECT package?
(DEDUCED, log entry 49.) -/
def State.testDue (s : State) (pc j : Nat) : Bool :=
  let a := (s.core pc).array j
  s.dieUp (pcDie pc) && (s.die (pcDie pc)).isGood (pc % 18) && a.st != .disabled && (a.quar || j == s.ctl.rot || s.ctl.testAll)

/-- Run the tests of the boundary: `tests` gives what those of arrays (core × 4 + array) found that did not pass. (DEDUCED, log entry 49.) -/
def State.runTests (s : State) (tests : List (Nat × BitVec 66 × Bool)) : State :=
  (span 0 288).foldl (fun (s : State) k =>
    if s.testDue (k / 4) (k % 4) then
      let r := ((tests.find? (fun t => t.1 == k)).map Prod.snd).getD (0, false)
      (s.arrayCtl (k / 4) (k % 4) true (fun a => { a with ctRunning := true })).ctestDone (k / 4) (k % 4) r.1 r.2
    else s) s

/-- Apply every pending column map (R108). -/
def State.applyAll (s : State) : State :=
  (span 0 288).foldl (fun (s : State) k => if ((s.core (k / 4)).array (k % 4)).pend = 0 then s else s.applyCols (k / 4) (k % 4)) s

/-- Retire every marked core (R361). -/
def State.retireMarked (s : State) : State :=
  (span 0 72).foldl (fun (s : State) pc =>
    let d := pc / 18
    if natBits (s.getF d fRetirePendCores) (pc % 18) 1 = 1 then s.retireCore d (pc % 18) (mapGet (fun _ => 0) (s.die d).retireWhy (pc % 18)) true else s) s

/-! ### The boundary -/

/-- Action 7 of Table 9.2: tests, column maps, then retirement; the rotation moves on. -/
def State.repairs (s : State) (tests : List (Nat × BitVec 66 × Bool)) : State :=
  let s := (s.runTests tests).applyAll
  (s.modCtl (fun x => { x with rot := (x.rot + 1) % 4, testAll := false })).retireMarked

/-- Is a stored checkpoint read out after applied step `i` (R422)? -/
def State.ckptDue (s : State) (i : Nat) : Bool := s.ctl.ckptPeriod != 0 && (i + 1) % s.ctl.ckptPeriod == 0

/-- Is a committed layout installed after applied step `i` (R329)? -/
def State.layoutDue (s : State) (i : Nat) : Bool := s.flag s.lead fLayoutStatusPending && s.ctl.applyStep == i

/-- Is an activation of a compute die's firmware under way or due at this boundary (R447)? -/
def State.actWaits (s : State) : Bool := s.flag common fFwUpdStatusActBusy && decide (s.getF common fFwUpdStatusActDie < 4)

/-- COMMIT_BOUNDARY_ACTIONS (R291, R308): on PHASE_GO for COMMIT. A firmware activation that waits for the boundary starts first, and the
boundary waits for it (R447). `tests` gives what the boundary's column tests found, for arrays that did not pass. -/
def execCommitBoundaryActions (tests : List (Nat × BitVec 66 × Bool)) (s : State) : Host.Outcome State Fault Refusal :=
  .next (
    if !s.job.running || !s.job.atCommit || s.job.install != 0 then s
    else if s.actWaits then s.setF common fFwUpdStatusActResult 0
    else
      let i := (s.reg s.lead oStepIndex).toNat
      let skip := s.skipped
      let s := (span 0 4).foldl (fun (s' : State) d => s'.setStep d (s.decided d)) s
      match (if skip then s.skipLimit else none) with
      | some s => s
      | none =>
        let s := s.boundaryActions.repairs tests
        if !s.job.running then s
        else
          let s := if !skip && s.ckptDue i then s.modCtl (fun x => { x with reading := true }) else s
          if !skip && s.layoutDue i then { s with job := { s.job with install := 1 } }
          else { s with job := { s.job with atCommit := false } }.nextCompute)

end Sys2Proof.Machine
end

