-- ==== Sys2Proof/Machine/Reset.lean ====
section
/-!
DEFINITION. Resets and losses (R3, R14, R215, R217, R388, R391, R424, R425, R460, R472): what a die loses when it stops, the loss of all
supplies, rails, references and PLLs.
-/

namespace Sys2Proof.Machine

/-- The die of a function ID (Table 13.11). -/
def funcDie (id : Nat) : Nat := id / 256 % 16

/-- An edge that was READY, DEGRADED or FAILED waits for its partner again (R376, R391). -/
def State.edgeWaits (s : State) (d e : Nat) : State :=
  let s := if s.funcUp (edgeFunc d e) || s.func (edgeFunc d e) == 5 then s.setFunc (edgeFunc d e) 1 else s
  s.setEdge d e (s.edge d e).afresh

/-! ### What a die loses -/

/-- Flash operations are cut off by a reset of the lead die: what was being overwritten is left invalid (R445, R448), a record that was being written
is not there (R442), and waiting operations are forgotten; what a region restore is owed to goes on waiting for it. (DEDUCED, log entry 32.) -/
def Flash.cut (f : Flash) : Flash :=
  let f := match f.ops with
    | .cal _ :: _ => { f with cal := [] }
    | .stage _ :: _ => { f with slotB := [] }
    | .commit :: _ => { f with slotA := [] }
    | _ => f
  { f with ops := f.ops.filter (fun o => match o with | .restore _ => true | _ => false) }

/-- Operations at a lost die's Beryl unit and queue engine that other dies had sent complete with error, and the signals that waited there are
recorded (R391, R499, R232). -/
def State.failSent (s : State) (d : Nat) : State :=
  let other (lc : Nat) : Bool := lc / 16 != d
  let s := (s.beryl d).ops.foldl (fun (s : State) o => match o.org with
    | .sy lc _ => if other lc then s.refuseCtr d o 0 false else s
    | .unit k => if k != d then s.refuseCtr d o 0 false else s
    | .fabric _ _ => s.refuseCtr d o 0 false) s
  (s.qe d).waiting.foldl (fun (s : State) o => match o.org with
    | .sy lc _ => if other lc then s.refuseQOp d o 0 else s
    | _ => s) s

/-- Accesses to a lost port die's registers complete with error (R50, R391). -/
def State.failCfg (s : State) (d : Nat) : State :=
  (s.cfgOuts.filter (fun (c : Nat × Nat × Nat) => c.1 == d)).foldl (fun (s : State) c => (s.clusterFailed c.2.2).send (.readAnswer c.2.2 none)) s

/-- Commands that wait for a part of a die that stops are answered DEVICE_FAULT; those that wait for a function of it go on waiting (R466).
(DEDUCED, log entry 66.) -/
def State.failWaits (s : State) (d : Nat) : State :=
  s.finish (fun w => match w with
    | .selftest dies _ => natBits dies d 1 == 1
    | .retire x _ => x == d
    | .retrain kind x e => x == d || (kind == 0 && (match edgePeer x e with | some (p, _) => p == d | none => false))
    | _ => false) 0x200 0x63

/-- Everything of a die but its stacks' contents returns to its reset value (R14, R237, R463); `st` says how it is away. A reset of the lead die
also ends its cluster's sessions, connections and commands (R407) and clears package-common configuration, which it holds; a port die's record is to
be checked anew (R388). -/
def State.clearDie (s : State) (d : Nat) (st : DieSt) : State :=
  let lead := s.lead
  let myCore (lc : Nat) : Bool := decide (d < 4) && lc / 16 == d
  let myPort (p : Nat) : Bool := portDie p == d
  let swept := (span 0 3).filter (fun k => decide (d < 4) && st == .lostWarm && s.flag d (stackF k fMcStkStatusSwept))
  let s := ((s.failSent d).failCfg d).failWaits d
  let s := { s with
    regs := mapDrop (fun k => k / 0x1000000 == d) s.regs
    dies := mapSet (fun _ => Die.reset) s.dies d { Die.reset with st := st, record := (s.die d).record, back := true }
    arrivals := s.arrivals.filter (fun (a : Nat × Nat) => !myCore a.1)
    funcs := mapDrop (fun f => funcDie f == d) s.funcs
    beryls := mapErase s.beryls d, qes := mapErase s.qes d
    doorbells := s.doorbells.filter (fun (q : Nat) => q / 2 ^ 18 != d)
    syAcks := s.syAcks.filter (fun (a : SyAck) => !myCore a.lc)
    fences := s.fences.filter (fun (f : Nat × Nat × Stream) => !myCore f.2.1)
    flows := mapDrop (fun q => q / 2 ^ 18 == d) s.flows
    resp := mapErase s.resp d
    routes := mapDrop (fun k => k / 2 ^ 14 == d) s.routes
    planes := mapDrop (fun q => q / 2 ^ 18 == d) s.planes
    defFlows := mapDrop (fun k => myCore (k / 4096)) s.defFlows
    msgs := s.msgs.filter (fun (m : DieMsg) => m.at_ / 4 != d) }
  let s := { s with
    ports := mapDrop myPort s.ports
    edges := mapDrop (fun k => k / 4 == d) s.edges
    fiIn := mapErase s.fiIn d, tracks := mapErase s.tracks d
    collSent := mapDrop (fun k => k / 4096 == d) s.collSent
    ces := mapErase s.ces d
    landHeads := mapDrop (fun q => q / 2 ^ 18 == d) s.landHeads
    rtts := mapDrop myPort s.rtts
    xbars := mapDrop (fun k => k / 32 == d) s.xbars
    cfgOuts := s.cfgOuts.filter (fun (c : Nat × Nat × Nat) => c.1 != d)
    wins := mapErase (mapErase s.wins d) (4 + d)
    upds := mapErase s.upds d
    reads := s.reads.filter (fun (r : ReadOut) => match r.who with | .dm pc _ _ => pc / 18 != d || decide (d ≥ 4) | .item x _ _ => x != d | .recon x _ _ => x != d)
    pwr := { s.pwr with caps := mapErase s.pwr.caps d, portTemp := mapErase s.pwr.portTemp d }
    mem := { s.mem with
      merge := mapDrop (fun ch => decide (d < 4) && ch / 96 == d) s.mem.merge
      pins := mapDrop (fun k => decide (d < 4) && k / 6912 == d) s.mem.pins
      erased := mapDrop (fun ch => decide (d < 4) && ch / 96 == d) s.mem.erased
      recAt := mapDrop (fun ch => decide (d < 4) && ch / 96 == d) s.mem.recAt
      waiters := s.mem.waiters.filter (fun (w : Nat × Requester) => decide (d ≥ 4) || requesterDie w.2 != d) } }
  let s := if d < 4 then (span (18 * d) 18).foldl (fun (s : State) pc => s.modCore pc (fun c => { Core.reset with resets := c.resets + 1 })) s else s
  let s := if d < 4 then s else (span 0 2).foldl (fun (s : State) e => match edgePeer d e with
    | some (c, _) => (s.setReg c oD2dAdmit 0).modDie c (fun x => { x with qgot := [] })
    | none => s) s
  let s := swept.foldl (fun (s : State) k => (s.setF d (stackF k fMcStkStatusSwept) 1).setF d (stackF k fMcStkStatusSref) 1) s
  if d < 4 ∧ d = lead then
    { s with
      regs := mapDrop (fun k => k / 0x1000000 == common) s.regs
      ctl := .reset, job := .none, bounds := [], timeKids := [], flash := s.flash.cut
      pwr := { s.pwr with change := none, hold := false, upDue := false } }
  else s

/-- The loss of all supplies, or a reset of every die with that effect (R3, R388, R425): nothing survives but flash, fuses and the
qualification records of port dies. (DEDUCED, log entry 52.) -/
def State.loseAll (s : State) (tripped : Bool) : State :=
  let c := (span 0 72).foldl (fun (m : SMap Core) pc => mapSet (fun _ => Core.reset) m pc { Core.reset with resets := (s.core pc).resets + 1 }) []
  let recs := [4, 5].foldl (fun (m : SMap Die) d => mapSet (fun _ => Die.reset) m d { Die.reset with record := (s.die d).record }) []
  let r : State := { s with
    regs := [], mem := .reset, cores := c, dies := recs, arrivals := [], funcs := [], beryls := [], qes := [], doorbells := [], syAcks := []
    fences := [], flows := [], resp := [], routes := [], planes := [], defFlows := [], msgs := [], ports := [], edges := [], fiIn := [] }
  { r with
    tracks := [], collSent := [], ces := [], landHeads := [], rtts := [], xbars := [], cfgOuts := [], timeKids := [], bounds := [], wins := [], upds := [], ctl := .reset
    flash := { s.flash.cut with ops := [] }, pwr := { Pwr.reset with tripped := tripped, low := s.pwr.low, enrol := s.pwr.enrol }, smb := 0, smbAddr := 0, taps := [], reads := []
    tags := 0, job := .none, alert := false, pkgFatal := false }

/-- The edges of the dies beside a stopped die wait for it (R391). -/
def State.partEdges (s : State) (d : Nat) : State :=
  (span 0 3).foldl (fun (s : State) e => match edgePeer d e with
    | some (p, f) => s.edgeWaits p f
    | none => s) s

/-- A die of the package is away, held in reset or lost? -/
def State.away (s : State) (d : Nat) : Bool := !s.dieUp d

/-! ### Warm and cold (R215, R217) -/

/-- A discovery message (Table 12.7). -/
def discMsg (kind typ xspi nstacks edge pos rev sup index data : Nat) : BitVec 128 :=
  BitVec.ofNat 128 (kind + 2 ^ 8 * (typ + 2 * xspi + 4 * nstacks) + 2 ^ 16 * edge + 2 ^ 24 * pos + 2 ^ 32 * rev + 2 ^ 40 * sup + 2 ^ 48 * index + 2 ^ 64 * data)

/-- Has a die named its edges (R379)? A compute die names PORT the edge whose partner has TYPE 1, and the others from it; without a port die, the edge found
silent. (DEDUCED, log entry 24.) -/
def State.named (s : State) (d : Nat) : Bool :=
  decide (d ≥ 4) || (s.die d).hello.any (fun h => match h.2 with | some m => bit m 8 | none => false) || (s.die d).silent.contains 2

/-- A discovery message of a die for one of its edges, with its own facts; EDGE is 3 until the edges are named. -/
def State.ownMsg (s : State) (d e kind pos index data : Nat) : BitVec 128 :=
  let x := s.die d
  discMsg kind (b2n (decide (d ≥ 4))) (b2n x.xspi) x.nstacks (if s.named d then e else 3) pos (leAt x.cert 7 1) (leAt x.cert 6 1) index data

/-- The module whose sideband an edge uses (R378). -/
def State.sideOf (s : State) (d e : Nat) : Nat := mapGet (fun _ => 0) (s.die d).side e

/-- Send a discovery message on an edge that has a partner site. -/
def State.disc (s : State) (d e kind pos index data : Nat) : State :=
  if (edgePeer d e).isSome then s.send (.sideband d e (s.sideOf d e) (s.ownMsg d e kind pos index data)) else s

/-- Granules that the merge buffers of a die's stacks hold. -/
def State.merged (s : State) (d : Nat) : List Nat :=
  (s.mem.merge.filter (fun e => e.1 / 96 == d)).flatMap (fun e => e.2.map MergeEntry.gran)

/-- A warm reset of compute die `d` (R215): RESET_NOTICE on every edge, merge buffers written out, stacks in self-refresh, then the reset. A
request that reaches a die already away merges with the first (R391). -/
def State.warmReset (s : State) (d : Nat) : State :=
  if !s.dieUp d then s
  else
    let s := (span 0 3).foldl (fun (s : State) e => s.disc d e 5 (s.getF d fD2dDiscPos) 0 0) s
    let s := (s.merged d).foldl (fun (s : State) g => s.flushGran g) s
    s.clearDie d .lostWarm

/-- A cold loss of compute die `d` (R217): every region is LOST, the job ends, and what the die and its stacks held is gone. -/
def State.coldLoss (s : State) (d : Nat) : State :=
  if (s.die d).st = .held ∨ (s.die d).st = .lostCold then s
  else ((s.abortJob 0x63).clearDie d .lostCold).loseRegions

/-- A reset of port die `d` (R388): it rejoins and is admitted again. -/
def State.portReset (s : State) (d : Nat) : State := if s.dieUp d then s.clearDie d .lostWarm else s

/-- WARM_RESET (R215). -/
def execWarmReset (d : Fin 4) (s : State) : Host.Outcome State Fault Refusal := .next (s.warmReset d)

/-- COLD_DIE_LOSS (R217). -/
def execColdDieLoss (d : Fin 4) (s : State) : Host.Outcome State Fault Refusal := .next (s.coldLoss d)

/-- PKG_RESET_N_ASSERT (R425, R478): also ends a latched thermal trip. -/
def execPkgResetNAssert (s : State) : Host.Outcome State Fault Refusal := .next (s.loseAll false)

/-- REFCLK_100_LOSS (R388). -/
def execRefclk100Loss (s : State) : Host.Outcome State Fault Refusal := .next (s.loseAll s.pwr.tripped)

/-- THERMTRIP (R460): a sensor reaches 110 °C; every die stops and holds itself in reset. (DEDUCED, log entry 52.) -/
def execThermtrip (s : State) : Host.Outcome State Fault Refusal := .next (s.loseAll true)

/-- The stacks lose a supply (R217, R472): every region is LOST, the job ends, and every stack function waits for its rails.
(DEDUCED, log entry 52.) -/
def State.stackRailLoss (s : State) : State :=
  let s := (s.abortJob 0x63).loseRegions
  (span 0 12).foldl (fun (s : State) k =>
    if s.dieUp (k / 3) then
      let s := (s.setF (k / 3) (stackF k fMcStkStatusSwept) 0).setF (k / 3) (stackF k fMcStkStatusSref) 0
      if s.funcUp (stackFunc k) then s.setFunc (stackFunc k) 1 else s
    else s.setF (k / 3) (stackF k fMcStkStatusSwept) 0) s

/-- RAIL_FAILURE (R425, R472): `rail` in the order of R462. The rails of a compute die: the die is lost cold; those of the port dies: both
reset; those of the stacks: R217; VDD_IO18: every die, and the latched trip is lost with it (R460). -/
def execRailFailure (rail : Fin 15) (s : State) : Host.Outcome State Fault Refusal :=
  .next (
    if rail.val < 8 then s.coldLoss (rail.val % 4)
    else if rail.val < 11 then (s.portReset 4).portReset 5
    else if rail.val < 14 then s.stackRailLoss
    else s.loseAll false)

/-- An idle CPLL loses lock: it is relocked, and a change of power state in progress waits for that (R388). -/
def State.idleLoss (s : State) (d : Nat) (f : Fld) : State :=
  let s := s.setF d f 0
  { s with pwr := { s.pwr with change := s.pwr.change.map (fun c => { c with locked := false }) } }

/-- PLL_LOSS (R388): `pll` in the order of CLK_STATUS: CPLL_A, CPLL_B, JPLL, MPLL, DPLL, SPLL. A PLL that the die does not have loses nothing. -/
def execPllLoss (d : Fin 6) (pll : Fin 6) (s : State) : Host.Outcome State Fault Refusal :=
  .next (
    if !s.dieUp d then s
    else if d.val ≥ 4 then (if pll.val ≥ 4 then s.portReset d else s)
    else match pll.val with
      | 0 => if s.getF d fClkStatusCpllSel = 0 then s.coldLoss d else s.idleLoss d fClkStatusCpllA
      | 1 => if s.getF d fClkStatusCpllSel = 1 then s.coldLoss d else s.idleLoss d fClkStatusCpllB
      | 2 => s.warmReset d
      | 3 => s.coldLoss d
      | 4 => s.warmReset d
      | _ => s)

end Sys2Proof.Machine
end

