-- ==== Sys2Proof/Machine/D2d.lean ====
section
/-!
DEFINITION. Die-to-die links (R370 to R376), discovery (R378 to R380), admission of port dies (R381 to R384) and what neighbours do when a die
stops (R391).
-/

namespace Sys2Proof.Machine

/-! ### Retraining (R375, R376) -/

/-- Modules of an edge that are in the striping. -/
def State.striping (s : State) (d e : Nat) : Nat := (s.stripes d e).length

/-- Show an edge's modules and set its function (R376, R25): DEGRADED with fewer than Table 12.2 gives, at 16 GT/s or with a repaired lane; below
its minimum FAILED, which stays until a reset. -/
def State.showEdge (s : State) (d e : Nat) : State :=
  let n := s.striping d e
  let s := s.setF d (edgeF e fD2dEdgeStatusModulesUp) n
  let f := edgeFunc d e
  if !s.funcUp f then s
  else if n < edgeMin d e then
    (s.failFunc f).raise d ⟨.jobFatal, 0x0041, 0x0D, 4 * d + e, 0, e, (Config.recordArg 0x41 1 [s.getF d (edgeF e fD2dRetrainCntCount)]).toNat, 0⟩
  else s.setFunc f (if n < edgeModules d e ∨ s.getF d (edgeF e fD2dEdgeStatusRate) = 0 ∨ s.getF d (edgeF e fD2dEdgeStatusLanesRepaired) ≠ 0 then 3 else 2)

/-- Change both ends of an edge. (DESIGN CHOICE, log entry 51.) -/
def State.bothEnds (s : State) (d e : Nat) (f : State → Nat → Nat → State) : State :=
  match edgePeer d e with
  | some (p, pe) => f (f s d e) p pe
  | none => s

/-- A module leaves the striping and retrains; die `d` reports it. -/
def State.startRetrain (s : State) (d e m : Nat) : State :=
  let leave (s : State) (d e : Nat) : State :=
    let x := s.edge d e
    s.setEdge d e { x with retraining := if x.retraining.contains m then x.retraining else x.retraining ++ [m], refusals := mapErase x.refusals m }
  let s := (s.bothEnds d e leave).bump d (edgeF e fD2dRetrainCntCount) 1
  let s := s.raise d ⟨.info, 0x0040, 0x0D, 4 * d + e, 0, e, (Config.recordArg 0x40 1 [d, e, m]).toNat, 0⟩
  s.bothEnds d e State.showEdge

/-- MODULE_RETRAIN (R375): a module that carried 8 of the refused flits in succession, or (`rate`) more than 1 in 10⁹ refused for CRC over 1 ms. -/
def execModuleRetrain (d : Fin 6) (e : Fin 3) (m : Fin 24) (rate : Bool) (s : State) : Host.Outcome State Fault Refusal :=
  .next (
    let x := s.edge d e
    if !s.edgeUp d e || natBits (s.getF d (edgeF e fD2dModulesEnabled)) m 1 == 0 || x.retraining.contains m.val
        || !(rate || decide (mapGet (fun _ => 0) x.refusals m ≥ 8)) then s
    else s.startRetrain d e m)

/-- The command that retrains an edge is answered once nothing of the edge retrains. -/
def State.answerRetrain (s : State) (d e : Nat) : State :=
  let x := s.edge d e
  if !x.retraining.isEmpty || !x.turn.isEmpty then s
  else s.finish (fun w => w == .retrain 0 d e || (match edgePeer d e with | some (p, pe) => w == .retrain 0 p pe | none => false)) (if s.funcUp (edgeFunc d e) then 0 else 0x200) (if s.funcUp (edgeFunc d e) then 0 else 0x41)

/-- The next module of a D2D_CTRL retraining begins (R375, Table 12.15). -/
def State.nextTurn (s : State) (d e : Nat) : State :=
  let x := s.edge d e
  match x.turn with
  | m :: r => if x.retraining.isEmpty then (s.setEdge d e { x with turn := r }).startRetrain d e m else s
  | [] => s.answerRetrain d e

/-- MODULE_RETRAIN_DONE (R375): a retraining ends. With success the module rejoins, `repaired` telling whether it runs on repaired lanes and
`lanes` how many of the edge are repaired now; a module that fails three times in succession, or whose faults are `beyond` its redundant lanes,
is disabled; else it tries again. -/
def execModuleRetrainDone (d : Fin 6) (e : Fin 3) (m : Fin 24) (ok repaired beyond : Bool) (lanes : BitVec 8) (s : State) : Host.Outcome State Fault Refusal :=
  .next (
    let x := s.edge d e
    let n := mapGet (fun _ => 0) x.fails m + 1
    let back (s : State) (d e : Nat) : State :=
      let x := s.edge d e
      s.setEdge d e { x with retraining := x.retraining.filter (fun k => k != m.val), fails := mapErase x.fails m }
    let put (f : Fld) (v : Nat) (s : State) (d e : Nat) : State := s.setF d (edgeF e f) (natPutBits (s.getF d (edgeF e f)) m 1 v)
    if !x.retraining.contains m.val then s
    else if ok && !beyond then
      let show_ (s : State) (d e : Nat) : State := (s.setF d (edgeF e fD2dEdgeStatusLanesRepaired) lanes.toNat).showEdge d e
      (((s.bothEnds d e back).bothEnds d e (put fD2dModulesRepaired (b2n repaired))).bothEnds d e show_).nextTurn d e
    else if beyond || decide (n ≥ 3) then
      (((s.bothEnds d e back).bothEnds d e (put fD2dModulesEnabled 0)).bothEnds d e State.showEdge).nextTurn d e
    else (s.bothEnds d e (fun (s : State) d e => s.setEdge d e { s.edge d e with fails := mapSet (fun _ => 0) (s.edge d e).fails m n })).startRetrain d e m)

/-- Retrain every enabled module of an edge in turn (Table 12.15): ignored without a partner or while one of its modules retrains. -/
def State.retrainEdge (s : State) (d e : Nat) : State :=
  let x := s.edge d e
  if !s.edgeUp d e || !x.retraining.isEmpty || (edgePeer d e).isNone then s
  else (s.setEdge d e { x with turn := maskBits (s.getF d (edgeF e fD2dModulesEnabled)) 24 }).nextTurn d e

/-- D2D_CTRL_RETRAIN (Table 12.15). -/
def execD2dCtrlRetrain (d : Fin 6) (e : Fin 3) (s : State) : Host.Outcome State Fault Refusal := .next (s.retrainEdge d e)

/-! ### Discovery (R378 to R380) -/

/-- Is the edge of a die resolved: its partner greeted, or found silent? -/
def State.edgeKnown (s : State) (d e : Nat) : Bool :=
  (edgePeer d e).isNone || (mapGet (fun _ => none) (s.die d).hello e).isSome || (s.die d).silent.contains e

/-- Are all edges of a die resolved? -/
def State.edgesKnown (s : State) (d : Nat) : Bool := (span 0 3).all (s.edgeKnown d)

/-- Does a greeting contradict Table 1.2: the wrong kind of die on an edge, or a die that numbers its end otherwise than Table 12.2's edges join? -/
def State.contradicts (s : State) (d : Nat) : Bool :=
  (span 0 3).any (fun e => match mapGet (fun _ => none) (s.die d).hello e, edgePeer d e with
    | some (m : BitVec 128), some (p, pe) => fld m 8 1 != b2n (decide (p ≥ 4)) || (fld m 16 2 != 3 && fld m 16 2 != pe)
    | _, _ => false)

/-- The reason for which discovery fails (Table 12.9); a conflict stays. (DEDUCED, log entry 24.) -/
def State.discReason (s : State) : Nat :=
  let up := (span 0 6).filter s.dieUp
  if up.any (fun d => s.getF d fD2dDiscFailReason == 2 || s.contradicts d) then 2
  else if up.all s.edgesKnown && up.all (fun d => !(s.die d).xspi) then 1
  else if up.any (fun d => !(s.die d).silent.isEmpty) then 3
  else if up.any (fun d => decide (d < 4) && decide ((s.die d).nstacks < 3)) then 4
  else 0

/-- Show the outcome on every die that can record it (R380). Where discovery fails on every die, none holds a position (Table 12.9). -/
def State.showDisc (s : State) : State :=
  let r := s.discReason
  ((span 0 6).filter s.dieUp).foldl (fun (s : State) d =>
    let s := (s.setF d fD2dDiscFail (b2n (decide (r ≠ 0)))).setF d fD2dDiscFailReason r
    if r = 1 ∨ r = 2 then (((s.setF d fD2dDiscPos 7).setF d fDieInfoPos 7).setF d fDieInfoLead 0).setF d fD2dDiscDone 0
    else if s.getF d fD2dDiscPos ≠ 7 ∧ s.edgesKnown d = true then s.setF d fD2dDiscDone 1 else s) s

/-- The positions a die gives its partners (Table 12.8). -/
def positionsFrom (pos : Nat) : List (Nat × Nat) :=
  match pos with
  | 0 => [(0, 1), (1, 2), (2, 4)]
  | 1 => [(1, 3), (2, 5)]
  | 2 => [(0, 3), (2, 4)]
  | 3 => [(2, 5)]
  | _ => []

/-- A die that holds its position and has named its edges passes positions on, and a compute die asks its port die for its record (R379, R382). -/
def State.spread (s : State) (d : Nat) : State :=
  let pos := s.getF d fD2dDiscPos
  if !s.named d || pos == 7 then s
  else
    let s := (positionsFrom pos).foldl (fun (s : State) p => s.disc d p.1 1 p.2 0 0) s
    if d < 4 then s.disc d 2 2 pos 0 0 else s

/-- A die takes its position (R379). (DEDUCED, log entry 24.) -/
def State.takePos (s : State) (d pos : Nat) : State :=
  (((s.setF d fD2dDiscPos pos).setF d fDieInfoPos pos).setF d fDieInfoLead (b2n (decide (pos = 0)))).spread d

/-- The die with the flash takes C0 once its edges are resolved (R379). -/
def State.lookAround (s : State) (d : Nat) : State :=
  let s := if s.edgesKnown d && (s.die d).xspi && s.getF d fD2dDiscPos == 7 && !s.contradicts d && s.discReason != 2 then s.takePos d 0 else s
  s.showDisc

/-- HELLO (R379): a greeting arrives. A die that holds its position answers a die without one with POSITION (R393), and a compute die asks a port die that
greets it for its record (R382). -/
def execHello (d : Fin 6) (e : Fin 3) (m : BitVec 128) (s : State) : Host.Outcome State Fault Refusal :=
  .next (
    if !s.dieUp d || (edgePeer d e).isNone || fld m 0 8 != 0 || fld m 12 4 != 0 || fld m 18 6 != 0 || fld m 27 5 != 0 then s
    else
      let was := s.named d
      let s := s.modDie d (fun x => { x with hello := mapSet (fun _ => none) x.hello e (some m), silent := x.silent.filter (fun k => k != e.val) })
      let s := (s.setF d fD2dDiscFound (natPutBits (s.getF d fD2dDiscFound) e 1 1)).setF d (edgeF e fD2dEdgeStatusPresent) 1
      let s := s.setF d (edgeF e fD2dEdgeStatusPeerPos) (fld m 24 3)
      let s := if !was then s.spread d
        else if s.getF d fD2dDiscPos = 7 then s
        else
          let s := if fld m 24 3 = 7 then (match edgePeer d e with | some (p, _) => s.disc d e 1 p 0 0 | none => s) else s
          if d.val < 4 ∧ e.val = 2 ∧ s.flag d fD2dAdmitChecked = false then s.disc d 2 2 (s.getF d fD2dDiscPos) 0 0 else s
      s.lookAround d)

/-- HELLO_TIMER (R378, R379): every 10 µs a die greets on each edge that has not answered; a module that gave no answer to the last greeting makes way for
the next. (DESIGN CHOICE, log entry 74.) -/
def execHelloTimer (d : Fin 6) (s : State) : Host.Outcome State Fault Refusal :=
  .next (
    if !s.dieUp d then s
    else (span 0 3).foldl (fun (s : State) e =>
      if s.edgeKnown d e then s
      else (s.disc d e 0 (s.getF d fD2dDiscPos) 0 0).modDie d (fun x => { x with side := mapSet (fun _ => 0) x.side e ((s.sideOf d e + 1) % edgeModules d e) })) s)

/-- EDGE_SILENT_TIMEOUT (R379, R380): 50 ms without an answer; the edge is empty. -/
def execEdgeSilentTimeout (d : Fin 6) (e : Fin 3) (s : State) : Host.Outcome State Fault Refusal :=
  .next (
    if !s.dieUp d || s.edgeKnown d e then s
    else (s.modDie d (fun x => { x with silent := x.silent ++ [e.val] })).lookAround d)

/-- POSITION (R379, Table 12.8): a die takes the position given; a second one must agree, and a position that is not that of its site contradicts
Table 1.2. (DEDUCED, log entry 24.) -/
def execPosition (d : Fin 6) (e : Fin 3) (m : BitVec 128) (s : State) : Host.Outcome State Fault Refusal :=
  .next (
    let pos := fld m 24 3
    let have_ := s.getF d fD2dDiscPos
    if !s.dieUp d || (edgePeer d e).isNone || fld m 0 8 != 1 then s
    else
      let s := s.modDie d (fun x => { x with claims := x.claims ++ [pos] })
      if pos ≠ d.val ∨ (have_ ≠ 7 ∧ have_ ≠ pos) then (s.setF d fD2dDiscFailReason 2).showDisc
      else if have_ = 7 then (s.takePos d pos).showDisc
      else s)

/-! ### Admission (R381 to R384) -/

/-- QREC_REQ (R382): a port die answers with its record in sixteen parts. -/
def execQrecReq (pd : Fin 2) (e : Fin 2) (s : State) : Host.Outcome State Fault Refusal :=
  .next (
    let d := 4 + pd.val
    let r := (s.die d).record
    if !s.dieUp d || r.length != 128 then s
    else (span 0 16).foldl (fun (s : State) i => s.disc d e 3 0 i (leAt r (8 * i) 8)) s)

/-- QREC (R382): eight bytes of the record arrive at a compute die. -/
def execQrec (d : Fin 4) (m : BitVec 128) (s : State) : Host.Outcome State Fault Refusal :=
  .next (
    let i := fld m 48 16
    if !s.dieUp d || fld m 0 8 != 3 || decide (i ≥ 16) then s
    else (s.setReg d (oD2dQrec + 8 * i) (BitVec.ofNat 64 (fld m 64 64))).modDie d (fun x => { x with qgot := if x.qgot.contains i then x.qgot else x.qgot ++ [i] }))

/-- The record that a compute die has read. -/
def State.qrec (s : State) (d : Nat) : List Byte := (span 0 16).flatMap (fun i => leBytes (s.reg d (oD2dQrec + 8 * i)).toNat 8)

/-- Checks 1 to 5 of R382 on the record of die `d`'s port die: the REASON of the first that fails, 0 if none. -/
def State.qualify (s : State) (d : Nat) : Nat :=
  let r := s.qrec d
  let h : BitVec 128 := (mapGet (fun _ => none) (s.die d).hello 2).getD 0
  if (s.die d).qgot.length < 16 ∨ leAt r 0 4 ≠ 0x5150435A ∨ leAt r 4 1 ≠ 1 then 1
  else if Config.ed25519Ok Config.qualKey (r.take 64) (BitVec.ofNat 512 (leAt r 64 64)) = false then 2
  else if leAt r 5 1 ≠ 1 ∧ leAt r 5 1 ≠ 2 then 3
  else if leAt r 5 1 ≠ fld h 40 8 ∨ leAt r 6 1 ≠ fld h 32 8 then 4
  else if s.getF d fDieInfoSiliconRev < leAt r 7 1 then 5
  else 0

/-- The modules of an edge that train, and the lanes they repair: `needs` says of each module how many lanes it must repair, 5 if it cannot train; the
record allows MAX_REPAIR (R382, Table 12.10). -/
def trains (needs : List (Fin 6)) (most : Nat) : Nat × Nat :=
  ((span 0 6).zip needs).foldl (fun (z : Nat × Nat) k => if k.2.val ≤ min 4 most then (z.1 + 2 ^ k.1, z.2 + k.2.val) else z) (0, 0)

/-- PORT_ADMISSION (R382, R383): a compute die checks its port die's record, trains the edge (`at32`, `at16`: what its modules need at each rate) and sends
ADMIT_RESULT. A die that rejoins accepts the admission that the port die holds, and trains within the record's limits. -/
def execPortAdmission (d : Fin 4) (at32 at16 : List (Fin 6)) (s : State) : Host.Outcome State Fault Refusal :=
  .next (match edgePeer d 2 with
    | none => s
    | some (p, _) =>
      let r := s.qrec d
      let held := s.flag p fD2dAdmitAdmitted
      if !s.dieUp d || !s.dieUp p || s.getF d fD2dDiscPos == 7 || s.flag d fD2dAdmitChecked || (held && decide ((s.die d).qgot.length < 16)) then s
      else
        let q := if held then 0 else s.qualify d
        let least := max 1 (leAt r 10 1)
        let t32 := trains at32 (leAt r 9 1)
        let up (t : Nat × Nat) : Nat := (maskBits t.1 6).length
        let fast : Bool := leAt r 8 1 == 1 && decide (least ≤ up t32)
        let t := if fast then t32 else trains at16 (leAt r 9 1)
        let reason := if q ≠ 0 then q else if up t < least then 6 else 0
        let v := b2n (reason == 0) + 2 + 16 * reason + 256 * b2n fast + 2 ^ 12 * leAt r 5 1 + 2 ^ 16 * leAt r 6 1
        let s := s.setReg d oD2dAdmit (BitVec.ofNat 64 (v % 2 ^ 24))
        let s := if reason = 0 then s.bothEnds d 2 (fun (s : State) d e =>
          ((s.setF d (edgeF e fD2dModulesEnabled) t.1).setF d (edgeF e fD2dEdgeStatusRate) (b2n fast)).setF d (edgeF e fD2dEdgeStatusLanesRepaired) t.2) else s
        let s := s.disc d 2 4 0 0 (b2n (reason == 0) + 16 * reason + 256 * b2n fast)
        if reason = 0 then s
        else s.raise d ⟨.info, (Config.recordArg 0 2 [reason]).toNat % 65536, 0x0D, 4 * d + 2, 0, 0, 0, 0⟩)

/-- ADMIT_RESULT (R382, R384): once every compute die present beside it has answered, a port die is admitted, if all admit it, or restricted until
its reset. (DEDUCED, log entry 52.) -/
def execAdmitResult (pd : Fin 2) (e : Fin 2) (m : BitVec 128) (s : State) : Host.Outcome State Fault Refusal :=
  .next (
    let d := 4 + pd.val
    if !s.dieUp d || fld m 0 8 != 4 || s.flag d fD2dAdmitAdmitted || s.flag d fD2dAdmitRestricted then s
    else
      let s := s.modDie d (fun x => { x with verdicts := x.verdicts.filter (fun (v : Nat × Bool × Nat) => v.1 != e.val) ++ [(e.val, fld m 64 1 == 1, fld m 68 4)] })
      let vs := (s.die d).verdicts
      let present := (span 0 2).filter (fun k => match edgePeer d k with | some (p, _) => s.dieUp p | none => false)
      if !present.all (fun k => vs.any (fun v => v.1 == k)) then s
      else
        let rate := fld m 72 2
        let sup := match edgePeer d e with | some (p, _) => s.getF p fD2dAdmitSupplier | none => 0
        let rev := s.getF d fDieInfoSiliconRev
        if vs.all (fun v => v.2.1) then
          (s.setReg d oD2dAdmit (BitVec.ofNat 64 (3 + 256 * rate + 2 ^ 12 * sup + 2 ^ 16 * rev))).setF d fDieInfoSupplier sup
        else
          let reason := if vs.any (fun v => v.2.1) then 7 else ((vs.find? (fun v => !v.2.1)).map (fun v => v.2.2)).getD 0
          s.setReg d oD2dAdmit (BitVec.ofNat 64 (6 + 16 * reason + 2 ^ 16 * rev)))

/-! ### When one die stops (R391) -/

/-- A neighbour finds its partner away: its edge waits for the partner and DIE_LOST is raised. -/
def State.partnerLost (s : State) (d e p cold : Nat) : State :=
  (s.edgeWaits d e).raise d ⟨if p = 0 then .packageFatal else .jobFatal, 0x0063, 0x0D, 4 * d + e, 0, p, cold, 0⟩

/-- RESET_NOTICE (R391): the partner has begun a warm reset. -/
def execResetNotice (d : Fin 6) (e : Fin 3) (s : State) : Host.Outcome State Fault Refusal :=
  .next (match edgePeer d e with
    | none => s
    | some (p, _) => if !s.dieUp d || s.func (edgeFunc d e) == 1 then s else s.partnerLost d e p 0)

/-- HEARTBEAT (R378, R391): shows that the partner lives, and one is sent back every 10 µs. -/
def execHeartbeat (d : Fin 6) (e : Fin 3) (m : BitVec 128) (s : State) : Host.Outcome State Fault Refusal :=
  .next (
    if !s.dieUp d || (edgePeer d e).isNone || fld m 0 8 != 6 then s
    else (s.setF d (edgeF e fD2dEdgeStatusPeerPos) (fld m 24 3)).disc d e 6 (s.getF d fD2dDiscPos) 0 0)

/-- DIE_LOSS_TIMEOUT (R391): no flit for 1 µs or no HEARTBEAT for 30 µs; the partner is lost without a notice, which is a cold loss (R217).
(DEDUCED, log entry 52.) -/
def execDieLossTimeout (d : Fin 6) (e : Fin 3) (s : State) : Host.Outcome State Fault Refusal :=
  .next (match edgePeer d e with
    | none => s
    | some (p, _) =>
      if !s.dieUp d || s.func (edgeFunc d e) == 1 then s
      else
        let s := if p < 4 then s.coldLoss p else s.portReset p
        s.partnerLost d e p 1)

end Sys2Proof.Machine
end

