-- ==== Sys2Proof/Machine/Boot.lean ====
section
/-!
DEFINITION. Leaving reset, firmware and readiness (R424 to R437, R393): what the boot ROMs and the firmware write, the assembly certificate, the
key store, and the starts and stops of functions (R432, R463, R464).
-/

namespace Sys2Proof.Machine

/-! ### Leaving reset -/

/-- The function of a service port. -/
def svcFunc (p : Nat) : Nat := funcId 4 (4 + p) p

/-- PKG_SERIAL (Table 14.7). -/
def State.serial (s : State) : Nat := leAt s.flash.asm 8 8

/-- A function starts; a service port takes the form that SVC_CFG selects (R485). -/
def State.startFunc (s : State) (id : Nat) : State :=
  let s := s.setFunc id 1
  if id / 4096 = 4 then s.modDie (funcDie id) (fun x => { x with svcMode := s.getF (funcDie id) fSvcCfgModeSel }) else s

/-- Write a value over consecutive registers of a die. -/
def State.setWide (s : State) (d off n v : Nat) : State :=
  (span 0 n).foldl (fun (s : State) k => s.setReg d (off + 8 * k) (BitVec.ofNat 64 (natBits v (64 * k) 64))) s

/-- DIE_RESET_RELEASE (R424, R426): the conditions of Table 14.1 have held for 2 ms. The boot ROM shows the die's identity (R434, R435), its PLLs lock, and its
edges begin to train. `xspi` says whether the flashes answer on this die's pins, `found` which stacks do; `fuse`, `cert` and `record` are its fuses, its die
certificate and, on a port die, the qualification record its store holds when it is first read; `smb` is SMB_ADDR[1:0], which C0 samples (R478). -/
def execDieResetRelease (d : Fin 6) (xspi : Bool) (found : BitVec 3) (fuse : BitVec 64) (cert record : List Byte) (smb : BitVec 2) (s : State) :
    Host.Outcome State Fault Refusal :=
  .next (
    if s.dieUp d || s.pwr.tripped then s
    else
      let compute : Bool := decide (d.val < 4)
      let f := if compute then (mapGet (fun _ => none) s.flash.fuses d).getD (BitVec.ofNat 64 (fld fuse 0 13)) else 0
      let s := { s with flash := { s.flash with fuses := mapSet (fun _ => none) s.flash.fuses d (some f) } }
      let x := s.die d
      let n := if compute then (maskBits found.toNat 3).length else 0
      let s := s.setDie d { x with st := .up, xspi := xspi && d.val == 0, nstacks := n, cert := cert, record := if compute then [] else if x.record.isEmpty then record else x.record }
      let s := if d.val = 0 then { s with smbAddr := smb.toNat } else s
      let s := (s.setReg d oFuseState f).setReg d oDieSerial (BitVec.ofNat 64 (leAt cert 8 8))
      let s := (s.setWide d oDiePubkey 4 (Config.diePubKey d).toNat).setF d fDieInfoSiliconRev (leAt cert 7 1)
      let s := s.setF d fD2dDiscStacks n
      let s := (s.setF d fClkStatusDpll 1).setF d fClkStatusRefOk 1
      let s := if compute then (((s.setF d fClkStatusCpllA 1).setF d fClkStatusCpllB 1).setF d fClkStatusJpll 1).setF d fClkStatusMpll 1
        else s.setF d fClkStatusSpll 1
      let s := if compute && (s.pwr.low || s.pwr.hold) then (s.setF d fPwrStatusBrownout 1).setF d fPwrStatusGate 16 else s
      let s := (span 0 3).foldl (fun (s : State) e => if (edgePeer d e).isSome then s.setFunc (edgeFunc d e) 1 else s) s
      let s := if compute then (span 0 3).foldl (fun (s : State) k => if natBits found.toNat k 1 = 1 then s else s.failFunc (stackFunc (3 * d.val + k))) s else s
      s.setF d fBootStatusStage 1)

/-! ### What firmware does when it starts -/

/-- The port section of an image (Table 14.3). -/
def fwPortSection (img : List Byte) : List Byte := ((img.drop 256).drop (leAt img 24 4)).take (leAt img 28 4)

/-- Is an entry of the retirement record good (R362)? -/
def State.retireEntryOk (s : State) (e : List Byte) : Bool :=
  leAt e 0 4 == 0x5452435A && leAt e 8 8 == s.serial && leAt e 24 4 == (crc32c (e.take 24)).toNat

/-- Physical cores of a die that the retirement record names (R362). -/
def State.recordedCores (s : State) (d : Nat) : List Nat :=
  (s.flash.retired.filter (fun e => s.retireEntryOk e && leAt e 4 1 == d)).map (fun e => leAt e 5 1)

/-- An INFO record of the cluster whose cause the spec does not name. -/
def State.clusterInfo (s : State) (k : Nat) : State :=
  s.raise s.lead ⟨.info, (Config.recordArg 0 3 [k]).toNat % 65536, 0x0A, s.lead, 0, 0, 0, 0⟩

/-- The lead die reads the key store (R442): for each slot the record of highest GEN whose signature verifies; records that fail are reported. -/
def State.takeKeys (s : State) : State :=
  let ok (r : List Byte) : Bool := leAt r 0 4 == 0x4B4F435A && r.length == 128
    && Config.ed25519Ok (Config.diePubKey 0) (r.take 64) (BitVec.ofNat 512 (leAt r 64 64))
  let good := (s.flash.stored.filter ok).mergeSort (fun a b => decide (leAt a 8 8 ≤ leAt b 8 8))
  let s := { s with flash := { s.flash with keys := good } }
  (s.flash.stored.filter (fun r => !ok r)).foldl (fun (s : State) _ => s.clusterInfo 1) s

/-- Show the enrolled slots (Table 14.18). -/
def State.showKeys (s : State) : State :=
  let m := (span 0 8).foldl (fun (n : Nat) k => if (s.flash.opKey k).isSome then n + 2 ^ k else n) 0
  (s.setF common fOpkeyStatusEnrolled m).setF common fOpkeyStatusPin (b2n s.pwr.enrol)

/-- The functions of a die start with its firmware (R432): edges have started with the boot ROM; a stack that was not found and a core that the
retirement record names are FAILED. -/
def State.startFuncs (s : State) (d : Nat) : State :=
  if d < 4 then
    let bad := s.recordedCores d
    let s := (span 0 3).foldl (fun (s : State) k => if s.func (stackFunc (3 * d + k)) = 5 then s else s.setFunc (stackFunc (3 * d + k)) 1) s
    let s := (span 0 18).foldl (fun (s : State) p => if bad.contains p then s.failFunc (funcId 2 d p) else s.setFunc (funcId 2 d p) 1) s
    [5, 6, 7, 8].foldl (fun (s : State) k => s.setFunc (funcId k d 0) 1) s
  else
    let s := (span (6 * (d - 4)) 6).foldl (fun (s : State) p => s.setFunc (portFunc p) 1) s
    s.startFunc (svcFunc (d - 4))

/-- Firmware starts on a die with an image (R430, R432, R438, Table 14.15). -/
def State.startFirmware (s : State) (d : Nat) (img : List Byte) (slotB : Bool) : State :=
  let s := s.setF d fBootStatusStage 4
  let s := (((s.setF d fFwVersionVersion (leAt img 8 4)).setF d fFwVersionCompat (leAt img 12 2)).setF d fFwVersionSvn (leAt img 6 1)).setF d fFwVersionSlot (b2n slotB)
  let s := s.setWide d oFwMeas 8 (Config.sha512 (if d < 4 then img.take 256 else fwPortSection img)).toNat
  let cal := s.flash.cal
  let ok := calValid cal s.flash.asm
  let s := (s.setF d fBootStatusCalValid (b2n ok)).modDie d (fun x => { x with cal := if ok then cal else [] })
  let s := s.startFuncs d
  if d < 4 then
    let bad := s.recordedCores d
    let good := (span 0 18).foldl (fun (n : Nat) p => if bad.contains p then n else n + 2 ^ p) 0
    let s := (s.modDie d (fun x => { x with good := good }.assign)).showShape
    let s := s.setF d fPwrGovIccLimit 7000
    if d = s.lead then s
    else
      let s := (s.setF d fPwrStatusState (s.getF s.lead fPwrStatusState)).setF d fPwrStatusTarget (s.getF s.lead fPwrStatusTarget)
      s.setF d fPwrGovPwrLimitW (s.getF s.lead fPwrGovPwrLimitW)
  else
    let mac := 0x025A00000000 + (s.serial % 2 ^ 31) * 2 + (d - 4)
    (s.setReg d oSvcMac (BitVec.ofNat 64 mac)).setF d fSvcStatusForm 3

/-- Show which dies run slot B's image, and whether slot B holds a valid one (Table 14.19); a die that is away keeps its bit for its rejoin
(R393). (DEDUCED, log entry 60.) -/
def State.showSlots (s : State) : State :=
  let runs (d : Nat) : Bool := s.dieUp d && s.getF d fBootStatusStage == 4
  let onB (d : Nat) : Bool := if runs d then s.flag d fFwVersionSlot else natBits (s.getF common fFwUpdStatusOnB) d 1 == 1
  let on := (span 0 6).foldl (fun (n : Nat) d => if onB d then n + 2 ^ d else n) 0
  let b := fwCheck s.flash.slotB (s.reg s.lead oFuseState) == 0 && leAt s.flash.slotB 12 2 == s.getF s.lead fFwVersionCompat
  (s.setF common fFwUpdStatusOnB on).setF common fFwUpdStatusBValid (b2n b)

/-- The pin budget of Table 15.1. -/
def pinBudget (code : Nat) : Nat := ([450, 650, 900, 1200, 1500, 1700, 1900, 2100][code]?).getD 2100

/-- The effective budget B (R453) and the limit that binds, with 0 for none. -/
def State.budget (s : State) : Nat × Nat :=
  let l := s.lead
  if s.flag l fPwrStatusBrownout then (450, 5)
  else
    let cmd := s.getF l fPwrBudgetCfgCmdW
    let cap := s.getF l fPwrBudgetCfgCapW
    let a : Nat × Nat := (pinBudget (s.getF l fPwrBudgetCfgPinCode), 1)
    let b := if cmd ≠ 0 ∧ cmd < a.1 then (cmd, 2) else a
    if cap ≠ 0 ∧ cap < b.1 then (cap, 3) else b

/-- Show B (Table 15.11). -/
def State.showBudget (s : State) : State := s.setF s.lead fPwrBudgetCfgEffectiveW s.budget.1

/-- The lead die's firmware starts: retirement record, keys, slots and the pins (R362, R442, R454). (DESIGN CHOICE, log entry 63.) -/
def State.startLead (s : State) (pins : Nat) : State :=
  let s := (s.flash.retired.filter (fun e => !s.retireEntryOk e)).foldl (fun (s : State) _ => s.clusterInfo 2) s
  let s := s.takeKeys.showKeys.showSlots
  (s.setF s.lead fPwrBudgetCfgPinCode pins).showBudget

/-- Has discovery failed on every die, so that none loads firmware (Table 12.9)? -/
def State.discFailed (s : State) : Bool := s.discReason == 1 || s.discReason == 2

/-- FIRMWARE_VERIFY (R427, R429, R490): C0's boot ROM reads and verifies slot A, then slot B. `fl` is what the devices hold when they are first
read; `aOk` and `bOk` say whether each slot can be read, at the slow rate if need be, `slow` that a fast read failed; `pins` is PWR_BUDGET[2:0].
(DESIGN CHOICE, log entry 16.) -/
def execFirmwareVerify (fl : FlashImage) (aOk bOk slow : Bool) (pins : BitVec 3) (s : State) : Host.Outcome State Fault Refusal :=
  .next (
    if !s.dieUp 0 || !s.flag 0 fDieInfoLead || !(s.die 0).xspi || s.discFailed || decide (4 ≤ s.getF 0 fBootStatusStage) then s
    else
      let s := if s.flash.present.isEmpty then
        { s with flash := { s.flash with present := [fl.a, fl.b], asmA := fl.asmA, asmB := fl.asmB, stored := fl.keys, cal := fl.cal, retired := fl.retired,
                                         slotA := fl.slotA, slotB := fl.slotB } } else s
      let here (k : Nat) : Bool := (s.flash.present[k]?).getD false
      let fuse := s.reg 0 oFuseState
      let ra := if aOk && here 0 then fwCheck s.flash.slotA fuse else 1
      let rb := if bOk && here 1 then fwCheck s.flash.slotB fuse else 1
      let s := s.setF 0 fBootStatusXspiSlow (b2n slow)
      let run (s : State) (img : List Byte) (b : Bool) : State := ((s.modCtl (fun x => { x with fw := img })).startFirmware 0 img b).startLead pins.toNat
      if ra = 0 then run s s.flash.slotA false
      else
        let s := s.setF 0 fBootStatusFailA ra
        if rb = 0 then run (s.setF 0 fBootStatusFallback 1) s.flash.slotB true
        else (s.setF 0 fBootStatusFailB rb).setF 0 fBootStatusStage 5)

/-! ### Distribution -/

/-- Does the lead die's firmware run? -/
def State.leadRuns (s : State) : Bool := s.jasperUp && s.flag s.lead fDieInfoLead

/-- The image a die runs: slot B's where it was activated from there or the boot fell back to it, else the lead die's or slot A's (R430).
(DEDUCED, log entry 60.) -/
def State.imageFor (s : State) (d : Nat) : List Byte × Bool :=
  let moving : Bool := s.flag common fFwUpdStatusActBusy && s.getF common fFwUpdStatusActDie == d
  let onB : Bool := moving || natBits (s.getF common fFwUpdStatusOnB) d 1 == 1 || (s.flag s.lead fBootStatusFallback && s.flag s.lead fFwVersionSlot)
  if onB then (s.flash.slotB, true)
  else if s.flag s.lead fFwVersionSlot then (s.flash.slotA, false) else (s.ctl.fw, false)

/-- Give a die its firmware (R430, R431): a compute die whose fuses differ from the lead die's, or whose checks 2 to 6 fail, stays in its ROM and its functions
are OFF; a port die takes its section once admitted, from a neighbour that runs firmware. -/
def State.giveFirmware (s : State) (d : Nat) : State :=
  if !s.leadRuns || !s.dieUp d || s.discFailed || s.getF d fD2dDiscPos == 7 || decide (4 ≤ s.getF d fBootStatusStage) then s
  else
    let img := s.imageFor d
    if d < 4 then
      if s.reg d oFuseState ≠ s.reg s.lead oFuseState ∨ fwCheck img.1 (s.reg d oFuseState) ≠ 0 then
        { s with funcs := mapDrop (fun f => funcDie f == d) s.funcs }.setF d fBootStatusStage 5
      else (s.startFirmware d img.1 img.2).showSlots
    else if s.flag d fD2dAdmitAdmitted && s.dieUp (d - 4) && s.getF (d - 4) fBootStatusStage == 4 then (s.startFirmware d img.1 img.2).showSlots
    else s

/-- FIRMWARE_DISTRIBUTE (R430). -/
def execFirmwareDistribute (s : State) : Host.Outcome State Fault Refusal :=
  .next ((span 1 5).foldl (fun (s : State) d => s.giveFirmware d) s)

/-- An activation ends (R447): FW_UPD_STATUS, and the command's final reply. -/
def State.endActivation (s : State) (d reason : Nat) : State :=
  let s := ((s.setF common fFwUpdStatusActBusy 0).setF common fFwUpdStatusActResult (b2n (decide (reason ≠ 0)))).setF common fFwUpdStatusActReason reason
  s.finish (fun w => w == .activate d) (if reason = 0 then 0 else if reason = 3 ∨ reason = 4 then 0x103 else 0x107) 0

/-- DIE_REJOIN (R393, R216, R217): a die that has been found again takes the firmware it last ran and starts its functions; the commands that wait for it
are answered. Its stacks keep their contents after a warm reset and are swept after a cold loss. -/
def execDieRejoin (d : Fin 6) (s : State) : Host.Outcome State Fault Refusal :=
  .next (
    if d.val = s.lead then s
    else
      let t := s.giveFirmware d
      let st := t.getF d fBootStatusStage
      if st < 4 ∨ s.getF d fBootStatusStage ≥ 4 then s
      else
        let t := t.finish (fun w => w == .dieReset d) (if st = 4 then 0 else 0x200) (if st = 4 then 0 else openCause 10)
        if t.flag common fFwUpdStatusActBusy && t.getF common fFwUpdStatusActDie == d.val then t.endActivation d (if st = 4 then 0 else 1) else t)

/-! ### The assembly certificate (R437) -/

/-- Does every present die match its entry? -/
def State.asmMatches (s : State) : Bool :=
  (span 0 6).all (fun d => !s.dieUp d || leAt s.flash.asm (32 + 48 * d) 32 == (Config.diePubKey d).toNat)

/-- ASSEMBLY_CERT_CHECK (R437). -/
def execAssemblyCertCheck (s : State) : Host.Outcome State Fault Refusal :=
  .next (
    if !s.leadRuns then s
    else
      let ok := asmSigOk s.flash.asm && s.asmMatches
      let s := s.setF s.lead fBootStatusAsmOk (b2n ok)
      if ok then s else s.clusterInfo 3)

/-! ### Functions (R432, R463, R464) -/

/-- A function ends its start in READY or DEGRADED: the enables that wait for it are answered. (DEDUCED, log entry 62.) -/
def State.becomes (s : State) (id st : Nat) : State := (s.setFunc id st).finish (fun w => w == .func id true) 0 0

/-- Is the calibration table invalid on a die (R445)? -/
def State.calBad (s : State) (d : Nat) : Bool := s.getF d fBootStatusCalValid == 0

/-- The lead die copies its image into FIRMWARE regions once all stacks are up (R430 step 1). (DESIGN CHOICE, log entry 19.) -/
def State.copyFirmware (s : State) : State :=
  if s.ctl.fwCopied || !s.leadRuns || !(span 0 12).all s.stackUp then s
  else
    let r := Config.fwRegion % (nRegions - 1)
    let w := 0x50 + s.lead
    let cls (m : MemState) (r : Nat) : MemState := m.setRegion r { m.region r with cls := 3 }
    let m := cls (cls s.mem r) (r + 1)
    let m := (m.restoreRegion w r (s.ctl.fw.take 0x1000000)).restoreRegion w (r + 1) (s.ctl.fw.drop 0x1000000)
    { s with mem := m }.modCtl (fun x => { x with fwCopied := true })

/-- SELF_REBUILD (R339): after a cold die loss, once every die runs its firmware again, LOST is cleared in every region, FIRMWARE regions are restored from
the image of the lead die's flash, and the loaded image is discarded. (DEDUCED, log entry 47.) -/
def execSelfRebuild (s : State) : Host.Outcome State Fault Refusal :=
  .next (
    if !s.mem.coldLost || s.job.running || !s.leadRuns || !(span 0 4).all (fun d => s.dieUp d && s.getF d fBootStatusStage == 4) then s
    else
      let m := s.mem.regionRun 3 0 0 nRegions
      let img := (s.imageFor s.lead).1
      let r := Config.fwRegion % (nRegions - 1)
      let copy (m : MemState) (r : Nat) (bs : List Byte) : MemState := if (m.region r).cls = 3 then m.restoreRegion (0x50 + s.lead) r bs else m
      let m := copy (copy m r (img.take 0x1000000)) (r + 1) (img.drop 0x1000000)
      { s with mem := { m with coldLost := false } }.modCtl (fun x => { x with image := none, installed := none }))

/-- What the self-test of one array at start-up leaves (R110): three or more failing columns, or UNLOC, disable it. -/
def ArrayState.tested (a : ArrayState) (failing : BitVec 66) (unloc : Bool) : ArrayState :=
  let b : ArrayState := { a with bad := failing, pend := 0, ctest := failing, ctDone := true, ctUnloc := unloc, ctRunning := false }
  if unloc || decide (badCount failing ≥ 3) then { b with st := .disabled } else remap b

/-- A core's start-up self-test ends (R110, R41): a core with a disabled array is retired, one with a column replaced by a spare reports DEGRADED
(R25); at a die's start the logical cores take the lowest-numbered good physical cores (R40). -/
def State.coreTested (s : State) (d p : Nat) (cols : List (BitVec 66)) (unloc : List Bool) : State :=
  let pc := 18 * d + p
  let s := (span 0 4).foldl (fun (s : State) j =>
    s.modCore pc (fun c => c.setArray j ((c.array j).tested ((cols[j]?).getD 0) ((unloc[j]?).getD false)))) s
  let failed : Bool := (span 0 4).any (fun j => ((s.core pc).array j).st == .disabled)
  if !failed then s.becomes (funcId 2 d p) (if (span 0 4).any (fun j => ((s.core pc).array j).bad != 0) then 3 else 2)
  else
    let boot : Bool := !s.ctl.progs.any (fun g => g.waits == .func (funcId 2 d p) true) && !s.job.running
    let s := s.retireCore d p 5 false
    if boot then (s.modDie d Die.assign).showShape else s

/-- FUNCTION_READY (R432, R463): a starting function meets its condition of Table 14.5. For a core, `cols` and `unloc` are what its arrays'
self-tests found; for an edge, `enabled` and `repaired` are its modules, `fast` its rate, `nb` its measured round trip in bits [7:0] and its
repaired lanes from bit 8; for an Ewerlink port, `enabled` gives its width (1 all lanes, 2 lanes 0–3, 3 lanes 4–7) and `nb` the partner: package,
validity in bit 12, port from bit 16. (DEDUCED, log entries 52 and 62.) -/
def execFunctionReady (id : BitVec 16) (cols : List (BitVec 66)) (unloc : List Bool) (enabled repaired : BitVec 24) (fast : Bool) (nb : BitVec 32) (s : State) :
    Host.Outcome State Fault Refusal :=
  .next (
    let f := id.toNat
    let kind := f / 4096
    let d := funcDie f
    let k := f % 256
    let runs := s.getF d fBootStatusStage == 4
    if s.func f ≠ 1 ∨ s.dieUp d = false then s
    else if kind = 1 then
      match edgePeer d k with
      | none => s
      | some (p, _) =>
        if !s.dieUp p || (portEdge d k && !s.flag (min d p) fD2dAdmitChecked) then s
        else
          let admitted : Bool := !portEdge d k || s.flag (min d p) fD2dAdmitAdmitted
          let en := if portEdge d k && admitted then s.getF d (edgeF k fD2dModulesEnabled) else enabled.toNat % 2 ^ edgeModules d k
          let rate := if portEdge d k && admitted then s.getF d (edgeF k fD2dEdgeStatusRate) else b2n fast
          let lanes := if portEdge d k && admitted then s.getF d (edgeF k fD2dEdgeStatusLanesRepaired) else fld nb 8 8
          let s := s.bothEnds d k (fun (s : State) d e =>
            if s.func (edgeFunc d e) = 1 || s.funcUp (edgeFunc d e) then
              let s := (s.setEdge d e (s.edge d e).afresh).setF d (edgeF e fD2dModulesEnabled) en
              let s := (s.setF d (edgeF e fD2dModulesRepaired) repaired.toNat).setF d (edgeF e fD2dEdgeStatusRate) rate
              let s := (s.setF d (edgeF e fD2dEdgeStatusRtt) (fld nb 0 8)).setF d (edgeF e fD2dEdgeStatusLanesRepaired) lanes
              (s.setFunc (edgeFunc d e) 2).showEdge d e
            else s)
          let s := if s.job.running then s else s.moveBack
          s.bothEnds d k (fun (s : State) d e => if s.funcUp (edgeFunc d e) then (s.flushEdge d e).finish (fun w => w == .func (edgeFunc d e) true) 0 0 else s)
    else if !runs then s
    else match kind with
      | 0 =>
        let st := 3 * d + k
        if !s.flag d (stackF st fMcStkStatusSwept) then s
        else ((s.setF d (stackF st fMcStkStatusSref) 0).becomes f (if s.calBad d || s.pinsErased st then 3 else 2)).copyFirmware
      | 2 => s.coreTested d k cols unloc
      | 3 =>
        if !s.flag d fD2dAdmitAdmitted || decide (enabled.toNat = 0 ∨ 3 < enabled.toNat) then s
        else
          let s := (s.setPort k .reset).setWidth k enabled.toNat
          let s := (s.setF d (portF k fEwPortStatusNbPkg) (fld nb 0 12)).setF d (portF k fEwPortStatusNbValid) (fld nb 12 1)
          (s.setF d (portF k fEwPortStatusNbPort) (fld nb 16 4)).becomes f (if enabled.toNat = 1 ∧ s.calBad d = false then 2 else 3)
      | 4 => if s.flag d fD2dAdmitAdmitted && s.flag d fSvcStatusLink then s.becomes f (if s.calBad d then 3 else 2) else s
      | 5 => (s.setBeryl d .reset).becomes f 2
      | 6 => (s.setQe d .reset).becomes f 2
      | 7 => (s.setRuns d []).becomes f 2
      | 8 => (s.setUpd d .reset).becomes f 2
      | _ => s)

/-- The CST connections on a service port are reset with reason 6. -/
def State.resetConnsOn (s : State) (p reason : Nat) : State :=
  (s.ctl.conns.filter (fun (c : Conn) => c.peer.port == p)).foldl (fun (s : State) c => s.resetConn c reason) s

/-- The drain of a stopping function (Table 15.6); none while it is not complete. -/
def State.drained (s : State) (id : Nat) : Option State :=
  let d := funcDie id
  let k := id % 256
  match id / 4096 with
  | 0 =>
    let st := 3 * d + k
    let s := ((s.merged d).filter (fun g => granStack g == st)).foldl (fun (s : State) g => s.flushGran g) s
    some (s.setF d (stackF st fMcStkStatusSref) 1)
  | 1 => some ((s.setEdge d k (s.edge d k).afresh).setF d (edgeF k fD2dEdgeStatusModulesUp) 0)
  | 2 =>
    let c := s.core (18 * d + k)
    let open_ : Bool := (span 0 4).any (fun j => (c.array j).groups.any (fun g => g.2.isOpen))
    if c.crit.st.live || c.defr.st.live || open_ then none else some s
  | 3 => if (s.port k).replay.isEmpty then some s else none
  | 4 => some ((s.resetConnsOn k 6).setF d fSvcStatusLink 0)
  | 5 => some (s.setBeryl d .reset)
  | 6 => some (s.setQe d .reset)
  | 7 => some (((s.setRuns d []).setF d fCeStatusNext 0).setF d fCeStatusHalted 0)
  | 8 => some (s.setUpd d .reset)
  | _ => some s

/-- FUNCTION_STOPPED (R464, R465): a stopping function has drained and is OFF; a deferred enable starts it again. -/
def execFunctionStopped (id : BitVec 16) (s : State) : Host.Outcome State Fault Refusal :=
  .next (
    let f := id.toNat
    if s.func f ≠ 4 then s
    else match s.drained f with
      | none => s
      | some s =>
        let again : Bool := s.ctl.progs.any (fun g => g.waits == .func f true)
        (if again then s.startFunc f else s.setFunc f 0).finish (fun w => w == .func f false) 0 0)

/-- SERVICE_LINK_UP (R482): a service port links: 0 400GBASE-KR4, 1 400GBASE-CR4, both after auto-negotiation, 2 400GAUI-4. A form that SVC_CFG
did not select at the port's start leaves it STARTING (R485). -/
def execServiceLinkUp (p : Fin 2) (form : Fin 3) (s : State) : Host.Outcome State Fault Refusal :=
  .next (
    let d := 4 + p.val
    if !s.dieUp d || s.func (svcFunc p) ≠ 1 || (s.die d).svcMode ≠ b2n (form.val == 2) then s
    else ((s.setF d fSvcStatusForm form).setF d fSvcStatusLink 1).setF d fSvcStatusAnDone (b2n (form.val != 2)))

/-- SERVICE_LINK_DOWN (R433): the link is lost; the port starts again. -/
def execServiceLinkDown (p : Fin 2) (s : State) : Host.Outcome State Fault Refusal :=
  .next (
    let d := 4 + p.val
    if !s.flag d fSvcStatusLink then s
    else
      let s := ((s.setF d fSvcStatusLink 0).setF d fSvcStatusForm 3).setF d fSvcStatusAnDone 0
      if s.funcUp (svcFunc p) then s.startFunc (svcFunc p) else s)

end Sys2Proof.Machine
end

