-- ==== Sys2Proof/Machine/FlashRows.lean ====
section
/-!
DEFINITION. Flash operations in their order (R449): key records (R440 to R442), retirement entries (R362), calibration (R444), firmware staging,
activation and commit (R446 to R448).
-/

namespace Sys2Proof.Machine

/-- Take the operation under way off the list. -/
def State.nextFlash (s : State) : State := { s with flash := { s.flash with ops := s.flash.ops.drop 1 } }

/-- The operation at the head becomes another: its bytes go to the device. -/
def State.beginWrite (s : State) (o : FlashOp) (off : Nat) (bs : List Byte) : State :=
  { s with flash := { s.flash with ops := o :: s.flash.ops.drop 1 } }.send (.flashWrite false off bs)

/-! ### Operator keys (R440 to R442) -/

/-- The record of a slot change (R442). -/
def keyRecord (slot : Nat) (enrol : Bool) (key : BitVec 256) (gen : Nat) : List Byte :=
  let b := leBytes 0x4B4F435A 4 ++ leBytes slot 1 ++ leBytes (b2n enrol) 1 ++ leBytes 0 2 ++ leBytes gen 8 ++ leBytes (if enrol then key.toNat else 0) 32 ++ leBytes 0 16
  b ++ leBytes (Config.ed25519Sign 0 b).toNat 64

/-- KEY_STORE_WRITE (R442): a slot change at the head of the flash operations is written to the sector that the previous write did not use.
(DESIGN CHOICE, log entry 61.) -/
def execKeyStoreWrite (s : State) : Host.Outcome State Fault Refusal :=
  .next (match s.flash.ops.head? with
    | some (.key slot enrol key) =>
      let gen := s.flash.stored.foldl (fun (m : Nat) r => max m (leAt r 8 8)) 0 + 1
      let n := s.flash.stored.length
      let r := keyRecord slot enrol key gen
      s.beginWrite (.keyRec slot r) (0x10000 + 0x10000 * (n % 2) + 128 * (n / 2)) r
    | _ => s)

/-- The operator key that OPKEY_DATA holds. -/
def State.stagedKey (s : State) : BitVec 256 :=
  BitVec.ofNat 256 ((span 0 4).foldl (fun (n : Nat) k => n + 2 ^ (64 * k) * (s.reg common (oOpkeyData + 8 * k)).toNat) 0)

/-- Writing OPKEY_CTL.ENROL (R440): ignored while an operation is being written. -/
def State.enrol (s : State) : State :=
  let slot := s.getF common fOpkeySelSlot
  let result (s : State) (n : Nat) : State := s.setF common fOpkeyStatusResult n
  if !s.leadRuns || s.flag common fOpkeyStatusBusy then s
  else if !s.pwr.enrol then result s 1
  else if (s.flash.opKey slot).isSome then result s 2
  else if !Config.ed25519Point s.stagedKey then result s 3
  else (s.flashAsk (.key slot true s.stagedKey)).setF common fOpkeyStatusBusy 1

/-- Close a session: its cache is discarded (R407). -/
def State.closeSession (s : State) (id : Nat) : State :=
  (s.modCtl (fun x => { x with sessions := x.sessions.filter (fun y => y.id != id) })).showCtl

/-- Writing OPKEY_CTL.REVOKE (R441): the sessions of the slot's key close at once. -/
def State.revoke (s : State) : State :=
  let slot := s.getF common fOpkeySelSlot
  if !s.leadRuns || s.flag common fOpkeyStatusBusy then s
  else if !s.pwr.enrol then s.setF common fOpkeyStatusResult 1
  else
    let s := (s.ctl.sessions.filter (fun (y : Session) => y.key == slot)).foldl (fun (s : State) y => s.closeSession y.id) s
    (s.flashAsk (.key slot false 0)).setF common fOpkeyStatusBusy 1

/-- ENROL (R440). -/
def execEnrol (s : State) : Host.Outcome State Fault Refusal := .next s.enrol

/-- REVOKE (R441). -/
def execRevoke (s : State) : Host.Outcome State Fault Refusal := .next s.revoke

/-- ENROL_N_CHANGE (R478): the pin has held a new level for 10 ms. -/
def execEnrolNChange (low : Bool) (s : State) : Host.Outcome State Fault Refusal :=
  .next (
    let s := { s with pwr := { s.pwr with enrol := low } }
    if s.leadRuns then s.setF common fOpkeyStatusPin (b2n low) else s)

/-! ### The retirement record (R362) -/

/-- An entry of the retirement record, with the time at which the retirement was made. -/
def State.retireEntry (s : State) (d p why time : Nat) : List Byte :=
  let b := leBytes 0x5452435A 4 ++ leBytes d 1 ++ leBytes p 1 ++ leBytes why 1 ++ leBytes 0 1 ++ leBytes s.serial 8 ++ leBytes time 8
  b ++ leBytes (crc32c b).toNat 4 ++ leBytes 0 4

/-- RETIREMENT_RECORD_WRITE (R362): the retirement at the head of the flash operations is written; a record that is full takes no more.
(DESIGN CHOICE, log entry 61.) -/
def execRetirementRecordWrite (s : State) : Host.Outcome State Fault Refusal :=
  .next (match s.flash.ops.head? with
    | some (.retire d p why time) =>
      let n := s.flash.retired.length
      if n ≥ 2048 then s.nextFlash
      else
        let e := s.retireEntry d p why time
        s.beginWrite (.retireRec e) (0x70000 + 32 * n) e
    | _ => s)

/-! ### Completion (R449) -/

/-- Raise the fused SVN of the compute dies (R431, R448). (DEDUCED, log entry 60.) -/
def State.raiseSvn (s : State) (svn : Nat) : State :=
  (span 0 4).foldl (fun (s : State) d =>
    if s.dieUp d && decide (s.getF d fFuseStateSvn < svn) then
      let s := s.setF d fFuseStateSvn svn
      { s with flash := { s.flash with fuses := mapSet (fun _ => none) s.flash.fuses d (some (s.reg d oFuseState)) } }
    else s) s

/-- The commit copy ends (R448): slot A is verified, the SVN raised where every die runs the image, and every die runs slot A's image from now
on. (DEDUCED, log entry 60.) -/
def State.commitDone (s : State) (ok : Bool) : State :=
  let img := s.flash.slotB
  let all : Bool := s.getF common fFwUpdStatusOnB == 63
  let s := s.setF common fFwUpdStatusCommitting 0
  let good : Bool := ok && fwCheck img (s.reg s.lead oFuseState) == 0
  let s := { s with flash := { s.flash with slotA := if good then img else [] } }
  if !good then s
  else
    let s := if ok then s.send (.flashWrite false 0x1000000 img) else s
    let s := if all then s.raiseSvn (leAt img 6 1) else s
    let s := (span 0 6).foldl (fun (s : State) d => if s.dieUp d then s.setF d fFwVersionSlot 0 else s) s
    (s.setF common fFwUpdStatusOnB 0).modCtl (fun x => { x with fw := img })

/-- FW_STAGE's write ends (R446): slot B is verified, and its COMPAT compared. -/
def State.stageWritten (s : State) (img : List Byte) (ok : Bool) : State :=
  let c := fwCheck img (s.reg s.lead oFuseState)
  let reason := if c = 0 ∧ leAt img 12 2 ≠ s.getF s.lead fFwVersionCompat then 7 else c
  let good : Bool := ok && reason == 0
  let s := { s with flash := { s.flash with slotB := if good then img else [] } }.setF common fFwUpdStatusBValid (b2n good)
  let s := if ok then s.send (.flashWrite true 0x1000000 img) else s
  s.finishFlash 0x0801 (if good then 0 else if ok = false then 0x200 else if reason = 3 ∨ reason = 4 then 0x103 else 0x107) (if ok then 0 else openCause 9)

/-- Does another key operation wait? -/
def Flash.keyWaits (f : Flash) : Bool := f.ops.any (fun o => match o with | .key _ _ _ => true | .keyRec _ _ => true | _ => false)

/-- FLASH_WRITE_COMPLETE (R449): the flash operation under way ends, in good order or not, and the next one is under way.
(DESIGN CHOICE, log entry 61.) -/
def execFlashWriteComplete (ok : Bool) (s : State) : Host.Outcome State Fault Refusal :=
  .next (match s.flash.ops.head? with
    | some (.cal table) =>
      let s := s.nextFlash
      let s := { s with flash := { s.flash with cal := if ok then table else [] } }
      (if ok then s.send (.flashWrite false 0x30000 table) else s).finishFlash 0x0804 (if ok then 0 else 0x200) (if ok then 0 else openCause 9)
    | some (.stage img) => s.nextFlash.stageWritten img ok
    | some .commit => s.nextFlash.commitDone ok
    | some (.keyRec _ r) =>
      let s := s.nextFlash
      let s := if ok then { s with flash := { s.flash with stored := s.flash.stored ++ [r], keys := s.flash.keys ++ [r] } } else s
      ((s.setF common fOpkeyStatusResult (if ok then 0 else 4)).setF common fOpkeyStatusBusy (b2n s.flash.keyWaits)).showKeys
    | some (.retireRec e) =>
      let s := s.nextFlash
      if ok then { s with flash := { s.flash with retired := s.flash.retired ++ [e] } } else s
    | _ => s)

/-! ### Firmware in service (R446 to R448) -/

/-- FIRMWARE_COMMIT (R448): all six dies run slot B's image, or the boot fell back to it because slot A fails; slot B is to be copied into slot
A. (DEDUCED, log entry 60.) -/
def execFirmwareCommit (s : State) : Host.Outcome State Fault Refusal :=
  .next (
    let fuse := s.reg s.lead oFuseState
    let fell := s.flag s.lead fBootStatusFallback && s.flag s.lead fFwVersionSlot && fwCheck s.flash.slotA fuse != 0
    if !s.leadRuns || s.flag common fFwUpdStatusCommitting || !(s.getF common fFwUpdStatusOnB == 63 || fell) then s
    else if leAt s.flash.slotB 6 1 < fld fuse 0 8 then s
    else (s.setF common fFwUpdStatusCommitting 1).flashAsk .commit)

/-- FW_ACTIVATION_DONE (R447): the restart of a compute die's firmware ends. The die's ROM has checked slot B by checks 1 to 7 of Table 14.4; a die whose
image fails them goes on with its own. (DEDUCED, log entry 60.) -/
def execFwActivationDone (s : State) : Host.Outcome State Fault Refusal :=
  .next (
    let d := s.getF common fFwUpdStatusActDie
    if !s.flag common fFwUpdStatusActBusy || s.getF common fFwUpdStatusActResult != 0 || decide (d ≥ 4) || !s.dieUp d then s
    else
      let img := s.flash.slotB
      let c := fwCheck img (s.reg d oFuseState)
      let others := (span 0 4).filter (fun k => k != d && s.dieUp k && s.getF k fBootStatusStage == 4)
      let reason := if c = 0 ∧ others.any (fun k => s.getF k fFwVersionCompat != leAt img 12 2) = true then 7 else c
      if reason ≠ 0 then s.endActivation d reason
      else
        let s := (((s.setF d fFwVersionVersion (leAt img 8 4)).setF d fFwVersionCompat (leAt img 12 2)).setF d fFwVersionSvn (leAt img 6 1)).setF d fFwVersionSlot 1
        let s := s.setWide d oFwMeas 8 (Config.sha512 (img.take 256)).toNat
        let s := s.setF common fFwUpdStatusOnB (natPutBits (s.getF common fFwUpdStatusOnB) d 1 1)
        (if d = s.lead then s.modCtl (fun x => { x with fw := img }) else s).endActivation d 0)

end Sys2Proof.Machine
end

