-- ==== Sys2Proof/Machine/Power.lean ====
section
/-!
DEFINITION. Power and thermal operation (R450 to R462, R471 to R474, R489): governors, power manager, changes of power state, budgets, brownout, thermal limits
and rail telemetry.
-/

namespace Sys2Proof.Machine

/-- Set a field of every running compute die. -/
def State.setUp (s : State) (f : Fld) (v : Nat) : State := s.upCompute.foldl (fun (s : State) d => s.setF d f v) s

/-- Count on every running compute die. -/
def State.bumpUp (s : State) (f : Fld) (k : Nat) : State := s.upCompute.foldl (fun (s : State) d => s.bump d f k) s

/-- Replace the power state beside the registers. -/
def State.modPwr (s : State) (f : Pwr → Pwr) : State := { s with pwr := f s.pwr }

/-! ### Rails (R462, R489) -/

/-- A rail as last measured. -/
def State.rail (s : State) (k : Nat) : Rail := mapGet (fun _ => ⟨0, 0, 0, false⟩) s.pwr.rails k

/-- Replace it. -/
def State.setRail (s : State) (k : Nat) (r : Rail) : State := s.modPwr (fun x => { x with rails := mapSet (fun _ => ⟨0, 0, 0, false⟩) x.rails k r })

/-- Rated continuous current of a rail in mA (Table 16.2). -/
def ratedMa (k : Nat) : Nat :=
  ([700000, 700000, 700000, 700000, 120000, 120000, 120000, 120000, 150000, 120000, 40000, 150000, 200000, 12000, 4000][k]?).getD 0

/-- Power of a rail in mW: its current times its last voltage; a rail whose telemetry is lost is taken at its rated current (R455, R489).
(DEDUCED, log entry 64.) -/
def State.railMw (s : State) (k : Nat) : Nat :=
  let r := s.rail k
  r.mv * (if r.lost then ratedMa k else r.ma) / 1000

/-- Power of several rails in mW. -/
def State.railsMw (s : State) (l : List Nat) : Nat := l.foldl (fun (n : Nat) k => n + s.railMw k) 0

/-- P_shared in mW (R451). -/
def State.sharedMw (s : State) : Nat := s.railsMw [8, 9, 10, 11, 12, 13, 14]

/-- Is the telemetry of a rail that `p` picks lost? -/
def State.railLost (s : State) (p : Nat → Bool) : Bool := (span 0 15).any (fun k => p k && (s.rail k).lost)

/-! ### The power manager (R451 to R453) -/

/-- Set PWR_LIMIT_W of every compute die to (B − P_shared) / 4 (R451). (DESIGN CHOICE, log entry 63.) -/
def State.setLimits (s : State) : State :=
  let s := s.showBudget
  s.setUp fPwrGovPwrLimitW ((s.budget.1 * 1000 - s.sharedMw) / 4000)

/-- The thermal cap: the lowest of the compute dies' caps (R451, R459); PS0 where none caps. -/
def State.thermalCap (s : State) : Nat := s.upCompute.foldl (fun (m : Nat) d => max m (mapGet (fun _ => 0) s.pwr.caps d)) 0

/-- The target state, and the limit that binds (R451, R453): the lowest of budget state, thermal cap, PS2 without calibration and PS3 without telemetry. -/
def State.target (s : State) (budgetState : Nat) : Nat × Nat :=
  let t : Nat × Nat := (budgetState, s.budget.2)
  let t := if s.calBad s.lead && decide (t.1 < 2) then (2, 6) else t
  let t := if t.1 < s.thermalCap then (s.thermalCap, 4) else t
  let lost := s.railLost (fun _ => true)
  if s.flag s.lead fPwrStatusBrownout then (t.1, 5)
  else if lost then (max t.1 3, 7) else t

/-- Show the binding limit; the alert latch sets when telemetry is lost (R479). (DEDUCED, log entry 64.) -/
def State.showSource (s : State) (v : Nat) : State :=
  let s := if v = 7 ∧ s.getF s.lead fPwrStatusSource ≠ 7 then { s with alert := true } else s
  s.setUp fPwrStatusSource v

/-- The VDD_CORE voltage of a die in a power state (R443, R445). -/
def State.vfOf (s : State) (d k : Nat) : Nat := if (s.die d).cal.isEmpty then 850 else calVf (s.die d).cal d k

/-- Command every die's VDD_CORE voltage for a state (R452, R455). -/
def State.commandVf (s : State) (k : Nat) : State := s.upCompute.foldl (fun (s : State) d => s.send (.vout d (s.vfOf d k))) s

/-- A change of power state ends or is abandoned. -/
def State.endChange (s : State) : State := (s.modPwr (fun x => { x with change := none })).setUp fPwrStatusSwitching 0

/-- CORE_CLK switches on all compute dies at once (R386, R452). -/
def State.switchClock (s : State) (c : PwrChange) : State :=
  let s := s.upCompute.foldl (fun (s : State) d => s.setF d fClkStatusCpllSel (1 - s.getF d fClkStatusCpllSel)) s
  let s := ((s.setUp fPwrStatusState c.goal).bumpUp fPwrStateCntCount 1).endChange
  if c.up then s else s.commandVf c.goal

/-- Begin the change toward a target, for which the idle CPLL locks anew (R386, R452, R455, R467): none while the firmware of a compute die restarts; a downward change takes the place of an upward
one; no upward change while a VDD_CORE VRM does not answer. (DEDUCED, log entry 64.) -/
def State.beginChange (s : State) (goal : Nat) : State :=
  let now := s.getF s.lead fPwrStatusState
  let begin_ (up : Bool) (s : State) : State :=
    let s := ((s.modPwr (fun x => { x with change := some ⟨up, goal, !up, false⟩ })).setUp fPwrStatusSwitching 1).showIdle 0
    if up then s.commandVf goal else s
  let busy : Bool := s.flag common fFwUpdStatusActBusy && s.getF common fFwUpdStatusActResult == 0 && decide (s.getF common fFwUpdStatusActDie < 4)
  if busy then s
  else match s.pwr.change with
    | some c =>
      if now < goal ∧ (c.up ∨ c.goal ≠ goal) then begin_ false s
      else if c.up ∧ now ≤ goal then s.endChange
      else s
    | none =>
      if now < goal then begin_ false s
      else if goal < now ∧ s.railLost (fun k => decide (k < 4)) = false then begin_ true s
      else s

/-- One run of the power manager (R451): `gated` says that a die's gate has averaged 4 or more over 1 ms, `idle` that every gate has been 0 for 10 ms since
the last change, `est` estimates the next higher state in mW. -/
def State.manage (s : State) (gated idle : Bool) (est : Nat) : State :=
  let s := s.setLimits
  let now := s.getF s.lead fPwrStatusState
  let bo := s.flag s.lead fPwrStatusBrownout
  let still : Bool := idle && s.upCompute.all (fun d => s.getF d fPwrStatusGate == 0)
  let rise : Bool := !bo && (still || s.pwr.upDue) && decide (est * 100 ≤ s.budget.1 * 95000)
  let b := if bo then 5 else if gated then min 5 (now + 1) else if rise then now - 1 else now
  let t := s.target b
  let s := (s.setUp fPwrStatusTarget t.1).showSource t.2
  (s.modPwr (fun x => { x with upDue := false })).beginChange t.1

/-- The power manager runs at once on a change (R451), if the lead die's firmware runs. (DEDUCED, log entry 64.) -/
def State.manageNow (s : State) : State := if s.leadRuns then s.manage false false 0 else s

/-- POWER_MANAGER_TICK (R451): every 100 µs. The measured powers are shown (Table 15.12). (DEDUCED, log entry 64.) -/
def execPowerManagerTick (gated idle : Bool) (est : BitVec 32) (s : State) : Host.Outcome State Fault Refusal :=
  .next (
    if !s.leadRuns then s
    else
      let total := s.railsMw (span 0 15)
      let s := s.upCompute.foldl (fun (s : State) d => (s.setF d fPwrMeasPkgMw total).setF d fPwrMeasDieMw (s.railsMw [d, 4 + d])) s
      s.manage gated idle est.toNat)

/-- CPLL_LOCK (R386, R388, R452): the idle CPLL of every running compute die has locked; CORE_CLK switches when any voltage condition is met. -/
def execCpllLock (s : State) : Host.Outcome State Fault Refusal :=
  .next (
    let s := s.showIdle 1
    match s.pwr.change with
    | none => s
    | some c =>
      let c : PwrChange := { c with locked := true }
      if c.volt then s.switchClock c else s.modPwr (fun x => { x with change := some c }))

/-- VOUT_SETTLE (R452, R473): every VDD_CORE rail has reached the raised voltage, or 250 µs have passed and the upward change is abandoned. -/
def execVoutSettle (ok : Bool) (s : State) : Host.Outcome State Fault Refusal :=
  .next (match s.pwr.change with
    | none => s
    | some c =>
      if !c.up then s
      else if !ok then s.endChange
      else
        let c : PwrChange := { c with volt := true }
        if c.locked then s.switchClock c else s.modPwr (fun x => { x with change := some c }))

/-! ### Governors (R450, R457, R459) -/

/-- CORE_CLK in MHz in a power state (Table 1.3). -/
def coreMhz (k : Nat) : Nat := ([3300, 2900, 2600, 2200, 1600, 1200][k]?).getD 1200

/-- GOVERNOR_TICK (R450): every 1 µs. `mw` is the die's estimated power, `icc` its estimated VDD_CORE current in 0.1 A. Under a brownout the gate stays at 16
until PS5 has been reached (R457), and under CRIT as long as it holds (R459). (DESIGN CHOICE, log entry 29.) -/
def execGovernorTick (d : Fin 4) (mw icc : BitVec 32) (s : State) : Host.Outcome State Fault Refusal :=
  .next (
    if !s.dieUp d then s
    else
      let g := s.getF d fPwrStatusGate
      let lw := s.getF d fPwrGovPwrLimitW * 1000
      let li := s.getF d fPwrGovIccLimit
      let held : Bool := s.flag d fPwrStatusCrit || (s.flag d fPwrStatusBrownout && s.getF d fPwrStatusState != 5)
      let g' := if held then 16
        else if mw.toNat > lw ∨ icc.toNat > li then min 16 (g + 1)
        else if mw.toNat * 100 < lw * 97 ∧ icc.toNat * 100 < li * 97 then g - 1
        else g
      let s := if 0 < g then s.bump d fPwrGateCntCount (coreMhz (s.getF d fPwrStatusState)) else s
      s.setF d fPwrStatusGate g')

/-! ### Budget (R453, R454) -/

/-- PWR_BUDGET_SAMPLE (R454): a sample of PWR_BUDGET[2:0]; three that agree are taken. -/
def execPwrBudgetSample (code : BitVec 3) (s : State) : Host.Outcome State Fault Refusal :=
  .next (
    if !s.leadRuns then s
    else
      let l := (s.pwr.pins ++ [code.toNat]).drop (s.pwr.pins.length - 2)
      let s := s.modPwr (fun x => { x with pins := l })
      if l = [code.toNat, code.toNat, code.toNat] ∧ s.getF s.lead fPwrBudgetCfgPinCode ≠ code.toNat then
        (s.setF s.lead fPwrBudgetCfgPinCode code.toNat).manageNow
      else s)

/-! ### Brownout (R457, R458) -/

/-- BROWNOUT_N_FALL (R457): every compute die gates array issue at 16, in hardware; the power manager targets 450 W and PS5. An upward change is cancelled. -/
def execBrownoutNFall (s : State) : Host.Outcome State Fault Refusal :=
  .next (
    if s.pwr.low then s
    else
      let s := s.modPwr (fun x => { x with low := true, hold := false, upDue := false })
      let s := ((s.setUp fPwrStatusBrownout 1).setUp fPwrStatusGate 16).bumpUp fBrownoutCntCount 1
      let s := match s.pwr.change with
        | some c => if c.up then s.endChange else s
        | none => s
      s.manageNow)

/-- BROWNOUT_N_RISE (R458): the hold starts. -/
def execBrownoutNRise (s : State) : Host.Outcome State Fault Refusal :=
  .next (if s.pwr.low then s.modPwr (fun x => { x with low := false, hold := true }) else s)

/-- BROWNOUT_HOLD_EXPIRY (R458): BROWNOUT_N has been high for BO_HOLD_US; gating ends, B returns, and the first step up is due at once. `est` is the power
manager's estimate for the next higher state in mW. -/
def execBrownoutHoldExpiry (est : BitVec 32) (s : State) : Host.Outcome State Fault Refusal :=
  .next (
    if !s.pwr.hold then s
    else
      let s := (s.modPwr (fun x => { x with hold := false, upDue := true })).setUp fPwrStatusBrownout 0
      if s.leadRuns then s.manage false false est.toNat else s)

/-! ### Thermal limits (R459, R461) -/

/-- Lower or set the thermal cap of a die. -/
def State.setCap (s : State) (d v : Nat) : State := s.modPwr (fun x => { x with caps := mapSet (fun _ => 0) x.caps d (min 5 v) })

/-- Set HOT or CRIT of a die in both registers (Tables 15.10, 15.13). -/
def State.setHot (s : State) (d : Nat) (v : Bool) : State := (s.setF d fThermStatusHot (b2n v)).setF d fPwrStatusHot (b2n v)

/-- CRIT of a die, likewise. -/
def State.setCrit (s : State) (d : Nat) (v : Bool) : State := (s.setF d fThermStatusCrit (b2n v)).setF d fPwrStatusCrit (b2n v)

/-- THERMAL_SAMPLE (R459): the hottest readings of a compute die and, for C0 and C1, of the port die that counts toward it, in 1/16 °C, with their sensors. -/
def execThermalSample (d : Fin 4) (own : BitVec 12) (sensor : BitVec 6) (port : BitVec 12) (portSensor : BitVec 4) (s : State) : Host.Outcome State Fault Refusal :=
  .next (
    if !s.dieUp d then s
    else
      let p := if d.val < 2 then port.toNat else 0
      let t := max own.toNat p
      let hot := s.getF d fThermCfgTHot
      let crit := s.getF d fThermCfgTCrit
      let fromPort : Bool := decide (own.toNat < p)
      let s := s.modPwr (fun x => { x with portTemp := mapSet (fun _ => 0) x.portTemp d p })
      let s := ((s.setF d fThermStatusTmax t).setF d fThermStatusSensor (if fromPort then portSensor.toNat else sensor.toNat)).setF d fThermStatusPort (b2n fromPort)
      let wasHot := s.flag d fThermStatusHot
      let wasCrit := s.flag d fThermStatusCrit
      let isHot : Bool := if wasHot then decide (hot ≤ t + 48) else decide (hot ≤ t)
      let isCrit : Bool := if wasCrit then decide (crit ≤ t + 48) else decide (crit ≤ t)
      let s := (s.setHot d isHot).setCrit d isCrit
      let s := if isHot && !wasHot then { s with alert := true }.setCap d (s.getF d fPwrStatusState + 1) else s
      let s := if isCrit then ({ s with alert := s.alert || !wasCrit }.setCap d 5).setF d fPwrStatusGate 16 else s
      if isHot != wasHot || isCrit != wasCrit then s.manageNow else s)

/-- HOT_CAP_TIMER (R459): a millisecond under HOT, which lowers the cap by one state, or 10 ms without it, which raise it by one.
(DESIGN CHOICE, log entry 29.) -/
def execHotCapTimer (d : Fin 4) (s : State) : Host.Outcome State Fault Refusal :=
  .next (
    let cap := mapGet (fun _ => 0) s.pwr.caps d
    if !s.dieUp d then s
    else if s.flag d fThermStatusHot then ((s.setCap d (cap + 1)).bump d fThermThrottleCntCount 1).manageNow
    else if cap = 0 then s
    else ((s.setCap d (if s.flag d fThermStatusCrit then 5 else cap - 1)).bump d fThermThrottleCntCount 10).manageNow)

/-! ### PMBus (R455, R489) -/

/-- What one sample of a rail gives: voltage in mV, current in mA, VRM temperature in 1/16 °C; none for what was not read. -/
def Rail.sampled (r : Rail) (mv ma temp : Option Nat) : Rail := ⟨mv.getD r.mv, ma.getD r.ma, temp.getD r.temp, false⟩

/-- PMBUS_POLL (R489): the millisecond's reads that were answered, by rail in the order of R462. A rail that answers has its telemetry again.
(DEDUCED, log entry 64.) -/
def execPmbusPoll (reads : List (Fin 15 × Option Nat × Option Nat × Option Nat)) (s : State) : Host.Outcome State Fault Refusal :=
  .next (if s.leadRuns then reads.foldl (fun (s : State) r => s.setRail r.1 ((s.rail r.1).sampled r.2.1 r.2.2.1 r.2.2.2)) s else s)

/-- PMB_ALERT (R455, R489): every STATUS_WORD is read; an output fault that one reports changes nothing by itself. -/
def execPmbAlert (s : State) : Host.Outcome State Fault Refusal := .next s

/-- VRM_TELEMETRY_LOSS (R455): a VRM has not answered for 10 ms. -/
def execVrmTelemetryLoss (rail : Fin 15) (s : State) : Host.Outcome State Fault Refusal :=
  .next (if s.leadRuns then (s.setRail rail { s.rail rail with lost := true }).manageNow else s)

end Sys2Proof.Machine
end

