-- ==== Sys2Proof/Machine/Regs.lean ====
section
/-!
DEFINITION. Reads and writes of configuration registers (R9, R11 to R13): registers whose value is another part's state, fields that a read
clears, and writes that a register's own rule ignores.
-/

namespace Sys2Proof.Machine

/-! ### Registers that show another part's state -/

/-- The code of a stream's state (Table 2.11). -/
def StreamSt.code : StreamSt → Nat
  | .idle => 0 | .running => 1 | .waiting => 2 | .ended => 3 | .halted => 4

/-- SEQ_STATUS (Table 2.11). -/
def Core.statusReg (c : Core) : Nat :=
  let busy (e : Engine) : Nat := b2n (c.inflight.any (fun f => f.eng == e))
  c.crit.st.code + 16 * c.defr.st.code + 256 * b2n c.done + 512 * busy .mx + 1024 * busy .vx + 2048 * busy .dm + 4096 * busy .sy
    + 8192 * b2n (!c.crit.irloads.isEmpty || !c.defr.irloads.isEmpty)

/-- ARR_STATUS (Table 3.11). -/
def ArrayState.statusReg (a : ArrayState) : Nat :=
  (match a.st with | .full => 0 | .half => 1 | .disabled => 2) + 4 * b2n a.quar + 256 * (2 - min 2 (badCount a.bad)) + 65536 * (66 - badCount a.bad) + 2 ^ 32 * a.cleanCnt

/-- ACC_GRP_DESC (Table 4.13). -/
def Group.descReg (g : Group) : Nat :=
  g.desc.toNat + 2 ^ 32 * g.base + 2 ^ 48 * b2n g.isOpen + 2 ^ 49 * g.owner.code

/-- ACC_GRP_STAT. -/
def Group.statReg (g : Group) : Nat := min (2 ^ 32 - 1) g.ovf + 2 ^ 32 * b2n g.ufr + 2 ^ 33 * b2n g.wrap + 2 ^ 34 * b2n g.nonfin

/-- VX_STATUS. -/
def Core.vxReg (c : Core) : Nat :=
  let one (x : VCtx) : Nat := x.vl + 2 ^ 10 * x.etype + 2 ^ 14 * x.grp
  one c.vcrit + 2 ^ 32 * one c.vdefr

/-- The physical core of a core block offset (R49). -/
def blockCore (d off : Nat) : Nat := 18 * d + (off - 0x100000) / 0x10000

/-- A register of a core block: `off` within the die, `w` as in the block of PC0. (DEDUCED, log entry 23.) -/
def State.coreView (s : State) (d off base : Nat) : BitVec 64 :=
  let c := s.core (blockCore d off)
  let w := (off - 0x100000) % 0x10000
  let a := c.array ((w - 0x200) / 0x40)
  let g := (c.array ((w - 0x400) / 0x200)).group ((w - 0x400) % 0x200 / 0x10)
  let n (x : Nat) : BitVec 64 := BitVec.ofNat 64 x
  if base = oSeqStatus then n c.statusReg
  else if base = oSeqPcCrit then putFld (s.reg d off) 32 17 c.crit.cur
  else if base = oSeqPcDef then putFld (s.reg d off) 32 17 c.defr.cur
  else if base = oSeqHaltInfo then c.haltInfo
  else if base = oToken then n (packElems 16 ((span (4 * ((w - 0x100) / 8)) 4).map c.token))
  else if base = oArrStatus then n a.statusReg
  else if base = oArrBadLo then n (fld a.bad 0 64)
  else if base = oArrBadHi then n (fld a.bad 64 2)
  else if base = oArrPendLo then n (fld a.pend 0 64)
  else if base = oArrPendHi then n (fld a.pend 64 2)
  else if base = oArrCtestLo then n (fld a.ctest 0 64)
  else if base = oArrCtestHi then n (fld a.ctest 64 2 + 256 * b2n a.ctDone + 512 * b2n a.ctUnloc + 1024 * b2n a.ctRunning)
  else if base = oAccGrpDesc then n g.descReg
  else if base = oAccGrpStat then n g.statReg
  else if base = oVxStatus then n c.vxReg
  else s.reg d off

/-- An epoch table entry (Table 6.4). -/
def Region.entry (r : Region) : Nat := r.epoch % 64 + 64 * b2n r.lost + 128 * (r.cls % 4) + 512 * (r.age % 64)

/-- BERYL_WATCH_CFG of the selected slot (Table 7.15). -/
def State.watchCfg (s : State) (d : Nat) : BitVec 64 :=
  let i := s.getF d fBerylWatchSelSlot
  match (s.beryl d).slot i with
  | some w => w.cfgBits ||| BitVec.ofNat 64 (2 ^ 20 + 2 ^ 21 * b2n w.met)
  | none => mapGet (fun _ => 0) (s.beryl d).staged (2 * i)

/-- BERYL_WATCH_TGT of the selected slot. -/
def State.watchTgt (s : State) (d : Nat) : BitVec 64 :=
  let i := s.getF d fBerylWatchSelSlot
  match (s.beryl d).slot i with
  | some w => w.tgtBits
  | none => mapGet (fun _ => 0) (s.beryl d).staged (2 * i + 1)

/-- A register of a compute die outside the core blocks. (DEDUCED, log entry 23.) -/
def State.computeView (s : State) (d off base : Nat) : BitVec 64 :=
  let n (x : Nat) : BitVec 64 := BitVec.ofNat 64 x
  let v := s.reg d off
  if base = oPwrBudgetCfg then s.reg s.lead off
  else if base = oMcRegionCmdStat then putFld v 0 1 (b2n (s.regionBusy d))
  else if base = oMcRegionEntry then n (s.mem.region (s.getF d fMcRegionSelRegion)).entry
  else if base = oMcStkStatus then putFld v 0 3 (s.func (stackFunc (3 * d + (off - base) / 0x40)))
  else if base = oBerylCtrVal then n ((s.beryl d).ctr (s.getF d fBerylCtrSelIndex))
  else if base = oBerylWatchCfg then s.watchCfg d
  else if base = oBerylWatchTgt then s.watchTgt d
  else if base = oBerylArmed then n (s.beryl d).armed
  else if base = oQeCmdStat then putFld v 0 1 (b2n ((s.qe d).waiting.any (fun o => o.org == .reg)))
  else if base = oQePinStatus then n (s.pinned d)
  else if base = oFiRtEntry then n (s.route d (s.getF d fFiRtSelPlane) (s.getF d fFiRtSelDest)).toNat
  else if base = oFiFpEntry then n (mapGet (fun _ => 0) s.planes (2 ^ 18 * d + s.getF d fFiFpSelQueue))
  else if base = oErrStatus then putFld v 16 9 (s.die d).recs.length
  else if base = oD2dEdgeStatus then putFld v 0 3 (s.func (edgeFunc d ((off - base) / 0x40)))
  else v

/-- A register of a port die. (DEDUCED, log entry 23.) -/
def State.portView (s : State) (d off base : Nat) : BitVec 64 :=
  let v := s.reg d off
  let p := d - 4
  if base = oEwPortStatus then putFld v 0 3 (s.func (portFunc (6 * p + (off - base) / 0x1000)))
  else if base = oEwRtEntry then BitVec.ofNat 64 (s.route d (s.getF d fEwRtSelPlane) (s.getF d fEwRtSelDest)).toNat
  else if base = oD2dEdgeStatus then putFld v 0 3 (s.func (edgeFunc d ((off - base) / 0x40)))
  else if base = oSvcStatus then
    let net := (s.ctl.net.find? (fun (e : Nat × NetCfg) => e.1 == p)).map Prod.snd
    let v := putFld v 0 3 (s.func (svcFunc p))
    let v := putFld v 8 12 ((net.map NetCfg.vlan).getD 0)
    let v := putFld v 20 1 (b2n ((net.map (fun x => x.ip4 != 0)).getD false))
    putFld v 24 7 (s.ctl.conns.filter (fun (c : Conn) => c.peer.port == p && c.opened)).length
  else v

/-- Clear the fields of an access code. -/
def RegSpec.without (r : RegSpec) (a : Access) (v : BitVec 64) : BitVec 64 :=
  r.fields.foldl (fun (v : BitVec 64) f => if f.acc = a then putFld v f.lo f.width 0 else v) v

/-- Is a configuration space present: a running die, or package-common configuration, which the lead die holds? -/
def State.spaceUp (s : State) (d : Nat) : Bool := if d = common then s.dieUp s.lead else s.dieUp d

/-- Read a register (R9, R11, R13): its fields, reserved bits zero; none where no register answers (R50); RC fields keep their values.
(DEDUCED, log entry 22.) -/
def State.peekReg (s : State) (d off : Nat) : Option (BitVec 64) :=
  match regSpecOf d off with
  | none => none
  | some r =>
    if !s.spaceUp d then none
    else
      let v := if d = common then s.reg d off
        else if 4 ≤ d then s.portView d off r.off
        else if 0x100000 ≤ off then s.coreView d off r.off
        else s.computeView d off r.off
      some (r.keep (fun f => f.acc != .wo) v)

/-- What a read clears (R12). -/
def State.clearRc (s : State) (d off : Nat) : State :=
  match regSpecOf d off with
  | none => s
  | some r =>
    if !s.spaceUp d || !r.fields.any (fun f => f.acc == .rc) then s
    else if r.off = oArrStatus ∧ d < 4 then
      s.modCore (blockCore d off) (fun c => let j := ((off - 0x100000) % 0x10000 - 0x200) / 0x40; c.setArray j { c.array j with cleanCnt := 0 })
    else s.setReg d off (r.without .rc (s.reg d off))

/-- Read a register as a requester that clears RC fields does. -/
def State.readReg (s : State) (d off : Nat) : Option (BitVec 64) × State := (s.peekReg d off, s.clearRc d off)

/-- Several registers read in turn. -/
def State.readRegs (d : Nat) : List Nat → State → List (Option (BitVec 64)) × State
  | [], s => ([], s)
  | o :: r, s =>
    let x := s.readReg d o
    let y := State.readRegs d r x.2
    (x.1 :: y.1, y.2)

/-! ### Writes -/

/-- May the RW fields of a register be written now (the rules of each register's own table, R285, R311, R340, R367, R440, R468)? -/
def State.writable (s : State) (d off base : Nat) : Bool :=
  let live := s.anyLive
  if d = common then !(base == oOpkeyData) || s.pwr.enrol
  else if 4 ≤ d then !(base == oEwRtEntry) || !live
  else if 0x100000 ≤ off then
    let c := s.core (blockCore d off)
    if base = oSeqIrCfg ∨ base = oVxSrSeed ∨ base = oVxSrStep then !(c.crit.st.live || c.defr.st.live)
    else if base = oSeqPcCrit then !c.crit.st.live
    else if base = oSeqPcDef then !c.defr.st.live
    else true
  else if base = oFiRtEntry ∨ base = oFiFpEntry then !live
  else if base = oCeCfg then !live && s.getF d fCeStatusInflight == 0
  else if 0xE0000 ≤ off ∧ off < 0xE0070 then !live
  else if 0xE0100 ≤ off ∧ off < 0xE0168 then !live && !s.flag d fUpdStatusBusy
  else if base = oAgateSentCfg ∨ (0xC0060 ≤ off ∧ off ≤ 0xC0088) ∨ base = oRetireCfg then !live
  else if base = oBerylWatchCfg ∨ base = oBerylWatchTgt then ((s.beryl d).slot (s.getF d fBerylWatchSelSlot)).isNone
  else if base = oQeCfg then !(span 0 (2 ^ 18)).any (fun i => qEn (s.qPeek d i))
  else if base = oPwrBudgetCfg then d == s.lead
  else true

/-- Is a value taken by a field, or ignored under the field's own words? -/
def fieldTakes (d base lo v : Nat) : Bool :=
  if d = common then
    if base = oCmdCfg then (if lo = 0 then decide (1 ≤ v ∧ v ≤ 64) else if lo = 8 then v != 0 else if lo = 16 then decide (60 ≤ v) else true) else true
  else if 4 ≤ d then true
  else if base = oMcCfg then (if lo = 16 then v != 0 else decide (v ≤ 168))
  else if base = oSeqIrCfg then decide (1 ≤ v ∧ v ≤ 32)
  else if base = oMcRegionSel then decide (v ≤ 49151)
  else if base = oPwrBudgetCfg then (if lo = 12 then v == 0 || decide (450 ≤ v ∧ v ≤ 2100) else v != 0)
  else if base = oAgateSentCfg then (if lo = 1 then decide (v ≤ 8) else if lo = 8 then v % 2 == 1 else true)
  else true

/-- The limits of THERM_CFG (R461, R469). -/
def thermOk (hot crit : Nat) : Bool := decide (80 * 16 ≤ hot ∧ hot ≤ 103 * 16 ∧ 85 * 16 ≤ crit ∧ crit ≤ 105 * 16 ∧ hot + 16 ≤ crit)

/-- What a write makes of a register's stored value (R11): RW and WO fields are set, W1C bits cleared where 1 is written, the rest stays.
(DEDUCED, log entry 22.) -/
def RegSpec.merge (r : RegSpec) (d : Nat) (old v : BitVec 64) : BitVec 64 :=
  r.fields.foldl (fun (x : BitVec 64) f =>
    let n := fld v f.lo f.width
    match f.acc with
    | .rw => if fieldTakes d r.off f.lo n then putFld x f.lo f.width n else x
    | .wo => putFld x f.lo f.width n
    | .w1c => if n = 0 then x else putFld x f.lo f.width (fld old f.lo f.width &&& (2 ^ f.width - 1 - n))
    | _ => x) old

/-- The next state of a meaning, or the state itself. -/
def nextOr (s : State) : Host.Outcome State Fault Refusal → State
  | .next t => t
  | _ => s

/-- One action bit of a register. -/
def actIf (v : BitVec 64) (i : Nat) (f : State → Host.Outcome State Fault Refusal) (s : State) : State := if bit v i then nextOr s (f s) else s

/-- A write to a register that acts or that shows another part's state; none where the register is an ordinary one. (DEDUCED, log entry 23.) -/
def State.writeAct (s : State) (d off base : Nat) (v : BitVec 64) : Option State :=
  if d = common then
    if base = oOpkeyCtl then some (if bit v 0 then s.enrol else if bit v 1 then s.revoke else s) else none
  else if base = oD2dCtrl then some ((maskBits (fld v 0 4) 3).foldl (fun (s : State) e => s.retrainEdge d e) s)
  else if h : d < 4 then
    let fd : Fin 4 := ⟨d, h⟩
    let pc := blockCore d off
    let j := ((off - 0x100000) % 0x10000 - 0x200) / 0x40
    if base = oSeqCtrl then
      let s := if bit v 0 then s.goCore pc else s
      some (if bit v 1 then s.haltLive pc ((s.logicalOf pc).getD 0) else s)
    else if base = oArrCtrl then
      let s := if bit v 0 then s.arrayCtl pc j true (fun a => { a with ctRunning := true, ctDone := false }) else s
      let s := if bit v 1 then s.applyCols pc j else s
      some (if bit v 2 then s.arrayCtl pc j false (fun a => { a with st := .disabled }) else s)
    else if base = oArrPendLo then some (s.modCore pc (fun c => c.setArray j { c.array j with pend := putFld (c.array j).pend 0 64 v.toNat }))
    else if base = oArrPendHi then some (s.modCore pc (fun c => c.setArray j { c.array j with pend := putFld (c.array j).pend 64 2 v.toNat }))
    else if base = oMcRegionCmd then some (s.regionWrite d (fld v 32 3) (fld v 0 16) (fld v 16 16) (fld v 35 2))
    else if base = oBerylTaskCtrl then some (actIf v 1 (execCheck fd) (actIf v 0 (execSnap fd) s))
    else if base = oBerylCtrVal then some (nextOr s (execSet fd (BitVec.ofNat 32 v.toNat) s))
    else if base = oBerylWatchCtl then some (actIf v 1 (execRelease fd) (actIf v 0 (execArm fd) s))
    else if base = oBerylWatchCfg ∨ base = oBerylWatchTgt then
      if !s.writable d off base then none
      else
        let b := s.beryl d
        let k := 2 * s.getF d fBerylWatchSelSlot + b2n (base == oBerylWatchTgt)
        let x : BitVec 64 := if base = oBerylWatchCfg then v &&& 0xFFFFFFFF0007FFFF#64 else v &&& 0x3FFFFF03#64
        some (s.setBeryl d { b with staged := mapSet (fun _ => 0) b.staged k x })
    else if base = oQeCmd then some (actIf v 2 (execClearErr fd) (actIf v 1 (execCommit fd) (actIf v 0 (execLoad fd) s)))
    else if base = oQeDoorbell then some (nextOr s (execQeDoorbell fd (BitVec.ofNat 18 (fld v 0 18)) (BitVec.ofNat 16 (fld v 32 16)) s))
    else if base = oFiRtEntry ∧ s.writable d off base = true then
      some { s with routes := mapSet (fun _ => 0) s.routes (d * 2 ^ 14 + s.getF d fFiRtSelPlane * 2 ^ 12 + s.getF d fFiRtSelDest) (BitVec.ofNat 16 (fld v 0 13)) }
    else if base = oFiFpEntry ∧ s.writable d off base = true then
      some { s with planes := mapSet (fun _ => 0) s.planes (2 ^ 18 * d + s.getF d fFiFpSelQueue) (fld v 0 2) }
    else none
  else if base = oEwRtEntry ∧ s.writable d off base = true then
    some { s with routes := mapSet (fun _ => 0) s.routes (d * 2 ^ 14 + s.getF d fEwRtSelPlane * 2 ^ 12 + s.getF d fEwRtSelDest) (BitVec.ofNat 16 (fld v 0 13)) }
  else none

/-- Registers that hold no value of their own. (DEDUCED, log entry 23.) -/
def viewOnly (d base : Nat) : Bool :=
  (decide (d < 4) && (base == oFiRtEntry || base == oFiFpEntry || base == oBerylWatchCfg || base == oBerylWatchTgt)) || (decide (d = 4 ∨ d = 5) && base == oEwRtEntry)

/-- Write a register (R13): none where no register takes the write, or its own rule ignores it. (DEDUCED, log entry 22.) -/
def State.writeReg? (s : State) (d off : Nat) (v : BitVec 64) : Option State :=
  match regSpecOf d off with
  | none => none
  | some r =>
    if !s.spaceUp d then none
    else match s.writeAct d off r.off v with
      | some s => some s
      | none =>
        if viewOnly d r.off then none
        else if !r.fields.any (fun f => f.acc == .rw || f.acc == .wo || f.acc == .w1c) then none
        else if !s.writable d off r.off then none
        else if d < 4 ∧ r.off = oThermCfg ∧ thermOk (fld v 0 12) (fld v 16 12) = false then none
        else
          let t := s.setReg d off (r.merge d (s.reg d off) v)
          some (if d < 4 ∧ r.off = oPwrBudgetCfg then t.manageNow else t)

/-- Write a register, leaving the state as it is where the write is ignored. -/
def State.writeReg (s : State) (d off : Nat) (v : BitVec 64) : State := (s.writeReg? d off v).getD s

/-- Would part of a write of a register's RW fields be ignored under a field's own words (R409)? -/
def fieldIgnored (d off : Nat) (v mask : BitVec 64) : Bool :=
  match regSpecOf d off with
  | none => true
  | some r => r.fields.any (fun f => f.acc == .rw && fld mask f.lo f.width != 0 && !fieldTakes d r.off f.lo (fld v f.lo f.width))

/-- The local address of a register (Table 1.16). -/
def cfgAddr (d off : Nat) : Nat := if d = common then 0x01F800000000 + off else 0x01F000000000 + 0x1000000 * d + off

/-- The die and offset of a local address in configuration space. -/
def cfgOf (a : Nat) : Option (Nat × Nat) :=
  if 0x01F000000000 ≤ a ∧ a < 0x01F000000000 + 6 * 0x1000000 then some ((a - 0x01F000000000) / 0x1000000, a % 0x1000000)
  else if 0x01F800000000 ≤ a ∧ a < 0x01F801000000 then some (common, a % 0x1000000)
  else none

/-! ### Port die registers over the CFG class (R372, R384) -/

/-- The tag of the next CFG access to a port die: the lowest that no access waits under. -/
def State.cfgTag (s : State) (pd : Nat) : Option Nat :=
  (span 0 256).find? (fun k => !s.cfgOuts.any (fun (c : Nat × Nat × Nat) => c.1 == pd && c.2.1 == k))

/-- Send a CFG access from the lead die to a port die's register, by the compute die that hands traffic to it (R372, R377); without a way, or with every
tag in use, the access completes with error (R50). (DESIGN CHOICE, log entry 69.) -/
def State.cfgSend (s : State) (pd a : Nat) (b : Nat → MsgBody) : State :=
  match s.gateTo s.lead pd, s.cfgTag pd with
  | some g, some k => { s with cfgOuts := s.cfgOuts ++ [(pd, k, a)] }.edgeSend g 2 s.lead pd (b k)
  | _, _ => (s.clusterFailed a).send (.readAnswer a none)

/-- RC_READ (R11, R12): a read of a register returns its fields and clears those of access RC; one that no register answers completes with
error (R50). A port die's registers are read over CFG messages (R372). -/
def execRcRead (space : Fin 7) (off : BitVec 24) (s : State) : Host.Outcome State Fault Refusal :=
  .next (
    let a := cfgAddr space off.toNat
    if space.val = 4 ∨ space.val = 5 then s.cfgSend space a (fun k => .cfgRd k off.toNat)
    else
      let r := s.readReg space off.toNat
      (if r.1.isNone then r.2.clusterFailed a else r.2).send (.readAnswer a (r.1.map BitVec.toNat)))

/-- REGISTER_WRITE (R11, R13): a write by a cluster; one that no register answers completes with error (R50). A port die's registers are
written over CFG messages (R372). -/
def execRegisterWrite (space : Fin 7) (off : BitVec 24) (v : BitVec 64) (s : State) : Host.Outcome State Fault Refusal :=
  .next (
    let a := cfgAddr space off.toNat
    if space.val = 4 ∨ space.val = 5 then s.cfgSend space a (fun k => .cfgWr k off.toNat v.toNat)
    else if (s.peekReg space off.toNat).isNone then (s.clusterFailed a).send (.readAnswer a none) else s.writeReg space off.toNat v)

/-- Which registers a restricted port die lets CFG messages reach: identity and die-to-die blocks. -/
def cfgAllowed (restricted : Bool) (off : Nat) : Bool := !restricted || decide (off < 0x10000) || decide (0x40000 ≤ off ∧ off < 0x50000)

/-- The first message that awaits its action at a die, of those that `p` picks, and the messages without it. -/
def State.msgAt (s : State) (d : Nat) (p : MsgBody → Bool) : Option (DieMsg × List DieMsg) := takeFirst (fun m => m.at_ / 4 == d && p m.body) s.msgs

/-- A port die answers a CFG access over the edge by which it came. -/
def State.cfgAnswer (s : State) (m : DieMsg) (tag : Nat) (v : Option Nat) : State :=
  s.edgeSend (m.at_ / 4) (m.at_ % 4) m.dst m.src (.cfgRsp tag v.isNone (v.getD 0))

/-- CFG_RD (R372): a port die reads one of its registers and answers. -/
def execCfgRd (pd : Fin 2) (s : State) : Host.Outcome State Fault Refusal :=
  .next (
    let d := 4 + pd.val
    match s.msgAt d (fun b => match b with | .cfgRd _ _ => true | _ => false) with
    | some (m, r) => (match m.body with
      | .cfgRd tag off =>
        if !s.dieUp d then s
        else
          let s := s.msgGone m r
          let x : Option (BitVec 64) × State := if cfgAllowed (!s.flag d fD2dAdmitAdmitted) off then s.readReg d off else (none, s)
          x.2.cfgAnswer m tag (x.1.map BitVec.toNat)
      | _ => s)
    | none => s)

/-- CFG_WR (R372): a port die writes one of its registers and answers; a port die that is not admitted answers ERROR (R384). -/
def execCfgWr (pd : Fin 2) (s : State) : Host.Outcome State Fault Refusal :=
  .next (
    let d := 4 + pd.val
    match s.msgAt d (fun b => match b with | .cfgWr _ _ _ => true | _ => false) with
    | some (m, r) => (match m.body with
      | .cfgWr tag off v =>
        if !s.dieUp d then s
        else
          let s := s.msgGone m r
          if !s.flag d fD2dAdmitAdmitted || (regSpecOf d off).isNone then s.cfgAnswer m tag none
          else (s.writeReg d off (BitVec.ofNat 64 v)).cfgAnswer m tag (some 0)
      | _ => s)
    | none => s)

/-- CFG_RSP (R372): a compute die receives the result of an access, which is the requester's answer; an error is the requester's to record (R50). -/
def execCfgRsp (d : Fin 4) (s : State) : Host.Outcome State Fault Refusal :=
  .next (match s.msgAt d (fun b => match b with | .cfgRsp _ _ _ => true | _ => false) with
    | some (m, r) => (match m.body with
      | .cfgRsp tag err v =>
        if !s.dieUp d then s
        else
          let s := s.msgGone m r
          (match s.cfgOuts.find? (fun (c : Nat × Nat × Nat) => c.1 == m.src && c.2.1 == tag) with
          | some c =>
            let s := { s with cfgOuts := s.cfgOuts.filter (fun (x : Nat × Nat × Nat) => x != c) }
            (if err then s.clusterFailed c.2.2 else s).send (.readAnswer c.2.2 (if err then none else some v))
          | none => s)
      | _ => s)
    | none => s)

end Sys2Proof.Machine
end

