-- ==== Sys2Proof/Machine/Session.lean ====
section
/-!
DEFINITION. Commands of the identity, session and configuration groups (Table 13.7): what identifies the package (R408, R438), challenges and sessions (R403 to
R407), configuration registers (R409), network settings and telemetry settings (R416).
-/

namespace Sys2Proof.Machine

/-! ### Identity -/

/-- The part number (Table 13.7). -/
def partNumber : List Byte := [0x5A, 0x43, 0x44, 0x2D, 0x34, 0x38, 0x31, 0x32] ++ leBytes 0 8

/-- A register as 8 bytes; zero where its space is absent. -/
def State.regBytes (s : State) (d off : Nat) : List Byte := leBytes (((s.peekReg d off).map BitVec.toNat).getD 0) 8

/-- GET_IDENTITY. (DESIGN CHOICE, log entry 68.) -/
def execGetIdentity (s : State) : Host.Outcome State Fault Refusal :=
  .next (s.serve 0x0101 (fun c _ s =>
    let dies := span 0 6
    s.replyOk c (partNumber ++ leBytes s.serial 8 ++ dies.flatMap (fun d => s.regBytes d oDieInfo) ++ s.regBytes common oPkgShape ++ s.regBytes common oPkgCoreMask
      ++ dies.flatMap (fun d => leBytes (s.getF d fFwVersionVersion) 4))))

/-- The certificate of a die in 160 bytes; zeros for a die that is absent (Table 14.6). (DESIGN CHOICE, log entry 68.) -/
def State.certBytes (s : State) (d : Nat) : List Byte := ((if s.dieUp d then (s.die d).cert else []) ++ leBytes 0 160).take 160

/-- GET_CERTS. -/
def execGetCerts (s : State) : Host.Outcome State Fault Refusal :=
  .next (s.serve 0x0102 (fun c _ s => s.replyOk c (((s.flash.asm ++ leBytes 0 416).take 416) ++ (span 0 6).flatMap s.certBytes)))

/-- A 64-byte digest of bytes. (DESIGN CHOICE, log entry 10.) -/
def hashBytes (bs : List Byte) : List Byte := leBytes (Config.sha512 bs).toNat 64

/-- The public key of an operator slot in 32 bytes, zeros for an empty slot. -/
def Flash.keyBytes (f : Flash) (slot : Nat) : List Byte := leBytes (((f.opKey slot).map BitVec.toNat).getD 0) 32

/-- FW_MEAS of a die (R438); zero without firmware. -/
def State.measBytes (s : State) (d : Nat) : List Byte :=
  if s.dieUp d && s.getF d fBootStatusStage == 4 then (span 0 8).flatMap (fun k => leBytes (s.reg d (oFwMeas + 8 * k)).toNat 8) else leBytes 0 64

/-- Bytes 0 to 767 of the attestation report (Table 14.8). -/
def State.report (s : State) (nonce : List Byte) : List Byte :=
  let l := s.lead
  let flags := s.getF l fBootStatusAsmOk + 2 * s.getF l fBootStatusCalValid + 4 * b2n (s.flag l fBootStatusCalValid && leAt s.flash.cal 5 1 == 0) + 8 * b2n s.ctl.image.isSome
    + 16 * s.getF l fBootStatusFallback + 32 * b2n s.pwr.enrol + 64 * b2n s.job.running
  let time := if s.flag l fFiTimeStatLocked then s.reg l oFiTime else s.reg l oDieTimebase
  let head := leBytes 0x5441435A 4 ++ leBytes 1 1 ++ leBytes flags 1 ++ leBytes 0 2 ++ leBytes s.serial 8 ++ leBytes (s.reg common oPkgId).toNat 2
    ++ leBytes (s.getF l fFuseStateSvn) 1 ++ leBytes 0 1 ++ leBytes (s.getF l fFwVersionVersion) 4 ++ leBytes time.toNat 8 ++ nonce ++ hashBytes s.flash.asm
  head ++ (span 0 6).flatMap s.measBytes ++ (match s.ctl.image with | some bs => hashBytes bs | none => leBytes 0 64) ++ hashBytes s.flash.cal
    ++ hashBytes ((span 0 8).flatMap s.flash.keyBytes) ++ leBytes 0 64

/-- ATTEST (R438). -/
def execAttest (s : State) : Host.Outcome State Fault Refusal :=
  .next (s.serve 0x0103 (fun c b s =>
    let r := s.report b
    s.replyOk c (r ++ leBytes (Config.ed25519Sign 0 r).toNat 64)))

/-- GET_KEYS. -/
def execGetKeys (s : State) : Host.Outcome State Fault Refusal :=
  .next (s.serve 0x0104 (fun c _ s =>
    s.replyOk c ((span 0 8).flatMap (fun k => match s.flash.opKey k with
      | some _ => leBytes 1 1 ++ (hashBytes (s.flash.keyBytes k)).take 32
      | none => leBytes 0 33))))

/-! ### Sessions (R403 to R407) -/

/-- SESSION_CHALLENGE (R403): a one-use challenge; a 33rd discards the oldest. (DESIGN CHOICE, log entry 11.) -/
def execSessionChallenge (s : State) : Host.Outcome State Fault Refusal :=
  .next (s.serve 0x0201 (fun c _ s =>
    let k := s.draw
    let nonce : BitVec 256 := (Config.random k.1).truncate 256
    let id := s.ctl.nextChal
    let l := s.ctl.challenges ++ [(id, nonce)]
    (k.2.modCtl (fun x => { x with challenges := l.drop (l.length - 32), nextChal := id + 1 })).replyOk c (leBytes id 4 ++ leBytes 0 4 ++ leBytes nonce.toNat 32)))

/-- CHALLENGE_EXPIRY (R403): 10 s after issue. -/
def execChallengeExpiry (id : BitVec 32) (s : State) : Host.Outcome State Fault Refusal :=
  .next (s.modCtl (fun x => { x with challenges := x.challenges.filter (fun e => e.1 != id.toNat) }))

/-- The message that SESSION_OPEN signs (R404). -/
def State.openMsg (s : State) (nonce : BitVec 256) (key id : Nat) : List Byte :=
  leBytes nonce.toNat 32 ++ hashBytes s.flash.asm ++ leBytes key 1 ++ leBytes id 4

/-- Does the signature of a SESSION_OPEN verify by the slot's key? -/
def State.openOk (s : State) (nonce : BitVec 256) (key id : Nat) (sig : BitVec 512) : Bool :=
  match s.flash.opKey key with
  | some k => Config.ed25519Ok k (s.openMsg nonce key id) sig
  | none => false

/-- A session opens (R404): the reply reports the credits of the new session. (DEDUCED, log entry 53.) -/
def State.openSession (s : State) (c : Cmd) (key : Nat) : State :=
  let k := s.draw
  let nonce : BitVec 256 := (Config.random k.1).truncate 256
  let id := s.ctl.nextSess
  let limit := s.getF common fCmdCfgSessCredits
  let x : Session := ⟨id, key, nonce, 0, [], 0, limit, c.conn⟩
  let body := leBytes id 4 ++ leBytes (s.getF common fCmdCfgIdleS) 2 ++ leBytes 0 2 ++ leBytes nonce.toNat 32 ++ leBytes 0 32
  let s := ((k.2.modCtl (fun y => { y with sessions := y.sessions ++ [x], nextSess := id + 1 })).showCtl).giveCredit c
  let s := s.modSession c.session (fun y => y.remember c.seq 0 body)
  s.sendMsg (s.replyConn c) (replyBytes c.head true 0 0 limit 0 body)

/-- SESSION_OPEN (R404). -/
def execSessionOpen (s : State) : Host.Outcome State Fault Refusal :=
  .next (s.serve 0x0202 (fun c b s =>
    let id := leAt b 0 4
    let key := leAt b 4 1
    if leAt b 5 3 ≠ 0 then s.refuse c 0x100 37
    else if key > 7 then s.refuse c 0x107 36
    else
      let s' := s.modCtl (fun x => { x with challenges := x.challenges.filter (fun e => e.1 != id) })
      match s.ctl.challenges.find? (fun (e : Nat × BitVec 256) => e.1 == id) with
      | none => s.refuse c 0x103 0
      | some e =>
        if !s.openOk e.2 key id (BitVec.ofNat 512 (leAt b 8 64)) then s'.refuse c 0x103 0
        else if s.ctl.sessions.length ≥ 16 then s'.refuse c 0x106 0
        else s'.openSession c key))

/-- SESSION_CLOSE (R407). -/
def execSessionClose (s : State) : Host.Outcome State Fault Refusal :=
  .next (s.serve 0x0203 (fun c _ s => (s.replyOk c []).closeSession c.session))

/-- SESSION_IDLE_TIMEOUT (R407). -/
def execSessionIdleTimeout (id : BitVec 32) (s : State) : Host.Outcome State Fault Refusal := .next (s.closeSession id.toNat)

/-- SESSION_INFO. -/
def execSessionInfo (s : State) : Host.Outcome State Fault Refusal :=
  .next (s.serve 0x0204 (fun c _ s =>
    s.replyOk c (s.ctl.sessions.flatMap (fun (x : Session) => leBytes x.id 4 ++ leBytes x.key 1 ++ leBytes x.used 1 ++ leBytes x.high 8))))

/-! ### Configuration (R409) -/

/-- CONFIG_READ: consecutive registers; one that nothing answers for completes with error, which the cluster reports (R50).
(DEDUCED, log entry 55.) -/
def execConfigRead (s : State) : Host.Outcome State Fault Refusal :=
  .next (s.serve 0x0301 (fun c b s =>
    let a := leAt b 0 8
    let n := leAt b 8 2
    let offs := (span 0 n).map (fun k => 8 * k)
    if a % 8 ≠ 0 ∨ (cfgOf a).isNone = true then s.refuse c 0x107 32
    else if n = 0 ∨ 64 < n then s.refuse c 0x107 40
    else if offs.any (fun k => (cfgOf (a + k)).isNone) then s.refuse c 0x107 32
    else match cfgOf a with
      | none => s.refuse c 0x107 32
      | some (d, off) =>
        let hidden : Bool := (d == 4 || d == 5) && !s.flag d fD2dAdmitAdmitted
        let bad := offs.find? (fun k => (s.peekReg d (off + k)).isNone || (hidden && !cfgAllowed true (off + k)))
        match bad with
        | some k =>
          let cause := (Config.recordArg 0 4 [a + k]).toNat % 65536
          (s.clusterFailed (a + k)).refuse c 0x200 cause
        | none =>
          let r := State.readRegs d (offs.map (fun k => off + k)) s
          r.2.replyOk c (r.1.flatMap (fun v => leBytes ((v.map BitVec.toNat).getD 0) 8))))

/-- May CONFIG_WRITE write this register during a job (R409)? (DEDUCED, log entry 22.) -/
def jobWritable (d off : Nat) (mask : BitVec 64) : Bool :=
  if d < 4 then
    decide (0x10000 ≤ off ∧ off < 0x20000) || off == oMcCfg
      || (off == oErrCfg && mask &&& ~~~(BitVec.ofNat 64 ((2 ^ fErrCfgAlertMin.width - 1) * 2 ^ fErrCfgAlertMin.lo)) == 0)
  else match regSpecOf d off with
    | some r => (d == 4 || d == 5) && r.off == oEwPortCfg
    | none => false

/-- Is an offset one of the OPKEY registers (Table 14.16)? -/
def opkeyReg (d off : Nat) : Bool := d == common && decide (0x2000 ≤ off ∧ off ≤ 0x2038)

/-- Would a value written to BERYL_CTR_VAL be refused (Table 7.1)? -/
def State.ctrValStuck (s : State) (d off : Nat) (v : BitVec 64) : Bool :=
  decide (d < 4) && off == oBerylCtrVal && (!s.berylUp d || decide (ctrMax < fld v 0 32))

/-- CONFIG_WRITE (R409): (old & ~mask) | (value & mask) in one register write; a write that the register's own rule would ignore is
STATE_CONFLICT. (DEDUCED, log entries 22 and 55.) -/
def execConfigWrite (s : State) : Host.Outcome State Fault Refusal :=
  .next (s.serve 0x0302 (fun c b s =>
    let a := leAt b 0 8
    let v : BitVec 64 := BitVec.ofNat 64 (leAt b 8 8)
    let mask : BitVec 64 := BitVec.ofNat 64 (leAt b 16 8)
    match cfgOf a with
    | none => s.refuse c 0x107 32
    | some (d, off) =>
      if a % 8 ≠ 0 then s.refuse c 0x107 32
      else if (d == 4 || d == 5) && s.dieUp d && !s.flag d fD2dAdmitAdmitted then s.refuse c 0x104 0
      else if opkeyReg d off then s.refuse c 0x105 0
      else if s.job.running && !jobWritable d off mask then s.refuse c 0x105 0
      else match s.peekReg d off, regSpecOf d off with
        | some old, some r =>
          let new := (old &&& ~~~mask) ||| (v &&& mask)
          if !r.fields.any (fun f => f.acc == .rw) || fieldIgnored d off new mask || s.ctrValStuck d off new then s.refuse c 0x105 0
          else match s.writeReg? d off new with
            | some s => s.replyOk c []
            | none => s.refuse c 0x105 0
        | _, _ =>
          let cause := (Config.recordArg 0 4 [d, off]).toNat % 65536
          (s.raise s.lead ⟨.contained, cause, 0x0A, s.lead, a, 0, 0, 0⟩).refuse c 0x200 cause))

/-- Neighbour solicitation for an address of a port's own (Table 16.5): duplicate address detection. -/
def State.dad (s : State) (p ip : Nat) : State :=
  if ip = 0 then s
  else s.icmp6Out p (0x3333FF000000 + ip % 2 ^ 24) 0 (0xFF02 * 2 ^ 112 + 0x1FF000000 + ip % 2 ^ 24) 135 (beBytes 0 4 ++ beBytes ip 16)

/-- SET_NETWORK: the reply goes out before the change, which resets every connection on the port with reason 6. (DEDUCED, log entry 56.) -/
def execSetNetwork (s : State) : Host.Outcome State Fault Refusal :=
  .next (s.serve 0x0303 (fun c b s =>
    let p := leAt b 0 1
    if p > 1 then s.refuse c 0x107 32
    else if leAt b 1 2 > 4095 then s.refuse c 0x107 33
    else if leAt b 19 1 > 128 then s.refuse c 0x107 51
    else if s.func (svcFunc p) < 2 then s.refuse c 0x104 0
    else if s.func (svcFunc p) = 5 then s.refuse c 0x200 (failCause (svcFunc p))
    else
      let net : NetCfg := ⟨leAt b 1 2, beAt b 3 16, leAt b 19 1, leAt b 20 4, leAt b 24 4, leAt b 28 4, none⟩
      let s := (s.replyOk c []).setF common fCmdCfgCstPort (leAt b 32 2)
      ((s.modCtl (fun x => { x with net := mapSet (fun _ => NetCfg.mk 0 0 0 0 0 0 none) x.net p net })).resetConnsOn p 6).dad p net.ip6))

/-- SET_TELEMETRY (R416): kinds 0 to 4 have a bit each. (DEDUCED, log entry 56.) -/
def execSetTelemetry (s : State) : Host.Outcome State Fault Refusal :=
  .next (s.serve 0x0304 (fun c b s =>
    let n := leAt b 0 4
    let mask := leAt b 4 4
    if mask ≥ 32 then s.refuse c 0x100 36
    else if n > 60000 then s.refuse c 0x107 32
    else (s.modCtl (fun x => { x with telInterval := n, telMask := mask })).replyOk c []))

end Sys2Proof.Machine
end

