-- ==== Sys2Proof/Machine/Jobs.lean ====
section
/-!
DEFINITION. Commands of the schedule and job group, the stored-checkpoint command, and the domain commands (Table 13.7): R273, R329, R330, R338, R410, R411, R422,
R439, R466.
-/

namespace Sys2Proof.Machine

/-! ### Loads -/

/-- A load of `use` from an INGEST connection (R420, R439): IN_PROGRESS; an empty one is complete at once. `most` is the longest it may be.
(DEDUCED, log entry 57.) -/
def State.startLoad (s : State) (c : Cmd) (b : List Byte) (use : StreamUse) (most : Nat) : State :=
  let id := leAt b 0 4
  let n := leAt b 4 8
  if (match s.conn id with | some x => x.kind != 2 | none => true) then s.refuse c 0x107 32
  else if n > most then s.refuse c 0x107 36
  else if !s.freeIngest id then s.refuse c 0x105 0
  else
    let r := s.bind id true use 0 n 0 0
    let s := r.2.progress c 2 (.stream r.1)
    if n = 0 then (match s.bulk r.1 with | some x => s.bulkDone x | none => s) else s

/-- LOAD_IMAGE (R439). -/
def execLoadImage (s : State) : Host.Outcome State Fault Refusal :=
  .next (s.serve 0x0401 (fun c b s => if s.job.running then s.refuse c 0x105 0 else s.startLoad c b .image stackBytes))

/-- Is a layout's installation pending or under way (R330)? -/
def State.layoutBusy (s : State) : Bool := s.flag s.lead fLayoutStatusPending || s.flag s.lead fLayoutStatusMigrating

/-- LOAD_LAYOUT (R329, R330). -/
def execLoadLayout (s : State) : Host.Outcome State Fault Refusal :=
  .next (s.serve 0x0405 (fun c b s => if s.layoutBusy then s.refuse c 0x105 0 else s.startLoad c b .layout stackBytes))

/-! ### What a job uses (R466) -/

/-- The functions that every job uses: stacks, edges, good cores and the units of each compute die. -/
def State.jobFuncs (s : State) : List Nat :=
  let edges (d n : Nat) : List Nat := (span 0 n).map (edgeFunc d)
  (span 0 12).map stackFunc ++ (span 0 4).flatMap (fun d => edges d 3 ++ (s.die d).goodCores.map (funcId 2 d) ++ [5, 6, 7, 8].map (fun k => funcId k d 0))
    ++ edges 4 2 ++ edges 5 2

/-- The Ewerlink ports that route entries name. -/
def namedPorts (l : List (BitVec 16)) : List Nat :=
  (span 0 12).filter (fun p => l.any (fun e => nextOf e == .port p))

/-- The functions of the ports that the route tables of an image name. -/
def imagePorts (t : ImageTables) : List Nat := (namedPorts (t.routes.map Prod.snd)).map portFunc

/-! ### JOB_START (R410) -/

/-- The value that an image gives a register, or the one it has. -/
def State.imageReg (s : State) (t : ImageTables) (d off : Nat) : BitVec 64 :=
  match (t.regs.filter (fun e => e.1 == regKey d off)).getLast? with
  | some e => imageValue d off (s.reg d off) e.2
  | none => s.reg d off

/-- Is any part that every job needs missing (R380, R430)? (DEDUCED, log entry 54.) -/
def State.jobParts (s : State) : Bool :=
  (span 0 6).all (fun d => s.dieUp d && s.getF d fBootStatusStage == 4) && (span 0 4).all (fun d => (s.die d).nstacks == 3)

/-- Does the image fit the package's shape (R43)? (DEDUCED, log entry 54.) -/
def State.shapeFits (s : State) (t : ImageTables) : Bool :=
  if t.classB then t.cores &&& ~~~(s.reg common oPkgCoreMask) == 0 else s.getF common fPkgShapeClass == 0

/-- Are the step registers that an image gives a die in range (R311)? (DEDUCED, log entry 54.) -/
def State.stepOk (s : State) (t : ImageTables) (d : Nat) : Bool :=
  let e := signed 8 (fld (s.imageReg t d oStepLscale) 0 8)
  let cfg := s.imageReg t d oStepLscfg
  let lo := signed 8 (fld cfg 0 8)
  let hi := signed 8 (fld cfg 8 8)
  let clip := fld (s.imageReg t d oStepLimits) 0 32
  let param := (s.imageReg t d oStepParamAddr).toNat
  let vrec := (s.imageReg t d oStepVrecAddr).toNat
  let user (r : Nat) : Bool := decide (r < nRegions) && (s.mem.region r).cls == 0
  [e, lo, hi].all (fun x => decide (-100 ≤ x ∧ x ≤ 100)) && decide (lo ≤ e ∧ e ≤ hi) && decide (clip < 2 ^ 31) && (ofF32 clip).isFin
    && user (param / 0x1000000) && vrec % 0x1000000 == 0 && user (vrec / 0x1000000)

/-- Do the values and the rule programs of an image pass R311 and R315 on every die, with the regions' classes as it gives them?
(DEDUCED, log entry 54.) -/
def State.imageFits (s : State) (t : ImageTables) : Bool :=
  let s := s.setClasses t
  (span 0 4).all (fun d => s.stepOk t d && s.progOk d (s.imageReg t d oUpdProg) (s.imageReg t d oUpdIring) (s.imageReg t d oParCfg))

/-- Queues of a die whose entry in the state table has ERR set. -/
def State.stoppedQueues (s : State) (d : Nat) : List Nat :=
  let base := s.qstAddr d 0
  let cells := s.mem.data.filter (fun e => decide (base ≤ e.1 ∧ e.1 < base + 2 ^ 23 ∧ (e.1 - base) % 32 = 7) && bit e.2 0)
  cells.map (fun e => (e.1 - base) / 32) ++ ((s.qe d).cache.filter (fun (e : Nat × Option QLine) => match e.2 with | some l => qErr l.v | none => false)).map Prod.fst

/-- ERR of every queue of a die is cleared (R240). -/
def State.clearQueueErrs (s : State) (d : Nat) : State :=
  (s.stoppedQueues d).foldl (fun (s : State) i => s.qPut d i (putFld (s.qPeek d i) 56 1 0)) s

/-- The tables, programs and registers of the loaded image take effect, and what an earlier job left is cleared; STEP_SKIP counts
from the start of the job (Table 9.12). (DESIGN CHOICE, log entry 13; DEDUCED, log entry 54.) -/
def State.loadJob (s : State) (t : ImageTables) : State :=
  let s := ((span 0 4).foldl (fun (s : State) d => (s.clearQueueErrs d).setReg d oStepSkip 0) s.stopRules).loadTables t
  let s := ((s.setAll fCeStatusNext 0).setAll fCeStatusHalted 0).modCtl (fun x => { x with installed := none, reading := false })
  let s := (span 0 4).foldl (fun (s : State) d => ((s.setReg d oStepResult 0).setReg d oStepPost 0).setRuns d []) s
  { s with collSent := [], upds := [], wins := [], bounds := [] }

/-- The job starts as if the COMMIT phase of the step before had ended (R410). -/
def State.startJob (s : State) (c : Cmd) : State :=
  let j : Job := { Job.none with running := true, starting := true, phase := 4, ended := true }
  (({ s with job := j }).progress c 2 .jobStart).tryPass

/-- JOB_START (R410, R43, R311, R312, R315, R380, R466): the image's bytes, its rule programs among them, are placed in stack memory and checked there; one
that does not fit leaves everything as it was. (DEDUCED, log entry 54.) -/
def execJobStart (s : State) : Host.Outcome State Fault Refusal :=
  .next (s.serve 0x0402 (fun c b s =>
    let mode := leAt b 0 1
    if leAt b 1 7 ≠ 0 then s.refuse c 0x100 33
    else if mode > 2 then s.refuse c 0x107 32
    else if !s.jobParts then s.refuse c 0x200 ((Config.recordArg 0 6 []).toNat % 65536)
    else if s.job.running || !s.idValid then s.refuse c 0x105 0
    else match s.ctl.image with
      | none => s.refuse c 0x105 0
      | some bs =>
        let t := Config.imageOf bs
        if Config.sha512 bs ≠ BitVec.ofNat 512 (leAt b 8 64) then s.refuse c 0x105 0
        else if mode = 1 ∧ s.flag s.lead fParStatusValid = false then s.refuse c 0x105 0
        else if !(s.jobFuncs ++ imagePorts t).all s.funcUp then s.refuse c 0x105 0
        else if !s.shapeFits t then s.refuse c 0x108 0
        else match (s.setClasses t).writeRun s.jas t.base bs with
          | (false, p) => p.refuse c 0x200 0x0011
          | (true, p) =>
            if !p.imageFits t then s.refuse c 0x107 0
            else
              let r := p.loadJob t
              if mode = 0 then r.startJob c
              else match r.readRun (.jasper 0) (r.headerAddr 0) 128 with
                | (none, r) => r.refuse c 0x200 0x0011
                | (some h, r) => ((span 0 4).foldl (fun (s : State) d => s.reload h false d) r).startJob c))

/-! ### JOB_STOP, JOB_STATUS -/

/-- JOB_STOP (R411). -/
def execJobStop (s : State) : Host.Outcome State Fault Refusal :=
  .next (s.serve 0x0403 (fun c b s =>
    let step := leAt b 0 8
    let mode := leAt b 8 1
    if mode > 1 then s.refuse c 0x107 40
    else if !s.job.running then s.refuse c 0x105 0
    else if mode = 0 ∧ step < (s.reg s.lead oStepIndex).toNat then s.refuse c 0x107 32
    else
      let s := s.progress c 2 .jobStop
      if mode = 0 then { s with job := { s.job with stopAt := some step } }
      else s.abortJob ((Config.recordArg 0 5 []).toNat % 65536)))

/-- Job state (Table 13.7): 0 idle, 1 starting, 2 running, 3 stopping. -/
def Job.code (j : Job) : Nat := if !j.running then 0 else if j.stopAt.isSome then 3 else if j.starting then 1 else 2

/-- JOB_STATUS. -/
def execJobStatus (s : State) : Host.Outcome State Fault Refusal :=
  .next (s.serve 0x0404 (fun c _ s =>
    s.replyOk c (leBytes s.job.code 1 ++ leBytes s.job.phase 1
      ++ [oStepIndex, oStepResult, oStepSkip, oParStatus, oLayoutStatus].flatMap (fun o => leBytes (s.reg s.lead o).toNat 8))))

/-! ### LAYOUT_COMMIT, CKPT_CONFIG -/

/-- LAYOUT_COMMIT (R329, R330); LAYOUT_STATUS shows the low 40 bits of its step (Table 10.9). -/
def execLayoutCommit (s : State) : Host.Outcome State Fault Refusal :=
  .next (s.serve 0x0406 (fun c b s =>
    let step := leAt b 0 8
    if s.layoutBusy || s.ctl.layout.isNone || decide (step < (s.reg s.lead oStepIndex).toNat) then s.refuse c 0x105 0
    else (((s.setAll fLayoutStatusPending 1).setAll fLayoutStatusApplyStep step).modCtl (fun x => { x with applyStep := step })).progress c 2 .layoutCommit))

/-- CKPT_CONFIG (R336, R422): the period must be a multiple of K. (DEDUCED, log entry 48.) -/
def execCkptConfig (s : State) : Host.Outcome State Fault Refusal :=
  .next (s.serve 0x0506 (fun c b s =>
    let period := leAt b 0 4
    let id := leAt b 4 4
    if period ≠ 0 ∧ period % s.getF s.lead fAgateDigCfgK ≠ 0 then s.refuse c 0x107 32
    else if period ≠ 0 ∧ (match s.conn id with | some x => x.kind != 3 | none => true) = true then s.refuse c 0x107 36
    else (s.modCtl (fun x => { x with ckptPeriod := period, ckptConn := id })).replyOk c []))

/-! ### Domain and fabric -/

/-- DOMAIN_JOIN (R271, R273). (DEDUCED, log entry 67.) -/
def execDomainJoin (s : State) : Host.Outcome State Fault Refusal :=
  .next (s.serve 0x0A01 (fun c b s =>
    let id := leAt b 0 2
    let root := leAt b 2 1
    let up := leAt b 3 1
    if id > 4095 then s.refuse c 0x107 32
    else if root > 1 then s.refuse c 0x107 34
    else if up > 11 then s.refuse c 0x107 35
    else if s.idValid || s.job.running then s.refuse c 0x105 0
    else
      let s := (s.setF common fPkgIdId id).setF common fPkgIdIdValid 1
      let s := ((s.setUp fFiCfgTimeUp up).setUp fFiCfgTimeRoot root).modCtl (fun x => { x with tag := BitVec.ofNat 64 (leAt b 4 8) })
      (if root = 1 then (s.setUp fFiTimeStatLocked 1).setUp fFiTimeStatDepth 0 else s).replyOk c []))

/-- DOMAIN_LEAVE. (DEDUCED, log entry 67.) -/
def execDomainLeave (s : State) : Host.Outcome State Fault Refusal :=
  .next (s.serve 0x0A02 (fun c _ s => if s.job.running then s.refuse c 0x105 0 else (s.setF common fPkgIdIdValid 0).replyOk c []))

/-- DOMAIN_STATUS. -/
def execDomainStatus (s : State) : Host.Outcome State Fault Refusal :=
  .next (s.serve 0x0A03 (fun c _ s =>
    s.replyOk c (s.regBytes common oPkgId ++ leBytes s.ctl.tag.toNat 8 ++ s.regBytes s.lead oFiTimeStat
      ++ (span 0 12).flatMap (fun p => s.regBytes (portDie p) (oEwPortStatus + 0x1000 * (p % 6))))))

/-- RECONSTRUCT (R338, R339): a standby, or a package after a cold loss, takes its tables from the loaded image. (DEDUCED, log entry 47.) -/
def execReconstruct (s : State) : Host.Outcome State Fault Refusal :=
  .next (s.serve 0x0A04 (fun c b s =>
    let t := match s.ctl.image with | some bs => Config.imageOf bs | none => noImage
    let r := s.loadTables t
    if s.job.running || s.ctl.image.isNone || s.reconOn then s.refuse c 0x105 0
    else if r.getF r.lead fParCfgG ≤ leAt b 0 1 then s.refuse c 0x107 32
    else if !(span 0 4).all s.updUp then s.refuse c 0x104 0
    else (r.reconStart.progress c 2 .reconstruct).reconNext))

end Sys2Proof.Machine
end

