-- ==== Sys2Proof/Machine/InService.lean ====
section
/-!
DEFINITION. Commands of the power, telemetry, firmware and function groups (Table 13.7), telemetry samples and shedding: R361, R415 to R418, R444, R446, R447, R454, R461 to
R466.
-/

namespace Sys2Proof.Machine

/-! ### Power and thermal -/

/-- SET_POWER_BUDGET (R454). -/
def execSetPowerBudget (s : State) : Host.Outcome State Fault Refusal :=
  .next (s.serve 0x0601 (fun c b s =>
    let w := leAt b 0 4
    if w ≠ 0 ∧ (w < 450 ∨ 2100 < w) then s.refuse c 0x107 32
    else
      let s := (s.setF s.lead fPwrBudgetCfgCmdW w).manageNow
      s.replyOk c (leBytes s.budget.1 4 ++ leBytes (s.getF s.lead fPwrStatusState) 1 ++ leBytes 0 3)))

/-- GET_POWER (R462). -/
def execGetPower (s : State) : Host.Outcome State Fault Refusal :=
  .next (s.serve 0x0602 (fun c _ s =>
    let l := s.lead
    let head := [s.getF l fPwrMeasPkgMw, s.getF l fPwrBudgetCfgEffectiveW, pinBudget (s.getF l fPwrBudgetCfgPinCode), s.getF l fPwrBudgetCfgCmdW, s.getF l fPwrBudgetCfgCapW,
      s.getF l fPwrStatusState, s.getF l fPwrStatusSource, b2n s.pwr.low]
    let rails := (span 0 15).flatMap (fun k => let r := s.rail k; if r.lost then [2 ^ 32 - 1, 2 ^ 32 - 1] else [r.mv, r.ma])
    s.replyOk c ((head ++ rails).flatMap (fun v => leBytes v 4))))

/-- SET_THERMAL (R461). -/
def execSetThermal (s : State) : Host.Outcome State Fault Refusal :=
  .next (s.serve 0x0603 (fun c b s =>
    let hot := leAt b 0 2
    let crit := leAt b 2 2
    let dies := maskBits (leAt b 4 1) 4
    if leAt b 5 3 ≠ 0 then s.refuse c 0x100 37
    else if !thermOk hot crit then s.refuse c 0x107 (if 80 * 16 ≤ hot ∧ hot ≤ 103 * 16 ∧ ¬(85 * 16 ≤ crit ∧ crit ≤ 105 * 16) then 34 else 32)
    else if leAt b 4 1 = 0 ∨ 16 ≤ leAt b 4 1 then s.refuse c 0x107 36
    else if !dies.all s.dieUp then s.refuse c 0x200 0x63
    else (dies.foldl (fun (s : State) d => (s.setF d fThermCfgTHot hot).setF d fThermCfgTCrit crit) s).replyOk c []))

/-! ### Errors, counters, self-tests -/

/-- GET_ERRORS (R417): records stay in the buffer. (DEDUCED, log entry 50.) -/
def execGetErrors (s : State) : Host.Outcome State Fault Refusal :=
  .next (s.serve 0x0701 (fun c b s =>
    let n := leAt b 8 2
    let oldest := s.ctl.forwarded - s.ctl.forward.length
    let from_ := max (leAt b 0 8) oldest
    if n = 0 ∨ 1000 < n then s.refuse c 0x107 40
    else s.replyOk c (leBytes from_ 8 ++ ((s.ctl.forward.drop (from_ - oldest)).take n).flatMap (fun r => leBytes r.toNat 64))))

/-- Offsets of the instances of a register. -/
def instOffs : List (Nat × Nat) → List Nat
  | [] => [0]
  | (st, n) :: r => (span 0 n).flatMap (fun i => (instOffs r).map (fun k => st * i + k))

/-- Is a register one of the 48-bit counters of Table 8.16? -/
def RegSpec.counter (r : RegSpec) : Bool := r.fields.any (fun f => f.acc == .rc && f.lo == 0 && f.width == 48)

/-- Offsets of the counters of a space in a range of offsets, rising. (DEDUCED, log entry 55.) -/
def counterOffs (d lo hi : Nat) : List Nat :=
  ((regTable.filter (fun r => r.site.on d && r.counter)).flatMap (fun r => (instOffs r.dims).map (fun k => r.off + k))).filter (fun o => decide (lo ≤ o ∧ o < hi))
    |>.mergeSort (fun a b => decide (a ≤ b))

/-- The counters of a block on every running die, read without clearing. (DEDUCED, log entry 55.) -/
def State.blockCounters (s : State) (lo hi : Nat) : List Byte :=
  ((span 0 6).filter s.dieUp).flatMap (fun d => (counterOffs d lo hi).flatMap (fun o => s.regBytes d o))

/-- GET_COUNTERS. -/
def execGetCounters (s : State) : Host.Outcome State Fault Refusal :=
  .next (s.serve 0x0704 (fun c b s =>
    match leAt b 0 1 with
    | 0 => s.replyOk c ((counterOffs common 0x1000 0x2000).flatMap (fun o => s.regBytes common o))
    | 1 => s.replyOk c (s.blockCounters 0x20000 0x30000)
    | 2 => s.replyOk c (s.blockCounters 0xA0000 0xB0000)
    | 3 => s.replyOk c (s.blockCounters 0x40000 0x50000)
    | 4 => s.replyOk c (s.blockCounters 0xC0000 0xD0000)
    | _ => s.refuse c 0x107 32))

/-- RUN_SELFTEST: column tests of every array in service (R109), or one patrol pass from its beginning (R212). (DEDUCED, log entry 33.) -/
def execRunSelftest (s : State) : Host.Outcome State Fault Refusal :=
  .next (s.serve 0x0705 (fun c b s =>
    let mask := leAt b 0 1
    let kind := leAt b 1 1
    let dies := maskBits mask 4
    if mask = 0 ∨ 16 ≤ mask then s.refuse c 0x107 32
    else if kind > 1 then s.refuse c 0x107 33
    else if s.job.running then s.refuse c 0x105 0
    else if !dies.all s.dieUp then s.refuse c 0x200 0x63
    else
      let s := s.progress c 2 (.selftest mask kind)
      if kind = 1 then dies.foldl (fun (s : State) d => s.setF d fMcScrubStatusPosition 0) s
      else
        let pcs := dies.flatMap (fun d => (s.die d).goodCores.map (fun p => 18 * d + p))
        (pcs.foldl (fun (s : State) pc => (span 0 4).foldl (fun (s : State) j =>
          if ((s.core pc).array j).st = .disabled then s else s.arrayCtl pc j true (fun a => { a with ctRunning := true, ctDone := false })) s) s).columnTestsEnd))

/-! ### Firmware and calibration -/

/-- FW_STAGE (R446). (DEDUCED, log entry 66.) -/
def execFwStage (s : State) : Host.Outcome State Fault Refusal :=
  .next (s.serve 0x0801 (fun c b s =>
    if s.getF common fFwUpdStatusOnB ≠ 0 ∨ s.flag common fFwUpdStatusCommitting = true then s.refuse c 0x105 0
    else if (s.flash.present[1]?).getD false = false then s.refuse c 0x200 (openCause 8)
    else s.startLoad c b .firmware (2 ^ 25)))

/-- An activation begins (R447): `result` 2 while it waits for a boundary. -/
def State.beginActivation (s : State) (d result : Nat) : State :=
  (((s.setF common fFwUpdStatusActBusy 1).setF common fFwUpdStatusActDie d).setF common fFwUpdStatusActResult result).setF common fFwUpdStatusActReason 0

/-- FW_ACTIVATE (R447, Table 14.10). -/
def execFwActivate (s : State) : Host.Outcome State Fault Refusal :=
  .next (s.serve 0x0802 (fun c b s =>
    let d := leAt b 0 1
    if d > 5 then s.refuse c 0x107 32
    else if !s.dieUp d then s.refuse c 0x200 0x63
    else if s.flag common fFwUpdStatusActBusy || !s.flag common fFwUpdStatusBValid || (s.job.running && (d == s.lead || decide (4 ≤ d))) then s.refuse c 0x105 0
    else if d = s.lead then
      let s := (s.replyOk c []).beginActivation d 0
      let s := (s.ctl.sessions.map Session.id).foldl (fun (s : State) x => s.closeSession x) s
      (s.ctl.conns.map Conn.id).foldl (fun (s : State) x => s.dropConn x) s
    else
      let s := (s.progress c 2 (.activate d)).beginActivation d (if s.job.running then 2 else 0)
      if d < 4 then s else s.portReset d))

/-- CAL_READ: bytes of the table as stored; what lies beyond it in the flash is open. (DESIGN CHOICE, log entry 16.) -/
def execCalRead (s : State) : Host.Outcome State Fault Refusal :=
  .next (s.serve 0x0803 (fun c b s =>
    let off := leAt b 0 4
    let n := leAt b 4 4
    if off > 262144 then s.refuse c 0x107 32
    else if n > 32768 ∨ off + n > 262144 then s.refuse c 0x107 36
    else s.replyOk c ((span off n).map (fun i => (s.flash.cal[i]?).getD (Config.flashByte (0x30000 + i))))))

/-- CAL_WRITE (R444). -/
def execCalWrite (s : State) : Host.Outcome State Fault Refusal :=
  .next (s.serve 0x0804 (fun c b s => s.startLoad c b .calibration 262144))

/-! ### Functions (R463 to R466) -/

/-- Every function of Table 13.11, by ID. -/
def allFuncs : List Nat :=
  (span 0 4).flatMap (fun d => (span 0 3).map (funcId 0 d)) ++ (span 0 6).flatMap (fun d => ((span 0 3).filter (fun e => (edgePeer d e).isSome)).map (funcId 1 d))
    ++ (span 0 4).flatMap (fun d => (span 0 18).map (funcId 2 d)) ++ (span 0 12).map portFunc ++ (span 0 2).map svcFunc
    ++ [5, 6, 7, 8].flatMap (fun k => (span 0 4).map (fun d => funcId k d 0))

/-- Is a function an Ewerlink or service port of a port die in restricted diagnostic mode (R384)? -/
def State.restricted (s : State) (id : Nat) : Bool :=
  (id / 4096 == 3 || id / 4096 == 4) && s.dieUp (funcDie id) && s.flag (funcDie id) fD2dAdmitChecked && !s.flag (funcDie id) fD2dAdmitAdmitted

/-- FUNC_ENABLE (R465, Table 15.7). (DEDUCED, log entry 66.) -/
def execFuncEnable (s : State) : Host.Outcome State Fault Refusal :=
  .next (s.serve 0x0901 (fun c b s =>
    let f := leAt b 0 2
    if !allFuncs.contains f then s.refuse c 0x107 32
    else if s.restricted f then s.refuse c 0x104 0
    else match s.func f with
      | 0 => if s.dieUp (funcDie f) && s.getF (funcDie f) fBootStatusStage == 4 then (s.startFunc f).progress c 2 (.func f true) else s.refuse c 0x200 0x63
      | 1 => s.progress c 2 (.func f true)
      | 2 => s.replyOk c []
      | 3 => s.replyOk c []
      | 4 => s.progress c 1 (.func f true)
      | _ => s.refuse c 0x200 (failCause f)))

/-- Does a running job use a function (R466)? -/
def State.jobUses (s : State) (f : Nat) : Bool := s.job.running && (s.jobFuncs.contains f || (imagePorts s.image).contains f)

/-- Is a function the only service port that is READY or DEGRADED? -/
def State.lastService (s : State) (f : Nat) : Bool :=
  let l := (span 0 2).map svcFunc
  l.contains f && s.funcUp f && (l.filter (fun g => s.funcUp g)).length == 1

/-- FUNC_DISABLE (R465, R466): enables that wait for the function are answered STATE_CONFLICT, as is a retraining of a port that stops.
(DEDUCED, log entry 62.) -/
def execFuncDisable (s : State) : Host.Outcome State Fault Refusal :=
  .next (s.serve 0x0902 (fun c b s =>
    let f := leAt b 0 2
    let st := s.func f
    if !allFuncs.contains f then s.refuse c 0x107 32
    else if s.restricted f then s.refuse c 0x104 0
    else if s.jobUses f || s.lastService f then s.refuse c 0x105 0
    else
      let s := s.finish (fun w => w == .func f true || (f / 4096 == 3 && w == .retrain 1 (funcDie f) (f % 256))) 0x105 0
      let s := s.progress c 2 (.func f false)
      if st = 0 ∨ st = 5 then s.finish (fun w => w == .func f false) 0 0 else s.setFunc f 4))

/-- FUNC_STATUS. -/
def execFuncStatus (s : State) : Host.Outcome State Fault Refusal :=
  .next (s.serve 0x0903 (fun c _ s => s.replyOk c (allFuncs.map (fun f => BitVec.ofNat 8 (s.func f)))))

/-- RETIRE_CORE (R361); a core that is OFF or STARTING is answered BUSY (R25). (DEDUCED, log entry 66.) -/
def execRetireCore (s : State) : Host.Outcome State Fault Refusal :=
  .next (s.serve 0x0904 (fun c b s =>
    let d := leAt b 0 1
    let p := leAt b 1 1
    if d > 3 then s.refuse c 0x107 32
    else if p > 17 then s.refuse c 0x107 33
    else if !s.dieUp d then s.refuse c 0x200 0x63
    else if !(s.die d).isGood p then s.refuse c 0x105 0
    else if s.func (funcId 2 d p) < 2 then s.refuse c 0x104 0
    else (s.progress c 2 (.retire d p)).markRetire (18 * d + p) 0))

/-- RETRAIN of a function that is READY or DEGRADED; else its state decides (R398). (DEDUCED, log entry 66.) -/
def State.retrainIf (s : State) (c : Cmd) (f : Nat) (k : State → State) : State :=
  if s.restricted f then s.refuse c 0x104 0
  else match s.func f with
    | 2 => k s
    | 3 => k s
    | 4 => s.refuse c 0x105 0
    | 5 => s.refuse c 0x200 0x41
    | _ => s.refuse c 0x104 0

/-- RETRAIN (R256, R375). -/
def execRetrain (s : State) : Host.Outcome State Fault Refusal :=
  .next (s.serve 0x0905 (fun c b s =>
    let kind := leAt b 0 1
    let d := leAt b 1 1
    let n := leAt b 2 1
    if kind > 1 then s.refuse c 0x107 32
    else if (kind = 0 ∧ 5 < d) ∨ (kind = 1 ∧ (d < 4 ∨ 5 < d)) then s.refuse c 0x107 33
    else if (kind = 0 ∧ (edgePeer d n).isNone = true) ∨ (kind = 1 ∧ (11 < n ∨ portDie n ≠ d)) then s.refuse c 0x107 34
    else if kind = 0 then s.retrainIf c (edgeFunc d n) (fun s => (s.progress c 2 (.retrain 0 d n)).retrainEdge d n)
    else s.retrainIf c (portFunc n) (fun s => (s.progress c 2 (.retrain 1 d n)).askRetrain n)))

/-- DIE_RESET (R391). (DEDUCED, log entry 66.) -/
def execDieReset (s : State) : Host.Outcome State Fault Refusal :=
  .next (s.serve 0x0906 (fun c b s =>
    let d := leAt b 0 1
    let mode := leAt b 1 1
    if d > 5 then s.refuse c 0x107 32
    else if mode > 1 then s.refuse c 0x107 33
    else if d = s.lead then s.refuse c 0x105 0
    else if (s.die d).st = .held then s.refuse c 0x200 0x63
    else
      let s := s.progress c 2 (.dieReset d)
      if d ≥ 4 then s.portReset d else if mode = 0 then s.warmReset d else s.coldLoss d))

/-! ### Telemetry (R415, R416) -/

/-- A counter's low 32 bits. -/
def State.cnt32 (s : State) (d : Nat) (f : Fld) : Nat := s.getF d f % 2 ^ 32

/-- The twelve values of a telemetry sample (R416, Table 15.4). -/
def State.sampleValues (s : State) (kind d : Nat) : List Nat :=
  let l := s.lead
  match kind with
  | 0 => [s.getF l fPwrMeasPkgMw, s.getF l fPwrBudgetCfgEffectiveW, s.getF l fPwrStatusState, s.upCompute.foldl (fun (m : Nat) k => max m (s.getF k fPwrStatusGate)) 0]
      ++ (span 0 4).map s.railMw ++ [s.sharedMw, s.railsMw [4, 5, 6, 7], s.cnt32 l fBrownoutCntCount, s.cnt32 l fPwrStateCntCount]
  | 1 => [s.getF d fThermStatusTmax, s.getF d fThermStatusSensor, s.getF d fThermStatusHot + 2 * s.getF d fThermStatusCrit, s.getF d fThermCfgTHot, s.getF d fThermCfgTCrit,
      s.cnt32 d fThermThrottleCntCount, mapGet (fun _ => 0) s.pwr.portTemp d, (s.rail d).temp, 0, 0, 0, 0]
  | 2 =>
    let sum (f : Fld) : Nat := (span (18 * d) 18).foldl (fun (n : Nat) pc => n + s.coreGet pc f) 0 % 2 ^ 32
    [(s.reg d oStepIndex).toNat % 2 ^ 32, s.getF d fStepSkipTotal, unsigned 32 (s.lscaleE d), s.getF d fStepNormNorm, s.getF d fStepUnscaleLossMean,
      sum fCritWaitCntCount, sum fDeferIssueCntCount, s.cnt32 d fBerylOverrunCntCount, 0, 0, 0, 0]
  | 3 => (span 0 6).flatMap (fun i => [s.cnt32 d (portF i fEwReplayCntCount), s.cnt32 d (portF i fEwFecCorrCntCount)])
  | _ => (span 0 3).flatMap (fun k => [fMcCorrCntCount, fMcRmwCntCount, fMcUncorrCntCount].map (fun f => s.cnt32 d (stackF k f))
      ++ [(s.reg d (oMcPinfail + 0x40 * k)).toNat % 2 ^ 32])

/-- Does a kind of sample belong to a die? -/
def State.samples (s : State) (kind d : Nat) : Bool :=
  s.dieUp d && (match kind with | 0 => d == s.lead | 3 => decide (4 ≤ d) | _ => decide (d < 4))

/-- A telemetry sample (R416). -/
def State.sample (s : State) (kind d : Nat) : List Byte :=
  let l := s.lead
  let time := if s.flag l fFiTimeStatLocked then s.reg l oFiTime else s.reg l oDieTimebase
  leBytes time.toNat 8 ++ leBytes s.ctl.telSeq 2 ++ leBytes kind 1 ++ leBytes d 1 ++ leBytes 0 4 ++ (s.sampleValues kind d).flatMap (fun v => leBytes v 4)

/-- Write a sample to a queue of the lead die, if it is a TELEM queue with room. -/
def State.putSample (s : State) (q : Nat) (bs : List Byte) : State :=
  match s.qGet s.lead q with
  | (none, s) => s
  | (some v, s) =>
    if !qEn v || qErr v || qKind v != 4 || decide (qDepth v ≤ qHeld v) then s
    else match s.narrowAt s.jas (qEntryAt v (qProd v)) bs true with
      | (some kind, s) => s.accessFailed s.jas (qEntryAt v (qProd v) / 128) kind
      | (none, s) => (s.qPut s.lead q (qAddProd v 1)).notify s.lead v 1

/-- TELEMETRY_SAMPLE (R415, R416, R418): a sample of one kind of one die is taken when its interval has passed; `q` is the lead die's TELEM
queue. (DEDUCED, log entry 56.) -/
def execTelemetrySample (kind : Fin 5) (d : Fin 6) (q : BitVec 18) (s : State) : Host.Outcome State Fault Refusal :=
  .next (
    if !s.leadRuns || s.ctl.telInterval == 0 || natBits s.ctl.telMask kind 1 == 0 || decide (5 ≤ s.getF common fCmdStatusShed) || !s.samples kind d then s
    else
      let bs := s.sample kind d
      let s := (s.putSample q.toNat bs).modCtl (fun x => { x with telSeq := (x.telSeq + 1) % 65536 })
      match s.ctl.sub with
      | some e => if natBits e.mask 1 1 = 1 then s.sendEvent e.conn 1 0 [bs] else s
      | none => s)

/-- Commands that wait in classes 1 and 2. -/
def State.waitingCmds (s : State) : Nat := (mapGet (fun _ => []) s.ctl.cmds 1).length + (mapGet (fun _ => []) s.ctl.cmds 2).length

/-- SHED_RISE (R415). (DEDUCED, log entry 50.) -/
def execShedRise (s : State) : Host.Outcome State Fault Refusal :=
  .next (
    let n := s.getF common fCmdStatusShed
    if !s.leadRuns || decide (5 ≤ n) || !(decide (128 < s.waitingCmds) || decide (2048 < s.ctl.forward.length)) then s
    else s.setF common fCmdStatusShed (n + 1))

/-- SHED_FALL (R415). -/
def execShedFall (s : State) : Host.Outcome State Fault Refusal :=
  .next (
    let n := s.getF common fCmdStatusShed
    if !s.leadRuns || n == 0 || decide (32 ≤ s.waitingCmds) then s else s.setF common fCmdStatusShed (n - 1))

end Sys2Proof.Machine
end

