-- ==== Sys2Proof/Machine/Frames.lean ====
section
/-!
DEFINITION. Frames that arrive on a service port (R483, R484): the Ethernet, IPv6, IPv4, ARP and UDP subset of Table 16.5.
-/

namespace Sys2Proof.Machine

/-- A frame without its tag: source address, EtherType and what follows; none where the frame layer drops it (Table 16.5). `n` counts the FCS. -/
def readFrame (vlan : Nat) (bs : List Byte) : Option (Nat × Nat × List Byte) :=
  let n := bs.length + 4
  let src := beAt bs 6 6
  let tag := beAt bs 12 2
  let known (t : Nat) : Bool := t == 0x86DD || t == 0x0800 || t == 0x0806
  if n < 64 ∨ 9216 < n then none
  else if known tag then some (src, tag, bs.drop 14)
  else if tag = 0x8100 ∧ vlan ≠ 0 ∧ beAt bs 14 2 % 4096 = vlan ∧ known (beAt bs 16 2) = true then some (src, beAt bs 16 2, bs.drop 18)
  else none

/-- Is a destination address the port's, broadcast, or one of the IPv6 multicasts it takes? -/
def State.takesMac (s : State) (p dst : Nat) : Bool :=
  let solicited (ip : Nat) : Bool := dst == 0x3333FF000000 + ip % 2 ^ 24
  dst == s.mac p || dst == 2 ^ 48 - 1 || dst == 0x333300000001 || solicited (linkLocal (s.mac p)) || ((s.netOf p).ip6 != 0 && solicited (s.netOf p).ip6)

/-- A packet is dropped in the IP or UDP layer. -/
def State.ipDrop (s : State) (p : Nat) : State := s.bump (4 + p) fSvcIpDropCntCount 1

/-- Is a UDP port one that CST uses: CMD_CFG.CST_PORT, or that of an open connection with this remote end (Table 13.17)? (DEDUCED, log entry 58.) -/
def State.cstPort (s : State) (e : NetEnd) : Bool :=
  e.lport == s.getF common fCmdCfgCstPort || s.ctl.conns.any (fun (c : Conn) => c.peer.same e && c.peer.lport == e.lport)

/-- A UDP datagram: port, length and checksum; a zero checksum serves over IPv4 only. (DEDUCED, log entry 59.) -/
def State.udpIn (s : State) (e : NetEnd) (bs : List Byte) : State :=
  let n := beAt bs 4 2
  let e : NetEnd := { e with udp := beAt bs 0 2, lport := beAt bs 2 2 }
  let b := bs.take n
  let ph := if e.v6 then pseudo6 e.ip e.lip n 17 else pseudo4 e.ip e.lip n 17
  let sumOk : Bool := if beAt bs 6 2 = 0 then !e.v6 else inetSum (ph ++ b) == 0
  if n < 8 ∨ bs.length < n ∨ s.cstPort e = false ∨ sumOk = false then s.ipDrop e.port
  else if s.leadRuns then s.segArrive e (b.drop 8) else s

/-- An ICMPv6 message: solicitations and echo requests are answered, advertisements taken. -/
def State.icmp6In (s : State) (p mac src dst : Nat) (b : List Byte) : State :=
  let target := beAt b 8 16
  if b.length < 8 ∨ inetSum (pseudo6 src dst b.length 58 ++ b) ≠ 0 ∨ beAt b 1 1 ≠ 0 then s.ipDrop p
  else match beAt b 0 1 with
    | 128 => if s.ownIp6 p dst then s.icmp6Out p mac dst src 129 (b.drop 4) else s.ipDrop p
    | 135 =>
      if b.length < 24 then s.ipDrop p
      else if !s.ownIp6 p target then s
      else
        let adv (flags : Nat) : List Byte := beBytes flags 4 ++ beBytes target 16 ++ beBytes 2 1 ++ beBytes 1 1 ++ beBytes (s.mac p) 6
        if src = 0 then s.icmp6Out p 0x333300000001 target (0xFF02 * 2 ^ 112 + 1) 136 (adv 0x20000000) else s.icmp6Out p mac target src 136 (adv 0x60000000)
    | 136 => s
    | _ => s.ipDrop p

/-- An IPv6 packet: UDP or ICMPv6 without extension headers, to an address of the port or, for ICMPv6, to a multicast it takes. -/
def State.ip6In (s : State) (p mac : Nat) (b : List Byte) : State :=
  let n := beAt b 4 2
  let next := beAt b 6 1
  let src := beAt b 8 16
  let dst := beAt b 24 16
  let body := (b.drop 40).take n
  let multi : Bool := dst / 2 ^ 112 == 0xFF02
  if b.length < 40 + n ∨ beAt b 0 1 / 16 ≠ 6 then s.ipDrop p
  else if next = 17 ∧ s.ownIp6 p dst = true then s.udpIn ⟨p, true, src, 0, mac, dst, 0⟩ body
  else if next = 58 ∧ (s.ownIp6 p dst || multi) = true then s.icmp6In p mac src dst body
  else s.ipDrop p

/-- An IPv4 packet to the configured address: no options, no fragments; UDP, or an echo request, which is answered. -/
def State.ip4In (s : State) (p mac : Nat) (b : List Byte) : State :=
  let ip := (s.netOf p).ip4
  let n := beAt b 2 2
  let src := beAt b 12 4
  let body := (b.drop 20).take (n - 20)
  if ip = 0 ∨ b.length < n ∨ n < 20 ∨ beAt b 0 1 ≠ 0x45 ∨ inetSum (b.take 20) ≠ 0 ∨ beAt b 16 4 ≠ ip ∨ beAt b 6 2 % 0x4000 ≠ 0 then s.ipDrop p
  else match beAt b 9 1 with
    | 17 => s.udpIn ⟨p, false, src, 0, mac, ip, 0⟩ body
    | 1 =>
      if body.length < 8 ∨ inetSum body ≠ 0 ∨ beAt body 0 2 ≠ 0x0800 then s.ipDrop p
      else
        let m (sum : Nat) : List Byte := beBytes 0 2 ++ beBytes sum 2 ++ body.drop 4
        s.ip4Out p mac ip src 1 (m (inetSum (m 0)))
    | _ => s.ipDrop p

/-- An ARP message: a request for the configured address is answered, and a reply from the gateway gives its address. -/
def State.arpIn (s : State) (p : Nat) (b : List Byte) : State :=
  let net := s.netOf p
  let sha := beAt b 8 6
  let spa := beAt b 14 4
  if net.ip4 = 0 ∨ b.length < 28 ∨ beAt b 0 6 ≠ 0x000108000604 then s.ipDrop p
  else match beAt b 6 2 with
    | 1 => if beAt b 24 4 = net.ip4 then s.arpOut p sha 2 sha spa else s
    | 2 =>
      if spa = net.gw4 then s.modCtl (fun x => { x with net := mapSet (fun _ => NetCfg.mk 0 0 0 0 0 0 none) x.net p { net with gwMac := some sha } }) else s
    | _ => s.ipDrop p

/-- FRAME_RECEIVE (R483): a frame arrives on a service port, FCS apart; `fcs` says whether that was right. -/
def execFrameReceive (p : Fin 2) (bytes : List Byte) (fcs : Bool) (s : State) : Host.Outcome State Fault Refusal :=
  .next (
    let d := 4 + p.val
    if !s.dieUp d || !s.funcUp (svcFunc p) || !s.flag d fSvcStatusLink then s
    else match (if fcs && s.takesMac p (beAt bytes 0 6) then readFrame (s.netOf p).vlan bytes else none) with
      | none => s.bump d fSvcRxDropCntCount 1
      | some (mac, etype, b) =>
        let s := s.bump d fSvcRxFramesCntCount 1
        if etype = 0x86DD then s.ip6In p mac b else if etype = 0x0800 then s.ip4In p mac b else s.arpIn p b)

end Sys2Proof.Machine
end

