-- ==== Sys2Proof/Machine/Pins.lean ====
section
/-!
DEFINITION. SMBus and JTAG (R433, R479, R486, R487, R491).
-/

namespace Sys2Proof.Machine

/-! ### SMBus -/

/-- Is READY asserted (R433)? (DEDUCED, log entry 56.) -/
def State.ready (s : State) : Bool := s.leadRuns && ((span 0 2).any (fun p => s.func (svcFunc p) == 2)) && !s.pkgFatal

/-- Registers that REG_READ reaches (Table 16.9). -/
def smbusReads (space off : Nat) : Bool :=
  if space = common then [oPkgShape, oPkgCoreMask, oPkgId, oCmdStatus].contains off || decide (0x2000 ≤ off ∧ off ≤ 0x2040 ∧ off % 8 = 0)
  else [oDieInfo, oBootStatus, oFwVersion, oD2dDisc, oD2dAdmit].contains off
    || (decide (space < 4) && [oPwrStatus, oPwrMeas, oThermStatus, oPwrBudgetCfg, oErrCfg, oErrStatus, oErrCnt + 0x20, oErrCnt + 0x28, oStepIndex, oStepSkip, oStepResult,
        oParStatus].contains off)

/-- Does the die of a space run firmware, so that SMBus reaches it? Package-common configuration is the lead die's. -/
def State.smbusUp (s : State) (space : Nat) : Bool :=
  if space = common then s.leadRuns else s.dieUp space && s.getF space fBootStatusStage == 4

/-- REG_READ (R486, R487): status and value; RC fields keep their values. (DESIGN CHOICE, log entry 17.) -/
def execRegRead (space : BitVec 8) (off : BitVec 24) (s : State) : Host.Outcome State Fault Refusal :=
  .next (
    let d := space.toNat
    let bad (st : Nat) : State := let k := s.draw; k.2.send (.smbus (leBytes st 1 ++ leBytes (Config.smbusNoise k.1).toNat 8))
    if !s.dieUp 0 then s
    else if d > 6 ∨ smbusReads d off.toNat = false then bad 1
    else if !s.smbusUp d then bad 2
    else match s.peekReg d off.toNat with
      | some v => s.send (.smbus (leBytes 0 1 ++ leBytes v.toNat 8))
      | none => bad 2)

/-- The bits that REG_WRITE may write of a register (Table 16.9); none for a register it does not reach. -/
def State.smbusWrites (s : State) (space off : Nat) : Option Nat :=
  let fieldMask (f : Fld) : Nat := (2 ^ f.width - 1) * 2 ^ f.lo
  if space = common then
    if off = oOpkeySel then some 7
    else if off = oOpkeyCtl then some 3
    else if oOpkeyData ≤ off ∧ off < oOpkeyData + 32 ∧ off % 8 = 0 then some (2 ^ 64 - 1)
    else none
  else if space = s.lead ∧ off = oPwrBudgetCfg then some (fieldMask fPwrBudgetCfgCapW)
  else if space < 4 ∧ off = oErrCfg then some (fieldMask fErrCfgAlertMin)
  else none

/-- The status of a REG_WRITE (R486). (DEDUCED, log entry 65.) -/
def State.smbusStatus (s : State) (space off mask : Nat) : Nat :=
  match s.smbusWrites space off with
  | none => 1
  | some m =>
    if mask &&& m ≠ mask then 1
    else if space = common ∨ off = oPwrBudgetCfg then (if s.leadRuns && !(space == common && off == oOpkeyCtl && s.flag common fOpkeyStatusBusy) then 0 else 3)
    else if s.smbusUp space then 0 else 2

/-- REG_WRITE (R486, R487): (old & ~mask) | (value & mask) in one register write; `ok` says that the PEC is right and the write 20 bytes long. -/
def execRegWrite (ok : Bool) (space : BitVec 8) (off : BitVec 24) (value mask : BitVec 64) (s : State) : Host.Outcome State Fault Refusal :=
  .next (
    let d := space.toNat
    if !s.dieUp 0 then s
    else if !ok then { s with smb := 4 }
    else
      let st := s.smbusStatus d off.toNat mask.toNat
      let s := { s with smb := st }
      if st ≠ 0 then s
      else match s.peekReg d off.toNat with
        | some old => s.writeReg d off.toNat ((old &&& ~~~mask) ||| (value &&& mask))
        | none => s)

/-- LAST_STATUS (R486). -/
def execLastStatus (s : State) : Host.Outcome State Fault Refusal :=
  .next (if s.dieUp 0 then s.send (.smbus (leBytes s.smb 1)) else s)

/-- The 32 bytes of SUMMARY (Table 16.8). -/
def State.summary (s : State) : List Byte :=
  let l := s.lead
  let errs (k : Nat) : Nat := (span 0 4).foldl (fun (n : Nat) d => n + s.getF d (fErrCntCount.at (8 * k))) 0
  leBytes (s.reg l oStepIndex).toNat 8 ++ leBytes (fld (s.reg common oPkgId) 0 13) 2
    ++ leBytes (b2n s.ready + 2 * b2n s.alert + 4 * b2n s.pwr.low + 8 * b2n s.job.running) 1 ++ leBytes l 1 ++ leBytes (s.getF l fPwrMeasPkgMw) 4
    ++ leBytes ((span 0 4).foldl (fun (m : Nat) d => max m (s.getF d fThermStatusTmax)) 0) 2 ++ leBytes 0 2 ++ leBytes (errs 4) 4 ++ leBytes (errs 5) 4
    ++ leBytes (s.reg 0 oBootStatus).toNat 4

/-- SUMMARY (R486). -/
def execSummary (s : State) : Host.Outcome State Fault Refusal :=
  .next (if s.dieUp 0 then s.send (.smbus s.summary) else s)

/-- ALERT_RESPONSE (R479): while the latch is set the package answers with its address, and the latch clears. (DEDUCED, log entry 65.) -/
def execAlertResponse (s : State) : Host.Outcome State Fault Refusal :=
  .next (if s.dieUp 0 && s.alert then { s with alert := false }.send (.smbus (leBytes (2 * (0x58 + s.smbAddr)) 1)) else s)

/-! ### JTAG (R491) -/

/-- The TAP of a die. -/
def State.tap (s : State) (d : Nat) : Tap := mapGet (fun _ => Tap.reset) s.taps d

/-- Replace it. -/
def State.setTap (s : State) (d : Nat) (t : Tap) : State := { s with taps := mapSet (fun _ => Tap.reset) s.taps d t }

/-- The identification code of a die. (DESIGN CHOICE, log entry 17.) -/
def State.idcode (s : State) (d : Nat) : Nat :=
  let x := s.die d
  let id := if x.cert.isEmpty then Config.siliconId d else (leAt x.cert 7 1, leAt x.cert 6 1)
  let part := if d < 4 then 0xD481 else if id.2 = 2 then 0xD483 else 0xD482
  2 ^ 28 * (id.1 % 16) + 2 ^ 12 * part + 2 * 0x5DA + 1

/-- The access that an Update-DR of CFG asks die `d` for: the register as the next Capture-DR returns it, with data and status 0 OK or 1 absent.
A port die reaches only its own space. -/
def State.cfgAccess (s : State) (d : Nat) (v : BitVec 96) : BitVec 96 × State :=
  let space := fld v 88 3
  let off := fld v 64 24
  let put (data status : Nat) : BitVec 96 := putFld (putFld v 0 64 data) 92 4 status
  if !s.dieUp d || decide (6 < space) || (decide (4 ≤ d) && space != d) || (s.peekReg space off).isNone then (put 0 1, s)
  else if bit v 91 then (put (fld v 0 64) 0, s.writeReg space off (BitVec.ofNat 64 (fld v 0 64)))
  else
    let r := s.readReg space off
    (put ((r.1.map BitVec.toNat).getD 0) 0, r.2)

/-- JTAG_CFG (R491): with CFG selected on a die, Capture-DR shifts out what the last access left, and Update-DR makes the access that `v` asks
for. (DEDUCED, log entry 65.) -/
def execJtagCfg (d : Fin 6) (v : BitVec 96) (s : State) : Host.Outcome State Fault Refusal :=
  .next (
    let t := s.tap d
    let r := s.cfgAccess d v
    (r.2.setTap d { t with ir := 0x20, cfg := r.1 }).send (.jtag d ((span 0 96).map (bit t.cfg))))

/-- IDCODE (R491). -/
def execIdcode (d : Fin 6) (s : State) : Host.Outcome State Fault Refusal :=
  .next ((s.setTap d { s.tap d with ir := 1 }).send (.jtag d ((span 0 32).map (fun i => natBits (s.idcode d) i 1 == 1))))

/-- BYPASS (R491): one bit, which captures 0. (DEDUCED, log entry 65.) -/
def execBypass (d : Fin 6) (s : State) : Host.Outcome State Fault Refusal :=
  .next ((s.setTap d { s.tap d with ir := 0xFF }).send (.jtag d [false]))

/-- SAMPLE_PRELOAD (R491): the levels of the single-ended 1.8 V contacts, `pins`, are shifted out, and `load` is shifted into the boundary register. -/
def execSamplePreload (d : Fin 6) (pins load : List Bool) (s : State) : Host.Outcome State Fault Refusal :=
  .next ((s.setTap d { s.tap d with ir := 2, bnd := load }).send (.jtag d pins))

/-- EXTEST (R491): as SAMPLE_PRELOAD, and while the instruction is selected the boundary register drives the contacts. -/
def execExtest (d : Fin 6) (pins load : List Bool) (s : State) : Host.Outcome State Fault Refusal :=
  .next ((s.setTap d { s.tap d with ir := 0, bnd := load }).send (.jtag d pins))

end Sys2Proof.Machine
end

