-- ==== Sys2Proof/Machine/Dispatch.lean ====
section
/-!
DEFINITION. Which meaning each command has: one arm per constructor.
-/

namespace Sys2Proof.Machine

def exec (i : Instr) (s : State) : Host.Outcome State Fault Refusal :=
  match i with
  | .pkgResetNAssert => Sys2Proof.Machine.execPkgResetNAssert s
  | .dieResetRelease d xspi found fuse cert record smb => Sys2Proof.Machine.execDieResetRelease d xspi found fuse cert record smb s
  | .railFailure rail => Sys2Proof.Machine.execRailFailure rail s
  | .refclk100Loss => Sys2Proof.Machine.execRefclk100Loss s
  | .pllLoss d pll => Sys2Proof.Machine.execPllLoss d pll s
  | .brownoutNFall => Sys2Proof.Machine.execBrownoutNFall s
  | .brownoutNRise => Sys2Proof.Machine.execBrownoutNRise s
  | .brownoutHoldExpiry est => Sys2Proof.Machine.execBrownoutHoldExpiry est s
  | .pwrBudgetSample code => Sys2Proof.Machine.execPwrBudgetSample code s
  | .enrolNChange low => Sys2Proof.Machine.execEnrolNChange low s
  | .thermtrip => Sys2Proof.Machine.execThermtrip s
  | .thermalSample d own sensor port portSensor => Sys2Proof.Machine.execThermalSample d own sensor port portSensor s
  | .hotCapTimer d => Sys2Proof.Machine.execHotCapTimer d s
  | .governorTick d mw icc => Sys2Proof.Machine.execGovernorTick d mw icc s
  | .powerManagerTick gated idle est => Sys2Proof.Machine.execPowerManagerTick gated idle est s
  | .cpllLock => Sys2Proof.Machine.execCpllLock s
  | .voutSettle ok => Sys2Proof.Machine.execVoutSettle ok s
  | .pmbusPoll reads => Sys2Proof.Machine.execPmbusPoll reads s
  | .pmbAlert => Sys2Proof.Machine.execPmbAlert s
  | .vrmTelemetryLoss rail => Sys2Proof.Machine.execVrmTelemetryLoss rail s
  | .functionReady id cols unloc enabled repaired fast nb => Sys2Proof.Machine.execFunctionReady id cols unloc enabled repaired fast nb s
  | .functionStopped id => Sys2Proof.Machine.execFunctionStopped id s
  | .sqNop lc st tok ops => Sys2Proof.Machine.execSqNop lc st tok ops s
  | .sqEnd lc st tok ops => Sys2Proof.Machine.execSqEnd lc st tok ops s
  | .sqJump lc st tok ops => Sys2Proof.Machine.execSqJump lc st tok ops s
  | .sqLoop lc st tok ops => Sys2Proof.Machine.execSqLoop lc st tok ops s
  | .sqEndloop lc st tok ops => Sys2Proof.Machine.execSqEndloop lc st tok ops s
  | .sqXset lc st tok ops => Sys2Proof.Machine.execSqXset lc st tok ops s
  | .sqXadd lc st tok ops => Sys2Proof.Machine.execSqXadd lc st tok ops s
  | .sqIrload lc st tok ops => Sys2Proof.Machine.execSqIrload lc st tok ops s
  | .irloadComplete lc st => Sys2Proof.Machine.execIrloadComplete lc st s
  | .tokenArrival lc k => Sys2Proof.Machine.execTokenArrival lc k s
  | .sourceRelease lc st eng nth => Sys2Proof.Machine.execSourceRelease lc st eng nth s
  | .streamEndCheck lc => Sys2Proof.Machine.execStreamEndCheck lc s
  | .go pc => Sys2Proof.Machine.execGo pc s
  | .halt pc => Sys2Proof.Machine.execHalt pc s
  | .mxWload lc st ph tok ops => Sys2Proof.Machine.execMxWload lc st ph tok ops s
  | .mxWloadComplete lc st => Sys2Proof.Machine.execMxWloadComplete lc st s
  | .mxMma lc st ph tok ops => Sys2Proof.Machine.execMxMma lc st ph tok ops s
  | .mxMmaComplete lc st residue => Sys2Proof.Machine.execMxMmaComplete lc st residue s
  | .mxPass2 lc st => Sys2Proof.Machine.execMxPass2 lc st s
  | .mxGopen lc st ph tok ops => Sys2Proof.Machine.execMxGopen lc st ph tok ops s
  | .mxGclose lc st ph tok ops => Sys2Proof.Machine.execMxGclose lc st ph tok ops s
  | .mxGexport lc st ph tok ops => Sys2Proof.Machine.execMxGexport lc st ph tok ops s
  | .mxGexportComplete lc st => Sys2Proof.Machine.execMxGexportComplete lc st s
  | .sentinelPass lc => Sys2Proof.Machine.execSentinelPass lc s
  | .sentinelCompare lc faultO faultS => Sys2Proof.Machine.execSentinelCompare lc faultO faultS s
  | .ctest pc j => Sys2Proof.Machine.execCtest pc j s
  | .ctestComplete pc j failing unloc => Sys2Proof.Machine.execCtestComplete pc j failing unloc s
  | .apply pc j => Sys2Proof.Machine.execApply pc j s
  | .disable pc j => Sys2Proof.Machine.execDisable pc j s
  | .vsetvl lc st ph tok ops => Sys2Proof.Machine.execVsetvl lc st ph tok ops s
  | .sli lc st ph tok ops => Sys2Proof.Machine.execSli lc st ph tok ops s
  | .salu lc st ph tok ops => Sys2Proof.Machine.execSalu lc st ph tok ops s
  | .smov lc st ph tok ops => Sys2Proof.Machine.execSmov lc st ph tok ops s
  | .vadd lc st ph tok ops => Sys2Proof.Machine.execVadd lc st ph tok ops s
  | .vsub lc st ph tok ops => Sys2Proof.Machine.execVsub lc st ph tok ops s
  | .vmul lc st ph tok ops => Sys2Proof.Machine.execVmul lc st ph tok ops s
  | .vfma lc st ph tok ops => Sys2Proof.Machine.execVfma lc st ph tok ops s
  | .vfnma lc st ph tok ops => Sys2Proof.Machine.execVfnma lc st ph tok ops s
  | .vmax lc st ph tok ops => Sys2Proof.Machine.execVmax lc st ph tok ops s
  | .vmin lc st ph tok ops => Sys2Proof.Machine.execVmin lc st ph tok ops s
  | .vbcast lc st ph tok ops => Sys2Proof.Machine.execVbcast lc st ph tok ops s
  | .viota lc st ph tok ops => Sys2Proof.Machine.execViota lc st ph tok ops s
  | .viadd lc st ph tok ops => Sys2Proof.Machine.execViadd lc st ph tok ops s
  | .visub lc st ph tok ops => Sys2Proof.Machine.execVisub lc st ph tok ops s
  | .vand lc st ph tok ops => Sys2Proof.Machine.execVand lc st ph tok ops s
  | .vor lc st ph tok ops => Sys2Proof.Machine.execVor lc st ph tok ops s
  | .vxor lc st ph tok ops => Sys2Proof.Machine.execVxor lc st ph tok ops s
  | .vshl lc st ph tok ops => Sys2Proof.Machine.execVshl lc st ph tok ops s
  | .vshr lc st ph tok ops => Sys2Proof.Machine.execVshr lc st ph tok ops s
  | .vsra lc st ph tok ops => Sys2Proof.Machine.execVsra lc st ph tok ops s
  | .vnot lc st ph tok ops => Sys2Proof.Machine.execVnot lc st ph tok ops s
  | .vcmp lc st ph tok ops => Sys2Proof.Machine.execVcmp lc st ph tok ops s
  | .plogic lc st ph tok ops => Sys2Proof.Machine.execPlogic lc st ph tok ops s
  | .pcount lc st ph tok ops => Sys2Proof.Machine.execPcount lc st ph tok ops s
  | .vsel lc st ph tok ops => Sys2Proof.Machine.execVsel lc st ph tok ops s
  | .vsf lc st ph tok ops => Sys2Proof.Machine.execVsf lc st ph tok ops s
  | .vcvt lc st ph tok ops => Sys2Proof.Machine.execVcvt lc st ph tok ops s
  | .vmxpack lc st ph tok ops => Sys2Proof.Machine.execVmxpack lc st ph tok ops s
  | .vred lc st ph tok ops => Sys2Proof.Machine.execVred lc st ph tok ops s
  | .vperm lc st ph tok ops => Sys2Proof.Machine.execVperm lc st ph tok ops s
  | .vslide lc st ph tok ops => Sys2Proof.Machine.execVslide lc st ph tok ops s
  | .vsmax lc st ph tok ops => Sys2Proof.Machine.execVsmax lc st ph tok ops s
  | .vsmerge lc st ph tok ops => Sys2Proof.Machine.execVsmerge lc st ph tok ops s
  | .vxadd lc st ph tok ops => Sys2Proof.Machine.execVxadd lc st ph tok ops s
  | .vxfold lc st ph tok ops => Sys2Proof.Machine.execVxfold lc st ph tok ops s
  | .vxcvt lc st ph tok ops => Sys2Proof.Machine.execVxcvt lc st ph tok ops s
  | .vld lc st ph tok ops => Sys2Proof.Machine.execVld lc st ph tok ops s
  | .vst lc st ph tok ops => Sys2Proof.Machine.execVst lc st ph tok ops s
  | .vacc lc st ph tok ops => Sys2Proof.Machine.execVacc lc st ph tok ops s
  | .vxWordComplete lc st fault => Sys2Proof.Machine.execVxWordComplete lc st fault s
  | .dmLoad lc st ph tok ops => Sys2Proof.Machine.execDmLoad lc st ph tok ops s
  | .dmLoadComplete lc st => Sys2Proof.Machine.execDmLoadComplete lc st s
  | .dmStore lc st ph tok ops => Sys2Proof.Machine.execDmStore lc st ph tok ops s
  | .dmStoreComplete lc st => Sys2Proof.Machine.execDmStoreComplete lc st s
  | .dmFill lc st ph tok ops => Sys2Proof.Machine.execDmFill lc st ph tok ops s
  | .dmRclear lc st ph tok ops => Sys2Proof.Machine.execDmRclear lc st ph tok ops s
  | .syInc lc st ph tok ops => Sys2Proof.Machine.execSyInc lc st ph tok ops s
  | .syDec lc st ph tok ops => Sys2Proof.Machine.execSyDec lc st ph tok ops s
  | .syRead lc st ph tok ops => Sys2Proof.Machine.execSyRead lc st ph tok ops s
  | .syWatch lc st ph tok ops => Sys2Proof.Machine.execSyWatch lc st ph tok ops s
  | .syUnwatch lc st ph tok ops => Sys2Proof.Machine.execSyUnwatch lc st ph tok ops s
  | .syFence lc st ph tok ops => Sys2Proof.Machine.execSyFence lc st ph tok ops s
  | .syQring lc st ph tok ops => Sys2Proof.Machine.execSyQring lc st ph tok ops s
  | .syQcons lc st ph tok ops => Sys2Proof.Machine.execSyQcons lc st ph tok ops s
  | .syWordComplete lc st => Sys2Proof.Machine.execSyWordComplete lc st s
  | .berylOperationApply d port => Sys2Proof.Machine.execBerylOperationApply d port s
  | .watchBoundExpiry d slot => Sys2Proof.Machine.execWatchBoundExpiry d slot s
  | .watchFatalExpiry d slot => Sys2Proof.Machine.execWatchFatalExpiry d slot s
  | .set d value => Sys2Proof.Machine.execSet d value s
  | .arm d => Sys2Proof.Machine.execArm d s
  | .release d => Sys2Proof.Machine.execRelease d s
  | .snap d => Sys2Proof.Machine.execSnap d s
  | .check d => Sys2Proof.Machine.execCheck d s
  | .queueProdAdvance q => Sys2Proof.Machine.execQueueProdAdvance q s
  | .watchDoorbellArrival q => Sys2Proof.Machine.execWatchDoorbellArrival q s
  | .descriptorStart q => Sys2Proof.Machine.execDescriptorStart q s
  | .descriptorComplete q => Sys2Proof.Machine.execDescriptorComplete q s
  | .landPlace q => Sys2Proof.Machine.execLandPlace q s
  | .creditReturn q => Sys2Proof.Machine.execCreditReturn q s
  | .qstateMissFill q => Sys2Proof.Machine.execQstateMissFill q s
  | .load d => Sys2Proof.Machine.execLoad d s
  | .commit d => Sys2Proof.Machine.execCommit d s
  | .clearErr d => Sys2Proof.Machine.execClearErr d s
  | .qeDoorbell d queue amount => Sys2Proof.Machine.execQeDoorbell d queue amount s
  | .stackRead r gran errs => Sys2Proof.Machine.execStackRead r gran errs s
  | .stackWrite r gran data chk => Sys2Proof.Machine.execStackWrite r gran data chk s
  | .narrowWrite r gran mask data crc flush => Sys2Proof.Machine.execNarrowWrite r gran mask data crc flush s
  | .mergeTimeout gran => Sys2Proof.Machine.execMergeTimeout gran s
  | .accDiagnosticRead lc word => Sys2Proof.Machine.execAccDiagnosticRead lc word s
  | .stackPatrolScrub d errs => Sys2Proof.Machine.execStackPatrolScrub d errs s
  | .spadPatrolScrub pc word errs => Sys2Proof.Machine.execSpadPatrolScrub pc word errs s
  | .initSweep k => Sys2Proof.Machine.execInitSweep k s
  | .incEpoch d region count => Sys2Proof.Machine.execIncEpoch d region count s
  | .setClass d region count cls => Sys2Proof.Machine.execSetClass d region count cls s
  | .setLost d region count => Sys2Proof.Machine.execSetLost d region count s
  | .clearLost d region count => Sys2Proof.Machine.execClearLost d region count s
  | .regionCmdComplete nth => Sys2Proof.Machine.execRegionCmdComplete nth s
  | .firmwareRegionRestore region image verified => Sys2Proof.Machine.execFirmwareRegionRestore region image verified s
  | .warmReset d => Sys2Proof.Machine.execWarmReset d s
  | .coldDieLoss d => Sys2Proof.Machine.execColdDieLoss d s
  | .dieRejoin d => Sys2Proof.Machine.execDieRejoin d s
  | .ewFlitReceive p flit hits => Sys2Proof.Machine.execEwFlitReceive p flit hits s
  | .ewNak p seq => Sys2Proof.Machine.execEwNak p seq s
  | .linkIdleTimer p => Sys2Proof.Machine.execLinkIdleTimer p s
  | .portRetrain p => Sys2Proof.Machine.execPortRetrain p s
  | .portRetrainDone p width => Sys2Proof.Machine.execPortRetrainDone p width s
  | .transferOriginate d src => Sys2Proof.Machine.execTransferOriginate d src s
  | .transferHop p buf => Sys2Proof.Machine.execTransferHop p buf s
  | .write d => Sys2Proof.Machine.execWrite d s
  | .land d => Sys2Proof.Machine.execLand d s
  | .signal d => Sys2Proof.Machine.execSignal d s
  | .signalRelease d => Sys2Proof.Machine.execSignalRelease d s
  | .fence d => Sys2Proof.Machine.execFence d s
  | .fenceRelease d => Sys2Proof.Machine.execFenceRelease d s
  | .fenceAck d => Sys2Proof.Machine.execFenceAck d s
  | .credit d => Sys2Proof.Machine.execCredit d s
  | .completion d => Sys2Proof.Machine.execCompletion d s
  | .completionTimer d src flow => Sys2Proof.Machine.execCompletionTimer d src flow s
  | .chunk d rq residue => Sys2Proof.Machine.execChunk d rq residue s
  | .read d => Sys2Proof.Machine.execRead d s
  | .readData d => Sys2Proof.Machine.execReadData d s
  | .jasper d => Sys2Proof.Machine.execJasper d s
  | .timeSyncEntry p stamp depth => Sys2Proof.Machine.execTimeSyncEntry p stamp depth s
  | .delayMeasurement p rtt => Sys2Proof.Machine.execDelayMeasurement p rtt s
  | .fabricTimeUnlock d => Sys2Proof.Machine.execFabricTimeUnlock d s
  | .ceDescriptorStart d residue => Sys2Proof.Machine.execCeDescriptorStart d residue s
  | .ceDescriptorComplete d => Sys2Proof.Machine.execCeDescriptorComplete d s
  | .packageFlitReceive d e m sent flips => Sys2Proof.Machine.execPackageFlitReceive d e m sent flips s
  | .d2dNak d e seq => Sys2Proof.Machine.execD2dNak d e seq s
  | .moduleRetrain d e m rate => Sys2Proof.Machine.execModuleRetrain d e m rate s
  | .moduleRetrainDone d e m ok repaired beyond lanes => Sys2Proof.Machine.execModuleRetrainDone d e m ok repaired beyond lanes s
  | .d2dCtrlRetrain d e => Sys2Proof.Machine.execD2dCtrlRetrain d e s
  | .fabOut pd => Sys2Proof.Machine.execFabOut pd s
  | .fabIn d => Sys2Proof.Machine.execFabIn d s
  | .cfgRd pd => Sys2Proof.Machine.execCfgRd pd s
  | .cfgWr pd => Sys2Proof.Machine.execCfgWr pd s
  | .cfgRsp d => Sys2Proof.Machine.execCfgRsp d s
  | .hello d e m => Sys2Proof.Machine.execHello d e m s
  | .helloTimer d => Sys2Proof.Machine.execHelloTimer d s
  | .edgeSilentTimeout d e => Sys2Proof.Machine.execEdgeSilentTimeout d e s
  | .position d e m => Sys2Proof.Machine.execPosition d e m s
  | .qrecReq pd e => Sys2Proof.Machine.execQrecReq pd e s
  | .qrec d m => Sys2Proof.Machine.execQrec d m s
  | .portAdmission d at32 at16 => Sys2Proof.Machine.execPortAdmission d at32 at16 s
  | .admitResult pd e m => Sys2Proof.Machine.execAdmitResult pd e m s
  | .resetNotice d e => Sys2Proof.Machine.execResetNotice d e s
  | .heartbeat d e m => Sys2Proof.Machine.execHeartbeat d e m s
  | .dieLossTimeout d e => Sys2Proof.Machine.execDieLossTimeout d e s
  | .phaseEndDetect => Sys2Proof.Machine.execPhaseEndDetect s
  | .phaseEnd => Sys2Proof.Machine.execPhaseEnd s
  | .phaseGo => Sys2Proof.Machine.execPhaseGo s
  | .commitBoundaryActions tests => Sys2Proof.Machine.execCommitBoundaryActions tests s
  | .normPass d ix residue => Sys2Proof.Machine.execNormPass d ix residue s
  | .dieRecordBuild residue => Sys2Proof.Machine.execDieRecordBuild residue s
  | .decisionDerive d => Sys2Proof.Machine.execDecisionDerive d s
  | .checkpointRestore => Sys2Proof.Machine.execCheckpointRestore s
  | .ruleStart d => Sys2Proof.Machine.execRuleStart d s
  | .itemRelease d => Sys2Proof.Machine.execItemRelease d s
  | .remoteTierFetch d => Sys2Proof.Machine.execRemoteTierFetch d s
  | .pxor d faults => Sys2Proof.Machine.execPxor d faults s
  | .parityValidSet => Sys2Proof.Machine.execParityValidSet s
  | .storedCheckpointReadout => Sys2Proof.Machine.execStoredCheckpointReadout s
  | .layoutInstall => Sys2Proof.Machine.execLayoutInstall s
  | .reconstruction d slot par => Sys2Proof.Machine.execReconstruction d slot par s
  | .selfRebuild => Sys2Proof.Machine.execSelfRebuild s
  | .digestRun d => Sys2Proof.Machine.execDigestRun d s
  | .digestBlockWrite => Sys2Proof.Machine.execDigestBlockWrite s
  | .digestCompare => Sys2Proof.Machine.execDigestCompare s
  | .errorRingWrite d => Sys2Proof.Machine.execErrorRingWrite d s
  | .portRecordForward pd => Sys2Proof.Machine.execPortRecordForward pd s
  | .errorForward => Sys2Proof.Machine.execErrorForward s
  | .retirementRecordWrite => Sys2Proof.Machine.execRetirementRecordWrite s
  | .firmwareVerify fl aOk bOk slow pins => Sys2Proof.Machine.execFirmwareVerify fl aOk bOk slow pins s
  | .firmwareDistribute => Sys2Proof.Machine.execFirmwareDistribute s
  | .assemblyCertCheck => Sys2Proof.Machine.execAssemblyCertCheck s
  | .firmwareCommit => Sys2Proof.Machine.execFirmwareCommit s
  | .keyStoreWrite => Sys2Proof.Machine.execKeyStoreWrite s
  | .enrol => Sys2Proof.Machine.execEnrol s
  | .revoke => Sys2Proof.Machine.execRevoke s
  | .getIdentity => Sys2Proof.Machine.execGetIdentity s
  | .getCerts => Sys2Proof.Machine.execGetCerts s
  | .attest => Sys2Proof.Machine.execAttest s
  | .getKeys => Sys2Proof.Machine.execGetKeys s
  | .sessionChallenge => Sys2Proof.Machine.execSessionChallenge s
  | .challengeExpiry id => Sys2Proof.Machine.execChallengeExpiry id s
  | .sessionOpen => Sys2Proof.Machine.execSessionOpen s
  | .sessionClose => Sys2Proof.Machine.execSessionClose s
  | .sessionIdleTimeout id => Sys2Proof.Machine.execSessionIdleTimeout id s
  | .sessionInfo => Sys2Proof.Machine.execSessionInfo s
  | .configRead => Sys2Proof.Machine.execConfigRead s
  | .configWrite => Sys2Proof.Machine.execConfigWrite s
  | .setNetwork => Sys2Proof.Machine.execSetNetwork s
  | .setTelemetry => Sys2Proof.Machine.execSetTelemetry s
  | .loadImage => Sys2Proof.Machine.execLoadImage s
  | .jobStart => Sys2Proof.Machine.execJobStart s
  | .jobStop => Sys2Proof.Machine.execJobStop s
  | .jobStatus => Sys2Proof.Machine.execJobStatus s
  | .loadLayout => Sys2Proof.Machine.execLoadLayout s
  | .layoutCommit => Sys2Proof.Machine.execLayoutCommit s
  | .streamOpen => Sys2Proof.Machine.execStreamOpen s
  | .streamNotify handle => Sys2Proof.Machine.execStreamNotify handle s
  | .streamClose => Sys2Proof.Machine.execStreamClose s
  | .memRead => Sys2Proof.Machine.execMemRead s
  | .memWrite => Sys2Proof.Machine.execMemWrite s
  | .regionCmd => Sys2Proof.Machine.execRegionCmd s
  | .ckptConfig => Sys2Proof.Machine.execCkptConfig s
  | .setPowerBudget => Sys2Proof.Machine.execSetPowerBudget s
  | .getPower => Sys2Proof.Machine.execGetPower s
  | .setThermal => Sys2Proof.Machine.execSetThermal s
  | .getErrors => Sys2Proof.Machine.execGetErrors s
  | .eventSubscribe => Sys2Proof.Machine.execEventSubscribe s
  | .commandStatus => Sys2Proof.Machine.execCommandStatus s
  | .getCounters => Sys2Proof.Machine.execGetCounters s
  | .runSelftest => Sys2Proof.Machine.execRunSelftest s
  | .fwStage => Sys2Proof.Machine.execFwStage s
  | .fwActivate => Sys2Proof.Machine.execFwActivate s
  | .calRead => Sys2Proof.Machine.execCalRead s
  | .calWrite => Sys2Proof.Machine.execCalWrite s
  | .funcEnable => Sys2Proof.Machine.execFuncEnable s
  | .funcDisable => Sys2Proof.Machine.execFuncDisable s
  | .funcStatus => Sys2Proof.Machine.execFuncStatus s
  | .retireCore => Sys2Proof.Machine.execRetireCore s
  | .retrain => Sys2Proof.Machine.execRetrain s
  | .dieReset => Sys2Proof.Machine.execDieReset s
  | .domainJoin => Sys2Proof.Machine.execDomainJoin s
  | .domainLeave => Sys2Proof.Machine.execDomainLeave s
  | .domainStatus => Sys2Proof.Machine.execDomainStatus s
  | .reconstruct => Sys2Proof.Machine.execReconstruct s
  | .cstSyn => Sys2Proof.Machine.execCstSyn s
  | .cstData => Sys2Proof.Machine.execCstData s
  | .cstAck => Sys2Proof.Machine.execCstAck s
  | .cstFin => Sys2Proof.Machine.execCstFin s
  | .cstRst => Sys2Proof.Machine.execCstRst s
  | .cstPing => Sys2Proof.Machine.execCstPing s
  | .cstPong => Sys2Proof.Machine.execCstPong s
  | .cstAckTimer conn => Sys2Proof.Machine.execCstAckTimer conn s
  | .cstRetxTimer conn => Sys2Proof.Machine.execCstRetxTimer conn s
  | .cstPingTimer conn => Sys2Proof.Machine.execCstPingTimer conn s
  | .cstIdleClose conn => Sys2Proof.Machine.execCstIdleClose conn s
  | .telemetrySample kind d q => Sys2Proof.Machine.execTelemetrySample kind d q s
  | .shedRise => Sys2Proof.Machine.execShedRise s
  | .shedFall => Sys2Proof.Machine.execShedFall s
  | .frameReceive p bytes fcs => Sys2Proof.Machine.execFrameReceive p bytes fcs s
  | .serviceLinkUp p form => Sys2Proof.Machine.execServiceLinkUp p form s
  | .regRead space off => Sys2Proof.Machine.execRegRead space off s
  | .regWrite ok space off value mask => Sys2Proof.Machine.execRegWrite ok space off value mask s
  | .lastStatus => Sys2Proof.Machine.execLastStatus s
  | .summary => Sys2Proof.Machine.execSummary s
  | .alertResponse => Sys2Proof.Machine.execAlertResponse s
  | .jtagCfg d v => Sys2Proof.Machine.execJtagCfg d v s
  | .idcode d => Sys2Proof.Machine.execIdcode d s
  | .bypass d => Sys2Proof.Machine.execBypass d s
  | .samplePreload d pins load => Sys2Proof.Machine.execSamplePreload d pins load s
  | .extest d pins load => Sys2Proof.Machine.execExtest d pins load s
  | .rcRead space off => Sys2Proof.Machine.execRcRead space off s
  | .registerWrite space off v => Sys2Proof.Machine.execRegisterWrite space off v s
  | .reservedEngineCodeOrOpcode lc st ph word => Sys2Proof.Machine.execReservedEngineCodeOrOpcode lc st ph word s
  | .dmFillComplete lc st => Sys2Proof.Machine.execDmFillComplete lc st s
  | .timeSyncSend ports => Sys2Proof.Machine.execTimeSyncSend ports s
  | .d2dIdleTimer d e => Sys2Proof.Machine.execD2dIdleTimer d e s
  | .flashWriteComplete ok => Sys2Proof.Machine.execFlashWriteComplete ok s
  | .fwActivationDone => Sys2Proof.Machine.execFwActivationDone s
  | .serviceLinkDown p => Sys2Proof.Machine.execServiceLinkDown p s

end Sys2Proof.Machine
end

