-- ==== Sys2Proof/Machine/Step.lean ====
section
/-!
DEFINITION. One step of the package: the oldest command that waits has its effect, or, with none waiting, 10 ns pass.
-/

namespace Sys2Proof.Machine

/-- The step. Commands wait in the order in which they came; with an empty queue the step is one period of REFCLK_100: DIE_TIMEBASE and fabric
time advance (R271, R389). (DESIGN CHOICE, log entries 1 and 3.) -/
def step (s : State) : Host.Outcome State Fault Refusal :=
  match s.pending with
  | [] => .next s.tick
  | c :: rest => exec c { s with pending := rest }

/-- The state with the command that a word spells put at the front of the queue; unchanged where the word spells none.
(DESIGN CHOICE, log entry 4.) -/
def State.withFetchWord (s : State) (nbits w : Nat) : State :=
  match decodeTableWord nbits w with
  | none => s
  | some c => { s with pending := c :: s.pending }

end Sys2Proof.Machine
end

