-- ==== Sys2Proof/Safety.lean ====
section
/-!
DEFINITION. What claims about runs use: the canonical form of a state's tables, and that a step goes on.
-/

namespace Sys2Proof.Machine

/-- The register file and stack memory are in their canonical forms: a register that holds its reset value is not listed, and neither is a byte that
holds what unwritten memory reads as. States that read alike are then equal as data. -/
def State.Canon (s : State) : Prop := mapWf regReset s.regs ∧ s.mem.wf

/-- A command goes on from a state: it neither faults nor is refused. -/
def GoesOn (c : Instr) (s : State) : Prop := ∃ t, exec c s = .next t

/-- A safe run: `n` steps that each go on. -/
def State.SafeFor : Nat → State → Prop
  | 0, _ => True
  | n + 1, s => ∃ t, step s = .next t ∧ t.SafeFor n

end Sys2Proof.Machine
end

