-- ==== Sys2Proof/WellFormed.lean ====
section
/-!
DEFINITION. Which commands are well formed. Most operands are of a type that holds exactly what the spec admits; the checks here
are for operands given as numbers or lists, such as the bytes of a certificate or the symbols a medium got wrong.
-/

namespace Sys2Proof

/-- Distinct symbols of a code word of `n` symbols of `w` bits, each with some bit wrong (R189, R193). -/
def errsOk (n w : Nat) (l : List SymErr) : Bool :=
  l.all (fun e => decide (e.pos < n) && decide (0 < e.flip) && decide (e.flip < 2 ^ w)) && decide ((l.map SymErr.pos).Nodup)

/-- A region's contents: 16 MiB (R46). -/
def regionBytes : Nat := 16777216

/-- What two flash devices can hold (Table 14.2): certificates within 64 KiB, key records of 128 B within two sectors, the calibration table
within 256 KiB, and slots within 32 MiB. -/
def FlashImage.ok (f : FlashImage) : Bool :=
  decide (f.asmA.length ≤ 65536) && decide (f.asmB.length ≤ 65536) && decide (f.keys.length ≤ 1024)
    && decide (f.cal.length ≤ 262144) && decide (f.slotA.length ≤ 33554432) && decide (f.slotB.length ≤ 33554432)

/-- A command as the environment can give it. (DESIGN CHOICE, log entry 20.) -/
def Instr.wf : Instr → Bool
  | .dieResetRelease d _ _ _ cert record _ =>
    decide (cert.length = 160) && (if d.val < 4 then record.isEmpty else decide (record.length = 128))
  | .pmbusPoll reads => decide ((reads.map Prod.fst).Nodup)
  | .functionReady id cols unloc _ _ _ _ =>
    if id.toNat / 4096 = 2 then decide (cols.length = 4) && decide (unloc.length = 4) else cols.isEmpty && unloc.isEmpty
  | .stackRead _ _ errs => errsOk 72 16 errs
  | .stackPatrolScrub _ errs => errsOk 72 16 errs
  | .spadPatrolScrub _ _ errs => errsOk 68 8 errs
  | .firmwareRegionRestore _ image _ => decide (image.length = regionBytes)
  | .commitBoundaryActions tests => tests.all (fun t => decide (t.1 < 288)) && decide ((tests.map Prod.fst).Nodup)
  | .pxor _ faults => faults.all (fun f => decide (f.1 < 131072) && f.2 != 0) && decide ((faults.map Prod.fst).Nodup)
  | .reconstruction _ _ par => decide (par.length ≤ 15)
  | .portAdmission _ at32 at16 => decide (at32.length = 6) && decide (at16.length = 6)
  | .firmwareVerify fl _ _ _ _ => fl.ok
  | .samplePreload _ pins drive => decide (pins.length = drive.length)
  | .extest _ pins drive => decide (pins.length = drive.length)
  | .timeSyncSend ports => decide ports.Nodup
  | _ => true

end Sys2Proof
end

