-- ==== Sys2Proof/Certificates/Slice0/Obligations.lean ====
section
/-!
DEFINITION. What is claimed of the model: one definition for each obligation. Most state, for each command named, that from every state meeting
the conditions the spec gives it answers a next state, and what holds of that state.
-/

open Sys2Proof Sys2Proof.Machine

/-- A step is the oldest waiting command's effect on the state with the rest of the queue (the block's form, log entry 1). -/
def Obligations.StepTakesOldestCommand : Prop :=
  ∀ (c : Instr) (rest : List Instr) (s : State), step { s with pending := c :: rest } = exec c { s with pending := rest }

/-- R387: DIE_TIMEBASE adds 10 ns at every edge of REFCLK_100; that an idle step is one edge is log entry 3. -/
def Obligations.IdleStepPassesTenNanoseconds : Prop :=
  ∀ s : State, s.pending = [] → ∃ t, step s = .next t ∧
    (∀ d < 6, t.reg d oDieTimebase = if s.dieUp d then s.reg d oDieTimebase + 10 else s.reg d oDieTimebase) ∧
    t.mem = s.mem ∧ t.cores = s.cores ∧ t.job = s.job ∧ t.ctl = s.ctl ∧ t.out = s.out ∧ t.pending = []

/-- R3, R425, R388, R460: nothing is kept across the loss of all supplies, or a reset with its effect, but flash and the qualification records. -/
def Obligations.LossOfSuppliesKeepsNothing : Prop :=
  ∀ s : State, ∃ a b c e, exec .pkgResetNAssert s = .next a ∧ exec .refclk100Loss s = .next b ∧ exec .thermtrip s = .next c ∧
    exec (.railFailure 14) s = .next e ∧
    a.pwr.tripped = false ∧ b.pwr.tripped = s.pwr.tripped ∧ c.pwr.tripped = true ∧ e.pwr.tripped = false ∧
    ∀ t ∈ [a, b, c, e], (∀ d, t.die d = if d = 4 ∨ d = 5 then { Die.reset with record := (s.die d).record } else Die.reset) ∧ (∀ d off, t.reg d off = regReset (regKey d off)) ∧ t.mem = MemState.reset ∧
      (∀ f, t.func f = 0) ∧ t.job.running = false ∧ t.flash.keys = s.flash.keys ∧ t.flash.retired = s.flash.retired ∧ t.pending = s.pending

/-- R425, R215, R217, R388, R472: what each loss does to a running die. -/
def Obligations.DieLossesByCause : Prop :=
  (∀ (d : Fin 4) (s : State), s.dieUp d = true →
    (∃ t, exec (.coldDieLoss d) s = .next t ∧ (t.die d).st = .lostCold ∧ (∀ r, (t.mem.region r).lost = true) ∧ t.job.running = false) ∧
    (∃ t, exec (.warmReset d) s = .next t ∧ (t.die d).st = .lostWarm) ∧
    (∀ k : Fin 15, k.val < 8 → k.val % 4 = d.val → ∃ t, exec (.railFailure k) s = .next t ∧ (t.die d).st = .lostCold ∧ ∀ r, (t.mem.region r).lost = true)) ∧
  (∀ (k : Fin 15) (s : State), 8 ≤ k.val → k.val < 11 → s.dieUp 4 = true → s.dieUp 5 = true →
    ∃ t, exec (.railFailure k) s = .next t ∧ (t.die 4).st = .lostWarm ∧ (t.die 5).st = .lostWarm) ∧
  (∀ (k : Fin 15) (s : State), 11 ≤ k.val → k.val < 14 → ∃ t, exec (.railFailure k) s = .next t ∧ ∀ r, (t.mem.region r).lost = true) ∧
  (∀ (d : Fin 6) (s : State), d.val < 4 → s.dieUp d = true →
    (∃ t, exec (.pllLoss d 3) s = .next t ∧ (t.die d).st = .lostCold) ∧
    (∃ t, exec (.pllLoss d 2) s = .next t ∧ (t.die d).st = .lostWarm) ∧ (∃ t, exec (.pllLoss d 4) s = .next t ∧ (t.die d).st = .lostWarm) ∧
    (s.getF d fClkStatusCpllSel = 0 → (∃ t, exec (.pllLoss d 0) s = .next t ∧ (t.die d).st = .lostCold) ∧
      ∃ t, exec (.pllLoss d 1) s = .next t ∧ t.getF d fClkStatusCpllB = 0 ∧ t.dies = s.dies ∧
        t.pwr.change = s.pwr.change.map (fun c => { c with locked := false }))) ∧
  (∀ (d k : Fin 6) (s : State), 4 ≤ d.val → 4 ≤ k.val → s.dieUp d = true → ∃ t, exec (.pllLoss d k) s = .next t ∧ (t.die d).st = .lostWarm)

/-- R424, R478, R430, R393: release from reset, and the start of firmware on the other compute dies. -/
def Obligations.DieReleaseStartsBootRom : Prop :=
  (∀ (d : Fin 6) (xspi : Bool) (found : BitVec 3) (fuse : BitVec 64) (cert record : List Byte) (smb : BitVec 2) (s : State),
    s.dieUp d = false → s.pwr.tripped = false →
    ∃ t, exec (.dieResetRelease d xspi found fuse cert record smb) s = .next t ∧ t.dieUp d = true ∧ t.getF d fBootStatusStage = 1 ∧
      (t.die d).cert = cert ∧ (d = 0 → t.smbAddr = smb.toNat) ∧ t.mem = s.mem) ∧
  (∀ (d : Fin 6) (s : State), 0 < d.val → d.val < 4 → s.leadRuns = true → s.lead = 0 → s.dieUp d = true → s.discFailed = false → s.getF d fD2dDiscPos ≠ 7 →
    s.getF d fBootStatusStage < 4 → s.reg d oFuseState = s.reg s.lead oFuseState → fwCheck (s.imageFor d).1 (s.reg d oFuseState) = 0 →
    (∃ t, exec (.dieRejoin d) s = .next t ∧ t.getF d fBootStatusStage = 4) ∧
    ((∀ k, k ≠ d.val → k ≠ 0 → s.dieUp k = false) → ∃ t, exec .firmwareDistribute s = .next t ∧ t.getF d fBootStatusStage = 4))

/-- R450, R457, R458: the brownout and the issue governor. -/
def Obligations.BrownoutAndGovernorGateIssue : Prop :=
  (∀ s : State, s.pwr.low = false → ∃ t, exec .brownoutNFall s = .next t ∧ t.pwr.low = true ∧ t.mem = s.mem ∧ t.cores = s.cores ∧ t.job = s.job ∧
    ∀ d < 4, s.dieUp d = true → t.flag d fPwrStatusBrownout = true ∧ t.getF d fPwrStatusGate = 16) ∧
  (∀ s : State, s.pwr.low = true → exec .brownoutNRise s = .next (s.modPwr (fun x => { x with low := false, hold := true }))) ∧
  (∀ (est : BitVec 32) (s : State), s.pwr.hold = true → ∃ t, exec (.brownoutHoldExpiry est) s = .next t ∧ t.pwr.hold = false ∧
    t.mem = s.mem ∧ t.cores = s.cores ∧ t.job = s.job ∧ ∀ d < 4, s.dieUp d = true → t.flag d fPwrStatusBrownout = false) ∧
  (∀ (d : Fin 4) (mw icc : BitVec 32) (s : State), s.dieUp d = true →
      ∃ t, exec (.governorTick d mw icc) s = .next t ∧ t.mem = s.mem ∧ t.cores = s.cores ∧ (∀ d' off, d' ≠ d.val → off < 0x1000000 → t.reg d' off = s.reg d' off) ∧
        (s.flag d fPwrStatusCrit = true → t.getF d fPwrStatusGate = 16) ∧
        (s.flag d fPwrStatusCrit = false → s.flag d fPwrStatusBrownout = false →
          (mw.toNat > s.getF d fPwrGovPwrLimitW * 1000 ∨ icc.toNat > s.getF d fPwrGovIccLimit →
            t.getF d fPwrStatusGate = min 16 (s.getF d fPwrStatusGate + 1)) ∧
          (mw.toNat * 100 < s.getF d fPwrGovPwrLimitW * 1000 * 97 → icc.toNat * 100 < s.getF d fPwrGovIccLimit * 97 →
            t.getF d fPwrStatusGate = s.getF d fPwrStatusGate - 1)))

/-- R451, R452, R386: the power manager and a change of power state. -/
def Obligations.PowerStateChanges : Prop :=
  (∀ (gated idle : Bool) (est : BitVec 32) (s : State), s.leadRuns = true →
    ∃ t, exec (.powerManagerTick gated idle est) s = .next t ∧ t.mem = s.mem ∧ t.cores = s.cores ∧ t.job = s.job ∧
      t.getF s.lead fPwrBudgetCfgEffectiveW = s.budget.1 ∧
      ∀ d < 4, s.dieUp d = true → t.getF d fPwrMeasPkgMw = s.railsMw (span 0 15) % 2 ^ fPwrMeasPkgMw.width) ∧
  (∀ (c : PwrChange) (s : State), s.pwr.change = some c → c.goal ≤ 5 →
    (c.volt = true → ∃ t, exec .cpllLock s = .next t ∧ t.pwr.change = none ∧ t.mem = s.mem ∧ t.cores = s.cores ∧ ∀ d < 4, s.dieUp d = true → t.getF d fPwrStatusState = c.goal) ∧
    (c.volt = false → exec .cpllLock s = .next ((s.showIdle 1).modPwr (fun x => { x with change := some { c with locked := true } }))) ∧
    (c.up = true → c.locked = true → ∃ t, exec (.voutSettle true) s = .next t ∧ t.pwr.change = none ∧ t.mem = s.mem ∧ t.cores = s.cores ∧
      ∀ d < 4, s.dieUp d = true → t.getF d fPwrStatusState = c.goal) ∧
    (c.up = true → ∃ t, exec (.voutSettle false) s = .next t ∧ t.pwr.change = none ∧ t.mem = s.mem ∧ t.cores = s.cores ∧
      ∀ d < 4, t.getF d fPwrStatusState = s.getF d fPwrStatusState))

/-- R459: thermal limits. -/
def Obligations.ThermalLimits : Prop :=
  (∀ (d : Fin 4) (own : BitVec 12) (sensor : BitVec 6) (port : BitVec 12) (ps : BitVec 4) (s : State), 2 ≤ d.val → s.dieUp d = true →
    s.flag d fThermStatusHot = false → s.flag d fThermStatusCrit = false →
    ∃ t, exec (.thermalSample d own sensor port ps) s = .next t ∧ t.mem = s.mem ∧ t.cores = s.cores ∧ t.job = s.job ∧
      t.getF d fThermStatusTmax = own.toNat ∧ (t.flag d fThermStatusHot = true ↔ s.getF d fThermCfgTHot ≤ own.toNat) ∧
      (t.flag d fThermStatusCrit = true ↔ s.getF d fThermCfgTCrit ≤ own.toNat) ∧
      (s.getF d fThermCfgTHot ≤ own.toNat → t.alert = true) ∧
      (s.getF d fThermCfgTCrit ≤ own.toNat → t.alert = true ∧ t.getF d fPwrStatusGate = 16)) ∧
  (∀ (d : Fin 4) (s : State), s.dieUp d = true →
    ∃ t, exec (.hotCapTimer d) s = .next t ∧ t.mem = s.mem ∧ t.cores = s.cores ∧ t.job = s.job ∧
      (s.flag d fThermStatusHot = true → mapGet (fun _ => 0) t.pwr.caps d = min 5 (mapGet (fun _ => 0) s.pwr.caps d + 1)) ∧
      (s.flag d fThermStatusHot = false → s.flag d fThermStatusCrit = false → mapGet (fun _ => 0) s.pwr.caps d ≤ 5 →
        mapGet (fun _ => 0) t.pwr.caps d = mapGet (fun _ => 0) s.pwr.caps d - 1))

/-- R454, R455, R489, R478: rail telemetry, the pin budget, and the level of ENROL_N. -/
def Obligations.RailTelemetry : Prop :=
  (∀ (k : Fin 15) (mv ma temp : Nat) (s : State), s.leadRuns = true →
    exec (.pmbusPoll [(k, some mv, some ma, some temp)]) s = .next (s.setRail k ⟨mv, ma, temp, false⟩)) ∧
  (∀ (k : Fin 15) (s : State), s.leadRuns = true → (∀ d, mapGet (fun _ => 0) s.pwr.caps d ≤ 5) →
    ∃ t, exec (.vrmTelemetryLoss k) s = .next t ∧ (t.rail k).lost = true ∧ t.mem = s.mem ∧ t.cores = s.cores ∧
      (s.flag s.lead fPwrStatusBrownout = false → 3 ≤ t.getF s.lead fPwrStatusTarget)) ∧
  (∀ s : State, exec .pmbAlert s = .next s) ∧
  (∀ (low : Bool) (s : State), s.leadRuns = true →
    ∃ t, exec (.enrolNChange low) s = .next t ∧ t.pwr.enrol = low ∧ t.flag common fOpkeyStatusPin = low ∧ t.mem = s.mem ∧ t.cores = s.cores) ∧
  (∀ (code : BitVec 3) (a b : Nat) (s : State), s.leadRuns = true → s.pwr.pins = [a, b, code.toNat] →
      ∃ t, exec (.pwrBudgetSample code) s = .next t ∧ t.mem = s.mem ∧ t.cores = s.cores ∧ t.job = s.job ∧
        (b = code.toNat → t.getF s.lead fPwrBudgetCfgPinCode = code.toNat) ∧
        (b ≠ code.toNat → t.getF s.lead fPwrBudgetCfgPinCode = s.getF s.lead fPwrBudgetCfgPinCode))
/-- R370, R371, R374: sequence, NAK and replay on a die-to-die edge. -/
def Obligations.DieToDieFlitsAreTakenInOrder : Prop :=
  (∀ (d : Fin 6) (e : Fin 3) (m : Fin 24) (sent flips : BitVec 2048) (p pe : Nat) (y : Edge) (s : State),
    edgePeer d e = some (p, pe) → s.edgeUp d e = true → s.edgeUp p pe = true → (s.stripes d e).contains m.val = true →
    s.moduleOf p pe (pfSeq sent) = m.val → pfCrc sent = fld sent 2016 32 → (s.edge p pe).sends (portEdge d e) sent (replayDepth p pe) = some y →
    ∃ t, exec (.packageFlitReceive d e m sent flips) s = .next t ∧ t.mem = s.mem ∧ t.cores = s.cores ∧ t.job = s.job ∧
      (pfCrc (sent ^^^ flips) ≠ fld (sent ^^^ flips) 2016 32 → (∀ n, (s.edge d e).skip = some n → pfSeq (sent ^^^ flips) = (s.edge d e).rxSeq) →
        t.getF d (edgeF e fD2dCrcErrCntCount) = satAdd (2 ^ fD2dCrcErrCntCount.width - 1) (s.getF d (edgeF e fD2dCrcErrCntCount)) 1 ∧
        (t.edge d e).skip.isSome = true ∧ (t.edge d e).rxSeq = (s.edge d e).rxSeq ∧
        ∃ k g, pfType g = 2 ∧ t.out = s.out ++ [.d2dNak d e (s.edge d e).rxSeq, .pkgFlit d e k g]) ∧
      (∀ z, flips = 0 → pfType sent = 1 → fld sent 28 3 ≤ 4 → fld sent 44 20 = 0 → pfSeq sent = (s.edge d e).rxSeq →
        takeMsgs (msgOk (portEdge d e) (decide (d.val ≥ 4))) (s.grantOf d e) (s.edge d e).part sent (s.edge d e).held = some z →
        (portEdge d e = true → z.whole.all msgBodyOk = true) →
        (t.edge d e).rxSeq = ((s.edge d e).rxSeq + 1) % 4096 ∧ (t.edge d e).skip = none ∧ (t.edge d e).part = z.part ∧
          t.msgs.length = s.msgs.length + (if portEdge d e then z.whole.length else 0) ∧ ((s.edge d e).waits = [] → t.out = s.out))) ∧
  (∀ (d : Fin 6) (e : Fin 3) (seq : BitVec 12) (f : BitVec 2048) (pre post : List (BitVec 2048)) (s : State), s.edgeUp d e = true →
    (s.edge d e).replay = pre ++ f :: post → pfSeq f = seq.toNat → (∀ g ∈ pre, pfSeq g ≠ seq.toNat) →
    ∃ t, exec (.d2dNak d e seq) s = .next t ∧ (t.edge d e).replay = f :: post ∧ t.out.length = s.out.length + post.length + 1 ∧
      t.mem = s.mem ∧ t.cores = s.cores ∧ t.regs = s.regs) ∧
  (∀ (d : Fin 6) (e : Fin 3) (s : State), s.edgeUp d e = true →
    ∃ t, exec (.d2dIdleTimer d e) s = .next t ∧ t.mem = s.mem ∧ t.cores = s.cores ∧ t.regs = s.regs ∧
      (s.edgeNext d e = none → ∃ m f, t.out = s.out ++ [.pkgFlit d e m f] ∧ pfType f = 0) ∧
      (∀ w, s.edgeNext d e = some w → (t.edge d e).waits.length < (s.edge d e).waits.length))

/-- R375, R376: retraining of modules. -/
def Obligations.ModulesRetrain : Prop :=
  (∀ (d : Fin 6) (e : Fin 3) (m : Fin 24) (s : State), s.edgeUp d e = true → natBits (s.getF d (edgeF e fD2dModulesEnabled)) m 1 = 1 →
    (s.edge d e).retraining.contains m.val = false →
    ∃ t, exec (.moduleRetrain d e m true) s = .next t ∧ t.mem = s.mem ∧ t.cores = s.cores ∧
      t.getF d (edgeF e fD2dRetrainCntCount) = satAdd (2 ^ fD2dRetrainCntCount.width - 1) (s.getF d (edgeF e fD2dRetrainCntCount)) 1 ∧
      ((edgePeer d e).isSome = true → (t.edge d e).retraining.contains m.val = true)) ∧
  (∀ (d : Fin 6) (e : Fin 3) (m : Fin 24) (repaired : Bool) (lanes : BitVec 8) (s : State), (edgePeer d e).isSome = true →
    (s.edge d e).retraining.contains m.val = true → (s.edge d e).turn = [] →
    ∃ t, exec (.moduleRetrainDone d e m true repaired false lanes) s = .next t ∧ t.mem = s.mem ∧ t.cores = s.cores ∧
      (t.edge d e).retraining.contains m.val = false) ∧
  (∀ (d : Fin 6) (e : Fin 3) (m : Nat) (r : List Nat) (s : State), s.edgeUp d e = true → (edgePeer d e).isSome = true → (s.edge d e).retraining = [] →
    maskBits (s.getF d (edgeF e fD2dModulesEnabled)) 24 = m :: r →
    ∃ t, exec (.d2dCtrlRetrain d e) s = .next t ∧ t.mem = s.mem ∧ t.cores = s.cores ∧ (t.edge d e).retraining = [m] ∧ (t.edge d e).turn = r)

/-- R379: discovery. -/
def Obligations.DiscoveryAssignsPositions : Prop :=
  (∀ (d : Fin 6) (s : State), d.val < 4 → s.dieUp d = true → (∀ e < 3, s.edgeKnown d e = false) →
    ∃ t, exec (.helloTimer d) s = .next t ∧ t.mem = s.mem ∧ t.cores = s.cores ∧ t.regs = s.regs ∧
      t.out = s.out ++ [0, 1, 2].map (fun e => .sideband d e (s.sideOf d e) (s.ownMsg d e 0 (s.getF d fD2dDiscPos) 0 0)) ∧
      ∀ e < 3, t.sideOf d e = (s.sideOf d e + 1) % edgeModules d e) ∧
  (∀ (d : Fin 6) (e : Fin 3) (m : BitVec 128) (s : State), s.dieUp d = true → (edgePeer d e).isSome = true →
    fld m 0 8 = 0 → fld m 12 4 = 0 → fld m 18 6 = 0 → fld m 27 5 = 0 →
    ∃ t, exec (.hello d e m) s = .next t ∧ t.mem = s.mem ∧ t.cores = s.cores ∧
      mapGet (fun _ => none) (t.die d).hello e = some m ∧ natBits (t.getF d fD2dDiscFound) e 1 = 1) ∧
  (∀ (d : Fin 6) (e : Fin 3) (s : State), s.dieUp d = true → s.edgeKnown d e = false →
    ∃ t, exec (.edgeSilentTimeout d e) s = .next t ∧ t.mem = s.mem ∧ t.cores = s.cores ∧ (t.die d).silent = (s.die d).silent ++ [e.val]) ∧
  (∀ (d : Fin 6) (e : Fin 3) (m : BitVec 128) (s : State), s.dieUp d = true → (edgePeer d e).isSome = true → fld m 0 8 = 1 →
    fld m 24 3 = d.val → s.getF d fD2dDiscPos = 7 →
    ∃ t, exec (.position d e m) s = .next t ∧ t.mem = s.mem ∧ t.cores = s.cores ∧
      (s.discReason ≠ 1 → s.discReason ≠ 2 → t.getF d fD2dDiscPos = d.val ∧ (t.flag d fDieInfoLead = true ↔ d.val = 0)) ∧
      (s.discReason = 1 ∨ s.discReason = 2 → t.getF d fD2dDiscPos = 7 ∧ t.flag d fDieInfoLead = false))

/-- R382 to R384: admission of a port die. -/
def Obligations.PortDiesAreAdmitted : Prop :=
  (∀ (pd e : Fin 2) (s : State), s.dieUp (4 + pd.val) = true → (s.die (4 + pd.val)).record.length = 128 →
    ∃ t, exec (.qrecReq pd e) s = .next t ∧ t.out.length = s.out.length + 16 ∧ t.regs = s.regs ∧ t.mem = s.mem ∧ t.cores = s.cores) ∧
  (∀ (d : Fin 4) (m : BitVec 128) (s : State), s.dieUp d = true → fld m 0 8 = 3 → fld m 48 16 < 16 →
    ∃ t, exec (.qrec d m) s = .next t ∧ t.reg d (oD2dQrec + 8 * fld m 48 16) = BitVec.ofNat 64 (fld m 64 64) ∧
      (t.die d).qgot.contains (fld m 48 16) = true ∧ t.mem = s.mem ∧ t.cores = s.cores) ∧
  (∀ (d : Fin 4) (at32 at16 : List (Fin 6)) (p pe : Nat) (s : State), edgePeer d 2 = some (p, pe) → s.dieUp d = true → s.dieUp p = true →
    s.getF d fD2dDiscPos ≠ 7 → s.flag d fD2dAdmitChecked = false → (s.flag p fD2dAdmitAdmitted = true → 16 ≤ (s.die d).qgot.length) →
    ∃ t, exec (.portAdmission d at32 at16) s = .next t ∧ t.mem = s.mem ∧ t.cores = s.cores ∧ t.flag d fD2dAdmitChecked = true ∧
      (t.flag d fD2dAdmitAdmitted = true ↔
        (s.flag p fD2dAdmitAdmitted = true ∨ s.qualify d = 0) ∧
        ((leAt (s.qrec d) 8 1 = 1 ∧ max 1 (leAt (s.qrec d) 10 1) ≤ (maskBits (trains at32 (leAt (s.qrec d) 9 1)).1 6).length) ∨
          max 1 (leAt (s.qrec d) 10 1) ≤ (maskBits (trains at16 (leAt (s.qrec d) 9 1)).1 6).length))) ∧
  (∀ (pd e : Fin 2) (m : BitVec 128) (s : State), s.dieUp (4 + pd.val) = true → fld m 0 8 = 4 → s.flag (4 + pd.val) fD2dAdmitAdmitted = false →
    s.flag (4 + pd.val) fD2dAdmitRestricted = false → (s.die (4 + pd.val)).verdicts = [] →
    (∀ k p pe, k ≠ e.val → edgePeer (4 + pd.val) k = some (p, pe) → s.dieUp p = false) →
    ∃ t, exec (.admitResult pd e m) s = .next t ∧ t.mem = s.mem ∧ t.cores = s.cores ∧
      (fld m 64 1 = 1 → t.flag (4 + pd.val) fD2dAdmitAdmitted = true) ∧
      (fld m 64 1 = 0 → t.flag (4 + pd.val) fD2dAdmitAdmitted = false ∧ t.flag (4 + pd.val) fD2dAdmitRestricted = true))

/-- R391: what neighbours do when one die stops. -/
def Obligations.NeighboursNoticeALostDie : Prop :=
  (∀ (d : Fin 6) (e : Fin 3) (p pe : Nat) (s : State), edgePeer d e = some (p, pe) → s.dieUp d = true → s.funcUp (edgeFunc d e) = true →
    (∃ t, exec (.resetNotice d e) s = .next t ∧ t.func (edgeFunc d e) = 1 ∧ t.mem = s.mem ∧ t.cores = s.cores) ∧
    (p < 4 → s.dieUp p = true → ∃ t, exec (.dieLossTimeout d e) s = .next t ∧ t.func (edgeFunc d e) = 1 ∧ (t.die p).st = .lostCold)) ∧
  (∀ (d : Fin 6) (e : Fin 3) (m : BitVec 128) (s : State), (edgePeer d e).isSome = true → s.dieUp d = true → fld m 0 8 = 6 →
    ∃ t k f, exec (.heartbeat d e m) s = .next t ∧ t.out = s.out ++ [.sideband d e k f] ∧ t.getF d (edgeF e fD2dEdgeStatusPeerPos) = fld m 24 3 ∧
      t.mem = s.mem ∧ t.cores = s.cores)

/-- R432, R463, R464, R433, R482: functions and service links. -/
def Obligations.FunctionsStartAndStop : Prop :=
  (∀ (id : BitVec 16) (cols : List (BitVec 66)) (unloc : List Bool) (en rep : BitVec 24) (fast : Bool) (nb : BitVec 32) (s : State),
    s.func id.toNat = 1 → s.dieUp (funcDie id.toNat) = true → s.getF (funcDie id.toNat) fBootStatusStage = 4 →
    (5 ≤ id.toNat / 4096 → id.toNat / 4096 ≤ 8 → ∃ t, exec (.functionReady id cols unloc en rep fast nb) s = .next t ∧ t.func id.toNat = 2 ∧ t.mem = s.mem) ∧
    (id.toNat / 4096 = 0 → s.flag (funcDie id.toNat) (stackF (3 * funcDie id.toNat + id.toNat % 256) fMcStkStatusSwept) = true →
      ∃ t, exec (.functionReady id cols unloc en rep fast nb) s = .next t ∧ t.func id.toNat = if s.calBad (funcDie id.toNat) || s.pinsErased (3 * funcDie id.toNat + id.toNat % 256) then 3 else 2)) ∧
  (∀ (id : BitVec 16) (s u : State), s.func id.toNat = 4 → s.drained id.toNat = some u →
    ∃ t, exec (.functionStopped id) s = .next t ∧ t.func id.toNat = if u.ctl.progs.any (fun g => g.waits == .func id.toNat true) then 1 else 0) ∧
  (∀ (p : Fin 2) (form : Fin 3) (s : State), s.dieUp (4 + p.val) = true → s.func (svcFunc p) = 1 →
    (s.die (4 + p.val)).svcMode = b2n (form.val == 2) →
    ∃ t, exec (.serviceLinkUp p form) s = .next t ∧ t.flag (4 + p.val) fSvcStatusLink = true ∧ t.getF (4 + p.val) fSvcStatusForm = form.val ∧ t.mem = s.mem) ∧
  (∀ (p : Fin 2) (s : State), s.flag (4 + p.val) fSvcStatusLink = true → s.funcUp (svcFunc p) = true →
    ∃ t, exec (.serviceLinkDown p) s = .next t ∧ t.flag (4 + p.val) fSvcStatusLink = false ∧ t.func (svcFunc p) = 1 ∧ t.mem = s.mem)

/-- Stream `st` of logical core `lc`, on physical core `pc`, is live, fetches `w` without correction, has its token wait met in its turn (R64), and can take
the signal that `w` raises on completing. -/
def SqReady (lc : Fin 64) (st : Stream) (w : InstrWord) (pc : Nat) (s : State) : Prop :=
  s.physOf lc = some pc ∧ ((s.core pc).stream st).st.live = true ∧ (∃ l, s.fetch pc st = .word w [] l) ∧ s.sqMet pc st w = true ∧
    ((toksOf w).smode = 1 → (s.core pc).token (toksOf w).stok < 65535)

/-- The queue entry of the word that a stream fetches. -/
def sqEntry (s : State) (pc : Nat) (st : Stream) (w : InstrWord) : QEntry := ⟨w, ((s.core pc).stream st).cur, ((s.core pc).stream st).x⟩

/-- R74, R75: the SQ words. -/
def Obligations.SequencerWordsAct : Prop :=
  ∀ (lc : Fin 64) (st : Stream) (tok : BitVec 16) (ops : BitVec 96) (pc : Nat) (s : State),
    (SqReady lc st (mkWord 5 0x000 tok ops) pc s → sqCheck (sqEntry s pc st (mkWord 5 0x000 tok ops)) 0 = none →
      ∃ t, exec (.sqNop lc st tok ops) s = .next t ∧ t.mem = s.mem ∧ ((t.core pc).stream st).cur = ((s.core pc).stream st).cur + 1 ∧
        ((t.core pc).stream st).st = .running) ∧
    (SqReady lc st (mkWord 5 0x001 tok ops) pc s → sqCheck (sqEntry s pc st (mkWord 5 0x001 tok ops)) 0 = none →
      ∃ t, exec (.sqEnd lc st tok ops) s = .next t ∧ t.mem = s.mem ∧ ((t.core pc).stream st).st = .ended) ∧
    (SqReady lc st (mkWord 5 0x010 tok ops) pc s → sqCheck (sqEntry s pc st (mkWord 5 0x010 tok ops)) 0x1FFFF = none →
      ∃ t, exec (.sqJump lc st tok ops) s = .next t ∧ t.mem = s.mem ∧
        ((t.core pc).stream st).cur = opf (sqEntry s pc st (mkWord 5 0x010 tok ops)) 0 17) ∧
    (let e := sqEntry s pc st (mkWord 5 0x011 tok ops)
     SqReady lc st (mkWord 5 0x011 tok ops) pc s → sqCheck e 0x1FFFFF = none → loopCount e ≠ 0 → ((s.core pc).stream st).loops.length < 4 →
      ∃ t, exec (.sqLoop lc st tok ops) s = .next t ∧ t.mem = s.mem ∧
        ((t.core pc).stream st).loops = ⟨e.pc + 1, loopCount e⟩ :: ((s.core pc).stream st).loops) ∧
    (∀ l r, SqReady lc st (mkWord 5 0x012 tok ops) pc s → sqCheck (sqEntry s pc st (mkWord 5 0x012 tok ops)) 0 = none →
      ((s.core pc).stream st).loops = l :: r →
      ∃ t, exec (.sqEndloop lc st tok ops) s = .next t ∧ t.mem = s.mem ∧
        ((t.core pc).stream st).loops = (if l.count ≤ 1 then r else { l with count := l.count - 1 } :: r) ∧
        ((t.core pc).stream st).cur = if l.count ≤ 1 then ((s.core pc).stream st).cur + 1 else l.body) ∧
    (let e := sqEntry s pc st (mkWord 5 0x020 tok ops)
     SqReady lc st (mkWord 5 0x020 tok ops) pc s → sqCheck e 0xFFFFFFFF0000000F = none →
      ∃ t, exec (.sqXset lc st tok ops) s = .next t ∧ t.mem = s.mem ∧
        ((t.core pc).stream st).x = (((s.core pc).stream st).setX (opf e 0 4) (BitVec.ofNat 32 (opf e 32 32))).x) ∧
    (let e := sqEntry s pc st (mkWord 5 0x021 tok ops)
     SqReady lc st (mkWord 5 0x021 tok ops) pc s → sqCheck e 0xFFFFFFFF0000000F = none →
      ∃ t, exec (.sqXadd lc st tok ops) s = .next t ∧ t.mem = s.mem ∧
        ((t.core pc).stream st).x = (((s.core pc).stream st).setX (opf e 0 4) (e.xreg (opf e 0 4) + BitVec.ofNat 32 (opf e 32 32))).x)

/-- R76: IRLOAD. -/
def Obligations.InstructionPageLoads : Prop :=
  (∀ (lc : Fin 64) (st : Stream) (tok : BitVec 16) (ops : BitVec 96) (pc a : Nat) (s : State),
    let e := sqEntry s pc st (mkWord 5 0x030 tok ops)
    let oth := (s.core pc).stream (otherStream st)
    SqReady lc st (mkWord 5 0x030 tok ops) pc s → sqCheck e 0xFFFFFFFFFFFFFFFF0000001F = none → opf e 0 5 < s.coreGet pc fSeqIrCfgPages →
    opf e 0 5 ≠ e.pc / 4096 → s.irSource (opf e 32 64) = some a → oth.holdsPage (opf e 0 5) = false →
    ∃ t, exec (.sqIrload lc st tok ops) s = .next t ∧ t.mem = s.mem ∧
      ((t.core pc).stream st).irloads = ((s.core pc).stream st).irloads ++ [⟨opf e 0 5, a, e.word, e.pc⟩] ∧
      ((t.core pc).stream st).cur = e.pc + 1 ∧ (∀ l ∈ ((t.core pc).stream st).buf, l.line / 256 ≠ opf e 0 5)) ∧
  (∀ (lc : Fin 64) (st : Stream) (pc : Nat) (i : IrLoad) (r : List IrLoad) (s : State), s.physOf lc = some pc →
    ((s.core pc).stream st).irloads = i :: r → (irloadCopy pc lc i.src i.page 512 0 s).1 = none → (irloadCopy pc lc i.src i.page 512 0 s).2.1 = none →
    ((toksOf i.word).smode = 1 → (s.core pc).token (toksOf i.word).stok < 65535) →
    ∃ t, exec (.irloadComplete lc st) s = .next t ∧ ((t.core pc).stream st).irloads = r)

/-- R65, R66: tokens. -/
def Obligations.TokensCountAndSaturate : Prop :=
  ∀ (lc k : Fin 64) (pc : Nat) (s : State), (lc.val, k.val) ∈ s.arrivals → s.physOf lc = some pc → (s.core pc).token k ≤ 65535 →
    ∃ t, exec (.tokenArrival lc k) s = .next t ∧ t.mem = s.mem ∧ (∀ j, j ≠ k.val → (t.core pc).token j = (s.core pc).token j) ∧
      (t.core pc).token k = min 65535 ((s.core pc).token k + 1) ∧
      ((s.core pc).token k = 65535 → ((t.core pc).stream .crit).st = .halted ∧ ((t.core pc).stream .defr).st = .halted)

/-- R141, R87, R146, R85, R67: GO, HALT and DONE. -/
def Obligations.GoHaltAndDone : Prop :=
  (∀ (pc : Fin 72) (s : State), s.dieUp (pcDie pc) = true → s.funcUp (funcId 2 (pcDie pc) (pc.val % 18)) = true →
    (s.core pc).crit.st.live = false → (s.core pc).defr.st.live = false → (s.core pc).busy = false →
    ((s.core pc).anyDisabled 15 = true → ∃ t, exec (.go pc) s = .next t ∧ ((s.die (pcDie pc)).isGood (pc.val % 18) = true → (t.die (pcDie pc)).isGood (pc.val % 18) = false) ∧
      (t.core pc).crit.st.live = false ∧ (t.core pc).defr.st.live = false) ∧
    ((s.core pc).anyDisabled 15 = false → ∃ t, exec (.go pc) s = .next t ∧ t.mem = s.mem ∧ (t.core pc).crit = .started (s.coreGet pc fSeqPcCritStart) ∧
      (t.core pc).defr = .started (s.coreGet pc fSeqPcDefStart) ∧ (t.core pc).done = false ∧ (∀ k, (t.core pc).token k = 0) ∧
      (t.core pc).vcrit = .reset ∧ (t.core pc).vdefr = .reset ∧ (∀ j k, (((t.core pc).array j).slot k).valid = false))) ∧
  (∀ (pc : Fin 72) (s : State), s.dieUp (pcDie pc) = true → ∃ t, exec (.halt pc) s = .next t ∧ t.mem = s.mem ∧
    ∀ st, ((t.core pc).stream st).st.live = false ∧ (((s.core pc).stream st).st.live = true → ((t.core pc).stream st).st = .halted)) ∧
  (∀ (lc : Fin 64) (pc : Nat) (s : State), s.physOf lc = some pc → (s.core pc).done = false → (s.core pc).drained = true → (s.core pc).tokenMask = 0 →
    (s.closeAll pc).1 = 0 → ∃ t, exec (.streamEndCheck lc) s = .next t ∧ (t.core pc).done = true ∧ t.mem = s.mem ∧ t.regs = s.regs)

/-- The words that engines execute: constructor, engine, opcode (Tables 3.6, 4.x, 5.4, 6.6, 7.3). -/
def engineWords : List ((Fin 64 → Stream → Phase → BitVec 16 → BitVec 96 → Instr) × Engine × Nat) :=
  [(.mxWload, .mx, 0x001), (.mxMma, .mx, 0x010), (.mxGopen, .mx, 0x020), (.mxGclose, .mx, 0x021), (.mxGexport, .mx, 0x022),
   (.vsetvl, .vx, 0x001), (.sli, .vx, 0x002), (.salu, .vx, 0x003), (.smov, .vx, 0x004), (.vadd, .vx, 0x010), (.vsub, .vx, 0x011),
   (.vmul, .vx, 0x012), (.vfma, .vx, 0x013), (.vfnma, .vx, 0x014), (.vmax, .vx, 0x015), (.vmin, .vx, 0x016), (.vbcast, .vx, 0x017),
   (.viota, .vx, 0x018), (.viadd, .vx, 0x020), (.visub, .vx, 0x021), (.vand, .vx, 0x022), (.vor, .vx, 0x023), (.vxor, .vx, 0x024),
   (.vshl, .vx, 0x025), (.vshr, .vx, 0x026), (.vsra, .vx, 0x027), (.vnot, .vx, 0x028), (.vcmp, .vx, 0x030), (.plogic, .vx, 0x031),
   (.pcount, .vx, 0x032), (.vsel, .vx, 0x033), (.vsf, .vx, 0x040), (.vcvt, .vx, 0x050), (.vmxpack, .vx, 0x051), (.vred, .vx, 0x060),
   (.vperm, .vx, 0x068), (.vslide, .vx, 0x069), (.vsmax, .vx, 0x070), (.vsmerge, .vx, 0x071), (.vxadd, .vx, 0x078), (.vxfold, .vx, 0x079),
   (.vxcvt, .vx, 0x07A), (.vld, .vx, 0x080), (.vst, .vx, 0x081), (.vacc, .vx, 0x090),
   (.dmLoad, .dm, 0x001), (.dmStore, .dm, 0x002), (.dmFill, .dm, 0x003), (.dmRclear, .dm, 0x004),
   (.syInc, .sy, 0x001), (.syDec, .sy, 0x002), (.syRead, .sy, 0x003), (.syWatch, .sy, 0x010), (.syUnwatch, .sy, 0x011), (.syFence, .sy, 0x020),
   (.syQring, .sy, 0x030), (.syQcons, .sy, 0x031)]

/-- R53, R62, R68: dispatch of engine words. -/
def Obligations.EngineWordsAreDispatched : Prop :=
  ∀ x ∈ engineWords, ∀ (lc : Fin 64) (st : Stream) (tok : BitVec 16) (ops : BitVec 96) (pc : Nat) (s : State),
    s.physOf lc = some pc → ((s.core pc).stream st).st.live = true → (∃ l, s.fetch pc st = .word (mkWord x.2.1.code x.2.2 tok ops) [] l) →
    ((s.core pc).queue x.2.1 st).length < queueDepth x.2.1 st →
    ∃ t, exec (x.1 lc st .dispatch tok ops) s = .next t ∧ t.mem = s.mem ∧
      (t.core pc).queue x.2.1 st = (s.core pc).queue x.2.1 st ++ [sqEntry s pc st (mkWord x.2.1.code x.2.2 tok ops)] ∧
      ((t.core pc).stream st).cur = ((s.core pc).stream st).cur + 1 ∧ ((t.core pc).stream st).st = .running

/-- R54: reserved engine codes. -/
def Obligations.ReservedCodesHalt : Prop :=
  ∀ (lc : Fin 64) (st : Stream) (ph : Phase) (w : BitVec 128) (pc : Nat) (s : State), fld w 124 4 = 0 ∨ 6 ≤ fld w 124 4 →
    s.physOf lc = some pc → ((s.core pc).stream st).st.live = true → (∃ l, s.fetch pc st = .word w [] l) →
    ∃ t, exec (.reservedEngineCodeOrOpcode lc st ph w) s = .next t ∧ ((t.core pc).stream st).st = .halted ∧
      (fld (s.core pc).haltInfo 0 8 = 0 → fld (t.core pc).haltInfo 0 8 = 0x01) ∧ (∀ k, (t.core pc).token k = (s.core pc).token k) ∧
      (t.core pc).stream (otherStream st) = (s.core pc).stream (otherStream st) ∧ t.mem = s.mem

/-- Word `e` heads the queue of an engine and stream on physical core `pc`, `r` behind it, and may issue: wait met in its turn (R64), its stream's turn come
(R69), the engine able to accept it, its tokens legal; no other word of that engine and stream is in flight, and the signals it raises fit. -/
def IssuesNext (lc : Fin 64) (st : Stream) (eng : Engine) (w : InstrWord) (pc : Nat) (e : QEntry) (r : List QEntry) (s : State) : Prop :=
  s.physOf lc = some pc ∧ (s.core pc).queue eng st = e :: r ∧ e.word = w ∧ (s.core pc).turnMet eng w = true ∧ (s.core pc).issueTurn eng st = true ∧
    (s.core pc).accepts eng st e = true ∧
    (toksOf w).ok false = true ∧ (∀ f ∈ (s.core pc).inflight, ¬ (f.eng = eng ∧ f.strm = st)) ∧
    ((toksOf w).smode ≠ 0 → (s.core pc).token (toksOf w).stok < 65535)

/-- R126, R132: accumulation groups. -/
def Obligations.GroupsOpenAndClose : Prop :=
  (∀ (lc : Fin 64) (st : Stream) (tok : BitVec 16) (ops : BitVec 96) (pc : Nat) (e : QEntry) (r : List QEntry) (s : State),
    IssuesNext lc st .mx (mkWord 1 0x020 tok ops) pc e r s → gopenCheck st s pc e = none →
    ∃ t, exec (.mxGopen lc st .issue tok ops) s = .next t ∧ t.mem = s.mem ∧ (t.core pc).queue .mx st = r ∧ (t.core pc).inflight = (s.core pc).inflight ∧
      ∀ j ∈ maskBits (opf e 0 4) 4, ∀ i < opf e 9 6, let g := ((t.core pc).array j).group (opf e 4 5 + i)
        g.isOpen = true ∧ g.desc = gopenDesc e ∧ g.owner = st) ∧
  (∀ (lc : Fin 64) (st : Stream) (tok : BitVec 16) (ops : BitVec 96) (pc : Nat) (e : QEntry) (r : List QEntry) (s : State),
    IssuesNext lc st .mx (mkWord 1 0x021 tok ops) pc e r s → opf e 15 81 = 0 → groupRunBad (opf e 0 4) (opf e 4 5) (opf e 9 6) = false →
    namedGroupFault st (s.core pc) (opf e 0 4) (opf e 4 5) (opf e 9 6) = none →
    ∃ t, exec (.mxGclose lc st .issue tok ops) s = .next t ∧ t.mem = s.mem ∧ (t.core pc).queue .mx st = r ∧ (t.core pc).inflight = (s.core pc).inflight ∧
      ∀ j ∈ maskBits (opf e 0 4) 4, ∀ i < opf e 9 6, (((t.core pc).array j).group (opf e 4 5 + i)).isOpen = false)

/-- A core whose queue head `e` has just issued: `r` is left in the queue, its token taken, the word in flight. -/
def issuedCore (c : Core) (eng : Engine) (st : Stream) (e : QEntry) (r : List QEntry) : Core :=
  let c1 := (c.setQueue eng st r).takeToken e.word
  { c1 with inflight := c1.inflight ++ [⟨eng, st, e, false, false, c1.issued, .none, .none, .none⟩], issued := c1.issued + 1 }

/-- R96, R97, R98, R131, R133: issue of the matrix words. -/
def Obligations.MatrixWordsIssue : Prop :=
  ∀ (lc : Fin 64) (st : Stream) (tok : BitVec 16) (ops : BitVec 96) (pc : Nat) (e : QEntry) (r : List QEntry) (s u : State),
    (IssuesNext lc st .mx (mkWord 1 0x001 tok ops) pc e r s → wloadCheck st s pc e = none →
      wloadAct lc (s.setCore pc (issuedCore (s.core pc) .mx st e r)) pc e = .ok u →
      ∃ t, exec (.mxWload lc st .issue tok ops) s = .next t ∧ t.cores = u.cores ∧ t.mem = s.mem ∧ (t.core pc).queue .mx st = r ∧
        (∃ f ∈ (t.core pc).inflight, f.ent = e ∧ f.eng = .mx ∧ f.strm = st)) ∧
    (IssuesNext lc st .mx (mkWord 1 0x010 tok ops) pc e r s → mmaCheck st s pc e = none →
      mmaAct lc st (s.setCore pc (issuedCore (s.core pc) .mx st e r)) pc e = .ok u →
      ∃ t, exec (.mxMma lc st .issue tok ops) s = .next t ∧ t.cores = u.cores ∧ t.mem = s.mem ∧ (t.core pc).queue .mx st = r ∧
        (∃ f ∈ (t.core pc).inflight, f.ent = e ∧ f.eng = .mx ∧ f.strm = st ∧ f.mma.done = 0)) ∧
    (IssuesNext lc st .mx (mkWord 1 0x022 tok ops) pc e r s → gexportCheck st s pc e = none →
      gexportAct lc (s.setCore pc (issuedCore (s.core pc) .mx st e r)) pc e = .ok u →
      ∃ t, exec (.mxGexport lc st .issue tok ops) s = .next t ∧ t.cores = u.cores ∧ t.mem = s.mem ∧ (t.core pc).queue .mx st = r ∧
        (∃ f ∈ (t.core pc).inflight, f.ent = e ∧ f.eng = .mx ∧ f.strm = st))

/-- R87, R96, R97, R111, R138, R59: completion of the matrix words. -/
def Obligations.MatrixWordsComplete : Prop :=
  ∀ (lc : Fin 64) (st : Stream) (pc : Nat) (f : InFlight) (s : State), s.physOf lc = some pc → (s.core pc).inflight = [f] → f.eng = .mx → f.strm = st →
    f.pass2 = false → ((toksOf f.ent.word).smode ≠ 0 → (s.core pc).token (toksOf f.ent.word).stok < 65535) →
    (opcodeOf f.ent.word = 0x001 → ∃ t, exec (.mxWloadComplete lc st) s = .next t ∧ t.mem = s.mem ∧ (t.core pc).inflight = [] ∧
      ∀ j ∈ maskBits (mxMask f.ent) 4, (((t.core pc).array j).slot (opf f.ent 24 2)).valid = true) ∧
    (opcodeOf f.ent.word = 0x010 → ∃ t, exec (.mxMmaComplete lc st none) s = .next t ∧ t.mem = s.mem ∧ (t.core pc).inflight = [] ∧
      ∀ j, (t.core pc).array j = ((s.core pc).mmaTo 0 (mmaRows f.ent)).array j) ∧
    (opcodeOf f.ent.word = 0x022 → f.released = false → ∃ t, exec (.mxGexportComplete lc st) s = .next t ∧ t.mem = s.mem ∧ (t.core pc).inflight = [] ∧
      (opf f.ent 45 1 = 1 → ∀ j ∈ maskBits (opf f.ent 24 4) 4, ∀ i < opf f.ent 33 6, (((t.core pc).array j).group (opf f.ent 28 5 + i)).isOpen = false)) ∧
    (opcodeOf f.ent.word = 0x001 → fld f.ent.word 124 4 = 1 → f.released = false → ∃ t, exec (.sourceRelease lc st .mx 0) s = .next t ∧ t.mem = s.mem ∧
      (t.core pc).inflight = [{ f with released := true }]) ∧
    (∀ u : State, u.physOf lc = some pc → (u.core pc).inflight = [{ f with pass2 := true }] → (u.core pc).issueTurn .mx st = true →
      (opcodeOf f.ent.word = 0x001 → ∃ t, exec (.mxPass2 lc st) u = .next t ∧ t.mem = u.mem ∧ (t.core pc).inflight = [f]) ∧
      (let c := (u.core pc).mmaTo 0 (mmaRows f.ent)
       opcodeOf f.ent.word = 0x010 → slotsLost c f.ent = none → (mmaRead pc c f.ent).2.2.1 = none →
        ∃ t g, exec (.mxPass2 lc st) u = .next t ∧ t.mem = u.mem ∧ (t.core pc).inflight = [g] ∧ g.ent = f.ent ∧ g.pass2 = false ∧ g.mma.second = true ∧
          g.mma.done = 0 ∧ g.mma.acts = (mmaRead pc c f.ent).1))

/-- R108, R109, R112, Table 3.12: array control. -/
def Obligations.ArrayControl : Prop :=
  (∀ (pc : Fin 72) (j : Fin 4) (s : State), s.dieUp (pcDie pc) = true → (s.core pc).quiet = true →
    (∃ t, exec (.disable pc j) s = .next t ∧ ((t.core pc).array j).st = .disabled ∧ t.mem = s.mem ∧
      ((s.die (pcDie pc)).isGood (pc.val % 18) = true →
        (s.job.running = false → (t.die (pcDie pc)).isGood (pc.val % 18) = false) ∧
        (s.job.running = true → natBits (t.getF (pcDie pc) fRetirePendCores) (pc.val % 18) 1 = 1))) ∧
    (((s.core pc).array j).ctRunning = false →
      (∃ t, exec (.ctest pc j) s = .next t ∧ ((t.core pc).array j).ctRunning = true ∧ ((t.core pc).array j).ctDone = false ∧ t.mem = s.mem) ∧
      ∃ t, exec (.apply pc j) s = .next t ∧ ((t.core pc).array j).bad = ((s.core pc).array j).bad ||| ((s.core pc).array j).pend ∧
        ((t.core pc).array j).pend = 0 ∧ t.mem = s.mem)) ∧
  (∀ (pc : Fin 72) (j : Fin 4) (s : State), (s.core pc).quiet = false →
    exec (.disable pc j) s = .next s ∧ exec (.ctest pc j) s = .next s ∧ exec (.apply pc j) s = .next s) ∧
  (∀ (pc : Fin 72) (j : Fin 4) (s : State), ((s.core pc).array j).ctRunning = true → s.getF (pcDie pc) fRetireCfgQuarLimit = 0 →
    ∃ t, exec (.ctestComplete pc j 0 false) s = .next t ∧ ((t.core pc).array j).ctRunning = false ∧ ((t.core pc).array j).ctDone = true ∧
      ((t.core pc).array j).quar = false ∧ ((t.core pc).array j).ctest = 0)

/-- R348, R349: sentinels. -/
def Obligations.SentinelsCompare : Prop :=
  (∀ (lc : Fin 64) (pc : Nat) (x : Sentinel) (s : State), s.physOf lc = some pc → pc < 72 → (s.core pc).sentinels = [x] → x.passed = false →
    (s.core pc).issueTurn .mx x.strm = true → (((s.core pc).array x.sib).slot (opf x.ent 24 2)).errs = [] →
    (mmaReread pc (s.core pc) x.ent (((maskPos (mxMask x.ent)).find? (fun q => q.2 == x.orig)).map Prod.fst |>.getD 0)).2.2.1 = none →
    ∃ t dg, exec (.sentinelPass lc) s = .next t ∧ t.mem = s.mem ∧ (t.core pc).sentinels = [{ x with passed := true, dSib := dg }] ∧
      t.getF (pcDie pc) fAgateSentCntCount = satAdd (2 ^ fAgateSentCntCount.width - 1) (s.getF (pcDie pc) fAgateSentCntCount) 1) ∧
  (∀ (lc : Fin 64) (pc : Nat) (x : Sentinel) (r : List Sentinel) (a b : BitVec 64) (s : State), s.physOf lc = some pc → (s.core pc).sentinels = x :: r →
    x.passed = true →
    ∃ t, exec (.sentinelCompare lc a b) s = .next t ∧ t.mem = s.mem ∧ (t.core pc).sentinels = r ∧
      (x.dOrig ^^^ a = x.dSib ^^^ b → t.regs = s.regs) ∧
      (x.dOrig ^^^ a ≠ x.dSib ^^^ b → ((t.core pc).array x.orig).quar = true ∧ ((t.core pc).array x.sib).quar = true))

/-- A vector word of opcode `opc` that heads its queue and may issue, passes the checks all vector words share (`used` masks its operand bits, `regs`
names its vector register operands) and its own (`own`), is in flight with the results `res` of its context as it stands. -/
def VxGives (mk : Fin 64 → Stream → Phase → BitVec 16 → BitVec 96 → Instr) (opc used : Nat) (regs : QEntry → List Nat) (own : VCtx → QEntry → Bool)
    (res : SrEnv → VCtx → QEntry → VxWrites) : Prop :=
  ∀ (lc : Fin 64) (st : Stream) (tok : BitVec 16) (ops : BitVec 96) (pc : Nat) (e : QEntry) (r : List QEntry) (s : State),
    IssuesNext lc st .vx (mkWord 2 opc tok ops) pc e r s → vxCheck ((s.core pc).vctx st) opc used (regs e) e = none →
    own ((s.core pc).vctx st) e = true →
    ∃ t f, exec (mk lc st .issue tok ops) s = .next t ∧ t.mem = s.mem ∧ (t.core pc).queue .vx st = r ∧
      (t.core pc).inflight = (s.core pc).inflight ++ [f] ∧ f.ent = e ∧ f.vx = res (s.srEnv pc) ((s.core pc).vctx st) e

/-- R153, Table 5.4: the integer vector words. -/
def Obligations.VectorIntegerWordsIssue : Prop :=
  let abc : Nat := mVD ||| mVA ||| mVB ||| mPM
  let three (e : QEntry) : List Nat := [fVD e, fVA e, fVB e]
  let any (_ : VCtx) (_ : QEntry) : Bool := true
  VxGives .viadd 0x020 abc three any (fun _ => vxInt (fun _ a b => a + b)) ∧
  VxGives .visub 0x021 abc three any (fun _ => vxInt (fun w a b => a + 2 ^ w - b)) ∧
  VxGives .vand 0x022 abc three any (fun _ => vxInt (fun _ a b => a &&& b)) ∧
  VxGives .vor 0x023 abc three any (fun _ => vxInt (fun _ a b => a ||| b)) ∧
  VxGives .vxor 0x024 abc three any (fun _ => vxInt (fun _ a b => a ^^^ b)) ∧
  VxGives .vshl 0x025 abc three any (fun _ => vxInt (fun w a b => a * 2 ^ (b % w))) ∧
  VxGives .vshr 0x026 abc three any (fun _ => vxInt (fun w a b => a / 2 ^ (b % w))) ∧
  VxGives .vsra 0x027 abc three any (fun _ => vxInt (fun w a b => unsigned w (signed w a / ((2 ^ (b % w) : Nat) : Int)))) ∧
  VxGives .vnot 0x028 (mVD ||| mVA ||| mPM) (fun e => [fVD e, fVA e]) any (fun _ => vxInt (fun w a _ => 2 ^ w - 1 - a)) ∧
  VxGives .vbcast 0x017 (mVD ||| mPM ||| mSA) (fun e => [fVD e]) any
    (fun _ c e => vxElems (fVD e) c.width ((c.active (fPM e)).map (fun i => (i, c.sreg (fSA e))))) ∧
  VxGives .viota 0x018 (mVD ||| mPM) (fun e => [fVD e]) any
    (fun _ c e => vxElems (fVD e) c.width ((c.active (fPM e)).map (fun i => (i, i))))

/-- R154 to R156: the floating-point vector words. -/
def Obligations.VectorFloatWordsIssue : Prop :=
  let abc : Nat := mVD ||| mVA ||| mVB ||| mPM
  let three (e : QEntry) : List Nat := [fVD e, fVA e, fVB e]
  let any (_ : VCtx) (_ : QEntry) : Bool := true
  VxGives .vadd 0x010 abc three any (fun _ => vxArith (fun x y _ => x.add y) 2) ∧
  VxGives .vsub 0x011 abc three any (fun _ => vxArith (fun x y _ => x.add y.neg) 2) ∧
  VxGives .vmul 0x012 abc three any (fun _ => vxArith (fun x y _ => x.mul y) 2) ∧
  VxGives .vmax 0x015 abc three any (fun _ => vxArith (fun x y _ => x.maxMM y) 2) ∧
  VxGives .vmin 0x016 abc three any (fun _ => vxArith (fun x y _ => x.minMM y) 2) ∧
  VxGives .vfma 0x013 (abc ||| mVC) (fun e => [fVD e, fVA e, fVB e, fVC e]) any (fun _ => vxArith (fun x y z => (x.mul y).add z) 3) ∧
  VxGives .vfnma 0x014 (abc ||| mVC) (fun e => [fVD e, fVA e, fVB e, fVC e]) any (fun _ => vxArith (fun x y z => (x.mul y).neg.add z) 3) ∧
  VxGives .vsf 0x040 (mVD ||| mVA ||| mPM ||| mMOD 15) (fun e => [fVD e, fVA e]) (fun _ e => decide (fMOD e 0 4 ≤ 8)) (fun _ => vxSf)

/-- R149, R153, Table 5.4: predicate and scalar words. -/
def Obligations.VectorPredicateAndScalarWordsIssue : Prop :=
  let any (_ : VCtx) (_ : QEntry) : Bool := true
  VxGives .vcmp 0x030 (mVD ||| mVA ||| mVB ||| mPM ||| mMOD 7) (fun e => [fVA e, fVB e]) (fun _ e => decide (fVD e < 8) && fMOD e 0 3 != 7)
    (fun _ => vxCmp) ∧
  VxGives .plogic 0x031 (mVD ||| mVA ||| mVB ||| mMOD 3) (fun _ => []) (fun _ e => decide (fVD e < 8) && decide (fVA e < 8) && decide (fVB e < 8))
    (fun _ => vxPlogic) ∧
  VxGives .pcount 0x032 (mPM ||| mSD) (fun _ => []) any (fun _ c e => vxScalar (fSD e) (c.active (fPM e)).length) ∧
  VxGives .vsel 0x033 (mVD ||| mVA ||| mVB ||| mVC ||| mPM) (fun e => [fVD e, fVA e, fVB e]) (fun _ e => decide (fVC e < 8)) (fun _ => vxSel) ∧
  VxGives .sli 0x002 (mVD ||| (2 ^ 32 - 1) * 2 ^ 32) (fun _ => []) any (fun _ _ e => vxScalar (fVD e) (opf e 32 32)) ∧
  VxGives .salu 0x003 (mMOD 15 ||| mSA ||| mSB ||| mSD) (fun _ => []) (fun _ e => decide (fMOD e 0 4 ≤ 10))
    (fun _ c e => vxScalar (fSD e) (salu (fMOD e 0 4) (c.sreg (fSA e)) (c.sreg (fSB e)))) ∧
  VxGives .smov 0x004 (mVD ||| mVA ||| mMOD 1 ||| mSA ||| mSB ||| mSD) (fun e => [if fMOD e 0 1 = 1 then fVD e else fVA e]) any (fun _ => vxSmov) ∧
  (∀ (lc : Fin 64) (st : Stream) (tok : BitVec 16) (ops : BitVec 96) (pc : Nat) (e : QEntry) (r : List QEntry) (s : State),
    IssuesNext lc st .vx (mkWord 2 0x001 tok ops) pc e r s → vxCheck ((s.core pc).vctx st) 0x001 0x7FFFFFF [] e = none →
    opf e 21 4 ∈ [0, 1, 2, 10, 11] → opf e 25 2 ≠ 3 →
    ∃ t f, exec (.vsetvl lc st .issue tok ops) s = .next t ∧ t.mem = s.mem ∧ (t.core pc).queue .vx st = r ∧
      (t.core pc).vctx st = (s.core pc).vctx st ∧ (t.core pc).inflight = (s.core pc).inflight ++ [f] ∧ f.ent = e ∧
      (let vl := min (if fVA e = 0 then opf e 10 11 else ((s.core pc).vctx st).sreg (fVA e)) (2048 * 2 ^ opf e 25 2 / typeWidth (opf e 21 4))
       f.vx = { vxScalar (fVD e) vl with vtype := some (vl, opf e 21 4, opf e 25 2) }))

/-- R157 to R177: conversion, movement and exact-accumulator words. -/
def Obligations.VectorConversionAndMovementWordsIssue : Prop :=
  let any (_ : VCtx) (_ : QEntry) : Bool := true
  let three (e : QEntry) : List Nat := [fVD e, fVA e, fVB e]
  VxGives .vperm 0x068 (mVD ||| mVA ||| mVB ||| mPM) three any (fun _ => vxPerm) ∧
  VxGives .vslide 0x069 (mVD ||| mVA ||| mPM ||| mMOD 1 ||| mSA) (fun e => [fVD e, fVA e]) any (fun _ => vxSlide) ∧
  VxGives .vxadd 0x078 (mVD ||| mVA ||| mVB ||| mPM) three any (fun _ => vxXadd) ∧
  VxGives .vred 0x060 (mVD ||| mVA ||| mPM ||| mMOD 15 ||| mSD) (fun e => [fVA e])
    (fun c e => decide (fMOD e 0 3 < 6) && (fMOD e 3 1 == 1 || decide (c.width ≤ 32)) && (fMOD e 3 1 == 0 || fVD e % c.ngrp == 0)) (fun _ => vxRed) ∧
  VxGives .vsmax 0x070 (mVD ||| mVA ||| mVC ||| mPM ||| mMOD 255 ||| mSA ||| mSD) (fun e => [fVD e, fVA e])
    (fun _ e => decide (fVC e < 8) && fSD e != 0 && fSD e % 2 == 0) (fun _ => vxSmax) ∧
  VxGives .vsmerge 0x071 (mVD ||| mVA ||| mVB ||| mPM ||| mMOD 1 ||| mSA ||| mSB ||| mSD) three
    (fun _ e => [fSA e, fSB e, fSD e].all (fun r => r != 0 && r % 2 == 0)) (fun _ => vxSmerge) ∧
  VxGives .vmxpack 0x051 (mVD ||| mVA ||| mVB ||| mPM ||| mMOD 63 ||| mSA ||| mSB) three
    (fun c e => decide (3 ≤ fMOD e 0 4 ∧ fMOD e 0 4 ≤ 9) && (fMOD e 4 2 == 0 || fMOD e 4 2 == 2) && !srBad (fMOD e 4 2) (fSB e) (fSA e)
      && fPM e == 0 && c.vl % 32 == 0) vxMxpack ∧
  VxGives .vxcvt 0x07A (mVD ||| mVA ||| mPM ||| mMOD 63 ||| mSA ||| mSB ||| mSC ||| mSD) (fun e => [fVD e, fVA e])
    (fun _ e => decide (fMOD e 0 4 ≤ 2) && fMOD e 4 2 != 3 && !srBad (fMOD e 4 2) (fSB e) (fSD e) && fPM e == 0) vxXcvt ∧
  VxGives .vxfold 0x079 (mVD ||| mVA ||| mPM ||| mMOD 63 ||| mSA) (fun e => [fVA e])
    (fun c e => (fMOD e 0 4 == 10 || fMOD e 0 4 == 11) && decide (fMOD e 4 2 < 2) && fVD e % c.grpOf (fMOD e 0 4) == 0
      && decide (fVD e + c.grpOf (fMOD e 0 4) ≤ 32)) (fun _ => vxXfold) ∧
  VxGives .vcvt 0x050 (mVD ||| mVA ||| mPM ||| mMOD 255 ||| mSA ||| mSB ||| mSC) (fun e => [fVD e, fVA e])
    (fun c e => decide (fMOD e 0 4 ≤ 9) && fMOD e 4 2 != 3 && !srBad (fMOD e 4 2) (fSB e) (fSA e)
      && (fMOD e 7 1 == 1 || (fMOD e 0 4 != c.etype && fPM e == 0))
      && decide ((if fMOD e 7 1 = 0 then fVD e else fVA e) + regsFor (c.vlmax * typeWidth (fMOD e 0 4)) ≤ 32)) vxCvt

/-- R162 to R165: vector loads, stores and accumulator reads. -/
def Obligations.VectorLoadsAndStoresIssue : Prop :=
  ∀ (lc : Fin 64) (st : Stream) (tok : BitVec 16) (ops : BitVec 96) (pc : Nat) (e : QEntry) (r : List QEntry) (s : State),
    let k := s.core pc
    let c := k.vctx st
    (IssuesNext lc st .vx (mkWord 2 0x080 tok ops) pc e r s → lmCheck s pc c 0x080 e = none →
      (spadReads pc k (lmWords c e ++ lmTagWords c e)).bad = none →
      ∃ t f, exec (.vld lc st .issue tok ops) s = .next t ∧ t.mem = s.mem ∧ (t.core pc).queue .vx st = r ∧ (t.core pc).inflight = k.inflight ++ [f] ∧
        f.vx = vldWrites c e (wordsNat ((spadReads pc k (lmWords c e ++ lmTagWords c e)).vals.take (lmWords c e).length))
          (wordsNat ((spadReads pc k (lmWords c e ++ lmTagWords c e)).vals.drop (lmWords c e).length))) ∧
    (∀ z, IssuesNext lc st .vx (mkWord 2 0x081 tok ops) pc e r s → lmCheck s pc c 0x081 e = none →
      spadMerge pc k (joinWrites (vstWords c e)) = .ok z →
      ∃ t f, exec (.vst lc st .issue tok ops) s = .next t ∧ t.mem = s.mem ∧ (t.core pc).queue .vx st = r ∧ (t.core pc).inflight = k.inflight ++ [f] ∧
        (t.core pc).spad = k.spad ∧ f.vx = { VxWrites.none with spad := joinWrites (vstWords c e) }) ∧
    (IssuesNext lc st .vx (mkWord 2 0x090 tok ops) pc e r s → vaccCheck st s pc e = none →
      (let a := (((s.setCore pc (issuedCore k .vx st e r)).mmaDrift pc st (accArray e) (accGroup e)).core pc).array (accArray e)
       (a.scanEls (accGroup e) (accStart (a.group (accGroup e)).desc e) c.vl).1 = none →
        ∃ t f, exec (.vacc lc st .issue tok ops) s = .next t ∧ t.mem = s.mem ∧ (t.core pc).queue .vx st = r ∧ f ∈ (t.core pc).inflight ∧ f.ent = e ∧
          f.eng = .vx ∧ f.strm = st ∧ f.vx = vaccWrites (s.srEnv pc) c a e))

/-- R147, R150, R151, R178: completion of a vector word, and what element writes change. -/
def Obligations.VectorWordsWriteAtCompletion : Prop :=
  (∀ (lc : Fin 64) (st : Stream) (pc : Nat) (f : InFlight) (s : State), s.physOf lc = some pc → (s.core pc).inflight = [f] → f.eng = .vx → f.strm = st →
      ((toksOf f.ent.word).smode ≠ 0 → (s.core pc).token (toksOf f.ent.word).stok < 65535) →
      (∀ (k' : Core) (corrs : List (Nat × Nat)), spadMerge pc (s.core pc) f.vx.spad = .ok (k', corrs) →
        ∃ t, exec (.vxWordComplete lc st .none) s = .next t ∧ t.mem = s.mem ∧ (t.core pc).inflight = [] ∧
          (t.core pc).spad = k'.spad ∧ (t.core pc).spadChk = k'.spadChk ∧
          (t.core pc).vctx st = ((s.core pc).vctx st).applyWrites f.vx ∧ (t.core pc).vctx (otherStream st) = (s.core pc).vctx (otherStream st)) ∧
      (∃ t, exec (.vxWordComplete lc st .parity) s = .next t ∧ t.mem = s.mem ∧ (t.core pc).vctx st = (s.core pc).vctx st ∧
        (t.core pc).spad = (s.core pc).spad ∧ ((t.core pc).stream st).st = .halted ∧
        ((toksOf f.ent.word).wmode = 1 → (t.core pc).token (toksOf f.ent.word).wtok = min 65535 ((s.core pc).token (toksOf f.ent.word).wtok + 1)))) ∧
  (∀ (c : VCtx) (r n w : Nat) (l : List (Nat × Nat)), w ∈ [16, 32, 64, 128] → n ≤ 8 → r + n ≤ 32 → (l.map Prod.fst).Nodup →
      (∀ x ∈ l, w * (x.1 + 1) ≤ 2048 * n) →
      ∀ i, w * (i + 1) ≤ 2048 * n →
        elemAt ((c.applyWrites (vxElems r w l)).group r n) w i =
          match l.find? (fun x => x.1 == i) with
          | some x => x.2 % 2 ^ w
          | none => elemAt (c.group r n) w i)

/-- R170: VPERM and VSLIDE, element by element. -/
def Obligations.VectorPermutesMoveElements : Prop :=
  ∀ (lc : Fin 64) (st : Stream) (tok : BitVec 16) (ops : BitVec 96) (pc : Nat) (e : QEntry) (r : List QEntry) (s : State),
    let c := (s.core pc).vctx st
    let w := c.width
    let moves (src : Nat → Int) (o : Host.Outcome State Fault Refusal) : Prop := ∃ t f, o = .next t ∧ (t.core pc).inflight = (s.core pc).inflight ++ [f] ∧ f.ent = e ∧
      ∀ i, w * (i + 1) ≤ 2048 * c.ngrp → elemAt ((c.applyWrites f.vx).group (fVD e) c.ngrp) w i =
        if i < c.vl ∧ bit (c.pred (fPM e)) i = true then (if 0 ≤ src i ∧ src i < (c.vl : Int) then elemAt (c.group (fVA e) c.ngrp) w (src i).toNat else 0)
        else elemAt (c.group (fVD e) c.ngrp) w i
    c.etype ∈ [0, 1, 2, 10, 11] → c.grp ≤ 3 → c.vl ≤ c.vlmax →
    (IssuesNext lc st .vx (mkWord 2 0x068 tok ops) pc e r s → vxCheck c 0x068 (mVD ||| mVA ||| mVB ||| mPM) [fVD e, fVA e, fVB e] e = none →
      moves (fun i => elemAt (c.group (fVB e) c.ngrp) w i) (exec (.vperm lc st .issue tok ops) s)) ∧
    (IssuesNext lc st .vx (mkWord 2 0x069 tok ops) pc e r s → vxCheck c 0x069 (mVD ||| mVA ||| mPM ||| mMOD 1 ||| mSA) [fVD e, fVA e] e = none →
      moves (fun i => if fMOD e 0 1 = 0 then (i : Int) + c.sreg (fSA e) else (i : Int) - c.sreg (fSA e)) (exec (.vslide lc st .issue tok ops) s))
/-- R201 to R205: the data mover's words. -/
def Obligations.DataMoverWordsIssueAndComplete : Prop :=
  (∀ (lc : Fin 64) (st : Stream) (tok : BitVec 16) (ops : BitVec 96) (pc a : Nat) (e : QEntry) (r : List QEntry) (s : State),
    (IssuesNext lc st .dm (mkWord 3 0x001 tok ops) pc e r s → dmCheck st (fun c => mayRead c (.core lc)) s pc e = none → s.resolve (dmAddr e) = .loc a →
      ∃ t, exec (.dmLoad lc st .issue tok ops) s = .next t ∧ t.mem = s.mem ∧ t.core pc = issuedCore (s.core pc) .dm st e r) ∧
    (IssuesNext lc st .dm (mkWord 3 0x002 tok ops) pc e r s → dmCheck st (fun c => mayWrite c (.core lc)) s pc e = none → s.resolve (dmAddr e) = .loc a →
      (spadReads pc (s.core pc) (span (spaAddr e 0) (2 * dmNgr e))).bad = none →
      ∃ t, exec (.dmStore lc st .issue tok ops) s = .next t ∧ t.mem = s.mem ∧ (t.core pc).queue .dm st = r ∧ (t.core pc).spad = (s.core pc).spad ∧
        ∃ f, (t.core pc).inflight = (s.core pc).inflight ++ [f] ∧ f.ent = e ∧
          f.dm.data = spadGrans pc (s.core pc) (spaAddr e 0) (spadReads pc (s.core pc) (span (spaAddr e 0) (2 * dmNgr e))).vals) ∧
    (IssuesNext lc st .dm (mkWord 3 0x003 tok ops) pc e r s → spaReserved e 0 = 0 → opf e 48 16 = 0 → spaAddr e 0 % 2 = 0 → opf e 24 24 % 2 = 0 →
      2 ≤ opf e 24 24 → opf e 24 24 ≤ 196608 → (st = .defr → opf e 24 24 ≤ 1024) → s.spanFault pc (spaAddr e 0) (opf e 24 24) = none →
      ∃ t, exec (.dmFill lc st .issue tok ops) s = .next t ∧ t.mem = s.mem ∧
        t.core pc = spadWrite pc (issuedCore (s.core pc) .dm st e r) ((span (spaAddr e 0) (opf e 24 24)).map (fun w => (w, fillWord e)))) ∧
    (IssuesNext lc st .dm (mkWord 3 0x004 tok ops) pc e r s → opf e 32 64 = 0 → opf e 16 16 ≠ 0 → opf e 0 16 + opf e 16 16 ≤ nRegions →
      (∀ i, opf e 0 16 ≤ i → i < opf e 0 16 + opf e 16 16 → (s.mem.region i).cls = 0 ∧ (s.mem.region i).lost = false) →
      ∃ t, exec (.dmRclear lc st .issue tok ops) s = .next t ∧ t.core pc = issuedCore (s.core pc) .dm st e r ∧
        t.mem = { s.mem with regionOps := s.mem.regionOps ++ [⟨.word lc st, 0, opf e 0 16, opf e 16 16, 0⟩] })) ∧
  (∀ (lc : Fin 64) (st : Stream) (pc a i : Nat) (f : InFlight) (s u : State), s.physOf lc = some pc → (s.core pc).oldest .dm st = some (i, f) → f.dm.waiting = 0 →
    ((toksOf f.ent.word).smode ≠ 0 → (s.core pc).token (toksOf f.ent.word).stok < 65535) →
    (opcodeOf f.ent.word = 0x001 → s.resolve (dmAddr f.ent) = .loc a → State.loadLocal pc lc (dmNgr f.ent) a (spaAddr f.ent 0) s = (none, u) →
      ∃ t, exec (.dmLoadComplete lc st) s = .next t ∧ (t.core pc).spad = (u.core pc).spad ∧ (t.core pc).inflight = ((s.core pc).landed i).inflight) ∧
    (opcodeOf f.ent.word = 0x002 → s.resolve (dmAddr f.ent) = .loc a → State.storeLocal lc f.dm.data a s = (none, u) →
      ∃ t, exec (.dmStoreComplete lc st) s = .next t ∧ t.mem = u.mem ∧ (t.core pc).spad = (s.core pc).spad ∧
        (t.core pc).inflight = ((s.core pc).landed i).inflight) ∧
    (opcodeOf f.ent.word = 0x003 → ∃ t, exec (.dmFillComplete lc st) s = .next t ∧ t.mem = s.mem ∧ (t.core pc).spad = (s.core pc).spad ∧
      (t.core pc).inflight = ((s.core pc).landed i).inflight))

/-- Queue `i` of die `d` has state `v` in the cache of a READY queue engine, and no operation on it waits for a miss. -/
def QCached (s : State) (d i : Nat) (v : BitVec 256) : Prop :=
  s.qeUp d = true ∧ (s.qe d).waits i = false ∧ ∃ l, (s.qe d).line i = some l ∧ l.v = v

/-- The cached state of queue `i` of die `d` is `v`. -/
def QShows (s : State) (d i : Nat) (v : BitVec 256) : Prop := ∃ l, (s.qe d).line i = some l ∧ l.v = v

/-- R233, R234: the SY words. -/
def Obligations.SyncWordsAct : Prop :=
  (∀ (lc : Fin 64) (st : Stream) (tok : BitVec 16) (ops : BitVec 96) (pc : Nat) (e : QEntry) (r : List QEntry) (v : BitVec 256) (s : State),
    let d := ctrDie e
    let own := lc.val / 16
    let port := if d = own then lc.val % 16 else diePort d own
    let k := issuedCore (s.core pc) .sy st e r
    (IssuesNext lc st .sy (mkWord 4 0x001 tok ops) pc e r s → syReserved e 0xFFFFFFFFFFFFFFFFF = none → opf e 52 16 ≠ 0 → opf e 30 1 = 0 → opf e 18 12 = 0 →
      opf e 31 20 = 0 → opf e 51 1 = 0 → s.berylUp d = true → s.reaches own d (opf e 0 16) = true →
      ∃ t, exec (.syInc lc st .issue tok ops) s = .next t ∧ t.mem = s.mem ∧ t.core pc = k ∧
        (t.beryl d).ops = (s.beryl d).ops ++ [⟨port, .inc, opf e 0 16, opf e 52 16, .sy lc st⟩]) ∧
    (∀ q, IssuesNext lc st .sy (mkWord 4 0x001 tok ops) pc e r s → syReserved e 0xFFFFFFFFFFFFFFFFF = none → opf e 52 16 ≠ 0 → opf e 30 1 = 1 →
      (opf e 51 1 = 1 → opf e 31 20 = 0) → s.syFlow lc e = some q →
      QCached s (q / 2 ^ 18) (q % 2 ^ 18) v → qKind v = 1 → qEn v = true → qPeerPkg v = opf e 18 12 → (s.flow q).held = [] →
      ∃ t, exec (.syInc lc st .issue tok ops) s = .next t ∧ t.mem = s.mem ∧ (t.core pc).queue .sy st = r ∧ (t.core pc).inflight = (s.core pc).inflight ∧
        (t.flow q).placed = (s.flow q).placed ++ [(s.signalItem q v (opf e 0 18) (opf e 52 16)).x]) ∧
    (IssuesNext lc st .sy (mkWord 4 0x002 tok ops) pc e r s → syReserved e 0xFFFF000000003FFFF = none → opf e 52 16 ≠ 0 → s.berylUp d = true →
      s.reaches own d (opf e 0 16) = true →
      ∃ t, exec (.syDec lc st .issue tok ops) s = .next t ∧ t.mem = s.mem ∧ t.core pc = k ∧
        (t.beryl d).ops = (s.beryl d).ops ++ [⟨port, .dec, opf e 0 16, opf e 52 16, .sy lc st⟩]) ∧
    (IssuesNext lc st .sy (mkWord 4 0x003 tok ops) pc e r s → syReserved e 0x3FFFFF00000000000003FFFF = none → spaAddr e 72 % 2 = 0 → spaAddr e 72 + 2 ≤ spadWords →
      s.spanFault pc (spaAddr e 72) 2 = none → s.berylUp d = true → s.reaches own d (opf e 0 16) = true →
      ∃ t, exec (.syRead lc st .issue tok ops) s = .next t ∧ t.mem = s.mem ∧ t.core pc = k ∧
        (t.beryl d).ops = (s.beryl d).ops ++ [⟨port, .read, opf e 0 16, 0, .sy lc st⟩]) ∧
    (let w := syWatch e
     IssuesNext lc st .sy (mkWord 4 0x010 tok ops) pc e r s → syReserved e 0xFFFFFFFFFFFFFF7FFFCFFFF = none → w.bad own = false → s.berylUp own = true →
      ((s.beryl own).slot (opf e 18 14)) = none → condHolds w.cond w.n ((s.beryl own).ctr w.ctr) = false →
      (∀ x ∈ (s.beryl own).slots, ∀ y, x.2 = some y → y.ctr ≠ w.ctr) →
      ∃ t, exec (.syWatch lc st .issue tok ops) s = .next t ∧ t.mem = s.mem ∧ (t.core pc).queue .sy st = r ∧ (t.core pc).inflight = (s.core pc).inflight ∧
        (t.beryl own).slot (opf e 18 14) = some w ∧ (t.beryl own).counters = (s.beryl own).counters) ∧
    (IssuesNext lc st .sy (mkWord 4 0x011 tok ops) pc e r s → syReserved e 0xFFFC0000 = none → s.berylUp own = true →
      ((s.beryl own).slot (opf e 18 14)).isSome = true →
      ∃ t, exec (.syUnwatch lc st .issue tok ops) s = .next t ∧ t.mem = s.mem ∧ (t.core pc).queue .sy st = r ∧ (t.core pc).inflight = (s.core pc).inflight ∧
        (t.beryl own).slot (opf e 18 14) = none ∧ (t.beryl own).counters = (s.beryl own).counters) ∧
    (∀ q, IssuesNext lc st .sy (mkWord 4 0x020 tok ops) pc e r s → syReserved e 0xFFFFFBFFC0000 = none → (opf e 51 1 = 1 → opf e 31 20 = 0 ∧ qPeerPkg v = opf e 18 12) →
      s.syFlow lc e = some q → QCached s (q / 2 ^ 18) (q % 2 ^ 18) v → qKind v = 1 → qEn v = true → (s.flow q).held = [] →
      ∃ t, exec (.syFence lc st .issue tok ops) s = .next t ∧ t.mem = s.mem ∧ t.core pc = k ∧ t.fences = s.fences ++ [(q, lc.val, st)] ∧
        (t.flow q).placed = (s.flow q).placed ++ [⟨qClass v, s.flowHead q v 3, [], false⟩]) ∧
    (IssuesNext lc st .sy (mkWord 4 0x030 tok ops) pc e r s → syReserved e 0xFFFF00000000FFFFF = none → opf e 52 16 ≠ 0 →
      s.reaches own (opf e 18 2) (opf e 0 18) = true → QCached s (opf e 18 2) (opf e 0 18) v → doorbellOk v (opf e 52 16) = true →
      ∃ t, exec (.syQring lc st .issue tok ops) s = .next t ∧ t.mem = s.mem ∧ (t.core pc).queue .sy st = r ∧
        QShows t (opf e 18 2) (opf e 0 18) (putFld v 128 16 (qPending v + opf e 52 16))) ∧
    (IssuesNext lc st .sy (mkWord 4 0x031 tok ops) pc e r s → syReserved e 0xFFFF00000000FFFFF = none → opf e 52 16 ≠ 0 →
      s.reaches own (opf e 18 2) (opf e 0 18) = true → QCached s (opf e 18 2) (opf e 0 18) v → consOk v (opf e 52 16) = true →
      ∃ t, exec (.syQcons lc st .issue tok ops) s = .next t ∧ t.mem = s.mem ∧ (t.core pc).queue .sy st = r ∧
        QShows t (opf e 18 2) (opf e 0 18) (qAddCons v (opf e 52 16)))) ∧
  (∀ (lc : Fin 64) (st : Stream) (pc i : Nat) (f : InFlight) (r : List SyAck) (s : State), s.physOf lc = some pc → s.syAcks = ⟨lc, st, .done⟩ :: r →
    (s.core pc).oldest .sy st = some (i, f) → ((toksOf f.ent.word).smode ≠ 0 → (s.core pc).token (toksOf f.ent.word).stok < 65535) →
    ∃ t, exec (.syWordComplete lc st) s = .next t ∧ t.mem = s.mem ∧ t.syAcks = r ∧ (t.core pc).inflight = ((s.core pc).landed i).inflight)

/-- R220 to R226, R236: what a Beryl unit does. -/
def Obligations.CounterOperationsAtTheBank : Prop :=
  (∀ (d : Fin 4) (port : Fin 24) (o : BerOp) (r : List BerOp) (s : State), s.berylUp d = true → (s.beryl d).ops = o :: r → o.port = port.val →
    (∀ x ∈ (s.beryl d).slots, ∀ w, x.2 = some w → w.ctr ≠ o.ctr) → (s.beryl d).ctr o.ctr ≤ ctrMax →
    ∃ t, exec (.berylOperationApply d port) s = .next t ∧ t.mem = s.mem ∧ (t.beryl d).ops = r ∧ (t.beryl d).slots = (s.beryl d).slots ∧
      (∀ c, c ≠ o.ctr → (t.beryl d).ctr c = (s.beryl d).ctr c) ∧
      (t.beryl d).ctr o.ctr = (match o.kind with
        | .inc => if (s.beryl d).ctr o.ctr + o.amount > ctrMax then (s.beryl d).ctr o.ctr else (s.beryl d).ctr o.ctr + o.amount
        | .dec => if o.amount > (s.beryl d).ctr o.ctr then (s.beryl d).ctr o.ctr else (s.beryl d).ctr o.ctr - o.amount
        | .read => (s.beryl d).ctr o.ctr)) ∧
  (∀ (d : Fin 4) (v : BitVec 32) (s : State), s.berylUp d = true → v.toNat ≤ ctrMax → mapWf (fun _ => none) (s.beryl d).slots →
    ∃ t, exec (.set d v) s = .next t ∧ ∀ i w, (t.beryl d).slot i = some w → w.ctr = s.getF d fBerylCtrSelIndex →
      (w.take = true → ¬ (1 ≤ w.n ∧ w.n ≤ (t.beryl d).ctr w.ctr)) ∧ (w.take = false → w.met = condHolds w.cond w.n ((t.beryl d).ctr w.ctr))) ∧
  (∀ (d : Fin 4) (s : State), s.berylUp d = true →
    let i := s.getF d fBerylWatchSelSlot
    let w := watchOf (mapGet (fun _ => (0 : BitVec 64)) (s.beryl d).staged (2 * i)) (mapGet (fun _ => (0 : BitVec 64)) (s.beryl d).staged (2 * i + 1))
    ((s.beryl d).slot i = none → w.bad d = false → condHolds w.cond w.n ((s.beryl d).ctr w.ctr) = false →
      (∀ x ∈ (s.beryl d).slots, ∀ y, x.2 = some y → y.ctr ≠ w.ctr) →
      ∃ t, exec (.arm d) s = .next t ∧ t.mem = s.mem ∧ (t.beryl d).slot i = some w ∧ (t.beryl d).counters = (s.beryl d).counters) ∧
    (((s.beryl d).slot i).isSome = true →
      ∃ t, exec (.release d) s = .next t ∧ t.mem = s.mem ∧ (t.beryl d).slot i = none ∧ (t.beryl d).counters = (s.beryl d).counters ∧
        ∀ j, j ≠ i → (t.beryl d).slot j = (s.beryl d).slot j)) ∧
  (∀ (d : Fin 4) (slot : Fin 16384) (w : Watch) (s : State), (s.beryl d).slot slot = some w → s.bounded d w = true → s.gated d = false →
    (w.overran = false → ∃ t, exec (.watchBoundExpiry d slot) s = .next t ∧ t.mem = s.mem ∧ t.job = s.job ∧
      (t.beryl d).slot slot = some { w with overran := true }) ∧
    (w.overran = true → s.getF d fBerylCfgFatalMult ≠ 0 → s.job.running = true →
      ∃ t, exec (.watchFatalExpiry d slot) s = .next t ∧ t.mem = s.mem ∧ t.job.running = false ∧ t.job.fatal = true)) ∧
  (∀ (d : Fin 4) (s : State), s.berylUp d = true →
    (∃ t, exec (.snap d) s = .next t ∧ t.beryls = s.beryls ∧ t.cores = s.cores) ∧
    (s.job.running = false → ∃ t, exec (.check d) s = .next t ∧ t.beryls = s.beryls ∧ t.cores = s.cores ∧ fld (t.reg d oBerylTaskStat) 1 1 = 1 ∧
      ((s.beryl d).armed ≠ 0 → fld (t.reg d oBerylTaskStat) 2 1 = 1)))
/-- R241, R244, R247: queue state operations. -/
def Obligations.QueueCountsMove : Prop :=
  (∀ (q : Fin 1048576) (v : BitVec 256) (s : State), QCached s (q.val / 2 ^ 18) (q.val % 2 ^ 18) v →
    (let k := min (qPending v) (qDepth v - qHeld v)
     k ≠ 0 → ∃ t, exec (.queueProdAdvance q) s = .next t ∧ t.mem = s.mem ∧
       QShows t (q.val / 2 ^ 18) (q.val % 2 ^ 18) (putFld (qAddProd v k) 128 16 (qPending v - k))) ∧
    (∀ r, s.doorbells = q.val :: r → doorbellOk v 1 = true → ∃ t, exec (.watchDoorbellArrival q) s = .next t ∧ t.mem = s.mem ∧ t.doorbells = r ∧
       QShows t (q.val / 2 ^ 18) (q.val % 2 ^ 18) (putFld v 128 16 (qPending v + 1)))) ∧
  (∀ (d : Fin 4) (queue : BitVec 18) (amount : BitVec 16) (v : BitVec 256) (s : State), QCached s d queue.toNat v → amount ≠ 0 →
    doorbellOk v amount.toNat = true →
    ∃ t, exec (.qeDoorbell d queue amount) s = .next t ∧ t.mem = s.mem ∧ QShows t d queue.toNat (putFld v 128 16 (qPending v + amount.toNat))) ∧
  (∀ (d : Fin 4) (v : BitVec 256) (s : State), QCached s d (s.getF d fQeQselQueue) v →
    (∃ t, exec (.load d) s = .next t ∧ t.mem = s.mem ∧ ∀ k < 4, (t.reg d (oQeQstate + 8 * k)).toNat = fld v (64 * k) 64) ∧
    (s.anyLive = false → viewBad (s.qView d) = false → (qPin (s.qView d) = true → qPin v = false → s.pinned d < 4096) →
      ∃ t, exec (.commit d) s = .next t ∧ t.mem = s.mem ∧ QShows t d (s.getF d fQeQselQueue) (s.qView d)) ∧
    (s.anyLive = false → ∃ t, exec (.clearErr d) s = .next t ∧ t.mem = s.mem ∧ QShows t d (s.getF d fQeQselQueue) (putFld v 56 1 0))) ∧
  (∀ (q : Fin 1048576) (n : Nat) (g : GranBits) (m : GranMeta) (s u : State),
    let d := q.val / 2 ^ 18
    let i := q.val % 2 ^ 18
    let v : BitVec 256 := BitVec.ofNat 256 (natBits g.toNat (8 * (s.qstAddr d i % 128)) 256)
    s.qeUp d = true → (s.qe d).waiting = [⟨i, .doorbell n, .reg⟩] → (s.qe d).line i = none → ((s.qe d).setLines i).length < 16 →
    (s.setQe d { s.qe d with waiting := [] }).memRead (.queueEngine d) (s.qstAddr d i / 128) = (.ok g m, u) → doorbellOk v n = true →
    ∃ t, exec (.qstateMissFill q) s = .next t ∧ t.mem = u.mem ∧ (t.qe d).waiting = [] ∧ QShows t d i (putFld v 128 16 (qPending v + n)))

/-- R240, R242, R243, R274: descriptors and landings. -/
def Obligations.DescriptorsAndLandingsMove : Prop :=
  (∀ (q : Fin 1048576) (v : BitVec 256) (s : State),
    let d := q.val / 2 ^ 18
    let i := q.val % 2 ^ 18
    QCached s d i v →
    (∀ (bs : List Byte) (u w : State), qKind v ≤ 1 → qEn v = true → qErr v = false → qDepth v ≠ 0 → qHeld v ≠ 0 → mapGet (fun _ => none) (s.qe d).running i = none →
      (s.qGet d i).2.readBytes (.queueEngine d) (qEntryAt v (qCons v)) 32 = (some bs, u) →
      (let x : BitVec 256 := BitVec.ofNat 256 (leNat bs)
       let u' := u.setQe d { u.qe d with running := mapSet (fun _ => none) (u.qe d).running i (some x) }
       ringBad (qKind v == 1) x = false → ringAddrBad (qKind v == 1) (qPeerPkg v) x = false →
       (qKind v = 0 → ∃ t, exec (.descriptorStart q) s = .next t ∧ t.mem = u.mem ∧ mapGet (fun _ => none) (t.qe d).running i = some x ∧ QShows t d i v) ∧
       (qKind v = 1 → dRsig x = false → State.sendDesc d q x (xferSizes (dNgr x)) 0 u' = (true, w) →
         exec (.descriptorStart q) s = .next w ∧ mapGet (fun _ => none) (w.qe d).running i = some x))) ∧
    (∀ (x : BitVec 256) (u : State), mapGet (fun _ => none) (s.qe d).running i = some x →
      (let g := (s.qGet d i).2
       qKind v = 0 → State.copyLocal (.queueEngine d) (localOf (dSrc x)) (localOf (dDst x)) (dNgr x) 0
         (g.setQe d { g.qe d with running := mapSet (fun _ => none) (g.qe d).running i none }) = (true, u) →
       ∃ t, exec (.descriptorComplete q) s = .next t ∧ t.mem = u.mem ∧ mapGet (fun _ => none) (t.qe d).running i = none ∧ QShows t d i (qAddCons v 1)) ∧
      (qKind v = 1 → (s.flow q).held = [] →
       ∃ t, exec (.descriptorComplete q) s = .next t ∧ t.mem = s.mem ∧ mapGet (fun _ => none) (t.qe d).running i = none ∧ QShows t d i (qAddCons v 1))) ∧
    (∀ it, (s.flow q).held = [it] → it.need ≤ qCredit v → ∃ t, exec (.landPlace q) s = .next t ∧ t.mem = s.mem ∧ (t.flow q).held = [] ∧
      (t.flow q).placed = (s.flow q).placed ++ [it.x] ∧ (it.need ≠ 0 → QShows t d i (putFld v 194 24 (qCredit v - it.need)))) ∧
    (let n := min 65535 (mapGet (fun _ => 0) (s.qe d).freed i)
     n ≠ 0 → qPeerPkg v ≠ s.pkgId → ∃ t x, exec (.creditReturn q) s = .next t ∧ t.mem = s.mem ∧
       mapGet (fun _ => []) t.resp d = mapGet (fun _ => []) s.resp d ++ [x] ∧ x.h.kind = 5 ∧ x.h.amount = n ∧ x.h.peerQ = qPeerQ v ∧ x.h.dst = qPeerPkg v ∧
       mapGet (fun _ => 0) (t.qe d).freed i = mapGet (fun _ => 0) (s.qe d).freed i - n)) ∧
  (∀ (d : Fin 4) (residue : Bool) (v : BitVec 256) (bs ps : List Byte) (s a b : State),
    let q := s.getF d fCeCfgTrigq
    let u := ((s.qGet d q).2.qPut d q (qAddCons v 1)).noteFreed d q v 1
    let ix := s.getF d fCeStatusNext
    let x : BitVec 512 := BitVec.ofNat 512 (leNat bs)
    s.ceUp d = true → s.flag d fCeStatusHalted = false → (s.runs d).length < 8 → QCached s d q v → qKind v = 2 → qEn v = true → qErr v = false → 16 ≤ qDepth v →
    qPeerPkg v = s.pkgId → qHeld v ≠ 0 → u.readRun (.collective d) (s.ceAddr d ix) 64 = (some bs, a) → cRefused x (a.getF d fCeLayoutGenGen) = false →
    a.dataRun (.collective d) (cPeers x) (cPeerBytes x) = (some ps, b) → (peersOf ps (cEntries x)).2 = false → rolesOk x (peersOf ps (cEntries x)).1 = true →
    ∃ t, exec (.ceDescriptorStart d residue) s = .next t ∧ ∃ y ∈ t.runs d, y.ix = ix ∧ y.desc = x ∧ y.peers = (peersOf ps (cEntries x)).1) ∧
  (∀ (d : Fin 4) (r : CRun) (s : State), s.ceUp d = true → s.flag d fCeStatusHalted = false → s.runs d = [r] → r.received = true →
    mapGet (fun _ => 0) s.collSent (d.val * 4096 + r.ix) = 0 →
    ∃ t, exec (.ceDescriptorComplete d) s = .next t ∧ t.mem = s.mem ∧ t.runs d = [] ∧ t.getF d fCeStatusInflight = 0)

/-- Granule `g` is in range, and its stack answers and is at hand to the requester (R196 step 1, R377). -/
def AtHand (s : State) (r : Requester) (g : Nat) : Prop := g < stackBytes / 128 ∧ s.stackNear r g = true

/-- Granule `g` is of the region's epoch, without wrong symbols, and passes its block check. -/
def GoodGran (m : MemState) (g : Nat) : Prop :=
  m.errsOf g = [] ∧ (m.metaOf g).epoch = (m.region (granRegion g)).epoch ∧ chkOf (m.gran g) = (m.metaOf g).chk

/-- R196, R206 to R208: accesses to stack memory. -/
def Obligations.StackMemoryAccesses : Prop :=
  (∀ (r : Requester) (gran : BitVec 41) (s : State), let g := gran.toNat
    AtHand s r g → mayRead (s.mem.region (granRegion g)).cls r = true → (s.mem.region (granRegion g)).lost = false → s.mem.entryOf g = none →
    (GoodGran s.mem g → exec (.stackRead r gran []) s = .next { s with out := s.out ++ [.memAnswer r (g * 128) none (s.mem.gran g) (s.mem.metaOf g)] }) ∧
    (s.mem.errsOf g = [] → (s.mem.metaOf g).epoch ≠ (s.mem.region (granRegion g)).epoch →
      exec (.stackRead r gran []) s = .next { s with out := s.out ++ [.memAnswer r (g * 128) none 0 ⟨0, (s.mem.region (granRegion g)).epoch, 0xFF⟩] }) ∧
    ∀ (errs f : List SymErr) (v : GranBits) (k : GranMeta), (s.mem.damage g errs).decode g = .corrected f v k → k.epoch = (s.mem.region (granRegion g)).epoch →
      chkOf v = k.chk → ∃ t l, exec (.stackRead r gran errs) s = .next t ∧ t.out = l ++ [.memAnswer r (g * 128) none v k]) ∧
  (∀ (r : Requester) (gran : BitVec 41) (v : GranBits) (k : GranMeta) (s u : State), s.memRead r gran.toNat = (.ok v k, u) →
    ∃ t, exec (.stackRead r gran []) s = .next t ∧ t.mem = u.mem ∧ t.cores = u.cores ∧ t.out = u.out ++ [.memAnswer r (gran.toNat * 128) none v k]) ∧
  (∀ (r : Requester) (gran : BitVec 41) (data : BitVec 1024) (s : State), let g := gran.toNat
    AtHand s r g → mayWrite (s.mem.region (granRegion g)).cls r = true → (s.mem.region (granRegion g)).lost = false →
    (let k : GranMeta := ⟨chkOf data, (s.mem.region (granRegion g)).epoch, r.code⟩
     ∃ t, exec (.stackWrite r gran data (chkOf data)) s = .next t ∧ t.out = (s.dropMerge g).out ++ [.memAnswer r (g * 128) none data k] ∧ t.regs = s.regs ∧
      t.cores = s.cores ∧ (∀ j, j ≠ g → t.mem.gran j = s.mem.gran j ∧ t.mem.metaOf j = s.mem.metaOf j) ∧ t.mem.entryOf g = none ∧
      ∀ r', mayRead (s.mem.region (granRegion g)).cls r' = true → s.stackNear r' g = true → (t.memRead r' g).1 = .ok data k) ∧
    (∀ chk, chk ≠ chkOf data → ∃ t, exec (.stackWrite r gran data chk) s = .next t ∧ t.mem = s.mem ∧ t.cores = s.cores ∧
      OutMsg.memAnswer r (g * 128) (some 4) 0 ⟨0, 0, 0⟩ ∈ t.out)) ∧
  (∀ (r : Requester) (gran : BitVec 41) (mask : BitVec 128) (data : BitVec 1024) (s : State), let g := gran.toNat
    let bits := maskToBits mask
    mask ≠ 0 → mask ≠ BitVec.allOnes 128 → AtHand s r g → mayWrite (s.mem.region (granRegion g)).cls r = true → (s.mem.region (granRegion g)).lost = false →
    (s.mem.entryOf g = none → (s.mem.mergeBuf (granChan g)).length < 64 →
      (∃ t, exec (.narrowWrite r gran mask data (chkOf (data &&& bits)) false) s = .next t ∧ t.regs = s.regs ∧ t.cores = s.cores ∧ t.out = s.out ∧
        t.mem.data = s.mem.data ∧ t.mem.gmeta = s.mem.gmeta ∧ t.mem.entryOf g = some ⟨g, mask, data &&& bits, r, [(r, true)]⟩) ∧
      (GoodGran s.mem g → ∃ t, exec (.narrowWrite r gran mask data (chkOf (data &&& bits)) true) s = .next t ∧ t.cores = s.cores ∧
        t.out = s.out ++ [.narrowDone r (g * 128) none] ∧ t.mem.entryOf g = none ∧ t.mem.gran g = mergeBits (s.mem.gran g) (data &&& bits) bits ∧
        ∀ j, j ≠ g → t.mem.gran j = s.mem.gran j ∧ t.mem.metaOf j = s.mem.metaOf j)) ∧
    (∀ e, s.mem.entryOf g = some e → e.mask ||| mask ≠ BitVec.allOnes 128 →
      ∃ t, exec (.narrowWrite r gran mask data (chkOf (data &&& bits)) false) s = .next t ∧ t.regs = s.regs ∧ t.cores = s.cores ∧ t.mem.data = s.mem.data ∧
        t.mem.gmeta = s.mem.gmeta ∧ t.mem.entryOf g = some { e with mask := e.mask ||| mask, data := mergeBits e.data data bits, writer := r, writes := e.writes ++ [(r, true)] })) ∧
  (∀ (gran : BitVec 41) (s : State), let g := gran.toNat
    (s.mem.entryOf g = none → exec (.mergeTimeout gran) s = .next s) ∧
    ∀ e, s.mem.entryOf g = some e → (s.mem.region (granRegion g)).lost = false → e.mask = BitVec.allOnes 128 ∨ GoodGran s.mem g →
      ∃ t, exec (.mergeTimeout gran) s = .next t ∧ t.cores = s.cores ∧ t.mem.entryOf g = none ∧
        t.mem.gran g = (if e.mask = BitVec.allOnes 128 then e.data else mergeBits (s.mem.gran g) e.data (maskToBits e.mask)) ∧
        t.mem.metaOf g = ⟨chkOf (t.mem.gran g), (s.mem.region (granRegion g)).epoch, e.writer.code⟩ ∧
        t.out = s.out ++ (e.writes.filter (fun w => w.2)).map (fun w => .narrowDone w.1 (g * 128) none)) ∧
  (∀ (r : Requester) (gran : BitVec 41) (data : BitVec 1024) (s : State), let g := gran.toNat
    let failed (c : Instr) (kind : Nat) : Prop := ∃ t, exec c s = .next t ∧ t.mem = s.mem ∧ OutMsg.memAnswer r (g * 128) (some kind) 0 ⟨0, 0, 0⟩ ∈ t.out
    AtHand s r g →
    ((mayRead (s.mem.region (granRegion g)).cls r = false → failed (.stackRead r gran []) 0) ∧
     (mayWrite (s.mem.region (granRegion g)).cls r = false → failed (.stackWrite r gran data (chkOf data)) 0) ∧
     ((s.mem.region (granRegion g)).lost = true → mayRead (s.mem.region (granRegion g)).cls r = true → failed (.stackRead r gran []) 3) ∧
     ((s.mem.region (granRegion g)).lost = true → mayWrite (s.mem.region (granRegion g)).cls r = true → failed (.stackWrite r gran data (chkOf data)) 3)))

/-- R48, R183, R212, R213: upkeep of memory. -/
def Obligations.MemoryUpkeep : Prop :=
  (∀ (lc : Fin 64) (word : Fin 16384) (s : State), ∃ t, exec (.accDiagnosticRead lc word) s = .next t ∧ t.mem = s.mem ∧ t.cores = s.cores ∧
    t.out = s.out ++ [.readAnswer (0x014000000000 + lc.val * 0x100000 + 64 * word.val) ((s.physOf lc).bind (fun pc => (diagWord pc (s.core pc) word).1.map BitVec.toNat))]) ∧
  (∀ (d : Fin 4) (s : State), let p := s.getF d fMcScrubStatusPosition
    let k := 3 * d.val + p / stackGrans
    let g := stackGran k (p % stackGrans)
    s.dieUp d = true → s.getF d fMcCfgScrubHours ≠ 0 → s.stackUp k = true → s.mem.errsOf g = [] → chkOf (s.mem.gran g) = (s.mem.metaOf g).chk → p + 1 < 3 * stackGrans →
    ∃ t, exec (.stackPatrolScrub d []) s = .next t ∧ t.mem = s.mem ∧ t.cores = s.cores ∧ t.getF d fMcScrubStatusPosition = p + 1) ∧
  (∀ (pc : Fin 72) (word : Fin 196608) (v : SpadBits) (e : SymErr) (s : State), s.dieUp (pcDie pc) = true → s.getF (pcDie pc) fMcCfgSpadScrubHours ≠ 0 →
    (s.core pc).spadWord word = .stored v [e] →
    ∃ t, exec (.spadPatrolScrub pc word []) s = .next t ∧ t.mem = s.mem ∧ (t.core pc).spadWord word = .stored v [] ∧
      ∀ w, w ≠ word.val → (t.core pc).spadWord w = (s.core pc).spadWord w) ∧
  (∀ (k : Fin 12) (s : State), s.mem.wf → s.dieUp (k.val / 3) = true → s.func (stackFunc k) = 1 → s.flag (k.val / 3) (stackF k fMcStkStatusSwept) = false →
    ∃ t, exec (.initSweep k) s = .next t ∧ t.cores = s.cores ∧ t.flag (k.val / 3) (stackF k fMcStkStatusSwept) = true ∧
      (∀ g, granStack g = k.val → t.mem.gran g = 0 ∧ t.mem.errsOf g = [] ∧ t.mem.metaOf g = .swept 0) ∧
      ∀ g, granStack g ≠ k.val → t.mem.gran g = s.mem.gran g ∧ t.mem.metaOf g = s.mem.metaOf g)

/-- R198 to R200, R214, R218: region commands. -/
def Obligations.RegionCommandsApply : Prop :=
  (∀ (d : Fin 4) (region count : BitVec 16) (cls : BitVec 2) (s : State), s.dieUp d = true → s.regionBusy d = false → count ≠ 0 → region.toNat + count.toNat ≤ nRegions →
    let started (op c : Nat) (t : State) : Prop := t.regs = s.regs ∧ t.cores = s.cores ∧
      t.mem = { s.mem with regionOps := s.mem.regionOps ++ [⟨.register d, op, region.toNat, count.toNat, c⟩] }
    (∃ t, exec (.incEpoch d region count) s = .next t ∧ started 0 0 t) ∧
    (s.anyLive = false → ∃ t, exec (.setClass d region count cls) s = .next t ∧ started 1 cls.toNat t) ∧
    (∃ t, exec (.setLost d region count) s = .next t ∧ started 2 0 t) ∧ (∃ t, exec (.clearLost d region count) s = .next t ∧ started 3 0 t)) ∧
  (∀ (o : RegionOp) (d : Nat) (s : State), s.mem.regionOps = [o] → o.src = .register d → o.op ≤ 3 → o.cls ≤ 3 → (∀ r, (s.mem.region r).epoch < 64) →
      (∀ e ∈ s.mem.errs, (s.mem.region (granRegion e.1)).age < 63) →
    ∃ t, exec (.regionCmdComplete 0) s = .next t ∧ t.cores = s.cores ∧ t.regs = s.regs ∧ t.mem.regionOps = [] ∧
      (∀ r, r < o.first ∨ o.first + o.count ≤ r → t.mem.region r = s.mem.region r) ∧
      ∀ r, o.first ≤ r → r < o.first + o.count →
        (o.op = 0 → (t.mem.region r).epoch = ((s.mem.region r).epoch + 1) % 64 ∧ (t.mem.region r).cls = (s.mem.region r).cls ∧ (t.mem.region r).lost = (s.mem.region r).lost) ∧
        (o.op = 1 → t.mem.region r = { s.mem.region r with cls := o.cls }) ∧
        (o.op = 2 → t.mem.region r = { s.mem.region r with lost := true }) ∧
        (o.op = 3 → (t.mem.region r).epoch = ((s.mem.region r).epoch + 1) % 64 ∧ (t.mem.region r).cls = (s.mem.region r).cls ∧ (t.mem.region r).lost = false)) ∧
  (∀ (region : BitVec 16) (image : List Byte) (s : State), s.mem.restoring.any (fun g => granRegion g == region.toNat) = true → s.mem.waiters = [] →
      s.flash.ops.head? = some (.restore region.toNat) →
    ∃ t, exec (.firmwareRegionRestore region image true) s = .next t ∧ t.cores = s.cores ∧ t.job = s.job ∧ t.flash = { s.flash with ops := s.flash.ops.drop 1 } ∧
      (∀ g ∈ t.mem.restoring, granRegion g ≠ region.toNat) ∧ ∀ r, (t.mem.region r).cls = (s.mem.region r).cls ∧ (t.mem.region r).lost = (s.mem.region r).lost)
/-- The flit that a port sends. -/
def flitSent : OutMsg → Option (Nat × BitVec 2160)
  | .ewFlit p b _ => some (p, b)
  | _ => none

/-- The link control entry that a port sends. -/
def entrySent : OutMsg → Option (Nat × LinkEntry)
  | .ewCtrl p e => some (p, e)
  | _ => none

/-- R250, R254 to R257: the link layer of a port. -/
def Obligations.EwerlinkPortsFollowTheirProtocol : Prop :=
  (∀ (p : Fin 12) (b : BitVec 2160) (hits : List FecHit) (s : State), s.portUp p = true →
    let x := s.port p
    let o := x.fec b hits
    let f := flitOf o.flit
    (x.refuse o.flit o.bad = none → f.typ = 1 ∨ f.typ = 2 →
      ∃ t, exec (.ewFlitReceive p b hits) s = .next t ∧ t.mem = s.mem ∧ (t.port p).rxSeq = (x.rxSeq + 1) % 1024 ∧ (t.port p).refusals = 0 ∧ (t.port p).skip = none ∧
        mapGet (fun _ => []) (t.port p).rx (x.bufOf f) = mapGet (fun _ => []) x.rx (x.bufOf f) ++ [f]) ∧
    (x.refuse o.flit o.bad = none → f.typ = 0 →
      ∃ t, exec (.ewFlitReceive p b hits) s = .next t ∧ t.mem = s.mem ∧ (t.port p).rxSeq = x.rxSeq ∧ (t.port p).rx = x.rx ∧ (t.port p).skip = none) ∧
    (∀ k, x.refuse o.flit o.bad = some k → (∀ n, x.skip = some n → x.passes o.flit k n = false) →
      ∃ t c w, exec (.ewFlitReceive p b hits) s = .next t ∧ t.mem = s.mem ∧ t.out = s.out ++ [.ewCtrl p (.nak x.rxSeq), .ewFlit p c w] ∧ (t.port p).rxSeq = x.rxSeq ∧
        (t.port p).rx = x.rx ∧ (t.port p).skip = some (nextSkip o.flit x.rxSeq) ∧ (t.port p).refusals = x.refusals + 1) ∧
    (∀ k n, x.refuse o.flit o.bad = some k → x.skip = some n → x.passes o.flit k n = true →
      ∃ t, exec (.ewFlitReceive p b hits) s = .next t ∧ t.mem = s.mem ∧ t.out = s.out ∧ (t.port p).rxSeq = x.rxSeq ∧ (t.port p).rx = x.rx ∧
        (t.port p).skip = some (nextSkip o.flit n) ∧ (t.port p).refusals = x.refusals)) ∧
  (∀ (p : Fin 12) (seq : BitVec 10) (a c : List TxFlit) (z : TxFlit) (s : State), s.portUp p = true → (s.port p).replay = a ++ z :: c → z.f.seq = seq.toNat →
    (∀ y ∈ a, y.f.seq ≠ seq.toNat) →
    ∃ t l, exec (.ewNak p seq) s = .next t ∧ t.mem = s.mem ∧ t.regs = s.regs ∧ (t.port p).replay = z :: c ∧ t.out = s.out ++ l ∧
      l.map flitSent = (z :: c).map (fun y => some (p.val, y.f.bits))) ∧
  (∀ (p : Fin 12) (s : State), s.portUp p = true → (s.port p).nextClass (s.weights p) = none ∨ 121 ≤ (s.port p).replay.length →
    ∃ t w, ∃ f : Flit, exec (.linkIdleTimer p) s = .next t ∧ t.mem = s.mem ∧ t.regs = s.regs ∧ t.out = s.out ++ [.ewFlit p f.bits w] ∧ f.typ = 0 ∧ f.ack = (s.port p).lastAck ∧
      (t.port p).replay = (s.port p).replay) ∧
  (∀ (p : Fin 12) (s : State), s.portUp p = true → s.fecOver p = true ∨ 8 ≤ (s.port p).refusals →
    ∃ t, exec (.portRetrain p) s = .next t ∧ t.mem = s.mem ∧ (t.port p).replay = (s.port p).replay ∧ (t.port p).rx = (s.port p).rx ∧ t.job = s.job ∧
      t.func (portFunc p) = 1 ∧ OutMsg.ewCtrl p .retrain ∈ t.out) ∧
  (∀ (p : Fin 12) (s : State), s.dieUp (portDie p) = true → s.func (portFunc p) = 1 →
    (∀ w : Fin 4, w ≠ 0 → ∃ t, exec (.portRetrainDone p w) s = .next t ∧ t.mem = s.mem ∧ t.func (portFunc p) = (if w = 1 then 2 else 3) ∧
      (t.port p).fails = 0 ∧ (t.port p).refusals = 0) ∧
    ((s.port p).fails + 1 < 3 → ∃ t, exec (.portRetrainDone p 0) s = .next t ∧ t.mem = s.mem ∧ t.func (portFunc p) = 1 ∧ (t.port p).fails = (s.port p).fails + 1) ∧
    (3 ≤ (s.port p).fails + 1 → ∃ t, exec (.portRetrainDone p 0) s = .next t ∧ t.mem = s.mem ∧ t.func (portFunc p) = 5 ∧ t.job.running = false))

/-- R260 to R262, R372: the way of transfers and of messages between dies. -/
def Obligations.TransfersAndMessagesTravel : Prop :=
  (∀ (d : Fin 4) (src : FiSource) (x : Xfer) (s s' : State), s.dieUp d = true → s.fiNext d src = some (x, s') →
    winner (s.xbar d 0 x.cls).next (s.fiInputs d x.cls) = some (srcInput src) →
    let e := s.route d x.h.plane x.h.dst
    let x' : Xfer := { x with h := { x.h with vl := nextVl e x.h.vl } }
    (∀ p g, nextOf e = .port p → s.func (portFunc p) ≠ 5 → s.gateTo d (portDie p) = some g →
      exec (.transferOriginate d src) s = .next ((s'.setXbar d 0 x.cls ⟨none, srcInput src + 1⟩).edgeSend g 2 d (portDie p) (.fabOut (p % 6) x'))) ∧
    (nextOf e = .here → x.h.dst = s.pkgId → s.dieUp x.h.rdie = true → s.reaches d x.h.rdie 0 = true → s.idValid = true → s.outside x.h.rdie x.h = false →
      x.bad = false → ngrOk x.h = true →
      ∃ t, exec (.transferOriginate d src) s = .next t ∧ t.mem = s.mem ∧ t.regs = s.regs ∧ t.fi x.h.rdie = s.fi x.h.rdie ++ [x'])) ∧
  (∀ (pd : Fin 2) (port : Nat) (x : Xfer) (m : DieMsg) (r : List DieMsg) (s : State), s.admitted (4 + pd.val) = true → s.msgs = m :: r → m.at_ / 4 = 4 + pd.val →
    m.body = .fabOut port x → s.xbarGrants (4 + pd.val) port x.cls (12 + m.at_ % 4) = true → mapGet (fun _ => []) (s.port (6 * pd.val + port)).tx x.cls = [] →
    exec (.fabOut pd) s = .next (((s.msgGone m r).setXbar (4 + pd.val) port x.cls ⟨none, 12 + m.at_ % 4 + 1⟩).portSend (6 * pd.val + port) x)) ∧
  (∀ (p : Fin 12) (buf : Fin 8) (f : Flit) (s : State), s.admitted (portDie p) = true → s.rxFlit p buf = some f →
    let pd := portDie p
    let cls := buf.val / 2
    (∀ g o, s.hop p buf = none → f.typ = 1 → headBad (fld f.pay 0 2048) = false → s.hopGoal pd (headOf (fld f.pay 0 2048)) = some g → outOf g = some o →
      s.xbarGrants pd o cls (inputOf p buf) = true →
      (let h := headOf (fld f.pay 0 2048)
       let y := { h with hops := h.hops - 1, vl := nextVl (s.route pd h.plane h.dst) h.vl }
       let t := (s.freeRx p buf).setXbar pd o cls ⟨some (inputOf p buf), inputOf p buf + 1⟩
       let run : HopRun := ⟨g, y, dataFlits h, [], false⟩
       (∀ q, g = .port q → s.portTakes q (2 * cls + y.vl) = true →
         exec (.transferHop p buf) s = .next ((t.portFlits q (2 * cls + y.vl) [headFlit cls y]).hopStep p buf run)) ∧
       (∀ n cross, g = .die n cross → exec (.transferHop p buf) s = .next (t.hopStep p buf run)))) ∧
    (∀ r, s.hop p buf = some r → f.typ = 2 → 1 < r.left →
      (∀ q, r.goal = .port q → s.portTakes q (2 * cls + r.head.vl) = true →
        exec (.transferHop p buf) s = .next (((s.freeRx p buf).portFlits q (2 * cls + r.head.vl) [f]).setHop p buf (some { r with left := r.left - 1 }))) ∧
      (∀ n cross, r.goal = .die n cross → r.bad = false → f.idx + r.left = dataFlits r.head →
        exec (.transferHop p buf) s = .next ((s.freeRx p buf).setHop p buf (some { r with
          left := r.left - 1, took := r.took ++ [⟨BitVec.ofNat 1024 (fld f.pay 0 1024), f.chk0⟩, ⟨BitVec.ofNat 1024 (fld f.pay 1024 1024), f.chk1⟩] }))) ∧
      (r.goal = .drain → exec (.transferHop p buf) s = .next ((s.freeRx p buf).setHop p buf (some { r with left := r.left - 1 })))) ∧
    (∀ r n cross, s.hop p buf = some r → f.typ = 2 → r.left = 1 → r.goal = .die n cross → r.bad = false → f.idx + 1 = dataFlits r.head → r.head.kind ≠ 8 →
      (let u := (s.freeRx p buf).setHop p buf none
       let o := if n < 2 then 6 else 7
       let l := r.took ++ [⟨BitVec.ofNat 1024 (fld f.pay 0 1024), f.chk0⟩, ⟨BitVec.ofNat 1024 (fld f.pay 1024 1024), f.chk1⟩]
       exec (.transferHop p buf) s = .next ((u.setXbar pd o cls { u.xbar pd o cls with own := none }).edgeSend pd (if n < 2 then 0 else 1) pd
         (if cross.isSome then 9 - pd else r.head.rdie) (.fabIn (p.val % 6) cross ⟨cls, r.head, l.take r.head.ngr, false⟩))))) ∧
  (∀ (d : Fin 4) (port : Nat) (x : Xfer) (m : DieMsg) (r : List DieMsg) (s : State), s.dieUp d = true → s.msgs = m :: r → m.at_ / 4 = d.val →
    (m.body = .fabIn port none x → s.dieUp x.h.rdie = true → s.reaches d x.h.rdie 0 = true → s.trackFull x.h.rdie x = false → s.idValid = true →
      s.outside x.h.rdie x.h = false → x.bad = false → ngrOk x.h = true →
      ∃ t, exec (.fabIn d) s = .next t ∧ t.mem = s.mem ∧ t.regs = s.regs ∧ t.msgs = r ∧ t.fi x.h.rdie = s.fi x.h.rdie ++ [x]) ∧
    (∀ q g, m.body = .fabIn port (some q) x → s.gateTo d (if m.src = 4 then 5 else 4) = some g →
      exec (.fabIn d) s = .next ((s.msgGone m r).edgeSend g 2 m.src (if m.src = 4 then 5 else 4) (.fabOut q x)))) ∧
  (∀ (pd : Fin 2) (tag off v : Nat) (m : DieMsg) (r : List DieMsg) (s : State), s.dieUp (4 + pd.val) = true → s.msgs = m :: r → m.at_ / 4 = 4 + pd.val →
    let adm := s.flag (4 + pd.val) fD2dAdmitAdmitted
    (m.body = .cfgRd tag off → exec (.cfgRd pd) s = .next (
      if cfgAllowed (!adm) off then ((s.msgGone m r).readReg (4 + pd.val) off).2.cfgAnswer m tag (((s.msgGone m r).readReg (4 + pd.val) off).1.map BitVec.toNat)
      else (s.msgGone m r).cfgAnswer m tag none)) ∧
    (m.body = .cfgWr tag off v → exec (.cfgWr pd) s = .next (
      if adm = true ∧ (regSpecOf (4 + pd.val) off).isSome = true then ((s.msgGone m r).writeReg (4 + pd.val) off (BitVec.ofNat 64 v)).cfgAnswer m tag (some 0)
      else (s.msgGone m r).cfgAnswer m tag none))) ∧
  (∀ (d : Fin 4) (tag v a : Nat) (m : DieMsg) (r : List DieMsg) (s : State), s.dieUp d = true → s.msgs = m :: r → m.at_ / 4 = d.val → s.cfgOuts = [(m.src, tag, a)] →
    (m.body = .cfgRsp tag false v →
      ∃ t, exec (.cfgRsp d) s = .next t ∧ t.mem = s.mem ∧ t.regs = s.regs ∧ t.msgs = r ∧ t.cfgOuts = [] ∧ t.out = s.out ++ [.readAnswer a (some v)]) ∧
    (m.body = .cfgRsp tag true v →
      ∃ t, exec (.cfgRsp d) s = .next t ∧ t.mem = s.mem ∧ t.msgs = r ∧ t.cfgOuts = [] ∧ t.out = s.out ++ [.readAnswer a none]))

/-- R228, R230, R240 to R243, R264: arrival of the tracked kinds. -/
def Obligations.ArrivedTransfersTakeEffect : Prop :=
  (∀ (d : Fin 4) (x : Xfer) (r : List Xfer) (s : State), s.fi d = x :: r →
    (∀ b u, x.h.kind = 0 → State.fabricWrite d x x.data x.h.addr (s.setFi d r) = (b, u) → ∃ t, exec (.write d) s = .next t ∧ t.mem = u.mem ∧ t.fi d = r) ∧
    (∀ v b u, x.h.kind = 1 → QCached s (x.h.peerQ / 2 ^ 18) (x.h.peerQ % 2 ^ 18) v → landBad v x = false →
      State.landWrite (x.h.peerQ / 2 ^ 18) x v (qProd v) x.data ((s.setFi d r).qGet (x.h.peerQ / 2 ^ 18) (x.h.peerQ % 2 ^ 18)).2 = (b, u) →
      ∃ t, exec (.land d) s = .next t ∧ t.mem = u.mem ∧ t.fi d = r ∧
        QShows t (x.h.peerQ / 2 ^ 18) (x.h.peerQ % 2 ^ 18) (qAddProd v (landEntries v x.h.ngr))) ∧
    (x.h.kind = 2 → ∃ t, exec (.signal d) s = .next t ∧ t.mem = s.mem ∧ t.regs = s.regs ∧ t.fi d = r ∧
      (t.track d x.h.src x.h.flow).held = (s.track d x.h.src x.h.flow).held ++ [⟨x, 0⟩]) ∧
    (x.h.kind = 3 → ∃ t, exec (.fence d) s = .next t ∧ t.mem = s.mem ∧ t.regs = s.regs ∧ t.fi d = r ∧
      (t.track d x.h.src x.h.flow).held = (s.track d x.h.src x.h.flow).held ++ [⟨x, 0⟩]) ∧
    (∀ (lc : Fin 64) st f pc i g, x.h.kind = 4 → s.fences = (x.h.flow, lc.val, st) :: f → s.physOf lc = some pc → (s.core pc).oldest .sy st = some (i, g) →
      ((toksOf g.ent.word).smode ≠ 0 → (s.core pc).token (toksOf g.ent.word).stok < 65535) →
      ∃ t, exec (.fenceAck d) s = .next t ∧ t.mem = s.mem ∧ t.fi d = r ∧ t.fences = f ∧ (t.core pc).inflight = ((s.core pc).landed i).inflight) ∧
    (∀ v, x.h.kind = 5 → QCached s (x.h.peerQ / 2 ^ 18) (x.h.peerQ % 2 ^ 18) v → qKind v = 1 →
      ∃ t, exec (.credit d) s = .next t ∧ t.mem = s.mem ∧ t.fi d = r ∧
        QShows t (x.h.peerQ / 2 ^ 18) (x.h.peerQ % 2 ^ 18) (putFld v 194 24 (satAdd (2 ^ 24 - 1) (qCredit v) x.h.amount)))) ∧
  (∀ (d : Fin 4) (x : Xfer) (k : Track) (s : State),
    (releasable 2 (s.trackTab d) = some (x, k) → x.h.amount ≠ 0 → s.berylUp (natBits x.h.addr 16 2) = true →
      (let m := natBits x.h.addr 16 2
       let o : BerOp := ⟨if m = d then 19 else diePort m d, .inc, x.h.addr % 65536, x.h.amount, .fabric x.h.src x.h.flow⟩
       s.reaches (o.from m) m o.ctr = true →
       ∃ t, exec (.signalRelease d) s = .next t ∧ t.mem = s.mem ∧ t.regs = s.regs ∧
        (t.beryl m).ops = (s.beryl m).ops ++ [o])) ∧
    (releasable 3 (s.trackTab d) = some (x, k) →
      ∃ t y, exec (.fenceRelease d) s = .next t ∧ t.mem = s.mem ∧ t.regs = s.regs ∧ mapGet (fun _ => []) t.resp d = mapGet (fun _ => []) s.resp d ++ [y] ∧
        y.h.kind = 4 ∧ y.h.dst = x.h.src ∧ y.h.flow = x.h.flow))

/-- R265, R266, R271, R272, R281, R289: answers, chunks, messages and fabric time. -/
def Obligations.AnswersAndFabricTime : Prop :=
  (∀ (d : Fin 4) (x : Xfer) (r : List Xfer) (s : State), s.fi d = x :: r →
    (x.h.kind = 6 → ∃ t, exec (.completion d) s = .next t ∧ t.fi d = r ∧ (t.flow x.h.flow).unacked = ((s.flow x.h.flow).unacked).drop x.h.amount) ∧
    (∀ g u, x.h.kind = 8 → State.fabricRead d x x.h.ngr x.h.addr (s.setFi d r) = (g, u) →
      ∃ t l, exec (.read d) s = .next t ∧ t.mem = u.mem ∧ t.fi d = r ∧ mapGet (fun _ => []) t.resp d = mapGet (fun _ => []) s.resp d ++ l ∧
        l.flatMap (fun y => y.data) = g.map Prod.fst ∧ ∀ y ∈ l, y.h.kind = 9 ∧ y.h.tag = x.h.tag) ∧
    (∀ o : ReadOut, x.h.kind = 9 → s.reads = [o] → o.tag = x.h.tag → o.left ≤ x.h.ngr → x.h.status = 0 →
      (∀ pc id w, o.who = .dm pc id w → ∃ t, exec (.readData d) s = .next t ∧ t.mem = s.mem ∧ t.fi d = r ∧ t.reads = [] ∧
        (t.core pc).spad = ((s.loadGrans pc w x.data).core pc).spad) ∧
      (∀ dd item gran u, o.who = .item dd item gran → State.stageWrite dd x.data gran (({ (s.setFi d r).retire d x false with reads := [] }).bump dd fUpdFetchCntCount x.h.ngr) = (true, u) →
        ∃ t, exec (.readData d) s = .next t ∧ t.mem = u.mem ∧ t.fi d = r ∧ t.reads = [])) ∧
    (∀ y i res, x.h.kind = 7 → s.ceUp d = true → s.flag d fCeStatusHalted = false → s.chunkFate d x.h false (fun p => p.pkg == x.h.src) = .take y i →
      (∀ g ∈ x.data, chkOf g.v = g.chk) →
      (mapGet (fun _ => []) y.part i ++ x.data).length < wireLen y.desc (cSpan y.desc (y.chunkOf (y.gotOf i))).2 →
      ∃ t z, exec (.chunk d none res) s = .next t ∧ t.mem = s.mem ∧ t.fi d = r ∧ z ∈ t.runs d ∧ z.ix = y.ix ∧
        mapGet (fun _ => []) z.part i = mapGet (fun _ => []) y.part i ++ x.data) ∧
    (∀ m, x.h.kind = 10 → boundOf x.data = some m → exec (.jasper d) s = .next { s.setFi d r with bounds := s.bounds ++ [m] })) ∧
  (∀ (d : Fin 4) (src : BitVec 12) (flow : BitVec 20) (s : State), (s.track d src.toNat flow.toNat).unreported ≠ 0 →
    ∃ t y, exec (.completionTimer d src flow) s = .next t ∧ t.mem = s.mem ∧ t.regs = s.regs ∧ (t.track d src.toNat flow.toNat).unreported = 0 ∧
      mapGet (fun _ => []) t.resp d = mapGet (fun _ => []) s.resp d ++ [y] ∧ y.h.kind = 6 ∧ y.h.amount = (s.track d src.toNat flow.toNat).unreported) ∧
  (∀ (p d : Nat) (hp : p < 12) (stamp : BitVec 64) (depth : BitVec 6) (s : State), d < 4 → s.portUp p = true → s.dieUp d = true → s.getF d fFiCfgTimeUp = p →
    s.flag d fFiCfgTimeRoot = false →
    ∃ t, exec (.timeSyncEntry ⟨p, hp⟩ stamp depth) s = .next t ∧ t.mem = s.mem ∧ t.cores = s.cores ∧ t.flag d fFiTimeStatLocked = true ∧
      t.getF d fFiTimeStatDepth = (depth.toNat + 1) % 64 ∧
      ((s.die d).timed = false → t.reg d oFiTime = BitVec.ofNat 64 (stamp.toNat + mapGet (fun _ => 0) s.rtts p / 2)) ∧
      ((s.die d).timed = true → t.reg d oFiTime = s.reg d oFiTime ∧
        (t.die d).slew = ((stamp.toNat + mapGet (fun _ => 0) s.rtts p / 2 : Nat) : Int) - ((s.reg d oFiTime).toNat : Int)) ∧
      (∀ o, (s.die d).syncAt = some o → (t.die d).rate = rateOf o (stamp.toNat + mapGet (fun _ => 0) s.rtts p / 2) (s.reg d oDieTimebase).toNat)) ∧
  (∀ (p : Fin 12) (rtt : BitVec 16) (s : State), s.portUp p = true →
    ∃ t, exec (.delayMeasurement p rtt) s = .next t ∧ t.mem = s.mem ∧ mapGet (fun _ => 0) t.rtts p = rtt.toNat ∧
      t.getF (portDie p) (portF p fEwPortStatusRtt) = min 255 rtt.toNat) ∧
  (∀ (d : Fin 4) (s : State), s.dieUp d = true → s.flag d fFiTimeStatLocked = true → s.flag d fFiCfgTimeRoot = false →
    ∃ t, exec (.fabricTimeUnlock d) s = .next t ∧ t.mem = s.mem ∧ t.job = s.job ∧ t.flag d fFiTimeStatLocked = false ∧ (t.die d).slew = 0) ∧
  (∀ (ports : List (Fin 12)) (s : State), s.flag s.lead fFiTimeStatLocked = true →
    ∃ t, exec (.timeSyncSend ports) s = .next t ∧ t.mem = s.mem ∧ t.regs = s.regs ∧ t.timeKids = ports.map Fin.val ∧
      ∃ l, t.out = s.out ++ l ∧ l.filterMap entrySent = ((ports.map Fin.val).filter s.portUp).map (fun (p : Nat) =>
        (p, .timeSync (s.reg s.lead oFiTime).toNat (s.getF s.lead fFiTimeStatDepth))))
/-- R286 to R291, R302 to R308, R337: the phases of a step. -/
def Obligations.TaskPhasesFollow : Prop :=
  (∀ s u : State, s.job.running = true → s.job.starting = false → s.job.ended = false → s.job.sent = false → s.job.childEnds.length < s.timeKids.length →
    (∀ d < 4, s.dieEnded s.job.phase d = true) → (s.digestStep = true → s.job.compared = true) →
    (if s.job.phase = 2 then u = s else State.allChecks (span 0 4) s = (none, u)) → u.job = s.job →
    ∃ t, exec .phaseEndDetect s = .next t ∧ t.mem = u.mem ∧ t.job.ended = true ∧ t.job.sent = false ∧ t.job.phase = s.job.phase ∧
      ∀ d < 4, (t.win (if s.job.phase ≤ 1 then d else 4 + d)).ovf = (s.win (if s.job.phase ≤ 1 then d else 4 + d)).ovf + (s.stepFindings d).ovf) ∧
  (∀ (m : BMsg) (r : List BMsg) (s : State), s.bounds = m :: r → s.job.running = true → s.between = false → s.strange m = false →
    (m.kind = 0 → m.status ≠ 2 → s.job.ended = false → ∃ t, exec .phaseEnd s = .next t ∧ t.mem = s.mem ∧ t.regs = s.regs ∧ t.bounds = r ∧ t.out = s.out ∧ t.resp = s.resp ∧
      t.job = { s.job with childEnds := s.job.childEnds.filter (fun (c : Nat × Nat) => c.1 != m.src) ++ [(m.src, m.status)] }) ∧
    (m.kind = 1 → s.job.sent = true → s.job.starting = false →
      (m.status = 0 → s.job.phase = 4 → ∃ t, exec .phaseGo s = .next t ∧ t.mem = s.mem ∧ t.bounds = r ∧ t.job = { s.job with atCommit := true } ∧
        mapGet (fun _ => []) t.resp s.lead = mapGet (fun _ => []) s.resp s.lead ++ s.timeKids.map (fun p =>
          let v := boundGran (s.reg s.lead oStepIndex).toNat 4 1 0 s.pkgId
          ⟨3, { XHead.zero with kind := 10, hops := 63, ngr := 1, dst := s.getF (portDie p) (portF p fEwPortStatusNbPkg), src := s.pkgId }, [⟨v, chkOf v⟩], false⟩)) ∧
      (m.status = 0 → s.job.phase < 4 → s.ctl.reading = false → ∃ t, exec .phaseGo s = .next t ∧ t.job.phase = s.job.phase + 1 ∧ t.job.ended = false) ∧
      (m.status = 1 → s.pkgFatal = false → ∃ t, exec .phaseGo s = .next t ∧ t.mem = s.mem ∧ t.bounds = r ∧ t.job = { s.job with rollback := true })) ∧
    (m.kind = 1 → m.status = 2 → ∃ t, exec .phaseGo s = .next t ∧ t.mem = s.mem ∧ t.job.running = false ∧ t.job.fatal = true)) ∧
  (∀ (d : Fin 4) (ix : Nat) (residue : Bool) (r : NormRange) (bs : List Byte) (s u w : State), (s.image.norm.filter (fun r => r.die == d.val))[ix]? = some r → s.dieUp d = true →
    s.job.running = true → s.job.starting = false → s.job.phase = 1 → ix ∉ (s.upd d).normDone → s.parked d r.parkq = (true, u) →
    u.readRun (.update d) r.addr (128 * r.grans) = (some bs, w) →
    ∃ t, exec (.normPass d ix residue) s = .next t ∧ t.mem = w.mem ∧ (residue = false → t.regs = w.regs) ∧ (t.upd d).normDone = (s.upd d).normDone ++ [ix]) ∧
  (∀ (residue : Option (Fin 4)) (s : State), s.job.running = true → s.job.starting = false → s.job.phase = 2 → s.job.recorded = false → (∀ d < 4, s.dieUp d = true) →
    ∃ t, exec (.dieRecordBuild residue) s = .next t ∧ t.job.recorded = true) ∧
  (∀ (d : Fin 4) (bs : List Byte) (s u : State), s.job.running = true → s.job.phase = 2 → s.job.recorded = true → s.dieUp d = true →
    s.flag d fStepResultValid = false → s.flag 0 fCeStatusHalted = false → s.image.verdict < s.getF 0 fCeStatusNext → (∀ r ∈ s.runs 0, r.ix ≠ s.image.verdict) →
    s.readRun (.update d) (s.vrec d + 0x280) 64 = (some bs, u) →
    (let v := decide305 (leNat bs) (u.lscaleE d) (u.lSs d) (u.lLoss d) (u.getF d fStepLimitsClipMax) (u.getF d fStepLimitsOvfLimit)
     let p := u.putVerdict d v
     let q := if d.val = 0 then p.putParam (.update 0) v.unscale v.clip v.decision else p
     exec (.decisionDerive d) s = .next (if v.decision = 0 then q else q.skipBuckets d) ∧
       p.flag d fStepResultValid = true ∧ p.getF d fStepResultDecision = v.decision ∧ p.mem = u.mem)) ∧
  (∀ (tests : List (Nat × BitVec 66 × Bool)) (s : State), s.job.running = true → s.job.atCommit = true → s.job.install = 0 → s.actWaits = false →
    (let a := (span 0 4).foldl (fun (s' : State) d => s'.setStep d (s.decided d)) s
     let u := a.boundaryActions.repairs tests
     (∀ d < 4, a.reg d oStepIndex = if s.skipped then s.reg d oStepIndex else s.reg d oStepIndex + 1) ∧
     ((s.skipped = true → a.skipLimit = none) → u.job.running = true → (s.skipped = false → u.ckptDue (s.reg s.lead oStepIndex).toNat = false) →
      (s.skipped = false → u.layoutDue (s.reg s.lead oStepIndex).toNat = false) →
      exec (.commitBoundaryActions tests) s = .next { u with job := { u.job with atCommit := false } }.nextCompute) ∧
     (s.skipped = false → u.job.running = true → u.ckptDue (s.reg s.lead oStepIndex).toNat = false → u.layoutDue (s.reg s.lead oStepIndex).toNat = true →
      exec (.commitBoundaryActions tests) s = .next { u with job := { u.job with install := 1 } }))) ∧
  (∀ s : State, s.job.running = true → s.job.rollback = true →
    (s.committedOk = false → ∃ t, exec .checkpointRestore s = .next t ∧ t.mem = s.mem ∧ t.job.running = false ∧ t.job.fatal = true) ∧
    (∀ bs u, s.committedOk = true → ({ s with job := { s.job with rollback := false } }).readRun (.jasper 0) (s.headerAddr 0) 128 = (some bs, u) → u.decision ≠ some 2 →
      (let a := (span 0 4).foldl (fun (s : State) d => s.reload bs false d) u
       exec .checkpointRestore s = .next (a.boundaryActions.beginPhase 0) ∧ ∀ d < 4, a.reg d oStepIndex = BitVec.ofNat 64 (leAt bs 0 8))))
/-- R312 to R334: rules, items and parity. -/
def Obligations.UpdateUnitsRunTheirRules : Prop :=
  (∀ (d : Fin 4) (ph : Nat) (bs : List Byte) (s u w : State), s.ruleTime d = some ph → (s.upd d).rule = none →
    let ix := s.getF d fUpdStatusNext
    let x : RuleDesc := BitVec.ofNat 1024 (leNat bs)
    ix < s.getF d fUpdProgCount → s.readRun (.update d) (s.getF d fUpdProgAddr * 65536 + 128 * ix) 128 = (some bs, u) →
    (rPhase x = ph → u.parked d (rParkq x) = (true, w) → rRule x = 4 ∨ rItems x ≠ 0 →
      ∃ t, exec (.ruleStart d) s = .next t ∧ t.mem = w.mem ∧ t.cores = w.cores ∧ (t.upd d).rule = some ⟨ix, x, 0, []⟩ ∧ t.getF d fUpdStatusNext = ix + 1 ∧
        t.flag d fUpdStatusBusy = true) ∧
    (rPhase x = ph → u.parked d (rParkq x) = (true, w) → rRule x ≠ 4 → rItems x = 0 →
      ∃ t, exec (.ruleStart d) s = .next t ∧ (t.upd d).rule = none ∧ t.getF d fUpdStatusNext = ix + 1 ∧ t.flag d fUpdStatusBusy = false) ∧
    (rPhase x ≠ ph → ∃ t, exec (.ruleStart d) s = .next t ∧ t.mem = u.mem ∧ t.cores = u.cores ∧ (t.upd d).rule = none ∧ t.getF d fUpdStatusNext = ix + 1)) ∧
  (∀ (d : Fin 4) (ph stage : Nat) (r : RuleRun) (scal : List Nat) (s a b w : State), s.ruleTime d = some ph → (s.upd d).rule = some r → rRule r.desc ≠ 4 →
    rCores r.desc ≠ [] → r.next < rItems r.desc → s.ruleScalars d r.desc = (some scal, a) → a.stageItem d r = (some stage, b) →
    let n := rCore r.desc r.next
    let k := mapGet (fun _ => 0) (b.upd d).released n
    b.writeRun (.update d) (128 * b.getF d fUpdIringBase + 128 * (n * b.getF d fUpdIringItems + k)) (itemRecord r.desc r.ix r.next stage scal) = (true, w) →
    w.berylUp d = true → ∃ t, exec (.itemRelease d) s = .next t ∧ mapGet (fun _ => 0) (t.upd d).released n = k + 1 ∧
      (r.next + 1 < rItems r.desc → t.mem = w.mem ∧
        (t.upd d).rule = some { r with next := r.next + 1, fetch := r.fetch.filter (fun (f : Nat × Nat) => f.1 != r.next) }) ∧
      (r.next + 1 = rItems r.desc → (t.upd d).rule = none) ∧
      (ph = 0 → (b.upd d).begun = false → ∀ e < 4, t.flag e fParStatusValid = false)) ∧
  (∀ (d : Fin 4) (ph : Nat) (r : RuleRun) (sv : BitVec 256) (s a : State), s.ruleTime d = some ph → (s.upd d).rule = some r → rTier r.desc = true → rCores r.desc ≠ [] →
    let i := r.next + r.fetch.length
    let ahead := (r.ahead (rCore r.desc i)).length
    i < rItems r.desc → s.qGet d (s.getF d fUpdIctrSq + rCore r.desc i) = (some sv, a) → qHeld sv + ahead < qDepth sv → ahead < 16 →
    (∀ v b, a.sendQueue (rFlow r.desc) (some (rHolder r.desc)) = (some v, b) →
      ∃ t k, exec (.remoteTierFetch d) s = .next t ∧ (t.upd d).rule = some { r with fetch := r.fetch ++ [(i, k)] } ∧ t.cores = b.cores) ∧
    (∀ b, a.sendQueue (rFlow r.desc) (some (rHolder r.desc)) = (none, b) →
      ∃ t, exec (.remoteTierFetch d) s = .next t ∧ (t.upd d).stopped = true ∧ t.mem = b.mem)) ∧
  (∀ (d : Fin 4) (faults : List (Nat × BitVec 1024)) (ph : Nat) (r : RuleRun) (ok : Bool) (s u : State), s.ruleTime d = some ph → (s.upd d).rule = some r →
    rRule r.desc = 4 → State.xorRegion d (rWaddr r.desc / 128)
      (((span 0 (s.getF d fParCfgG)).filter (fun k => k != s.getF d fParCfgMember)).map (fun k => rSaddr r.desc / 128 + 131072 * k)) faults 131072 0 s = (ok, u) →
    (ok = true → ∃ t, exec (.pxor d faults) s = .next t ∧ (t.upd d).rule = none ∧ (rLast r.desc = false → t.mem = u.mem ∧ t.flag d fUpdStatusBusy = false)) ∧
    (ok = false → ∃ t, exec (.pxor d faults) s = .next t ∧ t.mem = u.mem ∧ t.regs = u.regs ∧ (t.upd d).stopped = true)) ∧
  (∀ s : State, (∀ d < 4, (s.upd d).late = true) → s.rulesDone = true → s.getF 0 fParCfgG ≠ 0 → s.job.install = 0 →
    (s.job.running = true → s.job.phase = 4 → s.stepToRun = (s.decided 0).index.toNat) ∧ (s.job.running = false → s.stepToRun = (s.reg 0 oStepIndex).toNat) ∧
    ∃ t, exec .parityValidSet s = .next t ∧ t.mem = s.mem ∧ t.cores = s.cores ∧ t.job = { s.job with digestBad := false } ∧
      ∀ d < 4, (t.upd d).late = false ∧ t.flag d fParStatusValid = true ∧ t.flag d fParStatusGenRun = false ∧ t.getF d fParStatusStep = s.stepToRun % 2 ^ 56)

/-- R329, R336 to R339: stored checkpoints, layouts and reconstruction. -/
def Obligations.StateIsStoredAndRebuilt : Prop :=
  (∀ (c : Conn) (s : State), s.ctl.reading = true → s.conn s.ctl.ckptConn = some c →
    (∀ l u, s.ctl.bulks.find? (fun b => b.use == .checkpoint) = none → c.kind = 3 → (∀ b ∈ s.ctl.bulks, b.conn ≠ s.ctl.ckptConn) →
      (s.bind s.ctl.ckptConn false .checkpoint s.protected_.1 s.protected_.2 0 0).2.egressSegs s.protected_.1 s.protected_.2 = (some l, u) →
      ∃ t, exec .storedCheckpointReadout s = .next t ∧ t.mem = u.mem ∧ t.ctl.reading = u.ctl.reading ∧
        t.ctl.bulks = s.ctl.bulks ++ [⟨s.ctl.nextBulk, s.ctl.ckptConn, false, .checkpoint, s.protected_.1, s.protected_.2, 0, 0, [], 0, 0⟩]) ∧
    (∀ b bs u, s.ctl.bulks.find? (fun b => b.use == .checkpoint) = some b → c.queue = [] → c.flight = [] → s.readRun s.jas b.addr b.length = (some bs, u) →
      ∃ t, exec .storedCheckpointReadout s = .next t ∧ t.ctl.reading = false ∧ (∀ y ∈ t.ctl.bulks, y.handle ≠ b.handle) ∧
        (u.job.held = false → t.mem = u.mem ∧ t.job = u.job) ∧ (u.job.held = true → t.job.phase = 3 ∧ t.job.held = false))) ∧
  (∀ s : State, s.job.running = true →
    (∀ bs, s.job.install = 1 → s.ctl.layout = some bs → (∀ d < 4, s.runs d = []) →
      ∃ t, exec .layoutInstall s = .next t ∧ t.job.install = 2 ∧ t.ctl.installed = some bs) ∧
    (s.job.install = 2 → (∀ d < 4, s.dieUp d = true ∧ s.coresDone d = true ∧ s.ceDone d 5 = true) → ∃ t, exec .layoutInstall s = .next t ∧ t.job.install = 3) ∧
    (s.job.install = 3 → (∀ d < 4, s.dieUp d = true ∧ s.coresDone d = true ∧ s.ceDone d 6 = true) → s.rulesDone = true →
      ∃ t, exec .layoutInstall s = .next t ∧ t.job.install = 0 ∧ t.job.atCommit = false ∧ t.ctl.layout = none)) ∧
  (∀ (d : Fin 4) (slot : BitVec 16) (par : List (BitVec 64)) (s : State), s.reconOn = true → s.updUp d = true → slot.toNat < s.protRegions →
    slot.toNat ∉ s.ctl.recon → (∀ r ∈ s.ctl.reconRun, r.1 ≠ slot.toNat) →
    (∀ u, parAgree (s.getF s.lead fParCfgG) par = true →
      State.reconReads d slot.toNat (0x1000000 * (s.getF s.lead fParCfgBase + slot.toNat)) (s.survivors d) s = some u →
      ∃ t, exec (.reconstruction d slot par) s = .next t ∧ t.mem = u.mem ∧ t.flows = u.flows ∧ t.reads = u.reads ∧
        t.reads.length = s.reads.length + 2048 * (s.survivors d).length ∧ t.ctl.reconRun = u.ctl.reconRun ++ [(slot.toNat, 0)]) ∧
    (parAgree (s.getF s.lead fParCfgG) par = false → ∃ t, exec (.reconstruction d slot par) s = .next t ∧ t.mem = s.mem ∧ t.reconOn = false ∧ t.job.running = false)) ∧
  (∀ (d : Fin 4) (dd slot gran : Nat) (x : Xfer) (g : DGran) (o : ReadOut) (r : List Xfer) (s : State), s.fi d = x :: r → x.h.kind = 9 → x.h.status = 0 → x.h.ngr = 1 →
    x.data = [g] → s.reads = [o] → o.tag = x.h.tag → o.left = 1 → o.who = .recon dd slot gran → s.reconOn = true →
    let y : State := { (s.setFi d r).retire d x false with reads := [] }
    let key := slot * 131072 + gran
    let a := mapGet (fun _ => XorAcc.mk 0 0 0) s.ctl.reconAcc key
    (a.n + 2 < s.getF s.lead fParCfgG → (∀ k ∈ s.ctl.reconRun, k.2 < 131072) → s.ctl.recon.length < s.protRegions →
      ∃ t, exec (.readData d) s = .next t ∧ t.mem = s.mem ∧ t.regs = s.regs ∧ t.reads = [] ∧
        mapGet (fun _ => XorAcc.mk 0 0 0) t.ctl.reconAcc key = ⟨a.v ^^^ g.v, a.chk ^^^ g.chk, a.n + 1⟩) ∧
    (∀ v k u, s.getF s.lead fParCfgG ≤ a.n + 2 → (∀ k ∈ s.ctl.reconRun, k.2 + 1 < 131072) → s.ctl.recon.length < s.protRegions →
      y.memWrite (.update dd) (131072 * (s.getF s.lead fParCfgBase + slot) + gran) (a.v ^^^ g.v) (a.chk ^^^ g.chk) = (.ok v k, u) →
      ∃ t, exec (.readData d) s = .next t ∧ t.mem = u.mem ∧ t.regs = u.regs ∧ t.reads = [] ∧
        t.ctl.reconRun = s.ctl.reconRun.map (fun (z : Nat × Nat) => if z.1 = slot then (z.1, z.2 + 1) else z)) ∧
    (let z := y.reconGran dd slot gran g
     let q := z.modCtl (fun c => { c with recon := c.recon ++ [slot], reconRun := [] })
     ∀ bs w, z.ctl.reconRun = [(slot, 131072)] → z.reconOn = true → z.protRegions ≤ z.ctl.recon.length + 1 →
      q.readRun (.jasper 0) (q.headerAddr 0) 128 = (some bs, w) →
      ∃ t, exec (.readData d) s = .next t ∧ t.mem = w.mem ∧ t.ctl.recon = [] ∧ t.reconOn = false ∧
        ∀ e < 4, t.reg e oStepIndex = BitVec.ofNat 64 (leAt bs 0 8) ∧ t.flag e fParStatusValid = true)) ∧
  (∀ s : State, s.mem.coldLost = true → s.job.running = false → s.leadRuns = true → (∀ d < 4, s.dieUp d = true ∧ s.getF d fBootStatusStage = 4) →
    ∃ t, exec .selfRebuild s = .next t ∧ t.regs = s.regs ∧ t.cores = s.cores ∧ t.ctl.image = none ∧ t.mem.coldLost = false ∧
      ∀ r < nRegions, (t.mem.region r).lost = false ∧ (t.mem.region r).cls = (s.mem.region r).cls)

/-- R351 to R354, R366, R417, R496: digests and error records. -/
def Obligations.IntegrityBlocksDigestAndReport : Prop :=
  (∀ (d : Fin 4) (bs : List Byte) (v : BitVec 128) (s u w : State), s.digestTime = true → d.val ∉ s.job.digs → s.dieUp d = true →
    let n := s.getF d fAgateDigRangesCount
    s.readRun (.integrity d) (4096 * s.getF d fAgateDigRangesAddr) (16 * n) = (some bs, u) → State.digAll d (digRanges bs n) 0 u = (some v, w) →
    ∃ t, exec (.digestRun d) s = .next t ∧ t.mem = w.mem ∧ t.cores = w.cores ∧ t.job = { w.job with digs := w.job.digs ++ [d.val] } ∧
      (t.reg d oAgateDigValLo).toNat = fld v 0 64 ∧ (t.reg d oAgateDigValHi).toNat = fld v 64 64) ∧
  (∀ s u : State, s.digestTime = true → s.job.digBlock = false → (∀ d < 4, d ∈ s.job.digs) →
    s.writeRun (.integrity 0) (4096 * s.getF 0 fAgateDigOutAddr)
      ((span 0 4).flatMap (fun d => leBytes (s.reg d oAgateDigValLo).toNat 8 ++ leBytes (s.reg d oAgateDigValHi).toNat 8)
        ++ leBytes s.digestOf 8 ++ List.replicate 4024 0) = (true, u) →
    ∃ t, exec .digestBlockWrite s = .next t ∧ t.mem = u.mem ∧ t.job.digBlock = true) ∧
  (∀ s : State, s.digestTime = true → s.job.compared = false → s.job.digBlock = true → (∀ d < 4, s.dieEnded 4 d = true) →
    let r := s.getF s.lead fAgateDigCfgR
    let was := s.flag s.lead fAgateDigStatusSuspect
    (r ≤ 1 → ∃ t, exec .digestCompare s = .next t ∧ t.mem = s.mem ∧ t.job.compared = true ∧ t.job.digStatus = 0 ∧ ∀ d < 4, t.flag d fAgateDigStatusAgree = true) ∧
    (∀ l u, 1 < r → State.gathered s.lead r 0 s = (some l, u) → (∀ e ∈ l, e.2 = s.digestOf) → u.digestOf = s.digestOf →
      (let own := ((l[u.getF s.lead fAgateDigCfgRank]?).map Prod.fst).getD 0
       let votes (v : Nat) : Nat := (l.filter (fun e => e.1 == v)).length
       (votes own = r → ∃ t, exec .digestCompare s = .next t ∧ t.mem = u.mem ∧ t.job.compared = true ∧ t.job.digStatus = 0 ∧ ∀ d < 4, t.flag d fAgateDigStatusAgree = true) ∧
       (votes own < r → ∃ t, exec .digestCompare s = .next t ∧ t.mem = u.mem ∧ t.job.compared = true ∧ t.job.digStatus = 1 ∧
         (2 * votes own > r → ∀ d < 4, t.flag d fAgateDigStatusAgree = true) ∧
         (2 * votes own ≤ r → (∃ e ∈ l, 2 * votes e.1 > r) → t.pkgFatal = true ∧ ∀ d < 4, t.flag d fAgateDigStatusOdd = true) ∧
         (2 * votes own ≤ r → (∀ e ∈ l, 2 * votes e.1 ≤ r) → t.ctl.testAll = true ∧ (was = true → t.pkgFatal = true) ∧
           ∀ d < 4, t.flag d fAgateDigStatusSuspect = true))))) ∧
  (∀ (d : Fin 4) (r : ErrRec) (rest : List ErrRec) (v : BitVec 256) (s u : State), (s.die d).recs = r :: rest → s.dieUp d = true →
    let q := s.getF d fErrCfgQueue
    QCached s d q v → qEn v = true → qErr v = false → qHeld v < qDepth v →
    (s.qGet d q).2.narrowAt (.integrity d) (qEntryAt v (qProd v)) { r with dropped := satAdd 65535 r.dropped (s.die d).recDropped }.bytes true = (none, u) →
    ∃ t, exec (.errorRingWrite d) s = .next t ∧ t.mem = u.mem ∧ QShows t d q (qAddProd v 1)) ∧
  (∀ (pd : Fin 2) (r : ErrRec) (rest : List ErrRec) (h : Nat) (s : State), (s.die (4 + pd.val)).portRecs = r :: rest → s.recordHandler (4 + pd.val) = some h →
    let x := s.die (4 + pd.val)
    let y : ErrRec := { r with seq := s.getF h fErrStatusNextSeq, time := s.stamp h, locked := s.flag h fFiTimeStatLocked, dropped := satAdd 65535 r.dropped x.portDropped }
    ∃ t, exec (.portRecordForward pd) s = .next t ∧ t.mem = s.mem ∧ t.cores = s.cores ∧ (t.die (4 + pd.val)).portRecs = rest ∧
      (t.die h).recs = (bufferRec (s.die h).recs y).1 ∧ (y ∈ (t.die h).recs → (t.die (4 + pd.val)).portDropped = 0)) ∧
  (∀ (v : BitVec 256) (bs : List Byte) (s u : State), s.jasperUp = true → s.dieUp 0 = true →
    let q := s.getF 0 fErrCfgQueue
    QCached s 0 q v → qHeld v = 1 → (∀ e, 0 < e → e < 4 → s.dieUp e = true → ∃ w, QCached s e (s.getF e fErrCfgQueue) w ∧ qHeld w = 0) →
    ((s.qGet 0 q).2.qGet 0 q).2.readRun s.jas (qEntryAt v (qCons v)) 64 = (some bs, u) → u.ctl.sub = none →
    ∃ t, exec .errorForward s = .next t ∧ t.mem = u.mem ∧ t.cores = u.cores ∧ QShows t 0 q (qAddCons v 1) ∧ t.ctl.forwarded = u.ctl.forwarded + 1 ∧
      t.ctl.forward = (u.ctl.forward ++ [BitVec.ofNat 512 (leNat bs)]).drop (u.ctl.forward.length + 1 - 4096))
/-- R427 to R430, R437, R446 to R449: firmware and the flash devices. -/
def Obligations.FirmwareIsVerifiedAndUpdated : Prop :=
  (∀ (fl : FlashImage) (aOk bOk slow : Bool) (pins : BitVec 3) (s : State), s.dieUp 0 = true → s.flag 0 fDieInfoLead = true → (s.die 0).xspi = true → s.discFailed = false →
    s.getF 0 fBootStatusStage < 4 → s.flash.present = [true, true] →
    let ra := if aOk = true then fwCheck s.flash.slotA (s.reg 0 oFuseState) else 1
    let rb := if bOk = true then fwCheck s.flash.slotB (s.reg 0 oFuseState) else 1
    ∃ t, exec (.firmwareVerify fl aOk bOk slow pins) s = .next t ∧ t.mem = s.mem ∧ t.job = s.job ∧
      (ra = 0 → t.getF 0 fBootStatusStage = 4 ∧ t.ctl.fw = s.flash.slotA ∧ t.flag 0 fFwVersionSlot = false) ∧
      (ra ≠ 0 → rb = 0 → t.getF 0 fBootStatusStage = 4 ∧ t.ctl.fw = s.flash.slotB ∧ t.flag 0 fFwVersionSlot = true ∧ t.flag 0 fBootStatusFallback = true ∧
        t.getF 0 fBootStatusFailA = ra) ∧
      (ra ≠ 0 → rb ≠ 0 → t.getF 0 fBootStatusStage = 5 ∧ t.getF 0 fBootStatusFailA = ra ∧ t.getF 0 fBootStatusFailB = rb ∧ t.ctl = s.ctl)) ∧
  (∀ s : State, s.leadRuns = true →
    ∃ t, exec .assemblyCertCheck s = .next t ∧ t.mem = s.mem ∧ t.cores = s.cores ∧ t.flag s.lead fBootStatusAsmOk = (asmSigOk s.flash.asm && s.asmMatches)) ∧
  (∀ s : State, s.leadRuns = true → s.flag common fFwUpdStatusCommitting = false →
    s.getF common fFwUpdStatusOnB = 63 ∨ (s.flag s.lead fBootStatusFallback = true ∧ s.flag s.lead fFwVersionSlot = true ∧ fwCheck s.flash.slotA (s.reg s.lead oFuseState) ≠ 0) →
    fld (s.reg s.lead oFuseState) 0 8 ≤ leAt s.flash.slotB 6 1 →
    ∃ t, exec .firmwareCommit s = .next t ∧ t.mem = s.mem ∧ t.cores = s.cores ∧ t.ctl = s.ctl ∧ t.flag common fFwUpdStatusCommitting = true ∧
      t.flash = { s.flash with ops := s.flash.ops ++ [.commit] }) ∧
  (∀ (d : Fin 4) (s : State), s.flag common fFwUpdStatusActBusy = true → s.getF common fFwUpdStatusActResult = 0 → s.getF common fFwUpdStatusActDie = d → s.dieUp d = true →
    let img := s.flash.slotB
    let c := fwCheck img (s.reg d oFuseState)
    let agree : Prop := ∀ k < 4, k ≠ d.val → s.dieUp k = true → s.getF k fBootStatusStage = 4 → s.getF k fFwVersionCompat = leAt img 12 2
    ∃ t, exec .fwActivationDone s = .next t ∧ t.mem = s.mem ∧ t.cores = s.cores ∧ t.flag common fFwUpdStatusActBusy = false ∧
      (c = 0 → agree → t.getF d fFwVersionVersion = leAt img 8 4 ∧ t.getF d fFwVersionCompat = leAt img 12 2 ∧ t.flag d fFwVersionSlot = true ∧
        t.getF common fFwUpdStatusActResult = 0 ∧ natBits (t.getF common fFwUpdStatusOnB) d 1 = 1) ∧
      (c ≠ 0 ∨ ¬agree → t.reg d oFwVersion = s.reg d oFwVersion ∧ t.getF common fFwUpdStatusActResult = 1 ∧
        t.getF common fFwUpdStatusActReason = if c = 0 then 7 else c)) ∧
  (∀ (ok : Bool) (o : FlashOp) (rest : List FlashOp) (s : State), s.flash.ops = o :: rest →
    let img := s.flash.slotB
    (∀ table, o = .cal table → ∃ t, exec (.flashWriteComplete ok) s = .next t ∧ t.mem = s.mem ∧ t.flash = { s.flash with ops := rest, cal := if ok = true then table else [] }) ∧
    (∀ new, o = .stage new → ∃ t, exec (.flashWriteComplete ok) s = .next t ∧ t.mem = s.mem ∧ t.flash = { s.flash with ops := rest, slotB := t.flash.slotB } ∧
      (let good : Prop := ok = true ∧ fwCheck new (s.reg s.lead oFuseState) = 0 ∧ leAt new 12 2 = s.getF s.lead fFwVersionCompat
       (good → t.flash.slotB = new ∧ t.flag common fFwUpdStatusBValid = true) ∧ (¬good → t.flash.slotB = [] ∧ t.flag common fFwUpdStatusBValid = false))) ∧
    (o = .commit → ∃ t, exec (.flashWriteComplete ok) s = .next t ∧ t.mem = s.mem ∧ t.flash.ops = rest ∧ t.flag common fFwUpdStatusCommitting = false ∧
      (ok = true → fwCheck img (s.reg s.lead oFuseState) = 0 → t.flash.slotA = img ∧ t.ctl.fw = img ∧ t.getF common fFwUpdStatusOnB = 0) ∧
      (ok = false → t.flash.slotA = [] ∧ t.ctl = s.ctl)) ∧
    (∀ slot r, o = .keyRec slot r → ∃ t, exec (.flashWriteComplete ok) s = .next t ∧ t.mem = s.mem ∧ t.getF common fOpkeyStatusResult = (if ok = true then 0 else 4) ∧
      t.flash = { s.flash with ops := rest, stored := s.flash.stored ++ (if ok = true then [r] else []), keys := s.flash.keys ++ (if ok = true then [r] else []) }) ∧
    (∀ e, o = .retireRec e → ∃ t, exec (.flashWriteComplete ok) s = .next t ∧ t.mem = s.mem ∧ t.regs = s.regs ∧
      t.flash = { s.flash with ops := rest, retired := s.flash.retired ++ (if ok = true then [e] else []) }))

/-- R440 to R442, R362: operator keys and the retirement record. -/
def Obligations.OperatorKeysAreEnrolledWithThePin : Prop :=
  (∀ s : State, s.leadRuns = true → s.flag common fOpkeyStatusBusy = false →
    let slot := s.getF common fOpkeySelSlot
    let asked (o : FlashOp) (t : State) : Prop := t.flash = { s.flash with ops := s.flash.ops ++ [o] } ∧ t.flag common fOpkeyStatusBusy = true ∧ t.mem = s.mem ∧ t.cores = s.cores
    let refused (n : Nat) (t : State) : Prop := t = s.setF common fOpkeyStatusResult n
    (s.pwr.enrol = true → s.flash.opKey slot = none → Config.ed25519Point s.stagedKey = true → ∃ t, exec .enrol s = .next t ∧ t.ctl = s.ctl ∧ asked (.key slot true s.stagedKey) t) ∧
    (s.pwr.enrol = false → ∃ t, exec .enrol s = .next t ∧ refused 1 t) ∧
    (s.pwr.enrol = true → s.flash.opKey slot ≠ none → ∃ t, exec .enrol s = .next t ∧ refused 2 t) ∧
    (s.pwr.enrol = true → s.flash.opKey slot = none → Config.ed25519Point s.stagedKey = false → ∃ t, exec .enrol s = .next t ∧ refused 3 t) ∧
    (s.pwr.enrol = true → ∃ t, exec .revoke s = .next t ∧ asked (.key slot false 0) t ∧ (∀ y ∈ t.ctl.sessions, y.key ≠ slot) ∧
      ∀ y ∈ s.ctl.sessions, y.key ≠ slot → (∀ z ∈ s.ctl.sessions, z.id = y.id → z.key ≠ slot) → y ∈ t.ctl.sessions) ∧
    (s.pwr.enrol = false → ∃ t, exec .revoke s = .next t ∧ refused 1 t)) ∧
  (∀ (slot : Nat) (enrol : Bool) (key : BitVec 256) (rest : List FlashOp) (s : State), s.flash.ops = .key slot enrol key :: rest →
    let n := s.flash.stored.length
    ∃ t r, exec .keyStoreWrite s = .next t ∧ t.mem = s.mem ∧ t.regs = s.regs ∧ t.flash = { s.flash with ops := .keyRec slot r :: rest } ∧
      t.out = s.out ++ [.flashWrite false (0x10000 + 0x10000 * (n % 2) + 128 * (n / 2)) r] ∧ r.length = 128 ∧ leAt r 0 4 = 0x4B4F435A ∧
      leAt r 4 1 = slot % 256 ∧ leAt r 5 1 = b2n enrol ∧ leAt r 16 32 = (if enrol = true then key.toNat else 0) ∧
      BitVec.ofNat 512 (leAt r 64 64) = Config.ed25519Sign 0 (r.take 64)) ∧
  (∀ (d p why time : Nat) (rest : List FlashOp) (s : State), s.flash.ops = .retire d p why time :: rest → s.flash.retired.length < 2048 →
    ∃ t, exec .retirementRecordWrite s = .next t ∧ t.mem = s.mem ∧ t.regs = s.regs ∧ t.flash = { s.flash with ops := .retireRec (s.retireEntry d p why time) :: rest } ∧
      t.out = s.out ++ [.flashWrite false (0x70000 + 32 * s.flash.retired.length) (s.retireEntry d p why time)])
/-- Command `c` is served under `code`: the cluster serves the class of `c` next, `c` heads its queue and passes checks 8 and 9; `u` is the state once it has been taken. -/
def Serves (s : State) (code : Nat) (c : Cmd) (u : State) : Prop :=
  ∃ row r, opRow code = some row ∧ mapGet (fun _ => []) s.ctl.cmds row.cls = c :: r ∧ c.opcode = code ∧ s.jasperUp = true ∧ s.nextClass = some row.cls ∧ row.lenOk c.body.length = true ∧
    (row.auth = 2 → c.confirm = true) ∧ u = (s.modCtl (fun x => { x with cmds := mapSet (fun _ => []) x.cmds row.cls r })).showDepth

/-- R397 to R408, R413, R438: replies, identity and sessions. -/
def Obligations.IdentityAndSessionsAreServed : Prop :=
  (∀ (c : Cmd) (status detail : Nat) (body : List Byte) (u : State),
    (∀ x, c.session = 0 → u.session 0 = none → u.conn c.conn = some x →
      let t := u.reply c true status detail body
      let left := mapGet (fun _ => 0) u.ctl.s0 c.conn - 1
      let sent (y : Conn) : List (Nat × Nat × List Byte) := (y.flight ++ y.queue).map (fun g => (g.flags, g.offset, g.data))
      t.mem = u.mem ∧ t.job = u.job ∧ mapGet (fun _ => 0) t.ctl.s0 c.conn = left ∧ ∃ y, t.conn c.conn = some y ∧
        sent y = sent x ++ (msgSegs (replyBytes c.head true status 0 (u.getF common fCmdCfgS0Credits - left) detail body)).map (fun g => (g.flags, g.offset, g.data))) ∧
    (∀ x, c.session ≠ 0 → u.session c.session = some x →
      (u.reply c true status detail body).session c.session = some ({ x with used := x.used - 1 }.remember c.seq status body))) ∧
  (∀ (c : Cmd) (s u : State),
    (Serves s 0x0101 c u → exec .getIdentity s = .next (u.replyOk c (partNumber ++ leBytes (leAt u.flash.asm 8 8) 8
      ++ (span 0 6).flatMap (fun d => u.regBytes d oDieInfo) ++ u.regBytes common oPkgShape ++ u.regBytes common oPkgCoreMask
      ++ (span 0 6).flatMap (fun d => leBytes (u.getF d fFwVersionVersion) 4)))) ∧
    (Serves s 0x0102 c u → exec .getCerts s = .next (u.replyOk c ((u.flash.asm ++ leBytes 0 416).take 416 ++ (span 0 6).flatMap u.certBytes))) ∧
    (Serves s 0x0103 c u → ∃ r, exec .attest s = .next (u.replyOk c (r ++ leBytes (Config.ed25519Sign 0 r).toNat 64)) ∧ r.length = 768 ∧
      leAt r 0 4 = 0x5441435A ∧ (r.drop 32).take 32 = c.body) ∧
    (Serves s 0x0104 c u → exec .getKeys s = .next (u.replyOk c ((span 0 8).flatMap (fun k => match u.flash.opKey k with
      | some key => leBytes 1 1 ++ (leBytes (Config.sha512 (leBytes key.toNat 32)).toNat 64).take 32
      | none => leBytes 0 33)))) ∧
    (Serves s 0x0204 c u → exec .sessionInfo s = .next (u.replyOk c
      (u.ctl.sessions.flatMap (fun x => leBytes x.id 4 ++ leBytes x.key 1 ++ leBytes x.used 1 ++ leBytes x.high 8)))) ∧
    (Serves s 0x0201 c u →
      let nonce : BitVec 256 := (Config.random u.freeIx).truncate 256
      let l := u.ctl.challenges ++ [(u.ctl.nextChal, nonce)]
      ∃ v : State, exec .sessionChallenge s = .next (v.replyOk c (leBytes u.ctl.nextChal 4 ++ leBytes 0 4 ++ leBytes nonce.toNat 32)) ∧ v.mem = u.mem ∧
        v.freeIx = u.freeIx + 1 ∧ v.ctl = { u.ctl with challenges := l.drop (l.length - 32), nextChal := u.ctl.nextChal + 1 }) ∧
    (∀ e, Serves s 0x0202 c u → leAt c.body 5 3 = 0 → leAt c.body 4 1 ≤ 7 → u.ctl.challenges.find? (fun e => e.1 == leAt c.body 0 4) = some e →
      let ok := u.openOk e.2 (leAt c.body 4 1) (leAt c.body 0 4) (BitVec.ofNat 512 (leAt c.body 8 64))
      let left := u.ctl.challenges.filter (fun e => e.1 != leAt c.body 0 4)
      (ok = true → u.ctl.sessions.length < 16 → c.session ≠ u.ctl.nextSess →
        ∃ t, exec .sessionOpen s = .next t ∧ t.mem = u.mem ∧ t.ctl.challenges = left ∧ t.ctl.nextSess = u.ctl.nextSess + 1 ∧
          ⟨u.ctl.nextSess, leAt c.body 4 1, (Config.random u.freeIx).truncate 256, 0, [], 0, u.getF common fCmdCfgSessCredits, c.conn⟩ ∈ t.ctl.sessions) ∧
      (ok = false → exec .sessionOpen s = .next ((u.modCtl (fun x => { x with challenges := left })).refuse c 0x103 0))) ∧
    (Serves s 0x0203 c u → ∃ t, exec .sessionClose s = .next t ∧ t.mem = u.mem ∧ t.job = u.job ∧
      t.ctl.sessions.map Session.id = (u.ctl.sessions.map Session.id).filter (fun i => i != c.session))) ∧
  (∀ (id : BitVec 32) (s : State),
    exec (.challengeExpiry id) s = .next { s with ctl := { s.ctl with challenges := s.ctl.challenges.filter (fun e => e.1 != id.toNat) } } ∧
    ∃ t, exec (.sessionIdleTimeout id) s = .next t ∧ t.mem = s.mem ∧ t.job = s.job ∧ t.ctl = { s.ctl with sessions := s.ctl.sessions.filter (fun y => y.id != id.toNat) })

/-- R409, R416 to R418, R454, R461, R462: settings and what is read back. -/
def Obligations.SettingsAreReadAndWritten : Prop :=
  ∀ (c : Cmd) (s u : State), let b := c.body
    (∀ d off, Serves s 0x0301 c u → leAt b 0 8 % 8 = 0 → 1 ≤ leAt b 8 2 → leAt b 8 2 ≤ 64 → cfgOf (leAt b 0 8) = some (d, off) →
      (∀ k < leAt b 8 2, (cfgOf (leAt b 0 8 + 8 * k)).isSome = true ∧ (u.peekReg d (off + 8 * k)).isSome = true) → d ≠ 4 → d ≠ 5 →
      ∃ (t : State) (vs : List Nat), exec .configRead s = .next (t.replyOk c (vs.flatMap (fun v => leBytes v 8))) ∧ vs.length = leAt b 8 2 ∧ t.mem = u.mem ∧ t.job = u.job ∧ t.ctl = u.ctl ∧
        ∀ w, u.peekReg d off = some w → vs[0]? = some w.toNat) ∧
    (∀ d off old r v, Serves s 0x0302 c u → leAt b 0 8 % 8 = 0 → cfgOf (leAt b 0 8) = some (d, off) → d ≠ 4 → d ≠ 5 → opkeyReg d off = false →
      let mask : BitVec 64 := BitVec.ofNat 64 (leAt b 16 8)
      let new := (old &&& ~~~mask) ||| (BitVec.ofNat 64 (leAt b 8 8) &&& mask)
      (u.job.running = true → jobWritable d off mask = true) → u.peekReg d off = some old → regSpecOf d off = some r → (∃ f ∈ r.fields, f.acc = .rw) →
      fieldIgnored d off new mask = false → u.ctrValStuck d off new = false → u.writeReg? d off new = some v →
      exec .configWrite s = .next (v.replyOk c [])) ∧
    (Serves s 0x0303 c u → leAt b 0 1 ≤ 1 → leAt b 1 2 ≤ 4095 → leAt b 19 1 ≤ 128 → u.func (svcFunc (leAt b 0 1)) = 2 ∨ u.func (svcFunc (leAt b 0 1)) = 3 →
      ∃ t, exec .setNetwork s = .next t ∧ t.mem = u.mem ∧ t.job = u.job ∧ (∀ y ∈ t.ctl.conns, y.peer.port ≠ leAt b 0 1) ∧
        mapGet (fun _ => NetCfg.mk 0 0 0 0 0 0 none) t.ctl.net (leAt b 0 1) = ⟨leAt b 1 2, beAt b 3 16, leAt b 19 1, leAt b 20 4, leAt b 24 4, leAt b 28 4, none⟩) ∧
    (Serves s 0x0304 c u → leAt b 4 4 < 32 → leAt b 0 4 ≤ 60000 →
      exec .setTelemetry s = .next ((u.modCtl (fun x => { x with telInterval := leAt b 0 4, telMask := leAt b 4 4 })).replyOk c [])) ∧
    (Serves s 0x0601 c u → leAt b 0 4 = 0 ∨ (450 ≤ leAt b 0 4 ∧ leAt b 0 4 ≤ 2100) →
      ∃ v : State, exec .setPowerBudget s = .next (v.replyOk c (leBytes v.budget.1 4 ++ leBytes (v.getF v.lead fPwrStatusState) 1 ++ leBytes 0 3)) ∧
        v.mem = u.mem ∧ v.job = u.job ∧ v.ctl = u.ctl ∧ v.getF u.lead fPwrBudgetCfgCmdW = leAt b 0 4) ∧
    (Serves s 0x0602 c u → exec .getPower s = .next (u.replyOk c (([u.getF u.lead fPwrMeasPkgMw, u.getF u.lead fPwrBudgetCfgEffectiveW,
        pinBudget (u.getF u.lead fPwrBudgetCfgPinCode), u.getF u.lead fPwrBudgetCfgCmdW, u.getF u.lead fPwrBudgetCfgCapW, u.getF u.lead fPwrStatusState,
        u.getF u.lead fPwrStatusSource, b2n u.pwr.low]
      ++ (span 0 15).flatMap (fun k => if (u.rail k).lost then [2 ^ 32 - 1, 2 ^ 32 - 1] else [(u.rail k).mv, (u.rail k).ma])).flatMap (fun v => leBytes v 4)))) ∧
    (Serves s 0x0603 c u → thermOk (leAt b 0 2) (leAt b 2 2) = true → leAt b 5 3 = 0 → leAt b 4 1 ≠ 0 → leAt b 4 1 < 16 →
      (∀ d < 4, natBits (leAt b 4 1) d 1 = 1 → u.dieUp d = true) →
      ∃ v : State, exec .setThermal s = .next (v.replyOk c []) ∧ v.mem = u.mem ∧ v.ctl = u.ctl ∧
        ∀ d < 4, v.getF d fThermCfgTHot = (if natBits (leAt b 4 1) d 1 = 1 then leAt b 0 2 else u.getF d fThermCfgTHot) ∧
          v.getF d fThermCfgTCrit = if natBits (leAt b 4 1) d 1 = 1 then leAt b 2 2 else u.getF d fThermCfgTCrit) ∧
    (Serves s 0x0701 c u → 1 ≤ leAt b 8 2 → leAt b 8 2 ≤ 1000 →
      let oldest := u.ctl.forwarded - u.ctl.forward.length
      let first := max (leAt b 0 8) oldest
      exec .getErrors s = .next (u.replyOk c (leBytes first 8 ++ ((u.ctl.forward.drop (first - oldest)).take (leAt b 8 2)).flatMap (fun r => leBytes r.toNat 64)))) ∧
    (∀ n, Serves s 0x0702 c u → leAt b 4 1 < 4 → leAt b 5 1 ≤ 5 → u.conn (leAt b 0 4) = some n → n.kind = 1 →
      exec .eventSubscribe s = .next ((u.modCtl (fun x => { x with sub := some ⟨leAt b 0 4, leAt b 4 1, leAt b 5 1⟩ })).replyOk c [])) ∧
    (∀ (x : Session) (r : Reply), Serves s 0x0703 c u → u.session c.session = some x → x.cache.find? (fun r => r.seq == leAt b 0 8) = some r →
      ∃ v : State, exec .commandStatus s = .next (v.sendMsg (v.replyConn c) (replyBytes c.head true 0x102 r.status (v.credits c) 0 r.body)) ∧ v.mem = u.mem ∧ v.job = u.job) ∧
    (Serves s 0x0704 c u → leAt b 0 1 ≤ 4 → ∃ body, exec .getCounters s = .next (u.replyOk c body) ∧
      (leAt b 0 1 = 1 → body = ((span 0 6).filter u.dieUp).flatMap (fun d => (counterOffs d 0x20000 0x30000).flatMap (fun o => u.regBytes d o))))
/-- R410, R411, R329, R338, R273, R422: the job and the domain. -/
def Obligations.JobCommandsAreServed : Prop :=
  ∀ (c : Cmd) (s u : State), let b := c.body
    (∀ bs, Serves s 0x0402 c u → leAt b 1 7 = 0 → leAt b 0 1 ≤ 2 → u.jobParts = true →
      (u.job.running = true → exec .jobStart s = .next (u.refuse c 0x105 0)) ∧
      (u.job.running = false → u.idValid = true → u.ctl.image = some bs → Config.sha512 bs = BitVec.ofNat 512 (leAt b 8 64) →
        (leAt b 0 1 = 1 → u.flag u.lead fParStatusValid = true) → (∀ f ∈ u.jobFuncs ++ imagePorts (Config.imageOf bs), u.funcUp f = true) →
        u.shapeFits (Config.imageOf bs) = true →
        (∀ w, (u.setClasses (Config.imageOf bs)).writeRun u.jas (Config.imageOf bs).base bs = (false, w) → exec .jobStart s = .next (w.refuse c 0x200 0x0011)) ∧
        (∀ p, (u.setClasses (Config.imageOf bs)).writeRun u.jas (Config.imageOf bs).base bs = (true, p) →
          (p.imageFits (Config.imageOf bs) = false → exec .jobStart s = .next (u.refuse c 0x107 0)) ∧
          (p.imageFits (Config.imageOf bs) = true → let v := p.loadJob (Config.imageOf bs)
            (leAt b 0 1 = 0 → exec .jobStart s = .next (v.startJob c)) ∧
            (∀ h w, leAt b 0 1 ≠ 0 → v.readRun (.jasper 0) (v.headerAddr 0) 128 = (some h, w) →
              ∃ x : State, exec .jobStart s = .next (x.startJob c) ∧ x.mem = w.mem ∧ ∀ d < 4, x.reg d oStepIndex = BitVec.ofNat 64 (leAt h 0 8)))))) ∧
    (let t := u.startJob c
     let j : Job := { Job.none with running := true, starting := true, phase := 4, ended := true }
     (u.timeKids ≠ [] → t.job = j) ∧ (u.timeKids = [] → u.treeRoot = false → t.job = { j with sent := true }) ∧
     (u.timeKids = [] → u.treeRoot = true → t.job.phase = 0 ∧ t.job.starting = false ∧ t.job.ended = false)) ∧
    (Serves s 0x0403 c u →
      (u.job.running = true → leAt b 8 1 = 0 → (u.reg u.lead oStepIndex).toNat ≤ leAt b 0 8 → ∃ t, exec .jobStop s = .next t ∧ t.mem = u.mem ∧ t.cores = u.cores ∧
        t.job = { u.job with stopAt := some (leAt b 0 8) } ∧ t.ctl.progs = u.ctl.progs ++ [⟨c, .jobStop⟩]) ∧
      (u.job.running = true → leAt b 8 1 = 1 → ∃ t, exec .jobStop s = .next t ∧ t.mem = u.mem ∧ t.cores = u.cores ∧ t.job.running = false ∧ t.job.fatal = true) ∧
      (u.job.running = false → leAt b 8 1 ≤ 1 → exec .jobStop s = .next (u.refuse c 0x105 0))) ∧
    (Serves s 0x0404 c u → exec .jobStatus s = .next (u.replyOk c
      (leBytes (if u.job.running = false then 0 else if u.job.stopAt ≠ none then 3 else if u.job.starting = true then 1 else 2) 1 ++ leBytes u.job.phase 1
        ++ [oStepIndex, oStepResult, oStepSkip, oParStatus, oLayoutStatus].flatMap (fun o => leBytes (u.reg u.lead o).toNat 8)))) ∧
    (Serves s 0x0406 c u → u.layoutBusy = false → u.ctl.layout ≠ none → (u.reg u.lead oStepIndex).toNat ≤ leAt b 0 8 →
      ∃ t, exec .layoutCommit s = .next t ∧ t.mem = u.mem ∧ t.job = u.job ∧ t.ctl.progs = u.ctl.progs ++ [⟨c, .layoutCommit⟩] ∧ t.ctl.applyStep = leAt b 0 8 ∧
        ∀ d < 4, t.flag d fLayoutStatusPending = true ∧ t.getF d fLayoutStatusApplyStep = leAt b 0 8 % 2 ^ 40) ∧
    (Serves s 0x0506 c u → leAt b 0 4 = 0 ∨ (leAt b 0 4 % u.getF u.lead fAgateDigCfgK = 0 ∧ ∃ n, u.conn (leAt b 4 4) = some n ∧ n.kind = 3) →
      exec .ckptConfig s = .next ((u.modCtl (fun x => { x with ckptPeriod := leAt b 0 4, ckptConn := leAt b 4 4 })).replyOk c [])) ∧
    (Serves s 0x0A01 c u → leAt b 0 2 ≤ 4095 → leAt b 2 1 ≤ 1 → leAt b 3 1 ≤ 11 → u.idValid = false → u.job.running = false →
      ∃ v : State, exec .domainJoin s = .next (v.replyOk c []) ∧ v.mem = u.mem ∧ v.job = u.job ∧ v.pkgId = leAt b 0 2 ∧ v.idValid = true ∧
        v.ctl = { u.ctl with tag := BitVec.ofNat 64 (leAt b 4 8) } ∧
        ∀ d < 4, u.dieUp d = true → v.getF d fFiCfgTimeUp = leAt b 3 1 ∧ v.getF d fFiCfgTimeRoot = leAt b 2 1 ∧ (leAt b 2 1 = 1 → v.flag d fFiTimeStatLocked = true)) ∧
    (Serves s 0x0A02 c u →
      (u.job.running = false → ∃ v : State, exec .domainLeave s = .next (v.replyOk c []) ∧ v.mem = u.mem ∧ v.ctl = u.ctl ∧ v.idValid = false ∧ v.pkgId = u.pkgId) ∧
      (u.job.running = true → exec .domainLeave s = .next (u.refuse c 0x105 0))) ∧
    (Serves s 0x0A03 c u → exec .domainStatus s = .next (u.replyOk c (u.regBytes common oPkgId ++ leBytes u.ctl.tag.toNat 8 ++ u.regBytes u.lead oFiTimeStat
      ++ (span 0 12).flatMap (fun p => u.regBytes (portDie p) (oEwPortStatus + 0x1000 * (p % 6)))))) ∧
    (∀ bs, Serves s 0x0A04 c u → u.job.running = false → u.ctl.image = some bs → u.reconOn = false → (∀ d < 4, u.updUp d = true) →
      let r := u.loadTables (Config.imageOf bs)
      leAt b 0 1 < r.getF r.lead fParCfgG → r.protRegions ≠ 0 →
      ∃ t, exec .reconstruct s = .next t ∧ t.mem = r.mem ∧ t.ctl.recon = [] ∧ t.ctl.reconRun = [] ∧ t.ctl.progs = r.ctl.progs ++ [⟨c, .reconstruct⟩] ∧
        ∀ d < 4, t.flag d fUpdStatusBusy = true ∧ t.flag d fUpdStatusRecon = true)

/-- A load of `use` is taken from the state `u` with the outcome `o`: its stream is bound and its command waits; an empty one is over at once. -/
def LoadTaken (c : Cmd) (use : StreamUse) (most : Nat) (u : State) (o : Host.Outcome State Fault Refusal) : Prop :=
  ∀ n, u.conn (leAt c.body 0 4) = some n → n.kind = 2 → leAt c.body 4 8 ≤ most → u.freeIngest (leAt c.body 0 4) = true → (∀ y ∈ u.ctl.bulks, y.handle ≠ u.ctl.nextBulk) →
    ∃ t, o = .next t ∧ (leAt c.body 4 8 = 0 → ∀ y ∈ t.ctl.bulks, y.handle ≠ u.ctl.nextBulk) ∧
      (leAt c.body 4 8 ≠ 0 → t.mem = u.mem ∧ t.job = u.job ∧ t.ctl.progs = u.ctl.progs ++ [⟨c, .stream u.ctl.nextBulk⟩] ∧
        t.ctl.bulks = u.ctl.bulks ++ [⟨u.ctl.nextBulk, leAt c.body 0 4, true, use, 0, leAt c.body 4 8, 0, 0, [], 0, 0⟩])

/-- R420, R439, R444, R446, R447, R465, R361, R391: loads, streams and maintenance. -/
def Obligations.MaintenanceCommandsAreServed : Prop :=
  (∀ (c : Cmd) (s u : State), let b := c.body
    (Serves s 0x0401 c u → u.job.running = false → LoadTaken c .image stackBytes u (exec .loadImage s)) ∧
    (Serves s 0x0405 c u → u.layoutBusy = false → LoadTaken c .layout stackBytes u (exec .loadLayout s)) ∧
    (Serves s 0x0801 c u → u.getF common fFwUpdStatusOnB = 0 → u.flag common fFwUpdStatusCommitting = false → u.flash.present[1]? = some true →
      LoadTaken c .firmware (2 ^ 25) u (exec .fwStage s)) ∧
    (Serves s 0x0804 c u → LoadTaken c .calibration 262144 u (exec .calWrite s)) ∧
    (∀ n, Serves s 0x0501 c u → u.conn (leAt b 0 4) = some n → leAt b 28 4 = 0 → leAt b 4 4 < 2 ^ 18 → leAt b 16 8 % 128 = 0 → leAt b 16 8 ≠ 0 → leAt b 8 8 % 128 = 0 →
      u.userRun (leAt b 8 8) (leAt b 16 8) false = true → (∀ x ∈ u.ctl.bulks, x.conn ≠ leAt b 0 4) →
      let v := (u.bind (leAt b 0 4) (n.kind == 2) .user (leAt b 8 8) (leAt b 16 8) (leAt b 4 4) (leAt b 24 4)).2.replyOk c (leBytes u.ctl.nextBulk 4)
      (n.kind = 2 → exec .streamOpen s = .next v) ∧
      (∀ l w, n.kind = 3 → v.egressSegs (leAt b 8 8) (leAt b 16 8) = (some l, w) → exec .streamOpen s = .next (w.queueSegs (leAt b 0 4) l))) ∧
    (∀ x, Serves s 0x0502 c u → u.bulk (leAt b 0 4) = some x → x.use = .user → x.ingest = true →
      ∃ v : State, exec .streamClose s = .next (v.replyOk c (leBytes x.sent 8 ++ leBytes (crc32c ((x.parts.mergeSort (fun p q => decide (p.1 ≤ q.1))).flatMap Prod.snd)).toNat 4)) ∧
        v.mem = u.mem ∧ v.ctl.bulks = u.ctl.bulks.filter (fun y => y.handle != x.handle)) ∧
    (∀ x n bs w, Serves s 0x0502 c u → u.bulk (leAt b 0 4) = some x → x.use = .user → x.ingest = false → u.conn x.conn = some n →
      let moved := x.length - (n.queue.map (fun g => g.data.length)).foldl (· + ·) 0
      u.readRun u.jas x.addr moved = (some bs, w) → exec .streamClose s = .next ((w.dropBulk x.handle).replyOk c (leBytes moved 8 ++ leBytes (crc32c bs).toNat 4))) ∧
    (∀ bs w, Serves s 0x0503 c u → leAt b 0 8 % 128 = 0 → leAt b 0 8 + leAt b 8 4 ≤ stackBytes → leAt b 8 4 % 128 = 0 → leAt b 8 4 ≠ 0 → leAt b 8 4 ≤ 32768 →
      u.readRun u.jas (leAt b 0 8) (leAt b 8 4) = (some bs, w) → exec .memRead s = .next (w.replyOk c bs)) ∧
    (∀ w, Serves s 0x0504 c u → leAt b 0 8 % 128 = 0 → u.userRun (leAt b 0 8) (b.length - 8) true = true →
      u.writeRun u.jas (leAt b 0 8) (b.drop 8) = (true, w) → exec .memWrite s = .next (w.replyOk c [])) ∧
    (Serves s 0x0505 c u → leAt b 4 1 ≤ 3 → leAt b 5 1 ≤ 3 → u.regionBad (leAt b 4 1) (leAt b 0 2) (leAt b 2 2) = false →
      ∃ t, exec .regionCmd s = .next t ∧ t.cores = u.cores ∧ t.mem = { u.mem with regionOps := u.mem.regionOps ++ [⟨.command, leAt b 4 1, leAt b 0 2, leAt b 2 2, leAt b 5 1⟩] } ∧
        t.ctl.progs = u.ctl.progs ++ [⟨c, .region (leAt b 4 1) (leAt b 0 2) (leAt b 2 2) (leAt b 5 1)⟩]) ∧
    (Serves s 0x0705 c u → leAt b 0 1 ≠ 0 → leAt b 0 1 < 16 → u.job.running = false → (∀ d ∈ maskBits (leAt b 0 1) 4, u.dieUp d = true) →
      (leAt b 1 1 = 1 → ∃ t, exec .runSelftest s = .next t ∧ t.mem = u.mem ∧ t.cores = u.cores ∧ t.ctl.progs = u.ctl.progs ++ [⟨c, .selftest (leAt b 0 1) 1⟩] ∧
        ∀ d ∈ maskBits (leAt b 0 1) 4, t.getF d fMcScrubStatusPosition = 0) ∧
      (leAt b 1 1 = 0 → ∃ t, exec .runSelftest s = .next t ∧ t.mem = u.mem ∧ ∀ d ∈ maskBits (leAt b 0 1) 4, ∀ p ∈ (u.die d).goodCores, ∀ j < 4,
        (u.core (18 * d + p)).quiet = true → ((u.core (18 * d + p)).array j).st ≠ .disabled → ((t.core (18 * d + p)).array j).ctRunning = true)) ∧
    (Serves s 0x0802 c u → leAt b 0 1 ≤ 5 → u.dieUp (leAt b 0 1) = true → u.flag common fFwUpdStatusActBusy = false → u.flag common fFwUpdStatusBValid = true →
      (u.job.running = true → leAt b 0 1 ≠ u.lead ∧ leAt b 0 1 < 4) →
      ∃ t, exec .fwActivate s = .next t ∧ t.flag common fFwUpdStatusActBusy = true ∧ t.getF common fFwUpdStatusActDie = leAt b 0 1 ∧
        (leAt b 0 1 = u.lead → t.mem = u.mem ∧ t.ctl.sessions = [] ∧ t.ctl.conns = []) ∧
        (leAt b 0 1 ≠ u.lead → leAt b 0 1 < 4 → t.mem = u.mem ∧ t.ctl.progs = u.ctl.progs ++ [⟨c, .activate (leAt b 0 1)⟩] ∧
          t.getF common fFwUpdStatusActResult = if u.job.running = true then 2 else 0) ∧
        (4 ≤ leAt b 0 1 → (t.die (leAt b 0 1)).st = .lostWarm)) ∧
    (Serves s 0x0803 c u → leAt b 4 4 ≤ 32768 → leAt b 0 4 + leAt b 4 4 ≤ 262144 → ∃ bs : List Byte, exec .calRead s = .next (u.replyOk c bs) ∧ bs.length = leAt b 4 4 ∧
      ∀ i < leAt b 4 4, leAt b 0 4 + i < u.flash.cal.length → bs[i]? = u.flash.cal[leAt b 0 4 + i]?) ∧
    (let f := leAt b 0 2
     Serves s 0x0901 c u → f ∈ allFuncs → u.restricted f = false →
      (u.func f = 0 → u.dieUp (funcDie f) = true → u.getF (funcDie f) fBootStatusStage = 4 → ∃ t, exec .funcEnable s = .next t ∧ t.mem = u.mem ∧ t.func f = 1 ∧
        t.ctl.progs = u.ctl.progs ++ [⟨c, .func f true⟩]) ∧
      (u.func f = 1 → exec .funcEnable s = .next (u.progress c 2 (.func f true))) ∧ (u.func f = 2 ∨ u.func f = 3 → exec .funcEnable s = .next (u.replyOk c [])) ∧
      (u.func f = 4 → exec .funcEnable s = .next (u.progress c 1 (.func f true)))) ∧
    (let f := leAt b 0 2
     Serves s 0x0902 c u → f ∈ allFuncs → u.restricted f = false → u.jobUses f = false → u.lastService f = false →
      ∃ t, exec .funcDisable s = .next t ∧ t.mem = u.mem ∧ t.job = u.job ∧ (∀ g ∈ t.ctl.progs, g.waits ≠ .func f true) ∧
        (u.func f = 0 ∨ u.func f = 5 → t.func f = u.func f ∧ ∀ g ∈ t.ctl.progs, g.waits ≠ .func f false) ∧
        (u.func f ≠ 0 → u.func f ≠ 5 → t.func f = 4 ∧ ⟨c, .func f false⟩ ∈ t.ctl.progs)) ∧
    (Serves s 0x0903 c u → exec .funcStatus s = .next (u.replyOk c (allFuncs.map (fun f => BitVec.ofNat 8 (u.func f))))) ∧
    (Serves s 0x0904 c u → leAt b 0 1 ≤ 3 → leAt b 1 1 ≤ 17 → u.dieUp (leAt b 0 1) = true → (u.die (leAt b 0 1)).isGood (leAt b 1 1) = true →
      (u.func (funcId 2 (leAt b 0 1) (leAt b 1 1)) < 2 → exec .retireCore s = .next (u.refuse c 0x104 0)) ∧
      (2 ≤ u.func (funcId 2 (leAt b 0 1) (leAt b 1 1)) → ∃ t, exec .retireCore s = .next t ∧ t.mem = u.mem ∧ (u.job.running = false → (t.die (leAt b 0 1)).isGood (leAt b 1 1) = false) ∧
        (u.job.running = true → t.job = u.job ∧ natBits (t.getF (leAt b 0 1) fRetirePendCores) (leAt b 1 1) 1 = 1))) ∧
    (Serves s 0x0905 c u →
      (leAt b 0 1 = 0 → leAt b 1 1 ≤ 5 → (edgePeer (leAt b 1 1) (leAt b 2 1)).isSome = true → u.restricted (edgeFunc (leAt b 1 1) (leAt b 2 1)) = false →
        u.funcUp (edgeFunc (leAt b 1 1) (leAt b 2 1)) = true →
        exec .retrain s = .next ((u.progress c 2 (.retrain 0 (leAt b 1 1) (leAt b 2 1))).retrainEdge (leAt b 1 1) (leAt b 2 1))) ∧
      (leAt b 0 1 = 1 → leAt b 2 1 ≤ 11 → leAt b 1 1 = portDie (leAt b 2 1) → u.restricted (portFunc (leAt b 2 1)) = false → u.funcUp (portFunc (leAt b 2 1)) = true →
        ∃ t, exec .retrain s = .next t ∧ t.mem = u.mem ∧ t.func (portFunc (leAt b 2 1)) = 1 ∧ t.ctl.progs = u.ctl.progs ++ [⟨c, .retrain 1 (leAt b 1 1) (leAt b 2 1)⟩])) ∧
    (Serves s 0x0906 c u → leAt b 0 1 ≤ 5 → leAt b 0 1 ≠ u.lead → u.dieUp (leAt b 0 1) = true → leAt b 1 1 ≤ 1 →
      ∃ t, exec .dieReset s = .next t ∧ (t.die (leAt b 0 1)).st = if leAt b 0 1 < 4 ∧ leAt b 1 1 = 1 then .lostCold else .lostWarm)) ∧
  (∀ (handle : BitVec 32) (b : Bulk) (s : State), s.bulk handle.toNat = some b → b.ngr ≠ 0 → b.ingest = true → b.notified < b.prefixBytes / 128 / b.ngr →
    exec (.streamNotify handle) s = .next ((s.setBulk { b with notified := b.notified + 1 }).berylSend (b.nctr / 65536)
      ⟨if b.nctr / 65536 = s.lead then 23 else diePort (b.nctr / 65536) s.lead, .inc, b.nctr % 65536, 1, .unit s.lead⟩))
/-- R419 to R421, R399: the rows of the service transport. -/
def Obligations.TransportFollowsItsRows : Prop :=
  (∀ (a : NetEnd) (g : Seg) (r : List (NetEnd × Seg)) (s : State), takeSeg 0 [] s.ctl.segsIn = some ((a, g), r) →
    let v := s.modCtl (fun x => { x with segsIn := r })
    let known := s.ctl.conns.find? (fun c => c.peer.same a && c.synPsn == g.psn)
    (∀ c, known = some c → exec .cstSyn s = .next (v.segOut c ⟨1, c.id, 0, 0, c.myPsn, 0, 0, 0, []⟩)) ∧
    (known = none → s.ctl.conns.length < 64 → ∃ t, ∃ c : Conn, exec .cstSyn s = .next t ∧ t.mem = s.mem ∧ t.job = s.job ∧ t.ctl.conns = s.ctl.conns ++ [c] ∧ c.id = s.ctl.nextConn ∧
      c.kind = g.kind ∧ c.peer = a ∧ c.opened = false ∧ c.rxNext = (g.psn + 1) % 2 ^ 32 ∧ t.ctl.nextConn = s.ctl.nextConn + 1) ∧
    (known = none → 64 ≤ s.ctl.conns.length → exec .cstSyn s = .next (v.rstTo a 0 5))) ∧
  (∀ (typ : Nat) (a : NetEnd) (g : Seg) (r : List (NetEnd × Seg)) (c : Conn) (s : State), takeSeg typ [] s.ctl.segsIn = some ((a, g), r) →
    let v := (s.modCtl (fun x => { x with segsIn := r })).takeAck g.conn g.ack g.window
    let m := c.msg ++ g.data
    v.conn g.conn = some c →
    (typ = 2 → g.typ = 2 → g.psn = c.rxNext → c.rxHeld = [] → c.kind ≠ 2 → m.length ≤ 65568 →
      (natBits g.flags 0 1 = 0 → ∃ t, ∃ y : Conn, exec .cstData s = .next t ∧ t.mem = s.mem ∧ t.job = s.job ∧ t.conn g.conn = some y ∧ y.rxNext = (g.psn + 1) % 2 ^ 32 ∧ y.msg = m) ∧
      (∀ row, natBits g.flags 0 1 = 1 → c.kind = 0 → headFault m = none → leAt m 4 1 = 1 → opRow (leAt m 6 2) = some row → leAt m 24 4 = 0 →
        leAt m 5 1 = 0 ∨ leAt m 5 1 = 8 → leAt m 8 4 = 0 → v.session 0 = none → row.auth = 0 →
        v.credits ⟨c.id, m.take 32, m.drop 32, (v.reg v.lead oDieTimebase).toNat⟩ ≠ 0 → (mapGet (fun _ => []) v.ctl.cmds row.cls).length < 256 →
        ∃ t, exec .cstData s = .next t ∧ t.mem = s.mem ∧ t.job = s.job ∧
          mapGet (fun _ => []) t.ctl.cmds row.cls = mapGet (fun _ => []) v.ctl.cmds row.cls ++ [⟨c.id, m.take 32, m.drop 32, (v.reg v.lead oDieTimebase).toNat⟩])) ∧
    (typ = 4 → g.typ = 4 → g.psn = c.rxNext → c.rxHeld = [] → ∃ t, exec .cstFin s = .next t ∧ t.mem = s.mem ∧ t.job = s.job ∧ t.conn g.conn = none) ∧
    (typ = 5 → ∃ t, exec .cstRst s = .next t ∧ t.mem = s.mem ∧ t.job = s.job ∧ t.conn g.conn = none) ∧
    (typ = 6 → exec .cstPing s = .next (v.segPlain c 7 [])) ∧ (typ = 7 → exec .cstPong s = .next v) ∧
    (∀ c0, typ = 3 → s.conn g.conn = some c0 → c0.queue = [] →
      ∃ t, ∃ y : Conn, exec .cstAck s = .next t ∧ t.mem = s.mem ∧ t.job = s.job ∧ t.conn g.conn = some y ∧ y.peerWin = g.window ∧
        y.opened = (c0.opened || psnLt c0.myPsn g.ack) ∧
        y.flight = c0.flight.filter (fun x => !psnLt x.psn g.ack && !(sackOf g.data).any (fun q => decide (psnDist x.psn q.1 ≤ psnDist q.2 q.1))))) ∧
  (∀ (id : BitVec 32) (c : Conn) (s : State), s.conn id.toNat = some c →
    (c.owed ≠ 0 → ∃ t, exec (.cstAckTimer id) s = .next t ∧ t.mem = s.mem ∧ t.job = s.job ∧ t.conn id.toNat = some { c with owed := 0 }) ∧
    (∀ g l, c.flight = g :: l →
      (c.expiries + 1 < 16 → ∃ t, exec (.cstRetxTimer id) s = .next t ∧ t.mem = s.mem ∧ t.job = s.job ∧
        t.conn id.toNat = some { c with expiries := c.expiries + 1, cwnd := max 1 (c.cwnd / 2), grown := 0 }) ∧
      (16 ≤ c.expiries + 1 → ∃ t, exec (.cstRetxTimer id) s = .next t ∧ t.mem = s.mem ∧ t.job = s.job ∧ t.conn id.toNat = none)) ∧
    exec (.cstPingTimer id) s = .next (s.segPlain c 6 []) ∧
    ∃ t, exec (.cstIdleClose id) s = .next t ∧ t.mem = s.mem ∧ t.job = s.job ∧ t.conn id.toNat = none)

/-- R11 to R13, R50, R372, R415, R416, R479, R483, R486, R491: telemetry, frames, SMBus, JTAG and registers. -/
def Obligations.PinsPortsAndRegistersAnswer : Prop :=
  (∀ (kind : Fin 5) (d : Fin 6) (q : BitVec 18) (v : BitVec 256) (s u : State), s.leadRuns = true → s.ctl.telInterval ≠ 0 → natBits s.ctl.telMask kind 1 = 1 →
    s.getF common fCmdStatusShed < 5 → s.samples kind d = true → QCached s s.lead q.toNat v → qEn v = true → qErr v = false → qKind v = 4 → qHeld v < qDepth v →
    (s.qGet s.lead q.toNat).2.narrowAt s.jas (qEntryAt v (qProd v)) (s.sample kind d) true = (none, u) →
    ∃ t, exec (.telemetrySample kind d q) s = .next t ∧ t.mem = u.mem ∧ t.ctl.telSeq = (u.ctl.telSeq + 1) % 65536 ∧ QShows t s.lead q.toNat (qAddProd v 1)) ∧
  (∀ s : State, s.leadRuns = true → let n := s.getF common fCmdStatusShed
    (n < 5 → 128 < s.waitingCmds ∨ 2048 < s.ctl.forward.length → exec .shedRise s = .next (s.setF common fCmdStatusShed (n + 1))) ∧
    (n ≠ 0 → s.waitingCmds < 32 → exec .shedFall s = .next (s.setF common fCmdStatusShed (n - 1)))) ∧
  (∀ (p : Fin 2) (bytes : List Byte) (fcs : Bool) (s : State), s.dieUp (4 + p.val) = true → s.funcUp (svcFunc p) = true → s.flag (4 + p.val) fSvcStatusLink = true →
    (fcs = false ∨ s.takesMac p (beAt bytes 0 6) = false ∨ readFrame (s.netOf p).vlan bytes = none →
      exec (.frameReceive p bytes fcs) s = .next (s.bump (4 + p.val) fSvcRxDropCntCount 1)) ∧
    (∀ mac etype b, fcs = true → s.takesMac p (beAt bytes 0 6) = true → readFrame (s.netOf p).vlan bytes = some (mac, etype, b) →
      let v := s.bump (4 + p.val) fSvcRxFramesCntCount 1
      ∃ t, exec (.frameReceive p bytes fcs) s = .next t ∧ t.mem = s.mem ∧ t.job = s.job ∧ t.cores = s.cores ∧
        (etype = 0x0806 → (s.netOf p).ip4 ≠ 0 → 28 ≤ b.length → beAt b 0 6 = 0x000108000604 → beAt b 6 2 = 1 → beAt b 24 4 = (s.netOf p).ip4 →
          t = v.arpOut p (beAt b 8 6) 2 (beAt b 8 6) (beAt b 14 4)) ∧
        (etype = 0x86DD → t = v.ip6In p mac b) ∧ (etype = 0x0800 → t = v.ip4In p mac b))) ∧
  (∀ (space : BitVec 8) (off : BitVec 24) (s : State), s.dieUp 0 = true →
    (∀ v, space.toNat ≤ 6 → smbusReads space.toNat off.toNat = true → s.smbusUp space.toNat = true → s.peekReg space.toNat off.toNat = some v →
      exec (.regRead space off) s = .next (s.send (.smbus (leBytes 0 1 ++ leBytes v.toNat 8)))) ∧
    (6 < space.toNat ∨ smbusReads space.toNat off.toNat = false → ∃ t bs, exec (.regRead space off) s = .next t ∧ t.mem = s.mem ∧ t.regs = s.regs ∧
      t.out = s.out ++ [.smbus (BitVec.ofNat 8 1 :: bs)]) ∧
    (∀ value mask, exec (.regWrite false space off value mask) s = .next { s with smb := 4 }) ∧
    (∀ value mask, let st := s.smbusStatus space.toNat off.toNat mask.toNat
      (st ≠ 0 → exec (.regWrite true space off value mask) s = .next { s with smb := st }) ∧
      (∀ old, st = 0 → s.peekReg space.toNat off.toNat = some old →
        exec (.regWrite true space off value mask) s = .next ({ s with smb := 0 }.writeReg space.toNat off.toNat ((old &&& ~~~mask) ||| (value &&& mask))))) ∧
    exec .lastStatus s = .next (s.send (.smbus (leBytes s.smb 1))) ∧
    (∃ bs : List Byte, exec .summary s = .next (s.send (.smbus bs)) ∧ bs.length = 32 ∧ leAt bs 0 8 = (s.reg s.lead oStepIndex).toNat ∧ leAt bs 11 1 = s.lead) ∧
    (s.alert = true → exec .alertResponse s = .next ({ s with alert := false }.send (.smbus (leBytes (2 * (0x58 + s.smbAddr)) 1))))) ∧
  (∀ (d : Fin 6) (s : State),
    (∀ v w, s.dieUp d = true → fld v 88 3 ≤ 6 → (d.val < 4 ∨ fld v 88 3 = d) → bit v 91 = false → s.peekReg (fld v 88 3) (fld v 64 24) = some w →
      ∃ t, exec (.jtagCfg d v) s = .next t ∧ t.mem = s.mem ∧ t.out = s.out ++ [.jtag d ((span 0 96).map (bit (s.tap d).cfg))] ∧ (t.tap d).ir = 0x20 ∧
        fld (t.tap d).cfg 0 64 = w.toNat ∧ fld (t.tap d).cfg 92 4 = 0) ∧
    exec (.idcode d) s = .next ((s.setTap d { s.tap d with ir := 1 }).send (.jtag d ((span 0 32).map (fun i => natBits (s.idcode d) i 1 == 1)))) ∧
    exec (.bypass d) s = .next ((s.setTap d { s.tap d with ir := 0xFF }).send (.jtag d [false])) ∧
    (∀ pins load, exec (.samplePreload d pins load) s = .next ((s.setTap d { s.tap d with ir := 2, bnd := load }).send (.jtag d pins)) ∧
      exec (.extest d pins load) s = .next ((s.setTap d { s.tap d with ir := 0, bnd := load }).send (.jtag d pins)))) ∧
  (∀ (space : Fin 7) (off : BitVec 24) (r : RegSpec) (s : State), regSpecOf space off.toNat = some r → s.spaceUp space = true → space ≠ 4 → space ≠ 5 →
    (∃ t v, exec (.rcRead space off) s = .next t ∧ t.mem = s.mem ∧ t.job = s.job ∧ s.peekReg space off.toNat = some v ∧
      t.out = s.out ++ [.readAnswer (cfgAddr space off.toNat) (some v.toNat)] ∧
      ((r.off ≠ oArrStatus ∨ 4 ≤ space.val) → (∃ f ∈ r.fields, f.acc = .rc) → t.reg space off.toNat = r.without .rc (s.reg space off.toNat))) ∧
    (∀ v, s.writeAct space off.toNat r.off v = none → viewOnly space r.off = false → (∃ f ∈ r.fields, f.acc = .rw ∨ f.acc = .wo ∨ f.acc = .w1c) →
      s.writable space off.toNat r.off = true → 4 ≤ space.val ∨ (r.off ≠ oThermCfg ∧ r.off ≠ oPwrBudgetCfg) →
      exec (.registerWrite space off v) s = .next (s.setReg space off.toNat (r.merge space (s.reg space off.toNat) v)))) ∧
  (∀ (space : Fin 7) (off : BitVec 24) (v : BitVec 64) (s : State), let a := cfgAddr space off.toNat
    (space ≠ 4 → space ≠ 5 → s.peekReg space off.toNat = none →
      exec (.rcRead space off) s = .next ((s.clusterFailed a).send (.readAnswer a none)) ∧ exec (.registerWrite space off v) s = .next ((s.clusterFailed a).send (.readAnswer a none))) ∧
    (∀ g k, space = 4 ∨ space = 5 → s.gateTo s.lead space = some g → s.cfgTag space = some k →
      (∃ t, exec (.rcRead space off) s = .next t ∧ t.mem = s.mem ∧ t.job = s.job ∧ t.cfgOuts = s.cfgOuts ++ [(space.val, k, a)]) ∧
      ∃ t, exec (.registerWrite space off v) s = .next t ∧ t.mem = s.mem ∧ t.job = s.job ∧ t.cfgOuts = s.cfgOuts ++ [(space.val, k, a)]))
/-- The state right after reset; values the spec does not give are the model's, named in the assumption log. -/
def Obligations.ResetLeavesEveryValueAsGiven : Prop :=
  State.reset.Canon ∧ State.reset.pending = [] ∧ (∀ d off, State.reset.reg d off = regReset (regKey d off)) ∧ (∀ d, (State.reset.die d).st = .held) ∧
    (∀ f, State.reset.func f = 0) ∧ State.reset.job.running = false ∧ State.reset.ctl.conns = [] ∧ State.reset.ctl.sessions = [] ∧
    (∀ k, mapGet (fun _ => []) State.reset.ctl.cmds k = []) ∧ State.reset.out = [] ∧ (∀ g, State.reset.mem.gran g = 0) ∧ State.reset.alert = false

/-- No step stops, and each takes one command (the block's form, log entry 1). -/
def Obligations.EveryStepTakesOneCommand : Prop :=
  ∀ s : State, ∃ t, step s = .next t ∧ t.pending = s.pending.tail

/-- The canonical form of registers and memory is kept by every step. -/
def Obligations.EveryStepKeepsTheCanonicalForm : Prop :=
  ∀ s t : State, s.Canon → step s = .next t → t.Canon
end

