-- ==== Sys2Proof/Laws/Bits.lean ====
section
/-! SUPPORT. Reading a bit field after writing one. -/

namespace Sys2Proof.Machine

theorem natPutBits_eq (n lo w v : Nat) :
    natPutBits n lo w v = n % 2 ^ lo + 2 ^ lo * (v % 2 ^ w + 2 ^ w * (n / 2 ^ (lo + w))) := by
  unfold natPutBits natBits
  rw [Nat.shiftRight_eq_div_pow, pow_add, ← Nat.div_div_eq_div_mul]
  have h1 := Nat.div_add_mod n (2 ^ lo)
  have h2 := Nat.div_add_mod (n / 2 ^ lo) (2 ^ w)
  set q := n / 2 ^ lo
  set c := q / 2 ^ w
  have h3 : n = n % 2 ^ lo + 2 ^ lo * (q % 2 ^ w) + 2 ^ lo * (2 ^ w * c) := by
    rw [add_assoc, ← Nat.mul_add, add_comm (q % 2 ^ w), h2]; omega
  have h4 : q % 2 ^ w * 2 ^ lo = 2 ^ lo * (q % 2 ^ w) := Nat.mul_comm _ _
  have h5 : v % 2 ^ w * 2 ^ lo = 2 ^ lo * (v % 2 ^ w) := Nat.mul_comm _ _
  rw [Nat.mul_add, h4, h5]
  omega

theorem natPutBits_lt {n lo w v N : Nat} (hn : n < 2 ^ N) (h : lo + w ≤ N) : natPutBits n lo w v < 2 ^ N := by
  rw [natPutBits_eq]
  have hc : n / 2 ^ (lo + w) < 2 ^ (N - (lo + w)) := by
    rw [Nat.div_lt_iff_lt_mul (Nat.two_pow_pos _), ← pow_add]
    rwa [show N - (lo + w) + (lo + w) = N by omega]
  have ha : n % 2 ^ lo < 2 ^ lo := Nat.mod_lt _ (Nat.two_pow_pos _)
  have hv : v % 2 ^ w < 2 ^ w := Nat.mod_lt _ (Nat.two_pow_pos _)
  have e : 2 ^ N = 2 ^ lo * (2 ^ w * 2 ^ (N - (lo + w))) := by rw [← pow_add, ← pow_add]; congr 1; omega
  rw [e]
  have i1 : v % 2 ^ w + 2 ^ w * (n / 2 ^ (lo + w)) + 1 ≤ 2 ^ w * 2 ^ (N - (lo + w)) := by
    calc _ ≤ 2 ^ w + 2 ^ w * (n / 2 ^ (lo + w)) := by omega
      _ = 2 ^ w * (n / 2 ^ (lo + w) + 1) := by ring
      _ ≤ _ := Nat.mul_le_mul_left _ hc
  calc _ < 2 ^ lo + 2 ^ lo * (v % 2 ^ w + 2 ^ w * (n / 2 ^ (lo + w))) := by omega
    _ = 2 ^ lo * (v % 2 ^ w + 2 ^ w * (n / 2 ^ (lo + w)) + 1) := by ring
    _ ≤ _ := Nat.mul_le_mul_left _ i1

theorem natBits_put_same (n lo w v : Nat) : natBits (natPutBits n lo w v) lo w = v % 2 ^ w := by
  rw [natPutBits_eq, natBits, Nat.shiftRight_eq_div_pow, Nat.add_mul_div_left _ _ (Nat.two_pow_pos _),
    Nat.div_eq_of_lt (Nat.mod_lt _ (Nat.two_pow_pos _)), Nat.zero_add, Nat.add_mul_mod_self_left, Nat.mod_mod]

theorem natBits_put_other {n lo w v lo' w' : Nat} (h : lo' + w' ≤ lo ∨ lo + w ≤ lo') :
    natBits (natPutBits n lo w v) lo' w' = natBits n lo' w' := by
  rw [natPutBits_eq]
  unfold natBits
  simp only [Nat.shiftRight_eq_div_pow]
  rcases h with h | h
  · have e : 2 ^ lo = 2 ^ lo' * (2 ^ w' * 2 ^ (lo - (lo' + w'))) := by rw [← pow_add, ← pow_add]; congr 1; omega
    have hm : ∀ x y, (x % 2 ^ lo + 2 ^ lo * y) / 2 ^ lo' % 2 ^ w' = x / 2 ^ lo' % 2 ^ w' := by
      intro x y
      have hx := Nat.div_add_mod x (2 ^ lo)
      have a1 : (x % 2 ^ lo + 2 ^ lo * y) / 2 ^ lo' = x % 2 ^ lo / 2 ^ lo' + 2 ^ w' * (2 ^ (lo - (lo' + w')) * y) := by
        rw [show 2 ^ lo * y = 2 ^ lo' * (2 ^ w' * (2 ^ (lo - (lo' + w')) * y)) by rw [e]; ring]
        rw [Nat.add_mul_div_left _ _ (Nat.two_pow_pos _)]
      have a2 : x / 2 ^ lo' = x % 2 ^ lo / 2 ^ lo' + 2 ^ w' * (2 ^ (lo - (lo' + w')) * (x / 2 ^ lo)) := by
        conv_lhs => rw [← hx, add_comm]
        rw [show 2 ^ lo * (x / 2 ^ lo) = 2 ^ lo' * (2 ^ w' * (2 ^ (lo - (lo' + w')) * (x / 2 ^ lo))) by
          rw [← Nat.mul_assoc, ← Nat.mul_assoc, Nat.mul_assoc (2 ^ lo'), ← e]]
        rw [Nat.add_mul_div_left _ _ (Nat.two_pow_pos _)]
      rw [a1, a2, Nat.add_mul_mod_self_left, Nat.add_mul_mod_self_left]
    rw [hm]
  · have e : 2 ^ lo' = 2 ^ (lo + w) * 2 ^ (lo' - (lo + w)) := by rw [← pow_add]; congr 1; omega
    rw [e, ← Nat.div_div_eq_div_mul, ← Nat.div_div_eq_div_mul]
    congr 2
    rw [pow_add, ← Nat.div_div_eq_div_mul, Nat.add_mul_div_left _ _ (Nat.two_pow_pos _),
      Nat.div_eq_of_lt (Nat.mod_lt _ (Nat.two_pow_pos _)), Nat.zero_add, Nat.add_mul_div_left _ _ (Nat.two_pow_pos _),
      Nat.div_eq_of_lt (Nat.mod_lt _ (Nat.two_pow_pos _)), Nat.zero_add]

/-- A field reads what was written to it. -/
theorem fld_putFld_same {n : Nat} (x : BitVec n) {lo w : Nat} (v : Nat) (h : lo + w ≤ n) : fld (putFld x lo w v) lo w = v % 2 ^ w := by
  unfold fld putFld
  rw [BitVec.toNat_ofNat, Nat.mod_eq_of_lt (natPutBits_lt x.isLt h), natBits_put_same]

/-- A field keeps its value when a field beside it is written. -/
theorem fld_putFld_other {n : Nat} (x : BitVec n) {lo w lo' w' : Nat} (v : Nat) (hn : lo + w ≤ n) (h : lo' + w' ≤ lo ∨ lo + w ≤ lo') :
    fld (putFld x lo w v) lo' w' = fld x lo' w' := by
  unfold fld putFld
  rw [BitVec.toNat_ofNat, Nat.mod_eq_of_lt (natPutBits_lt x.isLt hn), natBits_put_other h]

theorem natBits_lt (n lo w : Nat) : natBits n lo w < 2 ^ w := Nat.mod_lt _ (Nat.two_pow_pos _)

theorem fld_lt {n : Nat} (x : BitVec n) (lo w : Nat) : fld x lo w < 2 ^ w := natBits_lt _ _ _

@[simp] theorem span_length (a n : Nat) : (span a n).length = n := by
  induction n generalizing a with
  | zero => rfl
  | succ n ih => simp [span, ih]

@[simp] theorem mem_span {a n x : Nat} : x ∈ span a n ↔ a ≤ x ∧ x < a + n := by
  induction n generalizing a with
  | zero => simp [span]
  | succ n ih => simp only [span, List.mem_cons, ih]; omega

@[simp] theorem leBytes_length (v n : Nat) : (leBytes v n).length = n := by
  induction n generalizing v with
  | zero => rfl
  | succ n ih => simp [leBytes, ih]

end Sys2Proof.Machine
end

