-- ==== Sys2Proof/Laws/Map.lean ====
section
/-! SUPPORT. The laws of sparse tables: a read after a write, and that every operation keeps the canonical form. -/

namespace Sys2Proof.Machine

variable {α : Type}

@[simp] theorem mapGet_nil (d : Nat → α) (k : Nat) : mapGet d [] k = d k := rfl

theorem mapErase_mem {m : SMap α} {k : Nat} {e : Nat × α} : e ∈ mapErase m k ↔ e ∈ m ∧ e.1 ≠ k := by
  simp [mapErase]

theorem mapGet_erase (d : Nat → α) (m : SMap α) (k k' : Nat) :
    mapGet d (mapErase m k) k' = if k' = k then d k' else mapGet d m k' := by
  induction m with
  | nil => simp [mapErase]
  | cons e r ih =>
    obtain ⟨j, v⟩ := e
    by_cases hj : j = k
    · subst hj
      have : mapErase ((j, v) :: r) j = mapErase r j := by simp [mapErase]
      rw [this, ih, mapGet]
      by_cases hk : k' = j
      · simp [hk]
      · simp [hk, Ne.symm hk]
    · have : mapErase ((j, v) :: r) k = (j, v) :: mapErase r k := by simp [mapErase, hj]
      rw [this, mapGet, mapGet, ih]
      by_cases h1 : j = k'
      · subst h1; simp [hj]
      · simp [h1]

theorem mapGet_insert (d : Nat → α) (m : SMap α) (k : Nat) (v : α) (h : ∀ e ∈ m, e.1 ≠ k) (k' : Nat) :
    mapGet d (mapInsert k v m) k' = if k' = k then v else mapGet d m k' := by
  induction m with
  | nil => simp [mapInsert, mapGet, eq_comm]
  | cons e r ih =>
    obtain ⟨j, w⟩ := e
    have hj : j ≠ k := h (j, w) (by simp)
    have ih := ih (fun e he => h e (by simp [he]))
    unfold mapInsert
    split
    · simp [mapGet, eq_comm]
    · rw [mapGet, mapGet, ih]
      by_cases h1 : j = k'
      · subst h1; simp [hj]
      · simp [h1]

theorem mapSet_eq [DecidableEq α] (d : Nat → α) (m : SMap α) (k : Nat) (v : α) :
    mapSet d m k v = if v = d k then mapErase m k else mapInsert k v (mapErase m k) := by
  cases m <;> rfl

/-- A key reads what was last written to it, and no other key changes. -/
theorem mapGet_mapSet [DecidableEq α] (d : Nat → α) (m : SMap α) (k k' : Nat) (v : α) :
    mapGet d (mapSet d m k v) k' = if k' = k then v else mapGet d m k' := by
  rw [mapSet_eq]
  split
  · next hv => rw [mapGet_erase]; split <;> simp_all
  · rw [mapGet_insert _ _ _ _ (fun e he => (mapErase_mem.1 he).2), mapGet_erase]; split <;> simp_all

@[simp] theorem mapGet_mapSet_same [DecidableEq α] (d : Nat → α) (m : SMap α) (k : Nat) (v : α) :
    mapGet d (mapSet d m k v) k = v := by simp [mapGet_mapSet]

theorem mapGet_mapSet_other [DecidableEq α] (d : Nat → α) (m : SMap α) {k k' : Nat} (v : α) (h : k' ≠ k) :
    mapGet d (mapSet d m k v) k' = mapGet d m k' := by simp [mapGet_mapSet, h]

theorem mapInsert_mem {m : SMap α} {k : Nat} {v : α} {e : Nat × α} : e ∈ mapInsert k v m ↔ e = (k, v) ∨ e ∈ m := by
  induction m with
  | nil => simp [mapInsert]
  | cons x r ih =>
    unfold mapInsert
    split
    · simp
    · simp [ih, or_left_comm]

theorem mapInsert_sorted {m : SMap α} {k : Nat} {v : α} (h : m.Pairwise (fun a b => a.1 < b.1)) (hk : ∀ e ∈ m, e.1 ≠ k) :
    (mapInsert k v m).Pairwise (fun a b => a.1 < b.1) := by
  induction m with
  | nil => simp [mapInsert]
  | cons x r ih =>
    have hx : x.1 ≠ k := hk x (by simp)
    rw [List.pairwise_cons] at h
    unfold mapInsert
    split
    · next hlt =>
      rw [List.pairwise_cons]
      refine ⟨fun e he => ?_, List.pairwise_cons.2 h⟩
      rcases List.mem_cons.1 he with rfl | he
      · exact hlt
      · exact lt_trans hlt (h.1 e he)
    · next hge =>
      rw [List.pairwise_cons]
      refine ⟨fun e he => ?_, ih h.2 (fun e he => hk e (by simp [he]))⟩
      rcases mapInsert_mem.1 he with rfl | he
      · simp only; omega
      · exact h.1 e he

theorem mapWf_filter {d : Nat → α} {m : SMap α} (p : Nat × α → Bool) (h : mapWf d m) : mapWf d (m.filter p) :=
  ⟨h.1.filter p, fun e he => h.2 e (List.mem_filter.1 he).1⟩

theorem mapWf_erase {d : Nat → α} {m : SMap α} (k : Nat) (h : mapWf d m) : mapWf d (mapErase m k) := mapWf_filter _ h

theorem mapWf_drop {d : Nat → α} {m : SMap α} (p : Nat → Bool) (h : mapWf d m) : mapWf d (mapDrop p m) := mapWf_filter _ h

theorem mapWf_nil (d : Nat → α) : mapWf d [] := by simp [mapWf]

/-- A write keeps the canonical form. -/
theorem mapWf_set [DecidableEq α] {d : Nat → α} {m : SMap α} (k : Nat) (v : α) (h : mapWf d m) : mapWf d (mapSet d m k v) := by
  rw [mapSet_eq]
  split
  · exact mapWf_erase k h
  · next hv =>
    refine ⟨mapInsert_sorted (mapWf_erase k h).1 (fun e he => (mapErase_mem.1 he).2), fun e he => ?_⟩
    rcases mapInsert_mem.1 he with rfl | he
    · exact hv
    · exact (mapWf_erase k h).2 e he

theorem mapWf_mod [DecidableEq α] {d : Nat → α} {m : SMap α} (k : Nat) (f : α → α) (h : mapWf d m) : mapWf d (mapMod d m k f) :=
  mapWf_set _ _ h

theorem mapWf_setList [DecidableEq α] {d : Nat → α} (l : List α) : ∀ {m : SMap α} (k : Nat), mapWf d m → mapWf d (mapSetList d m k l) := by
  induction l with
  | nil => intro m k h; exact h
  | cons v r ih => intro m k h; exact ih _ (mapWf_set k v h)

/-- The keys a run of writes does not reach keep their values. -/
theorem mapGet_setList_other [DecidableEq α] (d : Nat → α) (l : List α) :
    ∀ (m : SMap α) (k k' : Nat), k' < k ∨ k + l.length ≤ k' → mapGet d (mapSetList d m k l) k' = mapGet d m k' := by
  induction l with
  | nil => intro m k k' _; rfl
  | cons v r ih =>
    intro m k k' h
    simp only [List.length_cons] at h
    rw [mapSetList, ih _ _ _ (by omega), mapGet_mapSet_other _ _ _ (by omega)]

/-- Each key of a run of writes reads its own value. -/
theorem mapGet_setList_at [DecidableEq α] (d : Nat → α) (l : List α) :
    ∀ (m : SMap α) (k i : Nat) (h : i < l.length), mapGet d (mapSetList d m k l) (k + i) = l[i] := by
  induction l with
  | nil => intro m k i h; simp at h
  | cons v r ih =>
    intro m k i h
    rw [mapSetList]
    cases i with
    | zero => rw [mapGet_setList_other _ _ _ _ _ (by omega)]; simp
    | succ j =>
      have := ih (mapSet d m k v) (k + 1) j (by simpa using h)
      rw [show k + (j + 1) = k + 1 + j by omega, this]; simp

/-- Tables in canonical form that read alike are equal. -/
theorem mapWf_ext {d : Nat → α} : ∀ {m m' : SMap α}, mapWf d m → mapWf d m' → (∀ k, mapGet d m k = mapGet d m' k) → m = m' := by
  have absent : ∀ {m : SMap α} {k : Nat}, (∀ e ∈ m, k < e.1) → mapGet d m k = d k := by
    intro m
    induction m with
    | nil => intros; rfl
    | cons e r ih =>
      intro k h
      have := h e (by simp)
      rw [mapGet, if_neg (by omega)]
      exact ih (fun x hx => h x (by simp [hx]))
  intro m
  induction m with
  | nil =>
    intro m' _ h' he
    cases m' with
    | nil => rfl
    | cons e r =>
      obtain ⟨k, v⟩ := e
      have := he k
      simp only [mapGet, if_true] at this
      exact absurd this.symm (h'.2 (k, v) (by simp))
  | cons e r ih =>
    intro m' h h' he
    obtain ⟨k, v⟩ := e
    cases m' with
    | nil =>
      have := he k
      simp only [mapGet, if_true] at this
      exact absurd this (h.2 (k, v) (by simp))
    | cons e' r' =>
      obtain ⟨k', v'⟩ := e'
      have p := List.pairwise_cons.1 h.1
      have p' := List.pairwise_cons.1 h'.1
      have hk : k = k' := by
        rcases lt_trichotomy k k' with hlt | heq | hlt
        · have := he k
          rw [mapGet, if_pos rfl, absent (m := (k', v') :: r')] at this
          · exact absurd this (h.2 (k, v) (by simp))
          · intro x hx
            rcases List.mem_cons.1 hx with rfl | hx
            · exact hlt
            · exact lt_trans hlt (p'.1 x hx)
        · exact heq
        · have := he k'
          rw [absent (m := (k, v) :: r)] at this
          · rw [mapGet, if_pos rfl] at this
            exact absurd this.symm (h'.2 (k', v') (by simp))
          · intro x hx
            rcases List.mem_cons.1 hx with rfl | hx
            · exact hlt
            · exact lt_trans hlt (p.1 x hx)
      subst hk
      have hv : v = v' := by simpa [mapGet] using he k
      subst hv
      have hr : r = r' := by
        refine ih ⟨p.2, fun e he => h.2 e (by simp [he])⟩ ⟨p'.2, fun e he => h'.2 e (by simp [he])⟩ (fun j => ?_)
        by_cases hj : k = j
        · subst hj
          rw [absent (fun x hx => p.1 x hx), absent (fun x hx => p'.1 x hx)]
        · simpa [mapGet, hj] using he j
      rw [hr]

end Sys2Proof.Machine
end

