-- ==== Sys2Proof/Laws/Memory.lean ====
section
/-! SUPPORT. The laws of stack memory: a granule reads what was last stored in it, every other granule is untouched, and every operation keeps the
canonical form. -/

namespace Sys2Proof.Machine

/-! ### The canonical form -/

theorem MemState.wf_reset : MemState.reset.wf := by
  refine ⟨?_, ?_, ?_, ?_⟩
  · exact mapWf_nil _
  · exact mapWf_nil _
  · exact mapWf_nil _
  · exact mapWf_nil _

/-- Storing a granule keeps the form. -/
theorem MemState.wf_put {m : MemState} (h : m.wf) (g : Nat) (v : GranBits) (k : GranMeta) : (m.put g v k).wf := by
  unfold MemState.put
  generalize leBytes v.toNat 128 = l
  refine ⟨?_, ?_, ?_, h.2.2.2⟩
  · exact mapWf_setList l _ h.1
  · exact mapWf_set (d := m.metaRest) _ _ h.2.1
  · exact mapWf_erase _ h.2.2.1

theorem MemState.wf_damage {m : MemState} (h : m.wf) (g : Nat) (l : List SymErr) : (m.damage g l).wf := by
  unfold MemState.damage
  split
  · exact h
  · exact ⟨h.1, h.2.1, mapWf_set _ _ h.2.2.1, h.2.2.2⟩

/-- The entry of a region after another was replaced. -/
theorem MemState.region_setRegion (m : MemState) (r r' : Nat) (v : Region) :
    (m.setRegion r v).region r' = if r' = r then v else m.region r' := mapGet_mapSet _ _ _ _ _

/-- Metadata defaults depend on a region's last sweeps only. -/
theorem MemState.metaRest_setRegion {m : MemState} {r : Nat} {v : Region} (h : v.swept = (m.region r).swept ∧ v.anew = (m.region r).anew) :
    (m.setRegion r v).metaRest = m.metaRest := by
  funext g
  simp only [MemState.metaRest, MemState.region_setRegion]
  split
  · next hg => rw [h.1, h.2, hg]
  · rfl

/-- Replacing a region's entry keeps the form, if its last sweeps stay. -/
theorem MemState.wf_setRegion {m : MemState} (h : m.wf) {r : Nat} {v : Region} (hv : v.swept = (m.region r).swept ∧ v.anew = (m.region r).anew) : (m.setRegion r v).wf := by
  refine ⟨h.1, ?_, h.2.2.1, mapWf_set _ _ h.2.2.2⟩
  rw [MemState.metaRest_setRegion hv]
  exact h.2.1

theorem mapGet_map_filter {f : Region → Region} (rest : Region) : ∀ (l : SMap Region) (r : Nat), l.Pairwise (fun a b => a.1 < b.1) →
    mapGet (fun _ => f rest) ((l.map (fun e => (e.1, f e.2))).filter (fun e => e.2 != f rest)) r = f (mapGet (fun _ => rest) l r)
  | [], _, _ => rfl
  | (k, v) :: l, r, h => by
    obtain ⟨hk, hl⟩ := List.pairwise_cons.1 h
    have ih := mapGet_map_filter rest (f := f) l r hl
    have absent : ∀ (l : SMap Region), (∀ a ∈ l, k < a.1) → mapGet (fun _ => rest) l k = rest := by
      intro l
      induction l with
      | nil => intros; rfl
      | cons a t iht =>
        intro ha
        have := ha a (by simp)
        rw [mapGet, if_neg (by omega)]
        exact iht (fun x hx => ha x (by simp [hx]))
    simp only [List.map_cons, List.filter_cons]
    by_cases hkr : k = r
    · subst hkr
      have hm : mapGet (fun _ => rest) ((k, v) :: l) k = v := by simp [mapGet]
      rw [hm]
      split
      · simp [mapGet]
      · next hv =>
        rw [ih, absent l hk]
        simp_all
    · have hm : mapGet (fun _ => rest) ((k, v) :: l) r = mapGet (fun _ => rest) l r := by simp [mapGet, hkr]
      rw [hm, ← ih]
      split
      · simp [mapGet, hkr]
      · rfl

/-- The entry of a region after every entry was changed. -/
theorem MemState.region_allRegions {m : MemState} (h : m.wf) (f : Region → Region) (r : Nat) : (m.allRegions f).region r = f (m.region r) :=
  mapGet_map_filter _ _ _ h.2.2.2.1

/-- Changing every region's entry keeps the form, if last sweeps stay. -/
theorem MemState.wf_allRegions {m : MemState} (h : m.wf) {f : Region → Region} (hf : ∀ e, (f e).swept = e.swept ∧ (f e).anew = e.anew) : (m.allRegions f).wf := by
  refine ⟨h.1, ?_, h.2.2.1, ?_⟩
  · have : (m.allRegions f).metaRest = m.metaRest := by
      funext g
      simp only [MemState.metaRest, MemState.region_allRegions h, hf]
    rw [this]
    exact h.2.1
  · constructor
    · apply List.Pairwise.filter
      rw [List.pairwise_map]
      exact h.2.2.2.1
    · intro e he
      simpa [MemState.allRegions] using (List.mem_filter.1 he).2

theorem MemState.wf_setMerge {m : MemState} (h : m.wf) (ch : Nat) (l : List MergeEntry) : (m.setMerge ch l).wf := h

theorem MemState.wf_dropEntry {m : MemState} (h : m.wf) (g : Nat) : (m.dropEntry g).wf := h

theorem MemState.wf_keep (l : List (Nat × GranMeta)) : ∀ {m : MemState}, m.wf →
    (l.foldl (fun (m : MemState) (e : Nat × GranMeta) => { m with gmeta := mapSet m.metaRest m.gmeta e.1 e.2 }) m).wf := by
  induction l with
  | nil => intro m h; exact h
  | cons e l ih => intro m h; exact ih ⟨h.1, mapWf_set _ _ h.2.1, h.2.2.1, h.2.2.2⟩

/-- The epoch sweep of a region keeps the form. -/
theorem MemState.wf_sweepRegion {m : MemState} (h : m.wf) (r : Nat) : (m.sweepRegion r).wf := by
  unfold MemState.sweepRegion
  refine MemState.wf_keep _ ⟨?_, ⟨?_, fun e he => ?_⟩, ?_, ?_⟩
  · exact mapWf_filter (d := fun _ => (0 : Byte)) _ h.1
  · exact (mapWf_filter _ h.2.1).1.filter _
  · exact bne_iff_ne.1 (List.mem_filter.1 he).2
  · exact mapWf_filter (d := fun _ => ([] : List SymErr)) _ h.2.2.1
  · exact mapWf_set (d := fun _ => m.regionRest) _ _ h.2.2.2

theorem MemState.wf_incEpoch {m : MemState} (h : m.wf) (r : Nat) : (m.incEpoch r).wf := by
  unfold MemState.incEpoch
  refine MemState.wf_setRegion ?_ ⟨rfl, rfl⟩
  split
  · refine MemState.wf_sweepRegion ?_ r
    exact h
  · exact h

/-- A region operation keeps the form. -/
theorem MemState.wf_regionOp {m : MemState} (h : m.wf) (op cls r : Nat) : (m.regionOp op cls r).wf := by
  unfold MemState.regionOp
  split
  · exact MemState.wf_incEpoch h r
  · refine MemState.wf_setRegion h ?_
    exact ⟨rfl, rfl⟩
  · refine MemState.wf_setRegion h ?_
    exact ⟨rfl, rfl⟩
  · refine MemState.wf_incEpoch (MemState.wf_setRegion h ?_) r
    exact ⟨rfl, rfl⟩

theorem MemState.wf_regionRun {m : MemState} (h : m.wf) (op cls first count : Nat) : (m.regionRun op cls first count).wf := by
  unfold MemState.regionRun
  generalize span first count = l
  induction l generalizing m with
  | nil => exact h
  | cons r l ih => exact ih (MemState.wf_regionOp h op cls r)

theorem MemState.wf_restoreAll (w r : Nat) : ∀ (n i : Nat) (bs : List Byte) {m : MemState}, m.wf → (m.restoreAll w r n i bs).wf
  | 0, _, _, _, h => h
  | n + 1, i, bs, m, h => by
    unfold MemState.restoreAll
    split
    · exact h
    · exact MemState.wf_restoreAll w r n (i + 1) _ (MemState.wf_put h _ _ _)

/-- The restore of a FIRMWARE region keeps the form. -/
theorem MemState.wf_restoreRegion {m : MemState} (h : m.wf) (w r : Nat) (image : List Byte) : (m.restoreRegion w r image).wf := by
  unfold MemState.restoreRegion
  refine MemState.wf_restoreAll _ _ _ _ _ ⟨?_, ⟨?_, fun e he => ?_⟩, ?_, ?_⟩
  · exact mapWf_filter (d := fun _ => (0 : Byte)) _ h.1
  · exact (mapWf_filter _ h.2.1).1
  rotate_left
  · exact mapWf_filter (d := fun _ => ([] : List SymErr)) _ h.2.2.1
  · exact mapWf_set (d := fun _ => m.regionRest) _ _ h.2.2.2
  have hr : granRegion e.1 ≠ r := by simpa [mapDrop] using (List.mem_filter.1 he).2
  have hm := h.2.1.2 e (List.mem_filter.1 he).1
  simp only [MemState.metaRest, MemState.region_setRegion, if_neg hr] at hm ⊢
  exact hm

/-! ### Reads after writes -/

/-- A granule's bytes read as they were stored. -/
theorem leNat_leBytes : ∀ (n v : Nat), leNat (leBytes v n) = v % 256 ^ n
  | 0, v => by simp [leBytes, leNat, Nat.mod_one]
  | n + 1, v => by
    have ih := leNat_leBytes n (v / 256)
    have h8 : v % 256 % 2 ^ 8 = v % 256 := by omega
    rw [leBytes, leNat, ih, BitVec.toNat_ofNat, h8, pow_succ, mul_comm (256 ^ n) 256, Nat.mod_mul]

/-- A run of keys, read in order. -/
theorem span_map {α : Type} (f : Nat → α) : ∀ (l : List α) (a : Nat), (∀ i (h : i < l.length), f (a + i) = l[i]) → (span a l.length).map f = l
  | [], _, _ => rfl
  | x :: l, a, h => by
    have h0 := h 0 (by simp)
    have ih := span_map f l (a + 1) (fun i hi => by
      have := h (i + 1) (by simpa using hi)
      rwa [show a + (i + 1) = a + 1 + i by omega] at this)
    simp only [List.length_cons, span, List.map_cons]
    rw [ih]
    simpa using h0

/-- A granule reads what was stored in it. -/
theorem MemState.gran_put (m : MemState) (g : Nat) (v : GranBits) (k : GranMeta) : (m.put g v k).gran g = v := by
  have hl : (span (128 * g) 128).map (mapGet (fun _ => (0 : Byte)) (m.put g v k).data) = leBytes v.toNat 128 := by
    have hlen := leBytes_length v.toNat 128
    unfold MemState.put
    generalize leBytes v.toNat 128 = l at hlen ⊢
    have := span_map (mapGet (fun _ => (0 : Byte)) (mapSetList (fun _ => 0) m.data (128 * g) l)) l (128 * g)
      (fun i h => mapGet_setList_at _ _ _ _ _ h)
    rw [hlen] at this
    exact this
  unfold MemState.gran
  rw [hl, leNat_leBytes]
  apply BitVec.eq_of_toNat_eq
  rw [BitVec.toNat_ofNat]
  have hp : (256 : Nat) ^ 128 = 2 ^ 1024 := by
    rw [show (256 : Nat) = 2 ^ 8 by norm_num, ← pow_mul]
  rw [hp, Nat.mod_mod, Nat.mod_eq_of_lt v.isLt]

/-- Storing a granule leaves every other granule's data. -/
theorem MemState.gran_put_other (m : MemState) {g g' : Nat} (h : g' ≠ g) (v : GranBits) (k : GranMeta) : (m.put g v k).gran g' = m.gran g' := by
  have hl : (span (128 * g') 128).map (mapGet (fun _ => (0 : Byte)) (m.put g v k).data) = (span (128 * g') 128).map (mapGet (fun _ => (0 : Byte)) m.data) := by
    apply List.map_congr_left
    intro a ha
    have hm := mem_span.1 ha
    have hlen := leBytes_length v.toNat 128
    unfold MemState.put
    generalize leBytes v.toNat 128 = l at hlen ⊢
    exact mapGet_setList_other _ _ _ _ _ (by omega)
  unfold MemState.gran
  rw [hl]

/-- The metadata stored with a granule, and that of every other. -/
theorem MemState.metaOf_put (m : MemState) (g g' : Nat) (v : GranBits) (k : GranMeta) :
    (m.put g v k).metaOf g' = if g' = g then k else m.metaOf g' := by
  unfold MemState.put
  generalize leBytes v.toNat 128 = l
  exact mapGet_mapSet m.metaRest m.gmeta g g' k

/-- A granule stored is whole; the wrong symbols of every other stay. -/
theorem MemState.errsOf_put (m : MemState) (g g' : Nat) (v : GranBits) (k : GranMeta) :
    (m.put g v k).errsOf g' = if g' = g then [] else m.errsOf g' := by
  unfold MemState.put
  generalize leBytes v.toNat 128 = l
  exact mapGet_erase (fun _ => ([] : List SymErr)) m.errs g g'

theorem MemState.region_put (m : MemState) (g r : Nat) (v : GranBits) (k : GranMeta) : (m.put g v k).region r = m.region r := by
  unfold MemState.put
  generalize leBytes v.toNat 128 = l
  rfl

end Sys2Proof.Machine
end

