-- ==== Sys2Proof/Laws/Access.lean ====
section
/-!
SUPPORT. Stack memory on which every access succeeds: all stacks answer, no region is LOST or of another class than USER, nothing waits in a
merge buffer, and every granule's data pass their block check.
-/

namespace Sys2Proof.Machine

/-- Every access to stack memory succeeds. -/
structure State.Plain (s : State) : Prop where
  up : ∀ k < 12, s.stackUp k = true
  ways : ∀ a < 4, ∀ b < 4, ∀ t < 2, s.reaches a b t = true
  regions : ∀ r, s.mem.region r = .reset
  merge : ∀ c, s.mem.mergeBuf c = []
  clean : ∀ g, s.mem.errsOf g = [] ∧ chkOf (s.mem.gran g) = (s.mem.metaOf g).chk ∧ (s.mem.metaOf g).epoch = 0

/-- Such a memory with nothing but zeros. -/
structure State.Blank (s : State) : Prop extends s.Plain where
  zero : ∀ g, s.mem.gran g = 0 ∧ (s.mem.metaOf g).chk = 0

/-- Every requester has every stack at hand. -/
theorem State.Plain.near {s : State} (h : s.Plain) (q : Requester) (g : Nat) : s.stackNear q g = true := by
  have hk : granStack g < 12 := Nat.mod_lt _ (by decide)
  have hr : requesterDie q < 4 := by cases q <;> exact Nat.mod_lt _ (by decide)
  have hm (t : Nat) : s.reaches (requesterDie q) (granStack g / 3) t = s.reaches (requesterDie q) (granStack g / 3) (t % 2) := by
    simp only [State.reaches, State.way, waysTo, Nat.mod_mod]
  rw [State.stackNear, h.up _ hk, hm, h.ways _ hr _ (by omega) _ (Nat.mod_lt _ (by decide))]
  rfl

theorem put_merge (m : MemState) (g : Nat) (v : GranBits) (k : GranMeta) : (m.put g v k).merge = m.merge := by
  unfold MemState.put
  generalize leBytes v.toNat 128 = l
  rfl

theorem chkOf_zero : chkOf 0#1024 = 0#16 := by decide +kernel

theorem gran_reset (g : Nat) : MemState.reset.gran g = 0 := by
  have hz : ∀ l : List Nat, leNat (l.map (fun _ => (0 : Byte))) = 0 := by
    intro l
    induction l with
    | nil => rfl
    | cons a r ih =>
      show 0 + 256 * leNat (r.map (fun _ => (0 : Byte))) = 0
      rw [ih]
  have e : mapGet (fun _ => (0 : Byte)) MemState.reset.data = fun _ => 0 := funext (fun _ => rfl)
  rw [MemState.gran, e, hz]
  rfl

theorem meta_reset (g : Nat) : MemState.reset.metaOf g = ⟨0, 0, 0xFE⟩ := by
  have h0 : natBits 0 (granStack g) 1 = 0 := by simp [natBits]
  simp [MemState.metaOf, MemState.metaRest, MemState.reset, mapGet, MemState.region, Region.reset, GranMeta.swept, h0]

/-- Stacks answer and are reached whatever they hold. -/
theorem stackUp_mem (s : State) (m : MemState) (k : Nat) : State.stackUp { s with mem := m } k = s.stackUp k := rfl

/-- What a die reaches depends on the links between the dies and on which dies traffic may cross alone. -/
theorem reaches_of {s u : State} (h : ∀ x y, u.linkOk x y = s.linkOk x y) (ht : u.through = s.through) (a b t : Nat) : u.reaches a b t = s.reaches a b t := by
  have e : u.pathOk = s.pathOk := by
    funext l
    induction l with
    | nil => rfl
    | cons x r ih =>
      cases r with
      | nil => rfl
      | cons y r => rw [State.pathOk, State.pathOk, ih, h]
  rw [State.reaches, State.reaches, State.way, State.way, e, ht]

theorem reaches_mem (s : State) (m : MemState) (a b t : Nat) : State.reaches { s with mem := m } a b t = s.reaches a b t :=
  reaches_of (s := s) (u := { s with mem := m }) (fun _ _ => rfl) rfl a b t

theorem reaches_cores (s : State) (c : SMap Core) (a b t : Nat) : State.reaches { s with cores := c } a b t = s.reaches a b t :=
  reaches_of (s := s) (u := { s with cores := c }) (fun _ _ => rfl) rfl a b t

/-- Memory that nothing has written is such a memory. -/
theorem blank_fresh {s : State} (hu : ∀ k < 12, s.stackUp k = true) (hw : ∀ a < 4, ∀ b < 4, ∀ t < 2, s.reaches a b t = true)
    (hm : s.mem = MemState.reset) : s.Blank where
  up := hu
  ways := hw
  regions := fun _ => by rw [hm]; rfl
  merge := fun _ => by rw [hm]; rfl
  clean := fun g => by
    rw [hm, gran_reset, meta_reset]
    exact ⟨rfl, chkOf_zero, rfl⟩
  zero := fun g => by
    rw [hm, gran_reset, meta_reset]
    exact ⟨rfl, rfl⟩

/-- A read succeeds and changes nothing. -/
theorem State.Plain.memRead {s : State} (h : s.Plain) (q : Requester) {g : Nat} (hg : g < stackBytes / 128) :
    s.memRead q g = (.ok (s.mem.gran g) (s.mem.metaOf g), s) := by
  have hr := h.regions (granRegion g)
  have he : s.mem.entryOf g = none := by rw [MemState.entryOf, h.merge]; rfl
  obtain ⟨h1, h2, h3⟩ := h.clean g
  simp [State.memRead, State.flushGran, State.readStack, hr, he, h1, h2, h3, h.near, MemState.decode, Region.reset, mayRead, Nat.not_le.mpr hg]

/-- A write with the right block check succeeds, changes only memory, and leaves such a memory: with a zero, a blank one stays blank. -/
theorem State.Plain.memWrite {s : State} (h : s.Plain) (q : Requester) {g : Nat} (v : GranBits) {chk : BitVec 16} (hc : chkOf v = chk) (hg : g < stackBytes / 128) :
    ∃ u k, s.memWrite q g v chk = (.ok v k, u) ∧ u.Plain ∧ u = { s with mem := u.mem } ∧ (s.Blank → v = 0 → u.Blank) := by
  have hr := h.regions (granRegion g)
  have he : s.mem.entryOf g = none := by rw [MemState.entryOf, h.merge]; rfl
  let k : GranMeta := ⟨chk, 0, q.code⟩
  have hp : State.Plain { s with mem := s.mem.put g v k } := by
    refine ⟨fun i hi => (stackUp_mem s _ i).trans (h.up i hi), fun a ha b hb t ht => (reaches_mem s _ a b t).trans (h.ways a ha b hb t ht), fun r => ?_, fun c => ?_, fun i => ?_⟩
    · show MemState.region (MemState.put _ _ _ _) r = _
      rw [MemState.region_put]
      exact h.regions r
    · show MemState.mergeBuf (MemState.put s.mem g v _) c = []
      rw [MemState.mergeBuf, put_merge]
      exact h.merge c
    · show MemState.errsOf (MemState.put _ _ _ _) i = [] ∧ chkOf (MemState.gran (MemState.put _ _ _ _) i) = (MemState.metaOf (MemState.put _ _ _ _) i).chk ∧ _
      rw [MemState.errsOf_put, MemState.metaOf_put]
      by_cases hi : i = g
      · subst hi
        rw [MemState.gran_put]
        simp [hc, k]
      · rw [MemState.gran_put_other _ hi]
        simpa [hi] using h.clean i
  refine ⟨{ s with mem := s.mem.put g v k }, k, ?_, hp, rfl, fun hb hv => { hp with zero := fun i => ?_ }⟩
  · simp [State.memWrite, State.dropMerge, he, hr, h.near, Region.reset, mayWrite, Nat.not_le.mpr hg, hc, k]
  · show MemState.gran (MemState.put _ _ _ _) i = 0 ∧ (MemState.metaOf (MemState.put _ _ _ _) i).chk = 0
    rw [MemState.metaOf_put]
    by_cases hi : i = g
    · subst hi
      rw [MemState.gran_put]
      simp [hv, k, ← hc, chkOf_zero]
    · rw [MemState.gran_put_other _ hi]
      simpa [hi] using hb.zero i

theorem gran_xor_zero : (0 : GranBits) ^^^ 0 = 0 := BitVec.xor_zero

theorem chk_xor_zero : (0 : BitVec 16) ^^^ 0 = 0 := BitVec.xor_zero

theorem State.Blank.xorGran {s : State} (h : s.Blank) (d : Nat) (l : List Nat) (hl : ∀ g ∈ l, g < stackBytes / 128) :
    State.xorGran d l ⟨0, 0⟩ s = (some ⟨0, 0⟩, s) := by
  induction l with
  | nil => rfl
  | cons g r ih =>
    rw [State.xorGran, h.memRead (.update d) (hl g (List.mem_cons_self))]
    simp only [(h.zero g).1, (h.zero g).2, (gran_xor_zero), (chk_xor_zero)]
    exact ih (fun x hx => hl x (List.mem_cons_of_mem _ hx))

theorem State.Blank.xorRegion (d dst : Nat) (srcs : List Nat) (n : Nat) : ∀ (i : Nat) {s : State}, s.Blank → (∀ g ∈ srcs, g + i + n ≤ stackBytes / 128) →
    dst + i + n ≤ stackBytes / 128 → ∃ u, State.xorRegion d dst srcs [] n i s = (true, u) := by
  induction n with
  | zero => exact fun i s _ _ _ => ⟨s, rfl⟩
  | succ n ih =>
    intro i s h hs hd
    have hv := h.xorGran d (srcs.map (· + i)) (fun g hg => by
      obtain ⟨x, hx, rfl⟩ := List.mem_map.1 hg
      have := hs x hx
      omega)
    obtain ⟨u, k, hu, -, -, hz⟩ := h.memWrite (.update d) (0 : GranBits) (chk := 0) chkOf_zero (g := dst + i) (by omega)
    rw [State.xorRegion, hv]
    simp only [List.find?_nil, Option.map_none, Option.getD_none, gran_xor_zero, hu]
    exact ih (i + 1) (hz h rfl) (fun g hg => by have := hs g hg; omega) (by omega)

/-- Granules are read. -/
theorem State.Plain.readGrans {s : State} (h : s.Plain) (q : Requester) (n : Nat) : ∀ g, g + n ≤ stackBytes / 128 →
    ∃ l, State.readGrans q g n s = (some l, s) := by
  induction n with
  | zero => exact fun g _ => ⟨[], rfl⟩
  | succ n ih =>
    intro g hg
    obtain ⟨l, hl⟩ := ih (g + 1) (by omega)
    exact ⟨leBytes (s.mem.gran g).toNat 128 ++ l, by simp only [State.readGrans, h.memRead q (g := g) (by omega), hl]⟩

/-- A run of bytes is read. -/
theorem State.Plain.readRun {s : State} (h : s.Plain) (q : Requester) (a n : Nat) (ha : a / 128 + ceilDiv (a % 128 + n) 128 ≤ stackBytes / 128) :
    ∃ l, s.readRun q a n = (some l, s) := by
  obtain ⟨l, hl⟩ := h.readGrans q (ceilDiv (a % 128 + n) 128) (a / 128) ha
  exact ⟨(l.drop (a % 128)).take n, by simp only [State.readRun, hl, Option.map_some]⟩

/-- The data of an EGRESS stream are read. -/
theorem State.Plain.egressSegs {s : State} (h : s.Plain) (a n : Nat) (ha : a / 128 + ceilDiv (a % 128 + n) 128 ≤ stackBytes / 128) :
    ∃ l, s.egressSegs a n = (some l, s) := by
  obtain ⟨bs, hb⟩ := h.readRun s.jas a n ha
  unfold State.egressSegs
  rw [hb]
  exact ⟨_, rfl⟩

end Sys2Proof.Machine
end

