-- ==== Sys2Proof/Laws/Regs.lean ====
section
/-! SUPPORT. Reading a register, a die, a core or a function after one was written. -/

namespace Sys2Proof.Machine

variable (s : State)

theorem State.reg_setReg (d off d' off' : Nat) (v : BitVec 64) :
    (s.setReg d off v).reg d' off' = if regKey d' off' = regKey d off then v else s.reg d' off' := by
  simp [State.reg, State.setReg, mapGet_mapSet]

@[simp] theorem State.reg_setReg_same (d off : Nat) (v : BitVec 64) : (s.setReg d off v).reg d off = v := by simp [State.reg_setReg]

theorem State.reg_setReg_other {d off d' off' : Nat} (v : BitVec 64) (h : regKey d' off' ≠ regKey d off) :
    (s.setReg d off v).reg d' off' = s.reg d' off' := by simp [State.reg_setReg, h]

theorem regKey_ne_die {d off d' off' : Nat} (hd : d' ≠ d) (h : off < 0x1000000) (h' : off' < 0x1000000) : regKey d' off' ≠ regKey d off := by
  unfold regKey; omega

theorem regKey_ne_off {d off off' : Nat} (h : off' ≠ off) : regKey d off' ≠ regKey d off := by
  unfold regKey; omega

/-- A field reads what was written to it. -/
theorem State.getF_setF_same (d : Nat) (f : Fld) (v : Nat) (h : f.lo + f.width ≤ 64) : (s.setF d f v).getF d f = v % 2 ^ f.width := by
  simp only [State.getF, State.setF, State.reg_setReg_same]
  exact fld_putFld_same _ _ h

/-- Writing a field changes no other register. -/
theorem State.getF_setF_reg {d d' : Nat} {f f' : Fld} (v : Nat) (h : regKey d' f'.off ≠ regKey d f.off) :
    (s.setF d f v).getF d' f' = s.getF d' f' := by
  simp only [State.getF, State.setF, State.reg_setReg_other _ _ h]

/-- Writing a field changes no other field of its register. -/
theorem State.getF_setF_bits {d : Nat} {f f' : Fld} (v : Nat) (ho : f'.off = f.off) (hf : f.lo + f.width ≤ 64)
    (h : f'.lo + f'.width ≤ f.lo ∨ f.lo + f.width ≤ f'.lo) : (s.setF d f v).getF d f' = s.getF d f' := by
  simp only [State.getF, State.setF, ho, State.reg_setReg_same]
  exact fld_putFld_other _ _ hf h

theorem State.reg_setF_other {d d' off : Nat} {f : Fld} (v : Nat) (h : regKey d' off ≠ regKey d f.off) :
    (s.setF d f v).reg d' off = s.reg d' off := by
  simp only [State.setF, State.reg_setReg_other _ _ h]

theorem State.getF_setReg_other {d off d' : Nat} {f : Fld} (v : BitVec 64) (h : regKey d' f.off ≠ regKey d off) :
    (s.setReg d off v).getF d' f = s.getF d' f := by
  simp only [State.getF, State.reg_setReg_other _ _ h]

theorem State.getF_lt (d : Nat) (f : Fld) : s.getF d f < 2 ^ f.width := fld_lt _ _ _

/-- A counting field saturates. -/
theorem State.getF_bump (d : Nat) (f : Fld) (k : Nat) (h : f.lo + f.width ≤ 64) :
    (s.bump d f k).getF d f = satAdd (2 ^ f.width - 1) (s.getF d f) k := by
  rw [State.bump, State.getF_setF_same _ _ _ _ h]
  exact Nat.mod_eq_of_lt (lt_of_le_of_lt (min_le_left _ _) (by have := Nat.two_pow_pos f.width; omega))

theorem State.die_setDie (d d' : Nat) (v : Die) : (s.setDie d v).die d' = if d' = d then v else s.die d' := by
  simp [State.die, State.setDie, mapGet_mapSet]

@[simp] theorem State.die_setDie_same (d : Nat) (v : Die) : (s.setDie d v).die d = v := by simp [State.die_setDie]

theorem State.die_modDie (d d' : Nat) (f : Die → Die) : (s.modDie d f).die d' = if d' = d then f (s.die d) else s.die d' := by
  simp [State.modDie, State.die_setDie]

theorem State.core_setCore (c c' : Nat) (v : Core) : (s.setCore c v).core c' = if c' = c then v else s.core c' := by
  simp [State.core, State.setCore, mapGet_mapSet]

@[simp] theorem State.core_setCore_same (c : Nat) (v : Core) : (s.setCore c v).core c = v := by simp [State.core_setCore]

theorem State.core_modCore (c c' : Nat) (f : Core → Core) : (s.modCore c f).core c' = if c' = c then f (s.core c) else s.core c' := by
  simp [State.modCore, State.core_setCore]

@[simp] theorem State.core_modCore_same (c : Nat) (f : Core → Core) : (s.modCore c f).core c = f (s.core c) := by simp [State.core_modCore]

theorem State.func_setFunc (i j v : Nat) : (s.setFunc i v).func j = if j = i then v else s.func j := by
  simp [State.func, State.setFunc, mapGet_mapSet]

@[simp] theorem State.func_setFunc_same (i v : Nat) : (s.setFunc i v).func i = v := by simp [State.func_setFunc]

end Sys2Proof.Machine
end

