-- ==== Sys2Proof/Laws/State.lean ====
section
/-! SUPPORT. What each basic update of the state leaves as it was: one law for each field and update. -/

namespace Sys2Proof.Machine

variable (s : State)

/-! ### setReg -/

@[simp] theorem State.mem_setReg (d off : Nat) (v : BitVec 64) : (s.setReg d off v).mem = s.mem := rfl
@[simp] theorem State.cores_setReg (d off : Nat) (v : BitVec 64) : (s.setReg d off v).cores = s.cores := rfl
@[simp] theorem State.dies_setReg (d off : Nat) (v : BitVec 64) : (s.setReg d off v).dies = s.dies := rfl
@[simp] theorem State.arrivals_setReg (d off : Nat) (v : BitVec 64) : (s.setReg d off v).arrivals = s.arrivals := rfl
@[simp] theorem State.funcs_setReg (d off : Nat) (v : BitVec 64) : (s.setReg d off v).funcs = s.funcs := rfl
@[simp] theorem State.beryls_setReg (d off : Nat) (v : BitVec 64) : (s.setReg d off v).beryls = s.beryls := rfl
@[simp] theorem State.qes_setReg (d off : Nat) (v : BitVec 64) : (s.setReg d off v).qes = s.qes := rfl
@[simp] theorem State.doorbells_setReg (d off : Nat) (v : BitVec 64) : (s.setReg d off v).doorbells = s.doorbells := rfl
@[simp] theorem State.syAcks_setReg (d off : Nat) (v : BitVec 64) : (s.setReg d off v).syAcks = s.syAcks := rfl
@[simp] theorem State.fences_setReg (d off : Nat) (v : BitVec 64) : (s.setReg d off v).fences = s.fences := rfl
@[simp] theorem State.flows_setReg (d off : Nat) (v : BitVec 64) : (s.setReg d off v).flows = s.flows := rfl
@[simp] theorem State.resp_setReg (d off : Nat) (v : BitVec 64) : (s.setReg d off v).resp = s.resp := rfl
@[simp] theorem State.routes_setReg (d off : Nat) (v : BitVec 64) : (s.setReg d off v).routes = s.routes := rfl
@[simp] theorem State.planes_setReg (d off : Nat) (v : BitVec 64) : (s.setReg d off v).planes = s.planes := rfl
@[simp] theorem State.defFlows_setReg (d off : Nat) (v : BitVec 64) : (s.setReg d off v).defFlows = s.defFlows := rfl
@[simp] theorem State.msgs_setReg (d off : Nat) (v : BitVec 64) : (s.setReg d off v).msgs = s.msgs := rfl
@[simp] theorem State.ports_setReg (d off : Nat) (v : BitVec 64) : (s.setReg d off v).ports = s.ports := rfl
@[simp] theorem State.edges_setReg (d off : Nat) (v : BitVec 64) : (s.setReg d off v).edges = s.edges := rfl
@[simp] theorem State.fiIn_setReg (d off : Nat) (v : BitVec 64) : (s.setReg d off v).fiIn = s.fiIn := rfl
@[simp] theorem State.tracks_setReg (d off : Nat) (v : BitVec 64) : (s.setReg d off v).tracks = s.tracks := rfl
@[simp] theorem State.collSent_setReg (d off : Nat) (v : BitVec 64) : (s.setReg d off v).collSent = s.collSent := rfl
@[simp] theorem State.ces_setReg (d off : Nat) (v : BitVec 64) : (s.setReg d off v).ces = s.ces := rfl
@[simp] theorem State.landHeads_setReg (d off : Nat) (v : BitVec 64) : (s.setReg d off v).landHeads = s.landHeads := rfl
@[simp] theorem State.rtts_setReg (d off : Nat) (v : BitVec 64) : (s.setReg d off v).rtts = s.rtts := rfl
@[simp] theorem State.xbars_setReg (d off : Nat) (v : BitVec 64) : (s.setReg d off v).xbars = s.xbars := rfl
@[simp] theorem State.cfgOuts_setReg (d off : Nat) (v : BitVec 64) : (s.setReg d off v).cfgOuts = s.cfgOuts := rfl
@[simp] theorem State.timeKids_setReg (d off : Nat) (v : BitVec 64) : (s.setReg d off v).timeKids = s.timeKids := rfl
@[simp] theorem State.bounds_setReg (d off : Nat) (v : BitVec 64) : (s.setReg d off v).bounds = s.bounds := rfl
@[simp] theorem State.wins_setReg (d off : Nat) (v : BitVec 64) : (s.setReg d off v).wins = s.wins := rfl
@[simp] theorem State.upds_setReg (d off : Nat) (v : BitVec 64) : (s.setReg d off v).upds = s.upds := rfl
@[simp] theorem State.ctl_setReg (d off : Nat) (v : BitVec 64) : (s.setReg d off v).ctl = s.ctl := rfl
@[simp] theorem State.flash_setReg (d off : Nat) (v : BitVec 64) : (s.setReg d off v).flash = s.flash := rfl
@[simp] theorem State.pwr_setReg (d off : Nat) (v : BitVec 64) : (s.setReg d off v).pwr = s.pwr := rfl
@[simp] theorem State.smb_setReg (d off : Nat) (v : BitVec 64) : (s.setReg d off v).smb = s.smb := rfl
@[simp] theorem State.smbAddr_setReg (d off : Nat) (v : BitVec 64) : (s.setReg d off v).smbAddr = s.smbAddr := rfl
@[simp] theorem State.taps_setReg (d off : Nat) (v : BitVec 64) : (s.setReg d off v).taps = s.taps := rfl
@[simp] theorem State.reads_setReg (d off : Nat) (v : BitVec 64) : (s.setReg d off v).reads = s.reads := rfl
@[simp] theorem State.tags_setReg (d off : Nat) (v : BitVec 64) : (s.setReg d off v).tags = s.tags := rfl
@[simp] theorem State.job_setReg (d off : Nat) (v : BitVec 64) : (s.setReg d off v).job = s.job := rfl
@[simp] theorem State.alert_setReg (d off : Nat) (v : BitVec 64) : (s.setReg d off v).alert = s.alert := rfl
@[simp] theorem State.pkgFatal_setReg (d off : Nat) (v : BitVec 64) : (s.setReg d off v).pkgFatal = s.pkgFatal := rfl
@[simp] theorem State.out_setReg (d off : Nat) (v : BitVec 64) : (s.setReg d off v).out = s.out := rfl
@[simp] theorem State.freeIx_setReg (d off : Nat) (v : BitVec 64) : (s.setReg d off v).freeIx = s.freeIx := rfl
@[simp] theorem State.pending_setReg (d off : Nat) (v : BitVec 64) : (s.setReg d off v).pending = s.pending := rfl

/-! ### setF -/

@[simp] theorem State.mem_setF (d : Nat) (f : Fld) (v : Nat) : (s.setF d f v).mem = s.mem := rfl
@[simp] theorem State.cores_setF (d : Nat) (f : Fld) (v : Nat) : (s.setF d f v).cores = s.cores := rfl
@[simp] theorem State.dies_setF (d : Nat) (f : Fld) (v : Nat) : (s.setF d f v).dies = s.dies := rfl
@[simp] theorem State.arrivals_setF (d : Nat) (f : Fld) (v : Nat) : (s.setF d f v).arrivals = s.arrivals := rfl
@[simp] theorem State.funcs_setF (d : Nat) (f : Fld) (v : Nat) : (s.setF d f v).funcs = s.funcs := rfl
@[simp] theorem State.beryls_setF (d : Nat) (f : Fld) (v : Nat) : (s.setF d f v).beryls = s.beryls := rfl
@[simp] theorem State.qes_setF (d : Nat) (f : Fld) (v : Nat) : (s.setF d f v).qes = s.qes := rfl
@[simp] theorem State.doorbells_setF (d : Nat) (f : Fld) (v : Nat) : (s.setF d f v).doorbells = s.doorbells := rfl
@[simp] theorem State.syAcks_setF (d : Nat) (f : Fld) (v : Nat) : (s.setF d f v).syAcks = s.syAcks := rfl
@[simp] theorem State.fences_setF (d : Nat) (f : Fld) (v : Nat) : (s.setF d f v).fences = s.fences := rfl
@[simp] theorem State.flows_setF (d : Nat) (f : Fld) (v : Nat) : (s.setF d f v).flows = s.flows := rfl
@[simp] theorem State.resp_setF (d : Nat) (f : Fld) (v : Nat) : (s.setF d f v).resp = s.resp := rfl
@[simp] theorem State.routes_setF (d : Nat) (f : Fld) (v : Nat) : (s.setF d f v).routes = s.routes := rfl
@[simp] theorem State.planes_setF (d : Nat) (f : Fld) (v : Nat) : (s.setF d f v).planes = s.planes := rfl
@[simp] theorem State.defFlows_setF (d : Nat) (f : Fld) (v : Nat) : (s.setF d f v).defFlows = s.defFlows := rfl
@[simp] theorem State.msgs_setF (d : Nat) (f : Fld) (v : Nat) : (s.setF d f v).msgs = s.msgs := rfl
@[simp] theorem State.ports_setF (d : Nat) (f : Fld) (v : Nat) : (s.setF d f v).ports = s.ports := rfl
@[simp] theorem State.edges_setF (d : Nat) (f : Fld) (v : Nat) : (s.setF d f v).edges = s.edges := rfl
@[simp] theorem State.fiIn_setF (d : Nat) (f : Fld) (v : Nat) : (s.setF d f v).fiIn = s.fiIn := rfl
@[simp] theorem State.tracks_setF (d : Nat) (f : Fld) (v : Nat) : (s.setF d f v).tracks = s.tracks := rfl
@[simp] theorem State.collSent_setF (d : Nat) (f : Fld) (v : Nat) : (s.setF d f v).collSent = s.collSent := rfl
@[simp] theorem State.ces_setF (d : Nat) (f : Fld) (v : Nat) : (s.setF d f v).ces = s.ces := rfl
@[simp] theorem State.landHeads_setF (d : Nat) (f : Fld) (v : Nat) : (s.setF d f v).landHeads = s.landHeads := rfl
@[simp] theorem State.rtts_setF (d : Nat) (f : Fld) (v : Nat) : (s.setF d f v).rtts = s.rtts := rfl
@[simp] theorem State.xbars_setF (d : Nat) (f : Fld) (v : Nat) : (s.setF d f v).xbars = s.xbars := rfl
@[simp] theorem State.cfgOuts_setF (d : Nat) (f : Fld) (v : Nat) : (s.setF d f v).cfgOuts = s.cfgOuts := rfl
@[simp] theorem State.timeKids_setF (d : Nat) (f : Fld) (v : Nat) : (s.setF d f v).timeKids = s.timeKids := rfl
@[simp] theorem State.bounds_setF (d : Nat) (f : Fld) (v : Nat) : (s.setF d f v).bounds = s.bounds := rfl
@[simp] theorem State.wins_setF (d : Nat) (f : Fld) (v : Nat) : (s.setF d f v).wins = s.wins := rfl
@[simp] theorem State.upds_setF (d : Nat) (f : Fld) (v : Nat) : (s.setF d f v).upds = s.upds := rfl
@[simp] theorem State.ctl_setF (d : Nat) (f : Fld) (v : Nat) : (s.setF d f v).ctl = s.ctl := rfl
@[simp] theorem State.flash_setF (d : Nat) (f : Fld) (v : Nat) : (s.setF d f v).flash = s.flash := rfl
@[simp] theorem State.pwr_setF (d : Nat) (f : Fld) (v : Nat) : (s.setF d f v).pwr = s.pwr := rfl
@[simp] theorem State.smb_setF (d : Nat) (f : Fld) (v : Nat) : (s.setF d f v).smb = s.smb := rfl
@[simp] theorem State.smbAddr_setF (d : Nat) (f : Fld) (v : Nat) : (s.setF d f v).smbAddr = s.smbAddr := rfl
@[simp] theorem State.taps_setF (d : Nat) (f : Fld) (v : Nat) : (s.setF d f v).taps = s.taps := rfl
@[simp] theorem State.reads_setF (d : Nat) (f : Fld) (v : Nat) : (s.setF d f v).reads = s.reads := rfl
@[simp] theorem State.tags_setF (d : Nat) (f : Fld) (v : Nat) : (s.setF d f v).tags = s.tags := rfl
@[simp] theorem State.job_setF (d : Nat) (f : Fld) (v : Nat) : (s.setF d f v).job = s.job := rfl
@[simp] theorem State.alert_setF (d : Nat) (f : Fld) (v : Nat) : (s.setF d f v).alert = s.alert := rfl
@[simp] theorem State.pkgFatal_setF (d : Nat) (f : Fld) (v : Nat) : (s.setF d f v).pkgFatal = s.pkgFatal := rfl
@[simp] theorem State.out_setF (d : Nat) (f : Fld) (v : Nat) : (s.setF d f v).out = s.out := rfl
@[simp] theorem State.freeIx_setF (d : Nat) (f : Fld) (v : Nat) : (s.setF d f v).freeIx = s.freeIx := rfl
@[simp] theorem State.pending_setF (d : Nat) (f : Fld) (v : Nat) : (s.setF d f v).pending = s.pending := rfl

/-! ### bump -/

@[simp] theorem State.mem_bump (d : Nat) (f : Fld) (k : Nat) : (s.bump d f k).mem = s.mem := rfl
@[simp] theorem State.cores_bump (d : Nat) (f : Fld) (k : Nat) : (s.bump d f k).cores = s.cores := rfl
@[simp] theorem State.dies_bump (d : Nat) (f : Fld) (k : Nat) : (s.bump d f k).dies = s.dies := rfl
@[simp] theorem State.arrivals_bump (d : Nat) (f : Fld) (k : Nat) : (s.bump d f k).arrivals = s.arrivals := rfl
@[simp] theorem State.funcs_bump (d : Nat) (f : Fld) (k : Nat) : (s.bump d f k).funcs = s.funcs := rfl
@[simp] theorem State.beryls_bump (d : Nat) (f : Fld) (k : Nat) : (s.bump d f k).beryls = s.beryls := rfl
@[simp] theorem State.qes_bump (d : Nat) (f : Fld) (k : Nat) : (s.bump d f k).qes = s.qes := rfl
@[simp] theorem State.doorbells_bump (d : Nat) (f : Fld) (k : Nat) : (s.bump d f k).doorbells = s.doorbells := rfl
@[simp] theorem State.syAcks_bump (d : Nat) (f : Fld) (k : Nat) : (s.bump d f k).syAcks = s.syAcks := rfl
@[simp] theorem State.fences_bump (d : Nat) (f : Fld) (k : Nat) : (s.bump d f k).fences = s.fences := rfl
@[simp] theorem State.flows_bump (d : Nat) (f : Fld) (k : Nat) : (s.bump d f k).flows = s.flows := rfl
@[simp] theorem State.resp_bump (d : Nat) (f : Fld) (k : Nat) : (s.bump d f k).resp = s.resp := rfl
@[simp] theorem State.routes_bump (d : Nat) (f : Fld) (k : Nat) : (s.bump d f k).routes = s.routes := rfl
@[simp] theorem State.planes_bump (d : Nat) (f : Fld) (k : Nat) : (s.bump d f k).planes = s.planes := rfl
@[simp] theorem State.defFlows_bump (d : Nat) (f : Fld) (k : Nat) : (s.bump d f k).defFlows = s.defFlows := rfl
@[simp] theorem State.msgs_bump (d : Nat) (f : Fld) (k : Nat) : (s.bump d f k).msgs = s.msgs := rfl
@[simp] theorem State.ports_bump (d : Nat) (f : Fld) (k : Nat) : (s.bump d f k).ports = s.ports := rfl
@[simp] theorem State.edges_bump (d : Nat) (f : Fld) (k : Nat) : (s.bump d f k).edges = s.edges := rfl
@[simp] theorem State.fiIn_bump (d : Nat) (f : Fld) (k : Nat) : (s.bump d f k).fiIn = s.fiIn := rfl
@[simp] theorem State.tracks_bump (d : Nat) (f : Fld) (k : Nat) : (s.bump d f k).tracks = s.tracks := rfl
@[simp] theorem State.collSent_bump (d : Nat) (f : Fld) (k : Nat) : (s.bump d f k).collSent = s.collSent := rfl
@[simp] theorem State.ces_bump (d : Nat) (f : Fld) (k : Nat) : (s.bump d f k).ces = s.ces := rfl
@[simp] theorem State.landHeads_bump (d : Nat) (f : Fld) (k : Nat) : (s.bump d f k).landHeads = s.landHeads := rfl
@[simp] theorem State.rtts_bump (d : Nat) (f : Fld) (k : Nat) : (s.bump d f k).rtts = s.rtts := rfl
@[simp] theorem State.xbars_bump (d : Nat) (f : Fld) (k : Nat) : (s.bump d f k).xbars = s.xbars := rfl
@[simp] theorem State.cfgOuts_bump (d : Nat) (f : Fld) (k : Nat) : (s.bump d f k).cfgOuts = s.cfgOuts := rfl
@[simp] theorem State.timeKids_bump (d : Nat) (f : Fld) (k : Nat) : (s.bump d f k).timeKids = s.timeKids := rfl
@[simp] theorem State.bounds_bump (d : Nat) (f : Fld) (k : Nat) : (s.bump d f k).bounds = s.bounds := rfl
@[simp] theorem State.wins_bump (d : Nat) (f : Fld) (k : Nat) : (s.bump d f k).wins = s.wins := rfl
@[simp] theorem State.upds_bump (d : Nat) (f : Fld) (k : Nat) : (s.bump d f k).upds = s.upds := rfl
@[simp] theorem State.ctl_bump (d : Nat) (f : Fld) (k : Nat) : (s.bump d f k).ctl = s.ctl := rfl
@[simp] theorem State.flash_bump (d : Nat) (f : Fld) (k : Nat) : (s.bump d f k).flash = s.flash := rfl
@[simp] theorem State.pwr_bump (d : Nat) (f : Fld) (k : Nat) : (s.bump d f k).pwr = s.pwr := rfl
@[simp] theorem State.smb_bump (d : Nat) (f : Fld) (k : Nat) : (s.bump d f k).smb = s.smb := rfl
@[simp] theorem State.smbAddr_bump (d : Nat) (f : Fld) (k : Nat) : (s.bump d f k).smbAddr = s.smbAddr := rfl
@[simp] theorem State.taps_bump (d : Nat) (f : Fld) (k : Nat) : (s.bump d f k).taps = s.taps := rfl
@[simp] theorem State.reads_bump (d : Nat) (f : Fld) (k : Nat) : (s.bump d f k).reads = s.reads := rfl
@[simp] theorem State.tags_bump (d : Nat) (f : Fld) (k : Nat) : (s.bump d f k).tags = s.tags := rfl
@[simp] theorem State.job_bump (d : Nat) (f : Fld) (k : Nat) : (s.bump d f k).job = s.job := rfl
@[simp] theorem State.alert_bump (d : Nat) (f : Fld) (k : Nat) : (s.bump d f k).alert = s.alert := rfl
@[simp] theorem State.pkgFatal_bump (d : Nat) (f : Fld) (k : Nat) : (s.bump d f k).pkgFatal = s.pkgFatal := rfl
@[simp] theorem State.out_bump (d : Nat) (f : Fld) (k : Nat) : (s.bump d f k).out = s.out := rfl
@[simp] theorem State.freeIx_bump (d : Nat) (f : Fld) (k : Nat) : (s.bump d f k).freeIx = s.freeIx := rfl
@[simp] theorem State.pending_bump (d : Nat) (f : Fld) (k : Nat) : (s.bump d f k).pending = s.pending := rfl

/-! ### setDie -/

@[simp] theorem State.regs_setDie (d : Nat) (v : Die) : (s.setDie d v).regs = s.regs := rfl
@[simp] theorem State.mem_setDie (d : Nat) (v : Die) : (s.setDie d v).mem = s.mem := rfl
@[simp] theorem State.cores_setDie (d : Nat) (v : Die) : (s.setDie d v).cores = s.cores := rfl
@[simp] theorem State.arrivals_setDie (d : Nat) (v : Die) : (s.setDie d v).arrivals = s.arrivals := rfl
@[simp] theorem State.funcs_setDie (d : Nat) (v : Die) : (s.setDie d v).funcs = s.funcs := rfl
@[simp] theorem State.beryls_setDie (d : Nat) (v : Die) : (s.setDie d v).beryls = s.beryls := rfl
@[simp] theorem State.qes_setDie (d : Nat) (v : Die) : (s.setDie d v).qes = s.qes := rfl
@[simp] theorem State.doorbells_setDie (d : Nat) (v : Die) : (s.setDie d v).doorbells = s.doorbells := rfl
@[simp] theorem State.syAcks_setDie (d : Nat) (v : Die) : (s.setDie d v).syAcks = s.syAcks := rfl
@[simp] theorem State.fences_setDie (d : Nat) (v : Die) : (s.setDie d v).fences = s.fences := rfl
@[simp] theorem State.flows_setDie (d : Nat) (v : Die) : (s.setDie d v).flows = s.flows := rfl
@[simp] theorem State.resp_setDie (d : Nat) (v : Die) : (s.setDie d v).resp = s.resp := rfl
@[simp] theorem State.routes_setDie (d : Nat) (v : Die) : (s.setDie d v).routes = s.routes := rfl
@[simp] theorem State.planes_setDie (d : Nat) (v : Die) : (s.setDie d v).planes = s.planes := rfl
@[simp] theorem State.defFlows_setDie (d : Nat) (v : Die) : (s.setDie d v).defFlows = s.defFlows := rfl
@[simp] theorem State.msgs_setDie (d : Nat) (v : Die) : (s.setDie d v).msgs = s.msgs := rfl
@[simp] theorem State.ports_setDie (d : Nat) (v : Die) : (s.setDie d v).ports = s.ports := rfl
@[simp] theorem State.edges_setDie (d : Nat) (v : Die) : (s.setDie d v).edges = s.edges := rfl
@[simp] theorem State.fiIn_setDie (d : Nat) (v : Die) : (s.setDie d v).fiIn = s.fiIn := rfl
@[simp] theorem State.tracks_setDie (d : Nat) (v : Die) : (s.setDie d v).tracks = s.tracks := rfl
@[simp] theorem State.collSent_setDie (d : Nat) (v : Die) : (s.setDie d v).collSent = s.collSent := rfl
@[simp] theorem State.ces_setDie (d : Nat) (v : Die) : (s.setDie d v).ces = s.ces := rfl
@[simp] theorem State.landHeads_setDie (d : Nat) (v : Die) : (s.setDie d v).landHeads = s.landHeads := rfl
@[simp] theorem State.rtts_setDie (d : Nat) (v : Die) : (s.setDie d v).rtts = s.rtts := rfl
@[simp] theorem State.xbars_setDie (d : Nat) (v : Die) : (s.setDie d v).xbars = s.xbars := rfl
@[simp] theorem State.cfgOuts_setDie (d : Nat) (v : Die) : (s.setDie d v).cfgOuts = s.cfgOuts := rfl
@[simp] theorem State.timeKids_setDie (d : Nat) (v : Die) : (s.setDie d v).timeKids = s.timeKids := rfl
@[simp] theorem State.bounds_setDie (d : Nat) (v : Die) : (s.setDie d v).bounds = s.bounds := rfl
@[simp] theorem State.wins_setDie (d : Nat) (v : Die) : (s.setDie d v).wins = s.wins := rfl
@[simp] theorem State.upds_setDie (d : Nat) (v : Die) : (s.setDie d v).upds = s.upds := rfl
@[simp] theorem State.ctl_setDie (d : Nat) (v : Die) : (s.setDie d v).ctl = s.ctl := rfl
@[simp] theorem State.flash_setDie (d : Nat) (v : Die) : (s.setDie d v).flash = s.flash := rfl
@[simp] theorem State.pwr_setDie (d : Nat) (v : Die) : (s.setDie d v).pwr = s.pwr := rfl
@[simp] theorem State.smb_setDie (d : Nat) (v : Die) : (s.setDie d v).smb = s.smb := rfl
@[simp] theorem State.smbAddr_setDie (d : Nat) (v : Die) : (s.setDie d v).smbAddr = s.smbAddr := rfl
@[simp] theorem State.taps_setDie (d : Nat) (v : Die) : (s.setDie d v).taps = s.taps := rfl
@[simp] theorem State.reads_setDie (d : Nat) (v : Die) : (s.setDie d v).reads = s.reads := rfl
@[simp] theorem State.tags_setDie (d : Nat) (v : Die) : (s.setDie d v).tags = s.tags := rfl
@[simp] theorem State.job_setDie (d : Nat) (v : Die) : (s.setDie d v).job = s.job := rfl
@[simp] theorem State.alert_setDie (d : Nat) (v : Die) : (s.setDie d v).alert = s.alert := rfl
@[simp] theorem State.pkgFatal_setDie (d : Nat) (v : Die) : (s.setDie d v).pkgFatal = s.pkgFatal := rfl
@[simp] theorem State.out_setDie (d : Nat) (v : Die) : (s.setDie d v).out = s.out := rfl
@[simp] theorem State.freeIx_setDie (d : Nat) (v : Die) : (s.setDie d v).freeIx = s.freeIx := rfl
@[simp] theorem State.pending_setDie (d : Nat) (v : Die) : (s.setDie d v).pending = s.pending := rfl

/-! ### modDie -/

@[simp] theorem State.regs_modDie (d : Nat) (f : Die → Die) : (s.modDie d f).regs = s.regs := rfl
@[simp] theorem State.mem_modDie (d : Nat) (f : Die → Die) : (s.modDie d f).mem = s.mem := rfl
@[simp] theorem State.cores_modDie (d : Nat) (f : Die → Die) : (s.modDie d f).cores = s.cores := rfl
@[simp] theorem State.arrivals_modDie (d : Nat) (f : Die → Die) : (s.modDie d f).arrivals = s.arrivals := rfl
@[simp] theorem State.funcs_modDie (d : Nat) (f : Die → Die) : (s.modDie d f).funcs = s.funcs := rfl
@[simp] theorem State.beryls_modDie (d : Nat) (f : Die → Die) : (s.modDie d f).beryls = s.beryls := rfl
@[simp] theorem State.qes_modDie (d : Nat) (f : Die → Die) : (s.modDie d f).qes = s.qes := rfl
@[simp] theorem State.doorbells_modDie (d : Nat) (f : Die → Die) : (s.modDie d f).doorbells = s.doorbells := rfl
@[simp] theorem State.syAcks_modDie (d : Nat) (f : Die → Die) : (s.modDie d f).syAcks = s.syAcks := rfl
@[simp] theorem State.fences_modDie (d : Nat) (f : Die → Die) : (s.modDie d f).fences = s.fences := rfl
@[simp] theorem State.flows_modDie (d : Nat) (f : Die → Die) : (s.modDie d f).flows = s.flows := rfl
@[simp] theorem State.resp_modDie (d : Nat) (f : Die → Die) : (s.modDie d f).resp = s.resp := rfl
@[simp] theorem State.routes_modDie (d : Nat) (f : Die → Die) : (s.modDie d f).routes = s.routes := rfl
@[simp] theorem State.planes_modDie (d : Nat) (f : Die → Die) : (s.modDie d f).planes = s.planes := rfl
@[simp] theorem State.defFlows_modDie (d : Nat) (f : Die → Die) : (s.modDie d f).defFlows = s.defFlows := rfl
@[simp] theorem State.msgs_modDie (d : Nat) (f : Die → Die) : (s.modDie d f).msgs = s.msgs := rfl
@[simp] theorem State.ports_modDie (d : Nat) (f : Die → Die) : (s.modDie d f).ports = s.ports := rfl
@[simp] theorem State.edges_modDie (d : Nat) (f : Die → Die) : (s.modDie d f).edges = s.edges := rfl
@[simp] theorem State.fiIn_modDie (d : Nat) (f : Die → Die) : (s.modDie d f).fiIn = s.fiIn := rfl
@[simp] theorem State.tracks_modDie (d : Nat) (f : Die → Die) : (s.modDie d f).tracks = s.tracks := rfl
@[simp] theorem State.collSent_modDie (d : Nat) (f : Die → Die) : (s.modDie d f).collSent = s.collSent := rfl
@[simp] theorem State.ces_modDie (d : Nat) (f : Die → Die) : (s.modDie d f).ces = s.ces := rfl
@[simp] theorem State.landHeads_modDie (d : Nat) (f : Die → Die) : (s.modDie d f).landHeads = s.landHeads := rfl
@[simp] theorem State.rtts_modDie (d : Nat) (f : Die → Die) : (s.modDie d f).rtts = s.rtts := rfl
@[simp] theorem State.xbars_modDie (d : Nat) (f : Die → Die) : (s.modDie d f).xbars = s.xbars := rfl
@[simp] theorem State.cfgOuts_modDie (d : Nat) (f : Die → Die) : (s.modDie d f).cfgOuts = s.cfgOuts := rfl
@[simp] theorem State.timeKids_modDie (d : Nat) (f : Die → Die) : (s.modDie d f).timeKids = s.timeKids := rfl
@[simp] theorem State.bounds_modDie (d : Nat) (f : Die → Die) : (s.modDie d f).bounds = s.bounds := rfl
@[simp] theorem State.wins_modDie (d : Nat) (f : Die → Die) : (s.modDie d f).wins = s.wins := rfl
@[simp] theorem State.upds_modDie (d : Nat) (f : Die → Die) : (s.modDie d f).upds = s.upds := rfl
@[simp] theorem State.ctl_modDie (d : Nat) (f : Die → Die) : (s.modDie d f).ctl = s.ctl := rfl
@[simp] theorem State.flash_modDie (d : Nat) (f : Die → Die) : (s.modDie d f).flash = s.flash := rfl
@[simp] theorem State.pwr_modDie (d : Nat) (f : Die → Die) : (s.modDie d f).pwr = s.pwr := rfl
@[simp] theorem State.smb_modDie (d : Nat) (f : Die → Die) : (s.modDie d f).smb = s.smb := rfl
@[simp] theorem State.smbAddr_modDie (d : Nat) (f : Die → Die) : (s.modDie d f).smbAddr = s.smbAddr := rfl
@[simp] theorem State.taps_modDie (d : Nat) (f : Die → Die) : (s.modDie d f).taps = s.taps := rfl
@[simp] theorem State.reads_modDie (d : Nat) (f : Die → Die) : (s.modDie d f).reads = s.reads := rfl
@[simp] theorem State.tags_modDie (d : Nat) (f : Die → Die) : (s.modDie d f).tags = s.tags := rfl
@[simp] theorem State.job_modDie (d : Nat) (f : Die → Die) : (s.modDie d f).job = s.job := rfl
@[simp] theorem State.alert_modDie (d : Nat) (f : Die → Die) : (s.modDie d f).alert = s.alert := rfl
@[simp] theorem State.pkgFatal_modDie (d : Nat) (f : Die → Die) : (s.modDie d f).pkgFatal = s.pkgFatal := rfl
@[simp] theorem State.out_modDie (d : Nat) (f : Die → Die) : (s.modDie d f).out = s.out := rfl
@[simp] theorem State.freeIx_modDie (d : Nat) (f : Die → Die) : (s.modDie d f).freeIx = s.freeIx := rfl
@[simp] theorem State.pending_modDie (d : Nat) (f : Die → Die) : (s.modDie d f).pending = s.pending := rfl

/-! ### setCore -/

@[simp] theorem State.regs_setCore (c : Nat) (v : Core) : (s.setCore c v).regs = s.regs := rfl
@[simp] theorem State.mem_setCore (c : Nat) (v : Core) : (s.setCore c v).mem = s.mem := rfl
@[simp] theorem State.dies_setCore (c : Nat) (v : Core) : (s.setCore c v).dies = s.dies := rfl
@[simp] theorem State.arrivals_setCore (c : Nat) (v : Core) : (s.setCore c v).arrivals = s.arrivals := rfl
@[simp] theorem State.funcs_setCore (c : Nat) (v : Core) : (s.setCore c v).funcs = s.funcs := rfl
@[simp] theorem State.beryls_setCore (c : Nat) (v : Core) : (s.setCore c v).beryls = s.beryls := rfl
@[simp] theorem State.qes_setCore (c : Nat) (v : Core) : (s.setCore c v).qes = s.qes := rfl
@[simp] theorem State.doorbells_setCore (c : Nat) (v : Core) : (s.setCore c v).doorbells = s.doorbells := rfl
@[simp] theorem State.syAcks_setCore (c : Nat) (v : Core) : (s.setCore c v).syAcks = s.syAcks := rfl
@[simp] theorem State.fences_setCore (c : Nat) (v : Core) : (s.setCore c v).fences = s.fences := rfl
@[simp] theorem State.flows_setCore (c : Nat) (v : Core) : (s.setCore c v).flows = s.flows := rfl
@[simp] theorem State.resp_setCore (c : Nat) (v : Core) : (s.setCore c v).resp = s.resp := rfl
@[simp] theorem State.routes_setCore (c : Nat) (v : Core) : (s.setCore c v).routes = s.routes := rfl
@[simp] theorem State.planes_setCore (c : Nat) (v : Core) : (s.setCore c v).planes = s.planes := rfl
@[simp] theorem State.defFlows_setCore (c : Nat) (v : Core) : (s.setCore c v).defFlows = s.defFlows := rfl
@[simp] theorem State.msgs_setCore (c : Nat) (v : Core) : (s.setCore c v).msgs = s.msgs := rfl
@[simp] theorem State.ports_setCore (c : Nat) (v : Core) : (s.setCore c v).ports = s.ports := rfl
@[simp] theorem State.edges_setCore (c : Nat) (v : Core) : (s.setCore c v).edges = s.edges := rfl
@[simp] theorem State.fiIn_setCore (c : Nat) (v : Core) : (s.setCore c v).fiIn = s.fiIn := rfl
@[simp] theorem State.tracks_setCore (c : Nat) (v : Core) : (s.setCore c v).tracks = s.tracks := rfl
@[simp] theorem State.collSent_setCore (c : Nat) (v : Core) : (s.setCore c v).collSent = s.collSent := rfl
@[simp] theorem State.ces_setCore (c : Nat) (v : Core) : (s.setCore c v).ces = s.ces := rfl
@[simp] theorem State.landHeads_setCore (c : Nat) (v : Core) : (s.setCore c v).landHeads = s.landHeads := rfl
@[simp] theorem State.rtts_setCore (c : Nat) (v : Core) : (s.setCore c v).rtts = s.rtts := rfl
@[simp] theorem State.xbars_setCore (c : Nat) (v : Core) : (s.setCore c v).xbars = s.xbars := rfl
@[simp] theorem State.cfgOuts_setCore (c : Nat) (v : Core) : (s.setCore c v).cfgOuts = s.cfgOuts := rfl
@[simp] theorem State.timeKids_setCore (c : Nat) (v : Core) : (s.setCore c v).timeKids = s.timeKids := rfl
@[simp] theorem State.bounds_setCore (c : Nat) (v : Core) : (s.setCore c v).bounds = s.bounds := rfl
@[simp] theorem State.wins_setCore (c : Nat) (v : Core) : (s.setCore c v).wins = s.wins := rfl
@[simp] theorem State.upds_setCore (c : Nat) (v : Core) : (s.setCore c v).upds = s.upds := rfl
@[simp] theorem State.ctl_setCore (c : Nat) (v : Core) : (s.setCore c v).ctl = s.ctl := rfl
@[simp] theorem State.flash_setCore (c : Nat) (v : Core) : (s.setCore c v).flash = s.flash := rfl
@[simp] theorem State.pwr_setCore (c : Nat) (v : Core) : (s.setCore c v).pwr = s.pwr := rfl
@[simp] theorem State.smb_setCore (c : Nat) (v : Core) : (s.setCore c v).smb = s.smb := rfl
@[simp] theorem State.smbAddr_setCore (c : Nat) (v : Core) : (s.setCore c v).smbAddr = s.smbAddr := rfl
@[simp] theorem State.taps_setCore (c : Nat) (v : Core) : (s.setCore c v).taps = s.taps := rfl
@[simp] theorem State.reads_setCore (c : Nat) (v : Core) : (s.setCore c v).reads = s.reads := rfl
@[simp] theorem State.tags_setCore (c : Nat) (v : Core) : (s.setCore c v).tags = s.tags := rfl
@[simp] theorem State.job_setCore (c : Nat) (v : Core) : (s.setCore c v).job = s.job := rfl
@[simp] theorem State.alert_setCore (c : Nat) (v : Core) : (s.setCore c v).alert = s.alert := rfl
@[simp] theorem State.pkgFatal_setCore (c : Nat) (v : Core) : (s.setCore c v).pkgFatal = s.pkgFatal := rfl
@[simp] theorem State.out_setCore (c : Nat) (v : Core) : (s.setCore c v).out = s.out := rfl
@[simp] theorem State.freeIx_setCore (c : Nat) (v : Core) : (s.setCore c v).freeIx = s.freeIx := rfl
@[simp] theorem State.pending_setCore (c : Nat) (v : Core) : (s.setCore c v).pending = s.pending := rfl

/-! ### modCore -/

@[simp] theorem State.regs_modCore (c : Nat) (f : Core → Core) : (s.modCore c f).regs = s.regs := rfl
@[simp] theorem State.mem_modCore (c : Nat) (f : Core → Core) : (s.modCore c f).mem = s.mem := rfl
@[simp] theorem State.dies_modCore (c : Nat) (f : Core → Core) : (s.modCore c f).dies = s.dies := rfl
@[simp] theorem State.arrivals_modCore (c : Nat) (f : Core → Core) : (s.modCore c f).arrivals = s.arrivals := rfl
@[simp] theorem State.funcs_modCore (c : Nat) (f : Core → Core) : (s.modCore c f).funcs = s.funcs := rfl
@[simp] theorem State.beryls_modCore (c : Nat) (f : Core → Core) : (s.modCore c f).beryls = s.beryls := rfl
@[simp] theorem State.qes_modCore (c : Nat) (f : Core → Core) : (s.modCore c f).qes = s.qes := rfl
@[simp] theorem State.doorbells_modCore (c : Nat) (f : Core → Core) : (s.modCore c f).doorbells = s.doorbells := rfl
@[simp] theorem State.syAcks_modCore (c : Nat) (f : Core → Core) : (s.modCore c f).syAcks = s.syAcks := rfl
@[simp] theorem State.fences_modCore (c : Nat) (f : Core → Core) : (s.modCore c f).fences = s.fences := rfl
@[simp] theorem State.flows_modCore (c : Nat) (f : Core → Core) : (s.modCore c f).flows = s.flows := rfl
@[simp] theorem State.resp_modCore (c : Nat) (f : Core → Core) : (s.modCore c f).resp = s.resp := rfl
@[simp] theorem State.routes_modCore (c : Nat) (f : Core → Core) : (s.modCore c f).routes = s.routes := rfl
@[simp] theorem State.planes_modCore (c : Nat) (f : Core → Core) : (s.modCore c f).planes = s.planes := rfl
@[simp] theorem State.defFlows_modCore (c : Nat) (f : Core → Core) : (s.modCore c f).defFlows = s.defFlows := rfl
@[simp] theorem State.msgs_modCore (c : Nat) (f : Core → Core) : (s.modCore c f).msgs = s.msgs := rfl
@[simp] theorem State.ports_modCore (c : Nat) (f : Core → Core) : (s.modCore c f).ports = s.ports := rfl
@[simp] theorem State.edges_modCore (c : Nat) (f : Core → Core) : (s.modCore c f).edges = s.edges := rfl
@[simp] theorem State.fiIn_modCore (c : Nat) (f : Core → Core) : (s.modCore c f).fiIn = s.fiIn := rfl
@[simp] theorem State.tracks_modCore (c : Nat) (f : Core → Core) : (s.modCore c f).tracks = s.tracks := rfl
@[simp] theorem State.collSent_modCore (c : Nat) (f : Core → Core) : (s.modCore c f).collSent = s.collSent := rfl
@[simp] theorem State.ces_modCore (c : Nat) (f : Core → Core) : (s.modCore c f).ces = s.ces := rfl
@[simp] theorem State.landHeads_modCore (c : Nat) (f : Core → Core) : (s.modCore c f).landHeads = s.landHeads := rfl
@[simp] theorem State.rtts_modCore (c : Nat) (f : Core → Core) : (s.modCore c f).rtts = s.rtts := rfl
@[simp] theorem State.xbars_modCore (c : Nat) (f : Core → Core) : (s.modCore c f).xbars = s.xbars := rfl
@[simp] theorem State.cfgOuts_modCore (c : Nat) (f : Core → Core) : (s.modCore c f).cfgOuts = s.cfgOuts := rfl
@[simp] theorem State.timeKids_modCore (c : Nat) (f : Core → Core) : (s.modCore c f).timeKids = s.timeKids := rfl
@[simp] theorem State.bounds_modCore (c : Nat) (f : Core → Core) : (s.modCore c f).bounds = s.bounds := rfl
@[simp] theorem State.wins_modCore (c : Nat) (f : Core → Core) : (s.modCore c f).wins = s.wins := rfl
@[simp] theorem State.upds_modCore (c : Nat) (f : Core → Core) : (s.modCore c f).upds = s.upds := rfl
@[simp] theorem State.ctl_modCore (c : Nat) (f : Core → Core) : (s.modCore c f).ctl = s.ctl := rfl
@[simp] theorem State.flash_modCore (c : Nat) (f : Core → Core) : (s.modCore c f).flash = s.flash := rfl
@[simp] theorem State.pwr_modCore (c : Nat) (f : Core → Core) : (s.modCore c f).pwr = s.pwr := rfl
@[simp] theorem State.smb_modCore (c : Nat) (f : Core → Core) : (s.modCore c f).smb = s.smb := rfl
@[simp] theorem State.smbAddr_modCore (c : Nat) (f : Core → Core) : (s.modCore c f).smbAddr = s.smbAddr := rfl
@[simp] theorem State.taps_modCore (c : Nat) (f : Core → Core) : (s.modCore c f).taps = s.taps := rfl
@[simp] theorem State.reads_modCore (c : Nat) (f : Core → Core) : (s.modCore c f).reads = s.reads := rfl
@[simp] theorem State.tags_modCore (c : Nat) (f : Core → Core) : (s.modCore c f).tags = s.tags := rfl
@[simp] theorem State.job_modCore (c : Nat) (f : Core → Core) : (s.modCore c f).job = s.job := rfl
@[simp] theorem State.alert_modCore (c : Nat) (f : Core → Core) : (s.modCore c f).alert = s.alert := rfl
@[simp] theorem State.pkgFatal_modCore (c : Nat) (f : Core → Core) : (s.modCore c f).pkgFatal = s.pkgFatal := rfl
@[simp] theorem State.out_modCore (c : Nat) (f : Core → Core) : (s.modCore c f).out = s.out := rfl
@[simp] theorem State.freeIx_modCore (c : Nat) (f : Core → Core) : (s.modCore c f).freeIx = s.freeIx := rfl
@[simp] theorem State.pending_modCore (c : Nat) (f : Core → Core) : (s.modCore c f).pending = s.pending := rfl

/-! ### setFunc -/

@[simp] theorem State.regs_setFunc (i v : Nat) : (s.setFunc i v).regs = s.regs := rfl
@[simp] theorem State.mem_setFunc (i v : Nat) : (s.setFunc i v).mem = s.mem := rfl
@[simp] theorem State.cores_setFunc (i v : Nat) : (s.setFunc i v).cores = s.cores := rfl
@[simp] theorem State.dies_setFunc (i v : Nat) : (s.setFunc i v).dies = s.dies := rfl
@[simp] theorem State.arrivals_setFunc (i v : Nat) : (s.setFunc i v).arrivals = s.arrivals := rfl
@[simp] theorem State.beryls_setFunc (i v : Nat) : (s.setFunc i v).beryls = s.beryls := rfl
@[simp] theorem State.qes_setFunc (i v : Nat) : (s.setFunc i v).qes = s.qes := rfl
@[simp] theorem State.doorbells_setFunc (i v : Nat) : (s.setFunc i v).doorbells = s.doorbells := rfl
@[simp] theorem State.syAcks_setFunc (i v : Nat) : (s.setFunc i v).syAcks = s.syAcks := rfl
@[simp] theorem State.fences_setFunc (i v : Nat) : (s.setFunc i v).fences = s.fences := rfl
@[simp] theorem State.flows_setFunc (i v : Nat) : (s.setFunc i v).flows = s.flows := rfl
@[simp] theorem State.resp_setFunc (i v : Nat) : (s.setFunc i v).resp = s.resp := rfl
@[simp] theorem State.routes_setFunc (i v : Nat) : (s.setFunc i v).routes = s.routes := rfl
@[simp] theorem State.planes_setFunc (i v : Nat) : (s.setFunc i v).planes = s.planes := rfl
@[simp] theorem State.defFlows_setFunc (i v : Nat) : (s.setFunc i v).defFlows = s.defFlows := rfl
@[simp] theorem State.msgs_setFunc (i v : Nat) : (s.setFunc i v).msgs = s.msgs := rfl
@[simp] theorem State.ports_setFunc (i v : Nat) : (s.setFunc i v).ports = s.ports := rfl
@[simp] theorem State.edges_setFunc (i v : Nat) : (s.setFunc i v).edges = s.edges := rfl
@[simp] theorem State.fiIn_setFunc (i v : Nat) : (s.setFunc i v).fiIn = s.fiIn := rfl
@[simp] theorem State.tracks_setFunc (i v : Nat) : (s.setFunc i v).tracks = s.tracks := rfl
@[simp] theorem State.collSent_setFunc (i v : Nat) : (s.setFunc i v).collSent = s.collSent := rfl
@[simp] theorem State.ces_setFunc (i v : Nat) : (s.setFunc i v).ces = s.ces := rfl
@[simp] theorem State.landHeads_setFunc (i v : Nat) : (s.setFunc i v).landHeads = s.landHeads := rfl
@[simp] theorem State.rtts_setFunc (i v : Nat) : (s.setFunc i v).rtts = s.rtts := rfl
@[simp] theorem State.xbars_setFunc (i v : Nat) : (s.setFunc i v).xbars = s.xbars := rfl
@[simp] theorem State.cfgOuts_setFunc (i v : Nat) : (s.setFunc i v).cfgOuts = s.cfgOuts := rfl
@[simp] theorem State.timeKids_setFunc (i v : Nat) : (s.setFunc i v).timeKids = s.timeKids := rfl
@[simp] theorem State.bounds_setFunc (i v : Nat) : (s.setFunc i v).bounds = s.bounds := rfl
@[simp] theorem State.wins_setFunc (i v : Nat) : (s.setFunc i v).wins = s.wins := rfl
@[simp] theorem State.upds_setFunc (i v : Nat) : (s.setFunc i v).upds = s.upds := rfl
@[simp] theorem State.ctl_setFunc (i v : Nat) : (s.setFunc i v).ctl = s.ctl := rfl
@[simp] theorem State.flash_setFunc (i v : Nat) : (s.setFunc i v).flash = s.flash := rfl
@[simp] theorem State.pwr_setFunc (i v : Nat) : (s.setFunc i v).pwr = s.pwr := rfl
@[simp] theorem State.smb_setFunc (i v : Nat) : (s.setFunc i v).smb = s.smb := rfl
@[simp] theorem State.smbAddr_setFunc (i v : Nat) : (s.setFunc i v).smbAddr = s.smbAddr := rfl
@[simp] theorem State.taps_setFunc (i v : Nat) : (s.setFunc i v).taps = s.taps := rfl
@[simp] theorem State.reads_setFunc (i v : Nat) : (s.setFunc i v).reads = s.reads := rfl
@[simp] theorem State.tags_setFunc (i v : Nat) : (s.setFunc i v).tags = s.tags := rfl
@[simp] theorem State.job_setFunc (i v : Nat) : (s.setFunc i v).job = s.job := rfl
@[simp] theorem State.alert_setFunc (i v : Nat) : (s.setFunc i v).alert = s.alert := rfl
@[simp] theorem State.pkgFatal_setFunc (i v : Nat) : (s.setFunc i v).pkgFatal = s.pkgFatal := rfl
@[simp] theorem State.out_setFunc (i v : Nat) : (s.setFunc i v).out = s.out := rfl
@[simp] theorem State.freeIx_setFunc (i v : Nat) : (s.setFunc i v).freeIx = s.freeIx := rfl
@[simp] theorem State.pending_setFunc (i v : Nat) : (s.setFunc i v).pending = s.pending := rfl

/-! ### send -/

@[simp] theorem State.regs_send (m : OutMsg) : (s.send m).regs = s.regs := rfl
@[simp] theorem State.mem_send (m : OutMsg) : (s.send m).mem = s.mem := rfl
@[simp] theorem State.cores_send (m : OutMsg) : (s.send m).cores = s.cores := rfl
@[simp] theorem State.dies_send (m : OutMsg) : (s.send m).dies = s.dies := rfl
@[simp] theorem State.arrivals_send (m : OutMsg) : (s.send m).arrivals = s.arrivals := rfl
@[simp] theorem State.funcs_send (m : OutMsg) : (s.send m).funcs = s.funcs := rfl
@[simp] theorem State.beryls_send (m : OutMsg) : (s.send m).beryls = s.beryls := rfl
@[simp] theorem State.qes_send (m : OutMsg) : (s.send m).qes = s.qes := rfl
@[simp] theorem State.doorbells_send (m : OutMsg) : (s.send m).doorbells = s.doorbells := rfl
@[simp] theorem State.syAcks_send (m : OutMsg) : (s.send m).syAcks = s.syAcks := rfl
@[simp] theorem State.fences_send (m : OutMsg) : (s.send m).fences = s.fences := rfl
@[simp] theorem State.flows_send (m : OutMsg) : (s.send m).flows = s.flows := rfl
@[simp] theorem State.resp_send (m : OutMsg) : (s.send m).resp = s.resp := rfl
@[simp] theorem State.routes_send (m : OutMsg) : (s.send m).routes = s.routes := rfl
@[simp] theorem State.planes_send (m : OutMsg) : (s.send m).planes = s.planes := rfl
@[simp] theorem State.defFlows_send (m : OutMsg) : (s.send m).defFlows = s.defFlows := rfl
@[simp] theorem State.msgs_send (m : OutMsg) : (s.send m).msgs = s.msgs := rfl
@[simp] theorem State.ports_send (m : OutMsg) : (s.send m).ports = s.ports := rfl
@[simp] theorem State.edges_send (m : OutMsg) : (s.send m).edges = s.edges := rfl
@[simp] theorem State.fiIn_send (m : OutMsg) : (s.send m).fiIn = s.fiIn := rfl
@[simp] theorem State.tracks_send (m : OutMsg) : (s.send m).tracks = s.tracks := rfl
@[simp] theorem State.collSent_send (m : OutMsg) : (s.send m).collSent = s.collSent := rfl
@[simp] theorem State.ces_send (m : OutMsg) : (s.send m).ces = s.ces := rfl
@[simp] theorem State.landHeads_send (m : OutMsg) : (s.send m).landHeads = s.landHeads := rfl
@[simp] theorem State.rtts_send (m : OutMsg) : (s.send m).rtts = s.rtts := rfl
@[simp] theorem State.xbars_send (m : OutMsg) : (s.send m).xbars = s.xbars := rfl
@[simp] theorem State.cfgOuts_send (m : OutMsg) : (s.send m).cfgOuts = s.cfgOuts := rfl
@[simp] theorem State.timeKids_send (m : OutMsg) : (s.send m).timeKids = s.timeKids := rfl
@[simp] theorem State.bounds_send (m : OutMsg) : (s.send m).bounds = s.bounds := rfl
@[simp] theorem State.wins_send (m : OutMsg) : (s.send m).wins = s.wins := rfl
@[simp] theorem State.upds_send (m : OutMsg) : (s.send m).upds = s.upds := rfl
@[simp] theorem State.ctl_send (m : OutMsg) : (s.send m).ctl = s.ctl := rfl
@[simp] theorem State.flash_send (m : OutMsg) : (s.send m).flash = s.flash := rfl
@[simp] theorem State.pwr_send (m : OutMsg) : (s.send m).pwr = s.pwr := rfl
@[simp] theorem State.smb_send (m : OutMsg) : (s.send m).smb = s.smb := rfl
@[simp] theorem State.smbAddr_send (m : OutMsg) : (s.send m).smbAddr = s.smbAddr := rfl
@[simp] theorem State.taps_send (m : OutMsg) : (s.send m).taps = s.taps := rfl
@[simp] theorem State.reads_send (m : OutMsg) : (s.send m).reads = s.reads := rfl
@[simp] theorem State.tags_send (m : OutMsg) : (s.send m).tags = s.tags := rfl
@[simp] theorem State.job_send (m : OutMsg) : (s.send m).job = s.job := rfl
@[simp] theorem State.alert_send (m : OutMsg) : (s.send m).alert = s.alert := rfl
@[simp] theorem State.pkgFatal_send (m : OutMsg) : (s.send m).pkgFatal = s.pkgFatal := rfl
@[simp] theorem State.freeIx_send (m : OutMsg) : (s.send m).freeIx = s.freeIx := rfl
@[simp] theorem State.pending_send (m : OutMsg) : (s.send m).pending = s.pending := rfl

@[simp] theorem State.out_send (m : OutMsg) : (s.send m).out = s.out ++ [m] := rfl

end Sys2Proof.Machine
end

