-- ==== Sys2Proof/Tests/Slice0.lean ====
section
/-!
SUPPORT. The model's own tests: operands that are not well formed are refused by `Instr.wf`; single steps from small states give what the spec's
words, tables and examples give; and the hypotheses of every obligation are met by a concrete state, one theorem for each.
-/

set_option Elab.async false

namespace Sys2Proof.Tests

open Sys2Proof Sys2Proof.Machine

/-! ### Operands that are not well formed -/

theorem test_wf_release_certificate : (Instr.dieResetRelease 0 true 3 0 [0] [] 0).wf = false := by decide
theorem test_wf_release_record : (Instr.dieResetRelease 4 true 0 0 (List.replicate 160 0) [0] 0).wf = false := by decide +kernel
theorem test_wf_release : (Instr.dieResetRelease 0 true 3 0 (List.replicate 160 0) [] 0).wf = true := by decide +kernel
theorem test_wf_poll_rail_twice : (Instr.pmbusPoll [(0, some 850, none, none), (0, none, none, none)]).wf = false := by decide
theorem test_wf_columns_of_a_port : (Instr.functionReady 0x3000 [0] [] 0 0 false 0).wf = false := by decide
theorem test_wf_columns_of_a_core : (Instr.functionReady 0x2000 [0, 0, 0] [false, false, false, false] 0 0 false 0).wf = false := by decide
theorem test_wf_read_symbol_position : (Instr.stackRead (.core 0) 0 [⟨72, 1⟩]).wf = false := by decide
theorem test_wf_read_symbol_unchanged : (Instr.stackRead (.core 0) 0 [⟨0, 0⟩]).wf = false := by decide
theorem test_wf_patrol_symbol_twice : (Instr.stackPatrolScrub 0 [⟨3, 1⟩, ⟨3, 2⟩]).wf = false := by decide
theorem test_wf_spad_symbol_width : (Instr.spadPatrolScrub 0 0 [⟨0, 256⟩]).wf = false := by decide
theorem test_wf_restore_length : (Instr.firmwareRegionRestore 0 [0] true).wf = false := by decide
theorem test_wf_array_number : (Instr.commitBoundaryActions [(288, 0, false)]).wf = false := by decide
theorem test_wf_reconstruction_members : (Instr.reconstruction 0 0 (List.replicate 16 1)).wf = false := by decide
theorem test_wf_xor_granule_twice : (Instr.pxor 0 [(0, 1), (0, 2)]).wf = false := by decide +kernel
theorem test_wf_admission_modules : (Instr.portAdmission 0 [0, 0, 0, 0, 0] [0, 0, 0, 0, 0, 0]).wf = false := by decide
theorem test_wf_flash_keys : (Instr.firmwareVerify ⟨true, true, [], [], List.replicate 1025 [], [], [], [], []⟩ true true false 0).wf = false := by decide +kernel
theorem test_wf_preload_pins : (Instr.samplePreload 0 [true] []).wf = false := by decide
theorem test_wf_extest_pins : (Instr.extest 0 [] [true]).wf = false := by decide
theorem test_wf_time_ports : (Instr.timeSyncSend [0, 0]).wf = false := by decide
theorem test_wf_plain : (Instr.go 0).wf = true := by decide

/-! ### Small states -/

/-- A running compute die with every core good. -/
def cDie : Die := { Die.reset with st := .up, good := 2 ^ 18 - 1, coreMap := (span 0 16).map (fun i => (i, some i)), nstacks := 3 }

/-- A running port die. -/
def pDie : Die := { Die.reset with st := .up, record := List.replicate 128 0 }

/-- The package with every die running its firmware, die 0 leading, every function READY and no job. -/
@[irreducible] def up : State :=
  let s : State := { State.reset with dies := [(0, cDie), (1, cDie), (2, cDie), (3, cDie), (4, pDie), (5, pDie)], funcs := allFuncs.map (fun f => (f, 2)) }
  let s := (span 0 6).foldl (fun (s : State) d => (s.setF d fBootStatusStage 4).setF d fD2dDiscPos d) s
  s.setF 0 fDieInfoLead 1

/-- The package with one core replaced. -/
def withCore (c : Core) : State := up.setCore 0 c

/-- The state after a command. -/
def ran (c : Instr) (s : State) : State := nextOr s (exec c s)

/-- Operand bits from fields at bit positions. -/
def ops (l : List (Nat × Nat)) : BitVec 96 := BitVec.ofNat 96 (l.foldl (fun n p => n + p.2 * 2 ^ p.1) 0)

/-- A core with one word at the head of an engine queue. -/
def Queued (eng : Engine) (st : Stream) (w : InstrWord) (c : Core) : State := withCore (c.setQueue eng st [⟨w, 0, []⟩])

theorem ok_of_toBool {α β : Type} {x : Except α β} (h : x.toBool = true) : ∃ u, x = .ok u := by
  cases x with
  | error a => exact absurd h (by simp [Except.toBool])
  | ok b => exact ⟨b, rfl⟩

/-- A core whose array 0 holds a valid MX4 weight slot 0 and an open group 0 of format XA64, 8 × 8, whose bank words have been written; both streams
run, and the first scratchpad granules have been written. -/
def mxCore : Core :=
  let a : ArrayState := { ArrayState.reset with slots := [(0, { Slot.reset with dtype := 7, valid := true })]
                                                groups := [(0, { Group.reset with desc := 10, isOpen := true })], bank := (span 0 64).map (fun i => (i, some 1)) }
  { Core.reset with arrays := [(0, a)], spad := (span 0 32).map (fun i => (i, .stored 0 [])), spadChk := (span 0 16).map (fun i => (i, some 0)) }

/-- Memory that nothing has written reads as zeros, which pass their block check. -/
theorem memRead_fresh {s : State} (q : Requester) {g : Nat} (hg : g < stackBytes / 128) (hu : ∀ k < 12, s.stackUp k = true)
    (hw : ∀ a < 4, ∀ b < 4, ∀ t < 2, s.reaches a b t = true) (hm : s.mem = MemState.reset) : s.memRead q g = (.ok 0 ⟨0, 0, 0xFE⟩, s) := by
  rw [(blank_fresh hu hw hm).memRead q hg, hm, gran_reset, meta_reset]

theorem up_stacks : ∀ k < 12, up.stackUp k = true := by decide +kernel

theorem up_ways : ∀ a < 4, ∀ b < 4, ∀ t < 2, up.reaches a b t = true := by decide +kernel

/-- A state with a queue entry in the cache of its die's engine. -/
def cached (s : State) (d i : Nat) (v : BitVec 256) : State := s.setQe d ((s.qe d).putLine i v false)

/-- A queue's state: kind, enabled, ring of 2^4 entries of 32 bytes at 0x10000. -/
def qv (kind : Nat) (l : List (Nat × Nat)) : BitVec 256 :=
  BitVec.ofNat 256 (([(0, 0x200), (45, 4), (50, kind), (54, 1)] ++ l).foldl (fun (n : Nat) (p : Nat × Nat) => n + p.2 * 2 ^ p.1) 0)

/-- A state with a granule of stack memory written. -/
def withGran (s : State) (g n : Nat) : State :=
  let v : GranBits := BitVec.ofNat 1024 n
  { s with mem := s.mem.put g v ⟨chkOf v, 0, 0⟩ }

/-- The package with a job running. -/
def withJob (f : Job → Job) : State := { up with job := f { Job.none with running := true } }

/-- A connection of a KIND. -/
def connOf (kind : Nat) : Conn := ⟨7, kind, ⟨0, true, 1, 2, 3, 4, 5⟩, true, 0, 0, 0, [], [], 0, 0, [], [], 16, 0, 64, 0, []⟩

/-- An accepted command packet of session `x` on connection 7. -/
def cmdOf (code x flags : Nat) (body : List Byte) : Cmd :=
  ⟨7, leBytes 0x314B435A 4 ++ leBytes 1 1 ++ leBytes flags 1 ++ leBytes code 2 ++ leBytes x 4 ++ leBytes 1 20, body, 0⟩

/-- A state in which a command is the only one of its class queue. -/
def withCmd (s : State) (cls : Nat) (c : Cmd) : State := s.modCtl (fun x => { x with cmds := mapSet (fun _ => []) x.cmds cls [c] })

/-- The state once that command has been taken. -/
def taken (s : State) (cls : Nat) (c : Cmd) : State :=
  ((withCmd s cls c).modCtl (fun x => { x with cmds := mapSet (fun _ => []) x.cmds cls [] })).showDepth

theorem serves (s : State) (c : Cmd) (row : OpRow) (hr : opRow c.opcode = some row) (hj : s.jasperUp = true) (hl : row.lenOk c.body.length = true)
    (ha : row.auth = 2 → c.confirm = true) (hn : (withCmd s row.cls c).nextClass = some row.cls) : Serves (withCmd s row.cls c) c.opcode c (taken s row.cls c) :=
  ⟨row, [], hr, by simp [withCmd, State.modCtl], rfl, hj, hn, hl, ha, rfl⟩

/-- A command of a class that is served now. -/
def served (s : State) (row : OpRow) (c : Cmd) : Bool :=
  decide (opRow c.opcode = some row) && s.jasperUp && row.lenOk c.body.length && decide (row.auth = 2 → c.confirm = true)
    && decide ((withCmd s row.cls c).nextClass = some row.cls)

theorem serves_of (s : State) (row : OpRow) (c : Cmd) (h : served s row c = true) : Serves (withCmd s row.cls c) c.opcode c (taken s row.cls c) := by
  simp only [served, Bool.and_eq_true, decide_eq_true_eq] at h
  exact serves s c row h.1.1.1.1 h.1.1.1.2 h.1.1.2 h.1.2 h.2

/-! ### The hypotheses of the obligations are met -/

theorem witness_IdleStepPassesTenNanoseconds : State.reset.pending = [] := rfl

theorem witness_DieLossesByCause :
    (∀ d < 6, up.dieUp d = true) ∧ (0 : Fin 15).val % 4 = 0 ∧ (7 : Fin 15).val < 8 ∧ (7 : Fin 15).val % 4 = 3 ∧ 8 ≤ (10 : Fin 15).val ∧ (10 : Fin 15).val < 11
      ∧ 11 ≤ (13 : Fin 15).val ∧ (13 : Fin 15).val < 14 ∧ up.getF 3 fClkStatusCpllSel = 0 ∧ 4 ≤ (5 : Fin 6).val := by decide +kernel

theorem witness_DieReleaseStartsBootRom :
    (State.reset.dieUp 0 = false ∧ State.reset.pwr.tripped = false) ∧
    (let s := up.setF 1 fD2dDiscPos 1
     s.leadRuns = true ∧ s.lead = 0 ∧ s.dieUp 1 = true ∧ s.discFailed = false ∧ s.getF 1 fD2dDiscPos ≠ 7) := by decide +kernel

theorem witness_BrownoutAndGovernorGateIssue :
    up.pwr.low = false ∧ (up.modPwr (fun x => { x with low := true })).pwr.low = true ∧ (up.modPwr (fun x => { x with hold := true })).pwr.hold = true ∧
    up.dieUp 3 = true ∧ up.flag 3 fPwrStatusCrit = false ∧ up.flag 3 fPwrStatusBrownout = false ∧ (up.setF 3 fPwrStatusCrit 1).flag 3 fPwrStatusCrit = true ∧
    (BitVec.toNat (0xFFFFFFFF : BitVec 32) > up.getF 3 fPwrGovPwrLimitW * 1000) ∧
    (let s := (up.setF 3 fPwrGovPwrLimitW 1).setF 3 fPwrGovIccLimit 1
     BitVec.toNat (969 : BitVec 32) * 100 < s.getF 3 fPwrGovPwrLimitW * 1000 * 97 ∧ BitVec.toNat (0 : BitVec 32) * 100 < s.getF 3 fPwrGovIccLimit * 97) := by decide +kernel

theorem witness_PowerStateChanges :
    up.leadRuns = true ∧
    (∀ v up' l : Bool, ∃ s : State, s.pwr.change = some ⟨up', 5, v, l⟩ ∧ (5 : Nat) ≤ 5) := by
  refine ⟨by decide +kernel, fun v u l => ⟨up.modPwr (fun x => { x with change := some ⟨u, 5, v, l⟩ }), rfl, Nat.le_refl 5⟩⟩

theorem witness_ThermalLimits :
    2 ≤ (3 : Fin 4).val ∧ up.dieUp 3 = true ∧ up.flag 3 fThermStatusHot = false ∧ up.flag 3 fThermStatusCrit = false ∧
    up.getF 3 fThermCfgTHot ≤ (up.getF 3 fThermCfgTCrit) ∧ up.getF 3 fThermCfgTCrit ≤ BitVec.toNat (0xFFF : BitVec 12) ∧
    (up.setF 0 fThermStatusHot 1).flag 0 fThermStatusHot = true ∧ mapGet (fun _ => 0) up.pwr.caps 3 ≤ 5 := by decide +kernel

theorem witness_RailTelemetry :
    up.leadRuns = true ∧ up.flag up.lead fPwrStatusBrownout = false ∧
    (up.modPwr (fun x => { x with pins := [0, 7, 7] })).pwr.pins = [0, 7, BitVec.toNat (7 : BitVec 3)] ∧
    (up.modPwr (fun x => { x with pins := [7, 0, 7] })).pwr.pins = [7, 0, BitVec.toNat (7 : BitVec 3)] ∧
    (up.modPwr (fun x => { x with pins := [0, 7, 7] })).leadRuns = true := by decide +kernel

theorem witness_RailTelemetry_caps : ∀ d, mapGet (fun _ => 0) up.pwr.caps d ≤ 5 := by
  have h : up.pwr.caps = [] := by decide +kernel
  intro d
  rw [h]
  exact Nat.zero_le 5

/-- A firmware image (Table 14.3) with an empty body. Its hash, key and signature are the part's own: what passes them is left open. -/
def fwImage : List Byte := (leBytes 0x4D57465A 4 ++ leBytes 1 2 ++ leBytes 0 250)

theorem witness_DieReleaseStartsBootRom_firmware (h : fwCheck fwImage 0 = 0) :
    let s := ((up.setF 1 fBootStatusStage 1).setF 1 fD2dDiscPos 1).modCtl (fun x => { x with fw := fwImage })
    s.leadRuns = true ∧ s.lead = 0 ∧ s.dieUp 1 = true ∧ s.getF 1 fD2dDiscPos ≠ 7 ∧ s.getF 1 fBootStatusStage < 4 ∧ s.reg 1 oFuseState = s.reg s.lead oFuseState ∧
      fwCheck (s.imageFor 1).1 (s.reg 1 oFuseState) = 0 ∧
      (let t := { s with dies := [(0, cDie), (1, cDie)] }
       ∀ k < 6, k ≠ 1 → k ≠ 0 → t.dieUp k = false) := by
  refine ⟨?_, ?_, ?_, ?_, ?_, ?_, (congrArg₂ fwCheck ?_ ?_).trans h, ?_⟩ <;> decide +kernel

/-- A MSG package flit with no message in it. -/
def emptyMsgFlit (seq : Nat) : BitVec 2048 :=
  let b : BitVec 2048 := BitVec.ofNat 2048 (1 + 2 ^ 4 * seq)
  putFld b 2016 32 (pfCrc b)

/-- Both ends of the edge between dies 0 and 1 with one module, the last, and a damaged flit not yet answered by a resend. -/
def lastModule : State := (up.setF 0 (edgeF 0 fD2dModulesEnabled) 0x800000).setF 1 (edgeF 0 fD2dModulesEnabled) 0x800000

theorem witness_DieToDieFlitsAreTakenInOrder :
    let f := emptyMsgFlit 0
    let last : BitVec 2048 := BitVec.ofNat 2048 (2 ^ 2047)
    let s := lastModule
    (edgePeer 0 0 = some (1, 0) ∧ s.edgeUp 0 0 = true ∧ s.edgeUp 1 0 = true ∧ (s.stripes 0 0).contains 23 = true ∧ s.moduleOf 1 0 (pfSeq f) = 23 ∧
      pfCrc f = fld f 2016 32 ∧ ((s.edge 1 0).sends (portEdge 0 0) f (replayDepth 1 0)).isSome = true) ∧
    (pfCrc (f ^^^ last) ≠ fld (f ^^^ last) 2016 32 ∧ pfSeq (f ^^^ last) = (s.edge 0 0).rxSeq) ∧
    (pfType f = 1 ∧ fld f 28 3 ≤ 4 ∧ fld f 44 20 = 0 ∧ pfSeq f = (s.edge 0 0).rxSeq ∧
      (takeMsgs (msgOk (portEdge 0 0) (decide ((0 : Fin 6).val ≥ 4))) (s.grantOf 0 0) (s.edge 0 0).part f (s.edge 0 0).held).isSome = true ∧
      (s.edge 0 0).waits = []) := by decide +kernel

theorem witness_DieToDieFlitsAreTakenInOrder_nak :
    let a : BitVec 2048 := 1
    let b : BitVec 2048 := 17
    let s := up.setEdge 0 0 { up.edge 0 0 with replay := [a, b] }
    s.edgeUp 0 0 = true ∧ (s.edge 0 0).replay = [a] ++ b :: [] ∧ pfSeq b = BitVec.toNat (1 : BitVec 12) ∧ [a].all (fun x => pfSeq x != 1) = true := by decide +kernel

theorem witness_DieToDieFlitsAreTakenInOrder_timer :
    let s := up.setEdge 0 2 { up.edge 0 2 with waits := [(4, leBytes 0 16)] }
    s.edgeUp 0 2 = true ∧ s.edgeNext 0 2 = some (4, leBytes 0 16) ∧ up.edgeNext 0 2 = none := by decide +kernel

theorem witness_ModulesRetrain :
    let s := up.setF 0 (edgeF 2 fD2dModulesEnabled) 0x800001
    let t := s.setEdge 0 2 { s.edge 0 2 with retraining := [23] }
    (s.edgeUp 0 2 = true ∧ natBits (s.getF 0 (edgeF 2 fD2dModulesEnabled)) 23 1 = 1 ∧ (s.edge 0 2).retraining.contains 23 = false ∧ (edgePeer 0 2).isSome = true) ∧
    ((t.edge 0 2).retraining.contains 23 = true ∧ (t.edge 0 2).turn = []) ∧
    ((s.edge 0 2).retraining = [] ∧ maskBits (s.getF 0 (edgeF 2 fD2dModulesEnabled)) 24 = 0 :: [23]) := by decide +kernel

theorem witness_DiscoveryAssignsPositions :
    let m : BitVec 128 := BitVec.ofNat 128 (1 + 2 ^ 24 * 3)
    (up.dieUp 3 = true ∧ ∀ e < 3, up.edgeKnown 3 e = false) ∧
    ((edgePeer 0 2).isSome = true ∧ (∀ p ∈ [(0, 8), (12, 4), (18, 6), (27, 5)], fld (0 : BitVec 128) p.1 p.2 = 0)) ∧
    (let s := up.setF 3 fD2dDiscPos 7
     s.dieUp 3 = true ∧ (edgePeer 3 0).isSome = true ∧ fld m 0 8 = 1 ∧ fld m 24 3 = 3 ∧ s.getF 3 fD2dDiscPos = 7 ∧ s.discReason ≠ 1 ∧ s.discReason ≠ 2 ∧
       (s.setF 3 fD2dDiscFailReason 2).discReason = 2) := by decide +kernel

/-- A qualification record that passes every check but its signature's, and the registers that hold it. -/
def qualified (s : State) : State :=
  let s := (s.setReg 0 oD2dQrec 0x000201015150435A#64).setReg 0 (oD2dQrec + 8) 1
  s.modDie 0 (fun x => { x with qgot := span 0 16, hello := [(2, some (BitVec.ofNat 128 (2 * 2 ^ 32 + 1 * 2 ^ 40)))] })

theorem witness_PortDiesAreAdmitted :
    (up.dieUp 5 = true ∧ (up.die 5).record.length = 128) ∧
    (let m : BitVec 128 := BitVec.ofNat 128 (3 + 2 ^ 48 * 15)
     up.dieUp 3 = true ∧ fld m 0 8 = 3 ∧ fld m 48 16 < 16) ∧
    (edgePeer 0 2 = some (4, 0) ∧ up.dieUp 0 = true ∧ up.dieUp 4 = true ∧ up.getF 0 fD2dDiscPos ≠ 7 ∧ up.flag 0 fD2dAdmitChecked = false ∧
      up.flag 4 fD2dAdmitAdmitted = false) ∧
    (let m : BitVec 128 := BitVec.ofNat 128 (4 + 2 ^ 64)
     let s : State := { up with dies := [(4, pDie)] }
     s.dieUp 4 = true ∧ fld m 0 8 = 4 ∧ fld m 64 1 = 1 ∧ fld (BitVec.ofNat 128 4) 64 1 = 0 ∧ s.flag 4 fD2dAdmitAdmitted = false ∧ s.flag 4 fD2dAdmitRestricted = false ∧
       (s.die 4).verdicts = [] ∧ s.dieUp 0 = false ∧ s.dieUp 2 = false) := by decide +kernel

/-- The signature of a qualification record is the part's own; where it holds, the record qualifies. -/
theorem witness_PortDiesAreAdmitted_qualified
    (h : Config.ed25519Ok Config.qualKey (((qualified up).qrec 0).take 64) (BitVec.ofNat 512 (leAt ((qualified up).qrec 0) 64 64)) = true) :
    (qualified up).qualify 0 = 0 ∧
      max 1 (leAt ((qualified up).qrec 0) 10 1) ≤ (maskBits (trains [0, 0, 0, 0, 0, 0] (leAt ((qualified up).qrec 0) 9 1)).1 6).length := by
  have k : ∀ b : Bool, b = true → (if b = false then 2 else (0 : Nat)) = 0 := by decide
  refine ⟨?_, by decide +kernel⟩
  unfold State.qualify
  rw [if_neg (by decide +kernel), if_neg (by rw [h]; decide), if_neg (by decide +kernel), if_neg (by decide +kernel), if_neg (by decide +kernel)]

theorem witness_NeighboursNoticeALostDie :
    edgePeer 3 2 = some (5, 1) ∧ up.dieUp 3 = true ∧ up.funcUp (edgeFunc 3 2) = true ∧ edgePeer 0 0 = some (1, 0) ∧ up.dieUp 1 = true ∧
    up.funcUp (edgeFunc 0 0) = true ∧ (edgePeer 5 1).isSome = true ∧ up.dieUp 5 = true ∧ fld (6 : BitVec 128) 0 8 = 6 := by decide +kernel

theorem witness_FunctionsStartAndStop :
    (∀ id ∈ [0x5000, 0x8000], (up.setFunc id 1).func id = 1 ∧ up.dieUp (funcDie id) = true ∧ up.getF (funcDie id) fBootStatusStage = 4 ∧ 5 ≤ id / 4096 ∧ id / 4096 ≤ 8) ∧
    (let s := (up.setFunc 0x0302 1).setF 3 (stackF 11 fMcStkStatusSwept) 1
     s.func 0x0302 = 1 ∧ s.flag (funcDie 0x0302) (stackF (3 * funcDie 0x0302 + 0x0302 % 256) fMcStkStatusSwept) = true) ∧
    ((up.setFunc 0x5000 4).func 0x5000 = 4 ∧ ((up.setFunc 0x5000 4).drained 0x5000).isSome = true) ∧
    (let s := up.setFunc (svcFunc 1) 1
     s.dieUp 5 = true ∧ s.func (svcFunc 1) = 1 ∧ (s.die 5).svcMode = b2n ((1 : Fin 3).val == 2)) ∧
    ((up.setF 5 fSvcStatusLink 1).flag 5 fSvcStatusLink = true ∧ (up.setF 5 fSvcStatusLink 1).funcUp (svcFunc 1) = true) := by decide +kernel

/-- A core whose streams run at word 0 of an instruction region that begins at scratchpad word `b`; it holds `w` there and zeros in the rest of the
line. -/
def lineCore (b : Nat) (w : InstrWord) : Core :=
  let lo : SpadBits := BitVec.ofNat 512 w.toNat
  { Core.reset with crit := { StreamCtl.reset with st := .running }, defr := { StreamCtl.reset with st := .running }
                    spad := [(b, .stored lo []), (b + 1, .stored 0 []), (b + 2, .stored 0 []), (b + 3, .stored 0 [])]
                    spadChk := [(b / 2, some (chkOf (granOf lo 0))), (b / 2 + 1, some 0)] }

/-- The package with such a core, its region one page long. -/
def running (w : InstrWord) : State := withCore (lineCore 195584 w)

/-- The package with such a core, the critical stream's control state replaced. -/
def runningWith (w : InstrWord) (f : StreamCtl → StreamCtl) : State := withCore { lineCore 195584 w with crit := f (lineCore 195584 w).crit }

/-- Does a stream fetch a word, without correction? -/
def fetches (s : State) (pc : Nat) (st : Stream) (w : InstrWord) : Bool :=
  match s.fetch pc st with
  | .word v [] _ => v == w
  | _ => false

theorem fetched {s : State} {pc : Nat} {st : Stream} {w : InstrWord} (h : fetches s pc st w = true) : ∃ l, s.fetch pc st = .word w [] l := by
  unfold fetches at h
  split at h
  · rename_i v l hf
    exact ⟨l, by rw [hf, eq_of_beq h]⟩
  · exact absurd h (by decide)

theorem ready {lc : Fin 64} {st : Stream} {w : InstrWord} {pc : Nat} {s : State} {p : Prop} [Decidable p]
    (h : (decide (s.physOf lc = some pc ∧ ((s.core pc).stream st).st.live = true ∧ fetches s pc st w = true ∧ s.sqMet pc st w = true ∧
      ((toksOf w).smode = 1 → (s.core pc).token (toksOf w).stok < 65535)) && decide p) = true) : SqReady lc st w pc s ∧ p := by
  rw [Bool.and_eq_true, decide_eq_true_eq, decide_eq_true_eq] at h
  obtain ⟨⟨a, b, c, d, e⟩, q⟩ := h
  exact ⟨⟨a, b, fetched c, d, e⟩, q⟩

theorem witness_SequencerWordsAct :
    (let w := mkWord 5 0x000 0x0101 0
     let s := withCore ((lineCore 195584 w).setToken 0 65534)
     SqReady 0 .crit w 0 s ∧ sqCheck (sqEntry s 0 .crit w) 0 = none) ∧
    (let w := mkWord 5 0x001 0 0
     SqReady 0 .defr w 0 (running w) ∧ sqCheck (sqEntry (running w) 0 .defr w) 0 = none) ∧
    (let w := mkWord 5 0x010 0 0x1FFFF
     SqReady 0 .crit w 0 (running w) ∧ sqCheck (sqEntry (running w) 0 .crit w) 0x1FFFF = none) ∧
    (let w := mkWord 5 0x011 0 0xFFFF
     let s := runningWith w (fun x => { x with loops := List.replicate 3 ⟨0, 1⟩ })
     SqReady 0 .crit w 0 s ∧ sqCheck (sqEntry s 0 .crit w) 0x1FFFFF = none ∧ loopCount (sqEntry s 0 .crit w) ≠ 0 ∧ ((s.core 0).stream .crit).loops.length < 4) ∧
    (let w := mkWord 5 0x012 0 0
     let s := runningWith w (fun x => { x with loops := [⟨7, 1⟩] })
     SqReady 0 .crit w 0 s ∧ sqCheck (sqEntry s 0 .crit w) 0 = none ∧ ((s.core 0).stream .crit).loops = ⟨7, 1⟩ :: []) ∧
    (∀ op ∈ [0x020, 0x021], let w := mkWord 5 op 0 0xFFFFFFFF0000000F
     SqReady 0 .crit w 0 (running w) ∧ sqCheck (sqEntry (running w) 0 .crit w) 0xFFFFFFFF0000000F = none) := by
  refine ⟨ready ?_, ready ?_, ready ?_, ready ?_, ready ?_, fun op h => ?_⟩
  case refine_6 =>
    rcases List.mem_pair.mp h with rfl | rfl
    · exact ready (by decide +kernel)
    · exact ready (by decide +kernel)
  all_goals decide +kernel

theorem irloadCopy_fresh (n i : Nat) {s : State} (hs : ∀ k < 12, s.stackUp k = true)
    (hw : ∀ a < 4, ∀ b < 4, ∀ t < 2, s.reaches a b t = true) (hm : s.mem = MemState.reset) (h : i + n ≤ 512) :
    (irloadCopy 0 0 0 0 n i s).1 = none ∧ (irloadCopy 0 0 0 0 n i s).2.1 = none := by
  induction n generalizing i s with
  | zero => exact ⟨rfl, rfl⟩
  | succ n ih =>
    have h0 : chkOf 0 = 0 := by decide +kernel
    have hg : (0 + 128 * i) / 128 < stackBytes / 128 := by
      unfold stackBytes
      omega
    have hr := memRead_fresh (.core 0) hg hs hw hm
    rw [irloadCopy, hr]
    simp only [h0]
    exact ih (i + 1) hs (fun a ha b hb t ht => (reaches_cores s _ a b t).trans (hw a ha b hb t ht)) hm (by omega)

theorem witness_InstructionPageLoads :
    (let w := mkWord 5 0x030 0 1
     let s := ((withCore (lineCore 194560 w)).coreSet 0 fSeqIrCfgPages 2)
     let s : State := { s with mem := { MemState.reset with regions := [(0, { Region.reset with cls := 2 })] } }
     let e := sqEntry s 0 .crit w
     SqReady 0 .crit w 0 s ∧ sqCheck e 0xFFFFFFFFFFFFFFFF0000001F = none ∧ opf e 0 5 < s.coreGet 0 fSeqIrCfgPages ∧ opf e 0 5 ≠ e.pc / 4096 ∧
       s.irSource (opf e 32 64) = some 0 ∧ ((s.core 0).stream .defr).holdsPage (opf e 0 5) = false) := by
  exact ready (by decide +kernel)

theorem witness_InstructionPageLoads_complete :
    let i : IrLoad := ⟨0, 0, mkWord 5 0x030 0 0, 0⟩
    let s := withCore { Core.reset with crit := { StreamCtl.reset with irloads := [i] } }
    s.physOf 0 = some 0 ∧ ((s.core 0).stream .crit).irloads = i :: [] ∧ (irloadCopy 0 0 i.src i.page 512 0 s).1 = none ∧
      (irloadCopy 0 0 i.src i.page 512 0 s).2.1 = none ∧ (toksOf i.word).smode ≠ 1 := by
  refine ⟨by decide +kernel, by decide +kernel, ?_, ?_, by decide +kernel⟩
  · exact (irloadCopy_fresh 512 0 (by decide +kernel) (by decide +kernel) (by decide +kernel) (by decide)).1
  · exact (irloadCopy_fresh 512 0 (by decide +kernel) (by decide +kernel) (by decide +kernel) (by decide)).2

theorem witness_TokensCountAndSaturate :
    let s : State := { withCore (Core.reset.setToken 63 65535) with arrivals := [(0, 63)] }
    (0, 63) ∈ s.arrivals ∧ s.physOf 0 = some 0 ∧ (s.core 0).token 63 ≤ 65535 ∧ (s.core 0).token 63 = 65535 := by decide +kernel

theorem witness_GoHaltAndDone :
    (up.dieUp (pcDie 71) = true ∧ up.funcUp (funcId 2 (pcDie 71) (71 % 18)) = true ∧ (up.core 71).crit.st.live = false ∧ (up.core 71).defr.st.live = false ∧
      (up.core 71).busy = false ∧ (up.core 71).anyDisabled 15 = false) ∧ ((running 0).dieUp (pcDie 0) = true ∧ (((running 0).core 0).stream .crit).st.live = true) ∧
    (up.physOf 63 = some 69 ∧ (up.core 69).done = false ∧ (up.core 69).tokenMask = 0 ∧ (up.closeAll 69).1 = 0) ∧
    ((withCore (Core.reset.setArray 3 { ArrayState.reset with st := .disabled })).core 0).anyDisabled 15 = true ∧
    (let s := withCore { Core.reset with crit := { StreamCtl.reset with st := .ended }, defr := { StreamCtl.reset with st := .ended } }
     s.physOf 0 = some 0 ∧ (s.core 0).done = false ∧ (s.core 0).drained = true ∧ (s.core 0).tokenMask = 0 ∧ (s.closeAll 0).1 = 0) := by decide +kernel

theorem witness_EngineWordsAreDispatched :
    ∀ x ∈ engineWords.take 1 ++ engineWords.drop 56, let w := mkWord x.2.1.code x.2.2 0xFFFF 1
      let s := withCore ((lineCore 195584 w).setQueue x.2.1 .defr (List.replicate (queueDepth x.2.1 .defr - 1) ⟨0, 0, []⟩))
      s.physOf 0 = some 0 ∧ ((s.core 0).stream .defr).st.live = true ∧ fetches s 0 .defr w = true ∧ ((s.core 0).queue x.2.1 .defr).length < queueDepth x.2.1 .defr := by
  decide +kernel

theorem witness_ReservedCodesHalt :
    ∀ n ∈ [0, 6, 15], let w : BitVec 128 := BitVec.ofNat 128 (n * 2 ^ 124)
      (fld w 124 4 = 0 ∨ 6 ≤ fld w 124 4) ∧ (running w).physOf 0 = some 0 ∧ (((running w).core 0).stream .crit).st.live = true ∧ fetches (running w) 0 .crit w = true ∧
        fld ((running w).core 0).haltInfo 0 8 = 0 := by decide +kernel

theorem witness_GroupsOpenAndClose :
    (let w := mkWord 1 0x020 0 (ops [(0, 15), (4, 31), (9, 1), (15, 1022), (32, 10)])
     let s := Queued .mx .crit w mxCore
     let e : QEntry := ⟨w, 0, []⟩
     IssuesNext 0 .crit .mx w 0 e [] s ∧ gopenCheck .crit s 0 e = none) ∧
    (let w := mkWord 1 0x021 0 (ops [(0, 1), (4, 0), (9, 1)])
     let s := Queued .mx .crit w mxCore
     let e : QEntry := ⟨w, 0, []⟩
     IssuesNext 0 .crit .mx w 0 e [] s ∧ opf e 15 81 = 0 ∧ groupRunBad (opf e 0 4) (opf e 4 5) (opf e 9 6) = false ∧
       namedGroupFault .crit (s.core 0) (opf e 0 4) (opf e 4 5) (opf e 9 6) = none) := by
  unfold IssuesNext
  decide +kernel

theorem witness_MatrixWordsIssue :
    (let w := mkWord 1 0x001 0 (ops [(26, 1), (24, 1), (30, 7)])
     let s := Queued .mx .crit w mxCore
     let e : QEntry := ⟨w, 0, []⟩
     IssuesNext 0 .crit .mx w 0 e [] s ∧ wloadCheck .crit s 0 e = none ∧ (wloadAct 0 (s.setCore 0 (issuedCore (s.core 0) .mx .crit e [])) 0 e).toBool = true) ∧
    (let w := mkWord 1 0x010 0 (ops [(26, 1), (24, 0), (30, 7), (39, 2)])
     let s := Queued .mx .crit w mxCore
     let e : QEntry := ⟨w, 0, []⟩
     IssuesNext 0 .crit .mx w 0 e [] s ∧ mmaCheck .crit s 0 e = none ∧
       (mmaAct 0 .crit (s.setCore 0 (issuedCore (s.core 0) .mx .crit e [])) 0 e).toBool = true) ∧
    (let w := mkWord 1 0x022 0 (ops [(24, 1), (28, 0), (33, 1), (39, 2)])
     let s := Queued .mx .crit w mxCore
     let e : QEntry := ⟨w, 0, []⟩
     IssuesNext 0 .crit .mx w 0 e [] s ∧ gexportCheck .crit s 0 e = none ∧
       (gexportAct 0 (s.setCore 0 (issuedCore (s.core 0) .mx .crit e [])) 0 e).toBool = true) := by
  unfold IssuesNext
  decide +kernel

/-- A matrix word of the critical stream in flight. -/
def mxFlight (opc : Nat) (o : BitVec 96) : InFlight := ⟨.mx, .crit, ⟨mkWord 1 opc 0 o, 0, []⟩, false, false, 0, .none, .none, .none⟩

theorem witness_MatrixWordsComplete :
    ∀ opc ∈ [0x001, 0x010, 0x022], let f := mxFlight opc (ops [(26, 15), (24, 1), (45, 1), (33, 1)])
      let s := withCore { mxCore with inflight := [f] }
      s.physOf 0 = some 0 ∧ (s.core 0).inflight = [f] ∧ f.eng = .mx ∧ f.strm = .crit ∧ f.pass2 = false ∧ (toksOf f.ent.word).smode = 0 ∧ opcodeOf f.ent.word = opc ∧
        f.released = false ∧ fld f.ent.word 124 4 = 1 := by decide +kernel

theorem witness_MatrixWordsComplete_pass2 :
    ∀ opc ∈ [0x001, 0x010], let f := mxFlight opc (ops [(26, 1), (24, 0), (30, 7), (39, 2)])
      let u := withCore { mxCore with inflight := [{ f with pass2 := true }] }
      let c := (u.core 0).mmaTo 0 (mmaRows f.ent)
      u.physOf 0 = some 0 ∧ (u.core 0).inflight = [{ f with pass2 := true }] ∧ (u.core 0).issueTurn .mx .crit = true ∧
        (opc = 0x010 → slotsLost c f.ent = none ∧ (mmaRead 0 c f.ent).2.2.1 = none) := by decide +kernel

theorem witness_ArrayControl :
    (up.dieUp (pcDie 71) = true ∧ (up.core 71).quiet = true ∧ ((up.core 71).array 3).ctRunning = false) ∧
    ((up.die 3).isGood 17 = true ∧ up.job.running = false ∧ ((withJob id).die 3).isGood 17 = true ∧ (withJob id).job.running = true) ∧
    ((withCore { Core.reset with crit := { StreamCtl.reset with st := .running } }).core 0).quiet = false := by decide +kernel

theorem witness_ArrayControl_test :
    let s := withCore ((Core.reset).setArray 3 { ArrayState.reset with ctRunning := true })
    ((s.core 0).array 3).ctRunning = true ∧ (s.setF 0 fRetireCfgQuarLimit 0).getF 0 fRetireCfgQuarLimit = 0 := by decide +kernel

theorem witness_SentinelsCompare :
    let x : Sentinel := ⟨.crit, ⟨mkWord 1 0x010 0 (ops [(26, 3), (30, 7), (39, 2)]), 0, []⟩, 0, 1, false, 5, 0⟩
    (let s := withCore { mxCore with sentinels := [x] }
     s.physOf 0 = some 0 ∧ (0 : Nat) < 72 ∧ (s.core 0).sentinels = [x] ∧ x.passed = false ∧ (s.core 0).issueTurn .mx .crit = true ∧
       (((s.core 0).array x.sib).slot (opf x.ent 24 2)).errs = [] ∧
       (mmaReread 0 (s.core 0) x.ent (((maskPos (mxMask x.ent)).find? (fun q => q.2 == x.orig)).map Prod.fst |>.getD 0)).2.2.1 = none) ∧
    (let y : Sentinel := { x with passed := true, dSib := 5 }
     let s := withCore { mxCore with sentinels := y :: [] }
     s.physOf 0 = some 0 ∧ (s.core 0).sentinels = y :: [] ∧ y.passed = true ∧ y.dOrig ^^^ 0 = y.dSib ^^^ 0 ∧ y.dOrig ^^^ 1 ≠ y.dSib ^^^ 0) := by decide +kernel

/-- The conditions of a vector word, met by the word with operand bits `o` at ETYPE `ty`, GRP 0 and VL 32. -/
def VxMeets (opc used : Nat) (regs : QEntry → List Nat) (own : VCtx → QEntry → Bool) (ty : Nat) (o : BitVec 96) : Prop :=
  let w := mkWord 2 opc 0 o
  let s := Queued .vx .crit w { mxCore with vcrit := { VCtx.reset with etype := ty, vl := 32 } }
  let e : QEntry := ⟨w, 0, []⟩
  IssuesNext 0 .crit .vx w 0 e [] s ∧ vxCheck ((s.core 0).vctx .crit) opc used (regs e) e = none ∧ own ((s.core 0).vctx .crit) e = true

/-- No condition of its own. -/
def anyOk (_ : VCtx) (_ : QEntry) : Bool := true

/-- VD, VA and VB. -/
def regs3 (e : QEntry) : List Nat := [fVD e, fVA e, fVB e]

/-- VD, VA and VB at register 31. -/
def top3 : BitVec 96 := ops [(0, 31), (5, 31), (10, 31), (20, 7)]

theorem witness_VectorIntegerWordsIssue :
    (∀ opc ∈ [0x020, 0x021, 0x022, 0x023, 0x024, 0x025, 0x026, 0x027], VxMeets opc (mVD ||| mVA ||| mVB ||| mPM) regs3 anyOk 0 top3) ∧
    VxMeets 0x028 (mVD ||| mVA ||| mPM) (fun e => [fVD e, fVA e]) anyOk 2 (ops [(0, 31), (5, 31)]) ∧
    VxMeets 0x017 (mVD ||| mPM ||| mSA) (fun e => [fVD e]) anyOk 2 (ops [(0, 31), (32, 31)]) ∧
    VxMeets 0x018 (mVD ||| mPM) (fun e => [fVD e]) anyOk 2 (ops [(0, 31)]) := by
  and_intros <;> first | decide +kernel | (unfold VxMeets IssuesNext; decide +kernel)

theorem witness_VectorFloatWordsIssue :
    (∀ opc ∈ [0x010, 0x011, 0x012, 0x015, 0x016], VxMeets opc (mVD ||| mVA ||| mVB ||| mPM) regs3 anyOk 1 top3) ∧
    (∀ opc ∈ [0x013, 0x014], VxMeets opc (mVD ||| mVA ||| mVB ||| mPM ||| mVC) (fun e => [fVD e, fVA e, fVB e, fVC e]) anyOk 1 (top3 ||| ops [(15, 31)])) ∧
    VxMeets 0x040 (mVD ||| mVA ||| mPM ||| mMOD 15) (fun e => [fVD e, fVA e]) (fun _ e => decide (fMOD e 0 4 ≤ 8)) 1 (ops [(0, 31), (24, 8)]) := by
  and_intros <;> first | decide +kernel | (unfold VxMeets IssuesNext; decide +kernel)

theorem witness_VectorPredicateAndScalarWordsIssue :
    VxMeets 0x030 (mVD ||| mVA ||| mVB ||| mPM ||| mMOD 7) (fun e => [fVA e, fVB e]) (fun _ e => decide (fVD e < 8) && fMOD e 0 3 != 7) 1 (ops [(0, 7), (24, 6)]) ∧
    VxMeets 0x031 (mVD ||| mVA ||| mVB ||| mMOD 3) (fun _ => []) (fun _ e => decide (fVD e < 8) && decide (fVA e < 8) && decide (fVB e < 8)) 11
      (ops [(0, 7), (5, 7), (10, 7), (24, 3)]) ∧
    VxMeets 0x032 (mPM ||| mSD) (fun _ => []) anyOk 11 (ops [(20, 7), (42, 31)]) ∧
    VxMeets 0x033 (mVD ||| mVA ||| mVB ||| mVC ||| mPM) (fun e => [fVD e, fVA e, fVB e]) (fun _ e => decide (fVC e < 8)) 11 (top3 ||| ops [(15, 7)]) ∧
    VxMeets 0x002 (mVD ||| (2 ^ 32 - 1) * 2 ^ 32) (fun _ => []) anyOk 11 (ops [(0, 31), (32, 2 ^ 32 - 1)]) ∧
    VxMeets 0x003 (mMOD 15 ||| mSA ||| mSB ||| mSD) (fun _ => []) (fun _ e => decide (fMOD e 0 4 ≤ 10)) 11 (ops [(24, 10), (42, 31)]) ∧
    VxMeets 0x004 (mVD ||| mVA ||| mMOD 1 ||| mSA ||| mSB ||| mSD) (fun e => [if fMOD e 0 1 = 1 then fVD e else fVA e]) anyOk 11 (ops [(0, 31), (24, 1)]) ∧
    VxMeets 0x001 0x7FFFFFF (fun _ => []) (fun _ e => [0, 1, 2, 10, 11].contains (opf e 21 4) && opf e 25 2 != 3) 1
      (ops [(0, 31), (10, 2047), (21, 11), (25, 2)]) := by
  and_intros <;> decide +kernel

theorem witness_VectorConversionAndMovementWordsIssue :
    VxMeets 0x068 (mVD ||| mVA ||| mVB ||| mPM) regs3 anyOk 1 top3 ∧
    VxMeets 0x069 (mVD ||| mVA ||| mPM ||| mMOD 1 ||| mSA) (fun e => [fVD e, fVA e]) anyOk 1 (ops [(0, 31), (24, 1), (32, 31)]) ∧
    VxMeets 0x078 (mVD ||| mVA ||| mVB ||| mPM) regs3 anyOk 11 top3 ∧
    VxMeets 0x060 (mVD ||| mVA ||| mPM ||| mMOD 15 ||| mSD) (fun e => [fVA e])
      (fun c e => decide (fMOD e 0 3 < 6) && (fMOD e 3 1 == 1 || decide (c.width ≤ 32)) && (fMOD e 3 1 == 0 || fVD e % c.ngrp == 0)) 1 (ops [(24, 5), (42, 31)]) ∧
    VxMeets 0x070 (mVD ||| mVA ||| mVC ||| mPM ||| mMOD 255 ||| mSA ||| mSD) (fun e => [fVD e, fVA e])
      (fun _ e => decide (fVC e < 8) && fSD e != 0 && fSD e % 2 == 0) 1 (ops [(15, 7), (42, 30)]) ∧
    VxMeets 0x071 (mVD ||| mVA ||| mVB ||| mPM ||| mMOD 1 ||| mSA ||| mSB ||| mSD) regs3
      (fun _ e => [fSA e, fSB e, fSD e].all (fun r => r != 0 && r % 2 == 0)) 1 (ops [(32, 2), (37, 30), (42, 4)]) ∧
    VxMeets 0x051 (mVD ||| mVA ||| mVB ||| mPM ||| mMOD 63 ||| mSA ||| mSB) regs3
      (fun c e => decide (3 ≤ fMOD e 0 4 ∧ fMOD e 0 4 ≤ 9) && (fMOD e 4 2 == 0 || fMOD e 4 2 == 2) && !srBad (fMOD e 4 2) (fSB e) (fSA e)
        && fPM e == 0 && c.vl % 32 == 0) 1 (ops [(24, 9 + 2 * 16), (37, 30)]) ∧
    VxMeets 0x07A (mVD ||| mVA ||| mPM ||| mMOD 63 ||| mSA ||| mSB ||| mSC ||| mSD) (fun e => [fVD e, fVA e])
      (fun _ e => decide (fMOD e 0 4 ≤ 2) && fMOD e 4 2 != 3 && !srBad (fMOD e 4 2) (fSB e) (fSD e) && fPM e == 0) 11 (ops [(24, 2 + 2 * 16), (37, 30)]) ∧
    VxMeets 0x079 (mVD ||| mVA ||| mPM ||| mMOD 63 ||| mSA) (fun e => [fVA e])
      (fun c e => (fMOD e 0 4 == 10 || fMOD e 0 4 == 11) && decide (fMOD e 4 2 < 2) && fVD e % c.grpOf (fMOD e 0 4) == 0
        && decide (fVD e + c.grpOf (fMOD e 0 4) ≤ 32)) 11 (ops [(0, 31), (24, 11 + 16)]) ∧
    VxMeets 0x050 (mVD ||| mVA ||| mPM ||| mMOD 255 ||| mSA ||| mSB ||| mSC) (fun e => [fVD e, fVA e])
      (fun c e => decide (fMOD e 0 4 ≤ 9) && fMOD e 4 2 != 3 && !srBad (fMOD e 4 2) (fSB e) (fSA e)
        && (fMOD e 7 1 == 1 || (fMOD e 0 4 != c.etype && fPM e == 0))
        && decide ((if fMOD e 7 1 = 0 then fVD e else fVA e) + regsFor (c.vlmax * typeWidth (fMOD e 0 4)) ≤ 32)) 1 (ops [(0, 31), (24, 9)]) := by
  and_intros <;> decide +kernel

theorem witness_VectorLoadsAndStoresIssue :
    let k : Core := { mxCore with vcrit := { VCtx.reset with etype := 1, vl := 32 } }
    (let w := mkWord 2 0x080 0 (ops [(0, 31)])
     let s := Queued .vx .crit w k
     let e : QEntry := ⟨w, 0, []⟩
     let c := (s.core 0).vctx .crit
     IssuesNext 0 .crit .vx w 0 e [] s ∧ lmCheck s 0 c 0x080 e = none ∧ (spadReads 0 (s.core 0) (lmWords c e ++ lmTagWords c e)).bad = none) ∧
    (let w := mkWord 2 0x081 0 (ops [(0, 31)])
     let s := Queued .vx .crit w k
     let e : QEntry := ⟨w, 0, []⟩
     let c := (s.core 0).vctx .crit
     IssuesNext 0 .crit .vx w 0 e [] s ∧ lmCheck s 0 c 0x081 e = none ∧ (spadMerge 0 (s.core 0) (joinWrites (vstWords c e))).toBool = true) ∧
    (let w := mkWord 2 0x090 0 (ops [(0, 31)])
     let s := Queued .vx .crit w k
     let e : QEntry := ⟨w, 0, []⟩
     let c := (s.core 0).vctx .crit
     let a := (((s.setCore 0 (issuedCore (s.core 0) .vx .crit e [])).mmaDrift 0 .crit (accArray e) (accGroup e)).core 0).array (accArray e)
     IssuesNext 0 .crit .vx w 0 e [] s ∧ vaccCheck .crit s 0 e = none ∧ (a.scanEls (accGroup e) (accStart (a.group (accGroup e)).desc e) c.vl).1 = none) := by
  unfold IssuesNext
  decide +kernel

theorem witness_VectorWordsWriteAtCompletion :
    (let f : InFlight := ⟨.vx, .crit, ⟨mkWord 2 0x081 0 0, 0, []⟩, false, false, 0, { VxWrites.none with spad := [(1, 3, 255)] }, .none, .none⟩
     let s := withCore { mxCore with inflight := [f] }
     s.physOf 0 = some 0 ∧ (s.core 0).inflight = [f] ∧ f.eng = .vx ∧ f.strm = .crit ∧ (toksOf f.ent.word).smode = 0 ∧
       (spadMerge 0 (s.core 0) f.vx.spad).toBool = true) ∧
    (let l : List (Nat × Nat) := [(0, 1), (127, 2)]
     128 ∈ [16, 32, 64, 128] ∧ 8 ≤ 8 ∧ 24 + 8 ≤ 32 ∧ (l.map Prod.fst).Nodup ∧ (∀ x ∈ l, 128 * (x.1 + 1) ≤ 2048 * 8) ∧ 128 * (127 + 1) ≤ 2048 * 8) := by decide +kernel

theorem witness_VectorPermutesMoveElements :
    let c : VCtx := { VCtx.reset with etype := 11, grp := 3, vl := 128 }
    c.etype ∈ [0, 1, 2, 10, 11] ∧ c.grp ≤ 3 ∧ c.vl ≤ c.vlmax ∧
    (let w := mkWord 2 0x068 0 (ops [(0, 24), (5, 16), (10, 8)])
     let s := Queued .vx .crit w { Core.reset with vcrit := c }
     let e : QEntry := ⟨w, 0, []⟩
     (s.core 0).vctx .crit = c ∧ IssuesNext 0 .crit .vx w 0 e [] s ∧ vxCheck c 0x068 (mVD ||| mVA ||| mVB ||| mPM) [fVD e, fVA e, fVB e] e = none) ∧
    (let c : VCtx := { VCtx.reset with etype := 1, grp := 3, vl := 1024 }
     let w := mkWord 2 0x069 0 (ops [(0, 24), (5, 16), (24, 1), (32, 1)])
     let s := Queued .vx .crit w { Core.reset with vcrit := c }
     let e : QEntry := ⟨w, 0, []⟩
     c.vl ≤ c.vlmax ∧ (s.core 0).vctx .crit = c ∧ IssuesNext 0 .crit .vx w 0 e [] s ∧
       vxCheck c 0x069 (mVD ||| mVA ||| mPM ||| mMOD 1 ||| mSA) [fVD e, fVA e] e = none) := by
  unfold IssuesNext
  decide +kernel

theorem witness_DataMoverWordsIssueAndComplete_issue :
    (let w := mkWord 3 0x001 0 (ops [(24, 1), (39, 0)])
     let s := Queued .dm .crit w Core.reset
     let e : QEntry := ⟨w, 0, []⟩
     IssuesNext 0 .crit .dm w 0 e [] s ∧ dmCheck .crit (fun c => mayRead c (.core 0)) s 0 e = none ∧ s.resolve (dmAddr e) = .loc 0) ∧
    (let w := mkWord 3 0x002 0 (ops [(24, 1), (39, 1)])
     let s := Queued .dm .crit w { Core.reset with spad := (span 0 32).map (fun i => (i, .stored 0 [])), spadChk := (span 0 16).map (fun i => (i, some 0)) }
     let e : QEntry := ⟨w, 0, []⟩
     IssuesNext 0 .crit .dm w 0 e [] s ∧ dmCheck .crit (fun c => mayWrite c (.core 0)) s 0 e = none ∧ s.resolve (dmAddr e) = .loc 128 ∧
       (spadReads 0 (s.core 0) (span (spaAddr e 0) (2 * dmNgr e))).bad = none) ∧
    (let w := mkWord 3 0x003 0 (ops [(24, 1024), (64, 7)])
     let s := Queued .dm .defr w Core.reset
     let e : QEntry := ⟨w, 0, []⟩
     IssuesNext 0 .defr .dm w 0 e [] s ∧ spaReserved e 0 = 0 ∧ opf e 48 16 = 0 ∧ spaAddr e 0 % 2 = 0 ∧ opf e 24 24 % 2 = 0 ∧ 2 ≤ opf e 24 24 ∧
       opf e 24 24 ≤ 1024 ∧ s.spanFault 0 (spaAddr e 0) (opf e 24 24) = none) ∧
    (let w := mkWord 3 0x004 0 (ops [(0, 12285), (16, 3)])
     let s := Queued .dm .crit w Core.reset
     let e : QEntry := ⟨w, 0, []⟩
     IssuesNext 0 .crit .dm w 0 e [] s ∧ opf e 32 64 = 0 ∧ opf e 16 16 ≠ 0 ∧ opf e 0 16 + opf e 16 16 ≤ nRegions ∧
       (span (opf e 0 16) (opf e 16 16)).all (fun i => (s.mem.region i).cls == 0 && !(s.mem.region i).lost) = true) := by
  unfold IssuesNext
  and_intros <;> decide +kernel

/-- A data mover word of the critical stream in flight, with data read and transfers waited for. -/
def dmFlight (opc : Nat) (o : BitVec 96) (x : DmXfer) : InFlight := ⟨.dm, .crit, ⟨mkWord 3 opc 0 o, 0, []⟩, false, false, 0, .none, x, .none⟩

theorem witness_DataMoverWordsIssueAndComplete_load :
    let f := dmFlight 0x001 (ops [(24, 1), (39, 0)]) .none
    let s := withCore { Core.reset with inflight := [f] }
    s.physOf 0 = some 0 ∧ (s.core 0).oldest .dm .crit = some (0, f) ∧ f.dm.waiting = 0 ∧ (toksOf f.ent.word).smode = 0 ∧ opcodeOf f.ent.word = 0x001 ∧
      s.resolve (dmAddr f.ent) = .loc 0 ∧ (State.loadLocal 0 0 (dmNgr f.ent) 0 (spaAddr f.ent 0) s).1 = none := by
  have hn : dmNgr (dmFlight 0x001 (ops [(24, 1), (39, 0)]) .none).ent = 1 := by decide +kernel
  refine ⟨?_, ?_, ?_, ?_, ?_, ?_, ?_⟩
  rotate_right
  · rw [hn, State.loadLocal, memRead_fresh (.core 0) (by unfold stackBytes; decide) (by decide +kernel) (by decide +kernel) (by decide +kernel)]
    rfl
  all_goals decide +kernel

theorem witness_DataMoverWordsIssueAndComplete_store :
    let f := dmFlight 0x002 (ops [(24, 1), (39, 1)]) ⟨[⟨0, 0⟩], 0, none⟩
    let s := withCore { Core.reset with inflight := [f] }
    s.physOf 0 = some 0 ∧ (s.core 0).oldest .dm .crit = some (0, f) ∧ f.dm.waiting = 0 ∧ (toksOf f.ent.word).smode = 0 ∧ opcodeOf f.ent.word = 0x002 ∧
      s.resolve (dmAddr f.ent) = .loc 128 ∧ (State.storeLocal 0 f.dm.data 128 s).1 = none := by decide +kernel

theorem witness_DataMoverWordsIssueAndComplete_fill :
    let f := dmFlight 0x003 0 .none
    let s := withCore { Core.reset with inflight := [f] }
    s.physOf 0 = some 0 ∧ (s.core 0).oldest .dm .crit = some (0, f) ∧ f.dm.waiting = 0 ∧ (toksOf f.ent.word).smode = 0 ∧ opcodeOf f.ent.word = 0x003 := by
  decide +kernel

theorem witness_SyncWordsAct_counters :
    (let w := mkWord 4 0x001 0 (ops [(0, 5), (16, 3), (52, 1)])
     let s := Queued .sy .crit w Core.reset
     let e : QEntry := ⟨w, 0, []⟩
     IssuesNext 0 .crit .sy w 0 e [] s ∧ syReserved e 0xFFFFFFFFFFFFFFFFF = none ∧ opf e 52 16 ≠ 0 ∧ opf e 30 1 = 0 ∧ opf e 18 12 = 0 ∧ opf e 31 20 = 0 ∧
       opf e 51 1 = 0 ∧ s.berylUp (ctrDie e) = true ∧ s.reaches 0 (ctrDie e) (opf e 0 16) = true) ∧
    (let w := mkWord 4 0x002 0 (ops [(0, 65535), (16, 0), (52, 65535)])
     let s := Queued .sy .crit w Core.reset
     let e : QEntry := ⟨w, 0, []⟩
     IssuesNext 0 .crit .sy w 0 e [] s ∧ syReserved e 0xFFFF000000003FFFF = none ∧ opf e 52 16 ≠ 0 ∧ s.berylUp (ctrDie e) = true ∧ s.reaches 0 (ctrDie e) (opf e 0 16) = true) ∧
    (let w := mkWord 4 0x003 0 (ops [(0, 5), (16, 1)])
     let s := Queued .sy .crit w Core.reset
     let e : QEntry := ⟨w, 0, []⟩
     IssuesNext 0 .crit .sy w 0 e [] s ∧ syReserved e 0x3FFFFF00000000000003FFFF = none ∧ spaAddr e 72 % 2 = 0 ∧ spaAddr e 72 + 2 ≤ spadWords ∧
       s.spanFault 0 (spaAddr e 72) 2 = none ∧ s.berylUp (ctrDie e) = true ∧ s.reaches 0 (ctrDie e) (opf e 0 16) = true) ∧
    (let w := mkWord 4 0x010 0 (ops [(0, 5), (18, 16383), (36, 1), (70, 63)])
     let s := Queued .sy .crit w Core.reset
     let e : QEntry := ⟨w, 0, []⟩
     IssuesNext 0 .crit .sy w 0 e [] s ∧ syReserved e 0xFFFFFFFFFFFFFF7FFFCFFFF = none ∧ (syWatch e).bad 0 = false ∧ s.berylUp 0 = true ∧
       (s.beryl 0).slot (opf e 18 14) = none ∧ condHolds (syWatch e).cond (syWatch e).n ((s.beryl 0).ctr (syWatch e).ctr) = false ∧ (s.beryl 0).slots = []) ∧
    (let w := mkWord 4 0x011 0 (ops [(18, 7)])
     let s := (Queued .sy .crit w Core.reset).setBeryl 0 (Beryl.reset.setSlot 7 (some ⟨1, 0, false, 5, 0, 1, 0, 0, false, false⟩))
     let e : QEntry := ⟨w, 0, []⟩
     IssuesNext 0 .crit .sy w 0 e [] s ∧ syReserved e 0xFFFC0000 = none ∧ s.berylUp 0 = true ∧ ((s.beryl 0).slot (opf e 18 14)).isSome = true) := by
  unfold IssuesNext
  and_intros <;> decide +kernel

theorem witness_SyncWordsAct_flows :
    (let w := mkWord 4 0x001 0 (ops [(0, 5), (18, 9), (30, 1), (31, 3), (52, 1)])
     let v := qv 1 [(180, 9)]
     let s := cached (Queued .sy .crit w Core.reset) 0 3 v
     let e : QEntry := ⟨w, 0, []⟩
     IssuesNext 0 .crit .sy w 0 e [] s ∧ syReserved e 0xFFFFFFFFFFFFFFFFF = none ∧ opf e 52 16 ≠ 0 ∧ opf e 30 1 = 1 ∧ opf e 51 1 = 0 ∧ s.syFlow 0 e = some 3 ∧ QCached s 0 3 v ∧
       qKind v = 1 ∧ qEn v = true ∧ qPeerPkg v = opf e 18 12 ∧ (s.flow 3).held = []) ∧
    (let w := mkWord 4 0x020 0 (ops [(31, 2 ^ 18 + 4)])
     let v := qv 1 []
     let s := cached (Queued .sy .crit w Core.reset) 1 4 v
     let e : QEntry := ⟨w, 0, []⟩
     IssuesNext 0 .crit .sy w 0 e [] s ∧ syReserved e 0xFFFFFBFFC0000 = none ∧ opf e 51 1 = 0 ∧ s.syFlow 0 e = some (2 ^ 18 + 4) ∧ QCached s 1 4 v ∧ qKind v = 1 ∧ qEn v = true ∧ (s.flow (2 ^ 18 + 4)).held = []) ∧
    (let w := mkWord 4 0x030 0 (ops [(0, 6), (18, 2), (52, 65535)])
     let v := qv 0 []
     let s := cached (Queued .sy .crit w Core.reset) 2 6 v
     let e : QEntry := ⟨w, 0, []⟩
     IssuesNext 0 .crit .sy w 0 e [] s ∧ syReserved e 0xFFFF00000000FFFFF = none ∧ opf e 52 16 ≠ 0 ∧ s.reaches 0 2 6 = true ∧ QCached s 2 6 v ∧ doorbellOk v (opf e 52 16) = true) ∧
    (let w := mkWord 4 0x031 0 (ops [(0, 6), (18, 2), (52, 2)])
     let v := qv 2 [(64, 2)]
     let s := cached (Queued .sy .crit w Core.reset) 2 6 v
     let e : QEntry := ⟨w, 0, []⟩
     IssuesNext 0 .crit .sy w 0 e [] s ∧ syReserved e 0xFFFF00000000FFFFF = none ∧ opf e 52 16 ≠ 0 ∧ s.reaches 0 2 6 = true ∧ QCached s 2 6 v ∧ consOk v (opf e 52 16) = true) := by
  unfold IssuesNext
  and_intros <;> decide +kernel

theorem witness_SyncWordsAct_complete :
    let f : InFlight := ⟨.sy, .defr, ⟨mkWord 4 0x002 0 0, 0, []⟩, false, false, 0, .none, .none, .none⟩
    let s : State := { withCore { Core.reset with inflight := [f] } with syAcks := [⟨0, .defr, .done⟩] }
    s.physOf 0 = some 0 ∧ s.syAcks = ⟨0, .defr, .done⟩ :: [] ∧ (s.core 0).oldest .sy .defr = some (0, f) ∧ (toksOf f.ent.word).smode = 0 := by decide +kernel

theorem witness_CounterOperationsAtTheBank_operations :
    ∀ o ∈ [(⟨23, .inc, 5, 1, .unit 0⟩ : BerOp), ⟨23, .dec, 5, 1, .unit 0⟩, ⟨23, .read, 5, 0, .unit 0⟩],
      let s := up.setBeryl 3 { (Beryl.reset.setSlot 2 (some ⟨1, 0, false, 5, 0, 1, 0, 0, false, false⟩)).setCtr 5 ctrMax with ops := [o] }
      s.berylUp 3 = true ∧ (s.beryl 3).ops = o :: [] ∧ o.port = 23 ∧ (∀ x ∈ (s.beryl 3).slots, ∀ w ∈ x.2, w.ctr ≠ o.ctr) ∧ (s.beryl 3).ctr o.ctr ≤ ctrMax := by
  decide +kernel

theorem witness_CounterOperationsAtTheBank_set :
    up.berylUp 0 = true ∧ (BitVec.ofNat 32 ctrMax).toNat ≤ ctrMax ∧ mapWf (fun _ => none) (up.beryl 0).slots := by decide +kernel

theorem witness_CounterOperationsAtTheBank_arm :
    let x : Watch := ⟨1, 0, false, 5, 0, 1, 0, 0, false, false⟩
    let b : Beryl := { Beryl.reset with staged := [(0, x.cfgBits), (1, x.tgtBits)] }
    (let s := up.setBeryl 1 b
     let w := watchOf (mapGet (fun _ => (0 : BitVec 64)) (s.beryl 1).staged 0) (mapGet (fun _ => (0 : BitVec 64)) (s.beryl 1).staged 1)
     s.berylUp 1 = true ∧ s.getF 1 fBerylWatchSelSlot = 0 ∧ (s.beryl 1).slot 0 = none ∧ w.bad 1 = false ∧ condHolds w.cond w.n ((s.beryl 1).ctr w.ctr) = false ∧
       (s.beryl 1).slots = []) ∧
    (let s := up.setBeryl 1 (Beryl.reset.setSlot 0 (some x))
     s.berylUp 1 = true ∧ s.getF 1 fBerylWatchSelSlot = 0 ∧ ((s.beryl 1).slot 0).isSome = true) := by decide +kernel

theorem witness_CounterOperationsAtTheBank_bounds :
    ∀ o ∈ [false, true], let w : Watch := ⟨1, 0, false, 5, 0, 1, 0, 3, false, o⟩
      let s : State := ((up.setBeryl 2 (Beryl.reset.setSlot 16383 (some w))).setF 2 (fBerylBoundUs.at 16) 100).setF 2 fBerylCfgFatalMult 2
      let s : State := { s with job := { s.job with running := true } }
      (s.beryl 2).slot 16383 = some w ∧ s.bounded 2 w = true ∧ s.gated 2 = false ∧ w.overran = o ∧ s.getF 2 fBerylCfgFatalMult ≠ 0 ∧ s.job.running = true := by
  decide +kernel

theorem witness_CounterOperationsAtTheBank_check : up.berylUp 0 = true ∧ up.job.running = false := by decide +kernel

theorem witness_QueueCountsMove :
    (let v := qv 0 [(128, 20)]
     QCached (cached up 0 5 v) 0 5 v ∧ min (qPending v) (qDepth v - qHeld v) ≠ 0) ∧
    (let v := qv 0 [(128, 65534)]
     let s : State := { cached up 3 (2 ^ 18 - 1) v with doorbells := [2 ^ 20 - 1] }
     s.doorbells = (2 ^ 20 - 1) :: [] ∧ doorbellOk v 1 = true) ∧
    (let v := qv 0 []
     QCached (cached up 1 7 v) 1 7 v ∧ doorbellOk v 65535 = true) := by
  and_intros <;> decide +kernel

theorem line_cached (s : State) (d i k : Nat) (v : BitVec 256) :
    ((cached s d i v).qe d).line k = if k = i then some ⟨v, false, (s.qe d).uses⟩ else (s.qe d).line k := by
  simp [cached, State.qe, State.setQe, QEngine.putLine, QEngine.line, mapGet_mapSet]

/-- With nothing in the state table, only cached entries can be pinned. -/
theorem pinned_blank {s : State} {d : Nat} (hm : s.mem = MemState.reset) (hc : ∀ k l, (s.qe d).line k = some l → qPin l.v = false) : s.pinned d = 0 := by
  refine List.countP_eq_zero.2 (fun k _ => ?_)
  have hz : ∀ g, s.mem.view g = 0 := fun g => by
    have he : MemState.reset.entryOf g = none := rfl
    simp only [MemState.view, hm, gran_reset, ite_self, he]
  have h0 : qPin 0#256 = false := by decide
  rw [State.qPeek]
  split
  · next l hl => simp [hc k l hl]
  · simp [hz, natBits, h0]

theorem witness_QueueCountsMove_view :
    let v := qv 0 []
    let s := cached (up.setReg 2 oQeQstate (BitVec.ofNat 64 (2 ^ 45 * 24 + 2 ^ 55))) 2 0 v
    QCached s 2 0 v ∧ s.getF 2 fQeQselQueue = 0 ∧ s.anyLive = false ∧ viewBad (s.qView 2) = false ∧ qPin (s.qView 2) = true ∧ qPin v = false ∧ s.pinned 2 < 4096 := by
  and_intros
  case refine_2.refine_2.refine_2.refine_2.refine_2.refine_2 =>
    rw [pinned_blank (by decide +kernel) (fun k l h => ?_)]
    · decide
    · rw [line_cached] at h
      split at h
      · injection h with h
        rw [← h]
        decide +kernel
      · have hn : ((up.setReg 2 oQeQstate (BitVec.ofNat 64 (2 ^ 45 * 24 + 2 ^ 55))).qe 2) = .reset := by decide +kernel
        rw [hn] at h
        exact absurd h (by simp [QEngine.line, QEngine.reset])
  all_goals decide +kernel

theorem witness_QueueCountsMove_miss :
    let v := qv 0 []
    let s := withGran up (up.qstAddr 1 3 / 128) (v.toNat * 2 ^ (8 * (up.qstAddr 1 3 % 128)))
    let s := s.setQe 1 { s.qe 1 with waiting := [⟨3, .doorbell 9, .reg⟩] }
    let r := ((s.setQe 1 { s.qe 1 with waiting := [] }).memRead (.queueEngine 1) (s.qstAddr 1 3 / 128)).1
    s.qeUp 1 = true ∧ (s.qe 1).waiting = [⟨3, .doorbell 9, .reg⟩] ∧ (s.qe 1).line 3 = none ∧ ((s.qe 1).setLines 3).length < 16 ∧ s.qstAddr 1 3 = up.qstAddr 1 3 ∧
      r = .ok (BitVec.ofNat 1024 (v.toNat * 2 ^ (8 * (up.qstAddr 1 3 % 128)))) ⟨chkOf (BitVec.ofNat 1024 (v.toNat * 2 ^ (8 * (up.qstAddr 1 3 % 128)))), 0, 0⟩ ∧
      BitVec.ofNat 256 (natBits (BitVec.ofNat 1024 (v.toNat * 2 ^ (8 * (up.qstAddr 1 3 % 128)))).toNat (8 * (up.qstAddr 1 3 % 128)) 256) = v ∧ doorbellOk v 9 = true := by
  decide +kernel

/-- A ring descriptor from granule 0 of stack memory to a destination. -/
def ringDesc (dst : Nat) : Nat := 2 ^ 128 + dst * 2 ^ 64

theorem witness_DescriptorsAndLandingsMove_start :
    (let v := qv 0 [(64, 1)]
     let s := cached (withGran up 512 (ringDesc 128)) 0 5 v
     let x := BitVec.ofNat 256 (ringDesc 128)
     QCached s 0 5 v ∧ qKind v = 0 ∧ qEn v = true ∧ qErr v = false ∧ qDepth v ≠ 0 ∧ qHeld v ≠ 0 ∧ mapGet (fun _ => none) (s.qe 0).running 5 = none ∧
       ((s.qGet 0 5).2.readBytes (.queueEngine 0) (qEntryAt v (qCons v)) 32).1 = some (leBytes (ringDesc 128) 32) ∧
       BitVec.ofNat 256 (leNat (leBytes (ringDesc 128) 32)) = x ∧ ringBad false x = false ∧ ringAddrBad false (qPeerPkg v) x = false) ∧
    (let v := qv 1 [(64, 1), (180, 9)]
     let dst := 2 ^ 60 + 9 * 2 ^ 48
     let s := cached (withGran up 512 (ringDesc dst)) 0 5 v
     let x := BitVec.ofNat 256 (ringDesc dst)
     let r := (s.qGet 0 5).2.readBytes (.queueEngine 0) (qEntryAt v (qCons v)) 32
     let u := r.2.setQe 0 { r.2.qe 0 with running := mapSet (fun _ => none) (r.2.qe 0).running 5 (some x) }
     QCached s 0 5 v ∧ qKind v = 1 ∧ qEn v = true ∧ qErr v = false ∧ qDepth v ≠ 0 ∧ qHeld v ≠ 0 ∧ mapGet (fun _ => none) (s.qe 0).running 5 = none ∧
       r.1 = some (leBytes (ringDesc dst) 32) ∧ BitVec.ofNat 256 (leNat (leBytes (ringDesc dst) 32)) = x ∧ ringBad true x = false ∧
       ringAddrBad true (qPeerPkg v) x = false ∧ dRsig x = false ∧ (State.sendDesc 0 5 x (xferSizes (dNgr x)) 0 u).1 = true) := by
  and_intros <;> decide +kernel

/-- A state in which queue 5 of die 0 has a descriptor in progress. -/
def inProgress (v x : BitVec 256) : State :=
  let s := withGran up 0 7
  cached (s.setQe 0 { s.qe 0 with running := [(5, some x)] }) 0 5 v

theorem witness_DescriptorsAndLandingsMove_complete :
    (let v := qv 0 [(64, 1)]
     let x := BitVec.ofNat 256 (ringDesc 128)
     let s := inProgress v x
     let g := (s.qGet 0 5).2
     QCached s 0 5 v ∧ qKind v = 0 ∧ mapGet (fun _ => none) (s.qe 0).running 5 = some x ∧
       (State.copyLocal (.queueEngine 0) (localOf (dSrc x)) (localOf (dDst x)) (dNgr x) 0
         (g.setQe 0 { g.qe 0 with running := mapSet (fun _ => none) (g.qe 0).running 5 none })).1 = true) ∧
    (let v := qv 1 [(64, 1)]
     let x := BitVec.ofNat 256 (ringDesc (2 ^ 60))
     let s := inProgress v x
     QCached s 0 5 v ∧ qKind v = 1 ∧ mapGet (fun _ => none) (s.qe 0).running 5 = some x ∧ (s.flow 5).held = []) := by
  and_intros <;> decide +kernel

theorem witness_DescriptorsAndLandingsMove_credit :
    (let v := qv 1 [(194, 3)]
     let it : FlowItem := ⟨⟨0, XHead.zero, [], false⟩, 3, .none⟩
     let s := cached (up.setFlow 5 { Flow.empty with held := [it] }) 0 5 v
     QCached s 0 5 v ∧ (s.flow 5).held = [it] ∧ it.need ≤ qCredit v) ∧
    (let v := qv 2 [(180, 9)]
     let s := cached (up.setQe 0 { QEngine.reset with freed := [(5, 70000)] }) 0 5 v
     QCached s 0 5 v ∧ min 65535 (mapGet (fun _ => 0) (s.qe 0).freed 5) ≠ 0 ∧ qPeerPkg v ≠ s.pkgId) := by
  and_intros <;> decide +kernel

/-- A VERDICT descriptor of a ring of one rank, its peer table at granule 2048. -/
def collDesc : Nat := 5 + 2 ^ 32 + 2 ^ 192 + 0x40000 * 2 ^ 256 + 2 ^ 432 + 32 * 2 ^ 448

/-- A state whose collective program of die 1 begins with that descriptor. -/
def collective : State :=
  let s := withGran (withGran up (up.ceAddr 1 0 / 128) collDesc) 2048 (2 ^ (128 + 16))
  cached s 1 0 (qv 2 [(64, 1)])

theorem witness_DescriptorsAndLandingsMove_collective :
    let v := qv 2 [(64, 1)]
    let s := collective
    let u := ((s.qGet 1 0).2.qPut 1 0 (qAddCons v 1)).noteFreed 1 0 v 1
    let x : BitVec 512 := BitVec.ofNat 512 collDesc
    let r := u.readRun (.collective 1) (s.ceAddr 1 0) 64
    let p := r.2.dataRun (.collective 1) (cPeers x) (cPeerBytes x)
    let ps := leBytes (2 ^ (128 + 16)) 32
    s.getF 1 fCeCfgTrigq = 0 ∧ s.getF 1 fCeStatusNext = 0 ∧ s.ceUp 1 = true ∧ s.flag 1 fCeStatusHalted = false ∧ (s.runs 1).length < 8 ∧ QCached s 1 0 v ∧ qKind v = 2 ∧
      qEn v = true ∧ qErr v = false ∧ 16 ≤ qDepth v ∧ qPeerPkg v = s.pkgId ∧ qHeld v ≠ 0 ∧ r.1 = some (leBytes collDesc 64) ∧
      BitVec.ofNat 512 (leNat (leBytes collDesc 64)) = x ∧ cRefused x (r.2.getF 1 fCeLayoutGenGen) = false ∧ p.1 = some ps ∧ (peersOf ps (cEntries x)).2 = false ∧
      rolesOk x (peersOf ps (cEntries x)).1 = true := by
  and_intros <;> decide +kernel

theorem witness_DescriptorsAndLandingsMove_collective_complete :
    let r : CRun := ⟨4, 0, [], [], [], []⟩
    let s : State := { up with ces := [(1, [r])] }
    s.ceUp 1 = true ∧ s.flag 1 fCeStatusHalted = false ∧ s.runs 1 = [r] ∧ r.received = true ∧ mapGet (fun _ => 0) s.collSent (1 * 4096 + r.ix) = 0 := by
  decide +kernel

/-- A granule at hand to every requester of a running package, in a region that takes it. -/
def Ready (s : State) (r : Requester) (g : Nat) : Prop :=
  AtHand s r g ∧ mayRead (s.mem.region (granRegion g)).cls r = true ∧ mayWrite (s.mem.region (granRegion g)).cls r = true ∧ (s.mem.region (granRegion g)).lost = false

theorem witness_StackMemoryAccesses_read :
    let g := stackBytes / 128 - 1
    (Ready up (.core 0) g ∧ up.mem.entryOf g = none ∧ GoodGran up.mem g) ∧
    (let s : State := { up with mem := { MemState.reset with regions := [(granRegion g, { Region.reset with epoch := 5 })] } }
     Ready s (.jasper 3) g ∧ s.mem.entryOf g = none ∧ s.mem.errsOf g = [] ∧ (s.mem.metaOf g).epoch ≠ (s.mem.region (granRegion g)).epoch) ∧
    (let s := withGran up 5 7
     Ready s (.core 0) 5 ∧ s.mem.entryOf 5 = none ∧ (s.memRead (.core 0) 5).1 = .ok 7 ⟨chkOf 7, 0, 0⟩ ∧
       (s.mem.damage 5 [⟨71, 1⟩]).decode 5 = .corrected [⟨71, 1⟩] 7 ⟨chkOf 7, 0, 0⟩ ∧ (s.mem.region (granRegion 5)).epoch = 0) := by
  unfold Ready AtHand GoodGran
  decide +kernel

theorem witness_StackMemoryAccesses_write :
    let g := stackBytes / 128 - 1
    Ready up (.core 0) g ∧ (1 : BitVec 16) ≠ chkOf 0 ∧ up.stackNear (.jasper 3) g = true ∧
    (1 : BitVec 128) ≠ 0 ∧ (1 : BitVec 128) ≠ BitVec.allOnes 128 ∧ up.mem.entryOf g = none ∧ (up.mem.mergeBuf (granChan g)).length < 64 ∧ GoodGran up.mem g ∧
    (let e : MergeEntry := ⟨g, 2, 9, .core 0, [(.core 0, true)]⟩
     let s : State := { up with mem := up.mem.setMerge (granChan g) [e] }
     Ready s (.core 0) g ∧ s.mem.entryOf g = some e ∧ e.mask ||| 1 ≠ BitVec.allOnes 128) := by
  unfold Ready AtHand GoodGran
  decide +kernel

theorem witness_StackMemoryAccesses_timeout :
    up.mem.entryOf 0 = none ∧
    (let e : MergeEntry := ⟨0, BitVec.allOnes 128, 9, .core 0, [(.core 0, true)]⟩
     ({ up with mem := up.mem.setMerge (granChan 0) [e] } : State).mem.entryOf 0 = some e) ∧
    (let e : MergeEntry := ⟨0, 1, 9, .core 0, [(.core 0, true)]⟩
     let m := up.mem.setMerge (granChan 0) [e]
     m.entryOf 0 = some e ∧ (m.region (granRegion 0)).lost = false ∧ GoodGran m 0) := by
  unfold GoodGran
  decide +kernel

theorem witness_StackMemoryAccesses_refused :
    (let s : State := { up with mem := { MemState.reset with regions := [(0, { Region.reset with cls := 3 })] } }
     AtHand s (.core 0) 0 ∧ mayRead (s.mem.region 0).cls (.core 0) = false ∧ mayWrite (s.mem.region 0).cls (.core 0) = false) ∧
    (let s : State := { up with mem := { MemState.reset with regions := [(0, { Region.reset with lost := true })] } }
     AtHand s (.core 0) 0 ∧ (s.mem.region 0).lost = true ∧ mayRead (s.mem.region 0).cls (.core 0) = true ∧ mayWrite (s.mem.region 0).cls (.core 0) = true) := by
  unfold AtHand
  decide +kernel

theorem witness_MemoryUpkeep :
    up.physOf 63 = some 69 ∧
    (let s := up.setF 3 fMcScrubStatusPosition (3 * stackGrans - 2)
     let p := s.getF 3 fMcScrubStatusPosition
     let k := 3 * 3 + p / stackGrans
     let g := stackGran k (p % stackGrans)
     s.dieUp 3 = true ∧ s.getF 3 fMcCfgScrubHours ≠ 0 ∧ s.stackUp k = true ∧ s.mem.errsOf g = [] ∧ chkOf (s.mem.gran g) = (s.mem.metaOf g).chk ∧ p + 1 < 3 * stackGrans) ∧
    (let s := withCore { Core.reset with spad := [(196607, .stored 3 [⟨67, 255⟩])] }
     s.dieUp (pcDie 0) = true ∧ s.getF (pcDie 0) fMcCfgSpadScrubHours ≠ 0 ∧ (s.core 0).spadWord 196607 = .stored 3 [⟨67, 255⟩]) ∧
    (let s := up.setFunc (stackFunc 11) 1
     s.mem.wf ∧ s.dieUp (11 / 3) = true ∧ s.func (stackFunc 11) = 1 ∧ s.flag (11 / 3) (stackF 11 fMcStkStatusSwept) = false ∧ granStack 44 = 11 ∧ granStack 0 ≠ 11) := by
  decide +kernel

theorem witness_RegionCommandsApply :
    (up.dieUp 0 = true ∧ up.regionBusy 0 = false ∧ (1 : BitVec 16) ≠ 0 ∧ (49151 : BitVec 16).toNat + (1 : BitVec 16).toNat ≤ nRegions ∧ up.anyLive = false) ∧
    (let m : MemState := { MemState.reset with restoring := [131072 * 7], regions := [(7, { Region.reset with cls := 3 })] }
     m.restoring.any (fun g => granRegion g == (7 : BitVec 16).toNat) = true ∧ m.waiters = [] ∧
     ({ Flash.reset with ops := [.restore 7] } : Flash).ops.head? = some (.restore (7 : BitVec 16).toNat)) := by decide +kernel

theorem witness_RegionCommandsApply_complete :
    ∀ op < 4, let o : RegionOp := ⟨.register 2, op, 5, 3, 1⟩
      let m : MemState := { MemState.reset with regionOps := [o] }
      m.regionOps = [o] ∧ o.src = .register 2 ∧ o.op ≤ 3 ∧ o.cls ≤ 3 ∧ (∀ r, (m.region r).epoch < 64) ∧ ∀ e ∈ m.errs, (m.region (granRegion e.1)).age < 63 := by
  intro op h
  exact ⟨rfl, rfl, Nat.le_of_lt_succ h, (by decide : 1 ≤ 3), fun _ => Nat.zero_lt_succ 63, by simp [MemState.reset]⟩

/-- A flit as it is sent, next in order. -/
def goodFlit (typ pay : Nat) : BitVec 2160 := (Flit.mk typ 2 0 0 0 0 0 0 0 (BitVec.ofNat 2048 pay)).bits

theorem witness_EwerlinkPortsFollowTheirProtocol_receive :
    up.portUp 11 = true ∧
    (∀ t ∈ [1, 2], let o := (up.port 11).fec (goodFlit t (2 ^ 10)) []
      (up.port 11).refuse o.flit o.bad = none ∧ (flitOf o.flit).typ = t) ∧
    (let o := (up.port 11).fec (Flit.mk 0 0 0 0 0 0 0 0 0 0).bits []
     (up.port 11).refuse o.flit o.bad = none ∧ (flitOf o.flit).typ = 0) ∧
    (let o := (up.port 11).fec 0 []
     (up.port 11).refuse o.flit o.bad = some 1 ∧ (up.port 11).skip = none) ∧
    (let x : Port := { Port.reset with rxSeq := 5, skip := some 7 }
     let o := x.fec (Flit.mk 1 2 7 0 0 0 0 0 0 0).bits []
     x.refuse o.flit o.bad = some 3 ∧ x.passes o.flit 3 7 = true ∧ x.passes (0 : BitVec 2160) 1 7 = true ∧ x.passes (Flit.mk 1 2 5 0 0 0 0 0 0 0).bits 3 7 = false) := by
  decide +kernel

theorem witness_EwerlinkPortsFollowTheirProtocol_send :
    (let z : TxFlit := ⟨⟨1, 0, 5, 0, 0, 0, 0, 0, 0, 0⟩, 0⟩
     let y : TxFlit := ⟨⟨1, 0, 4, 0, 0, 0, 0, 0, 0, 0⟩, 0⟩
     let s := up.setPort 3 { Port.reset with replay := [y] ++ z :: [] }
     s.portUp 3 = true ∧ (s.port 3).replay = [y] ++ z :: [] ∧ z.f.seq = (5 : BitVec 10).toNat ∧ (∀ x ∈ [y], x.f.seq ≠ (5 : BitVec 10).toNat)) ∧
    (up.port 3).nextClass (up.weights 3) = none ∧
    (let s := up.setPort 3 { Port.reset with refusals := 8 }
     s.portUp 3 = true ∧ 8 ≤ (s.port 3).refusals) ∧
    (let s := up.setPort 3 { Port.reset with fecTimes := [0, 0, 0] }
     s.portUp 3 = true ∧ s.fecOver 3 = true) := by decide +kernel

theorem witness_EwerlinkPortsFollowTheirProtocol_training :
    ∀ n ∈ [0, 2], let s := (up.setFunc (portFunc 7) 1).setPort 7 { Port.reset with fails := n }
      s.dieUp (portDie 7) = true ∧ s.func (portFunc 7) = 1 ∧ (s.port 7).fails = n := by decide +kernel

/-- A transfer of a kind to a package, of flow 3, with a number of granules. -/
def xfer (kind dst ngr : Nat) : Xfer :=
  ⟨0, { XHead.zero with kind := kind, dst := dst, src := 9, flow := 3, ngr := ngr, hops := 5 }, List.replicate ngr ⟨0, 0⟩, false⟩

/-- The package admitted to its domain, both port dies admitted, with a route entry of a die for plane 0. -/
def routed (die dst next : Nat) : State :=
  let s := ((up.setF 4 fD2dAdmitAdmitted 1).setF 5 fD2dAdmitAdmitted 1).setF common fPkgIdIdValid 1
  { s with routes := mapSet (fun _ => 0) s.routes (die * 2 ^ 14 + dst) (BitVec.ofNat 16 next) }

theorem witness_TransfersAndMessagesTravel_originate :
    (let s := (routed 1 9 11).setFlow (2 ^ 18 + 3) { Flow.empty with placed := [xfer 0 9 1] }
     s.dieUp 1 = true ∧ (s.fiNext 1 (.flow 3)).map Prod.fst = some (xfer 0 9 1) ∧ winner (s.xbar 1 0 0).next (s.fiInputs 1 0) = some (srcInput (.flow 3)) ∧
       nextOf (s.route 1 0 9) = .port 11 ∧ s.func (portFunc 11) ≠ 5 ∧ s.gateTo 1 (portDie 11) = some 1) ∧
    (let s : State := { routed 1 0 0xFFF with resp := [(1, [xfer 6 0 0])] }
     (s.fiNext 1 .response).map Prod.fst = some (xfer 6 0 0) ∧ winner (s.xbar 1 0 0).next (s.fiInputs 1 0) = some (srcInput .response) ∧
       s.reaches 1 0 0 = true ∧ s.outside 0 (xfer 6 0 0).h = false ∧ nextOf (s.route 1 0 0) = .here ∧ s.pkgId = 0 ∧ s.dieUp 0 = true ∧ s.idValid = true ∧
       (xfer 6 0 0).bad = false ∧ ngrOk (xfer 6 0 0).h = true) := by decide +kernel

/-- The goals of a transfer at port 0: another port of its die, across to the other port die, and delivery, with the output of each. -/
def hopCases : List (Nat × Nat × HopGoal × Nat) := [(3, 9, .port 3, 3), (9, 9, .die 2 (some 3), 7), (0xFFF, 0, .die 0 none, 6)]

theorem witness_TransfersAndMessagesTravel_out :
    let m : DieMsg := ⟨0, 5, 4 * 5 + 1, 3, 4, .fabOut 5 (xfer 0 9 1)⟩
    let s : State := { routed 4 9 3 with msgs := [m] }
    s.admitted 5 = true ∧ s.msgs = m :: [] ∧ m.at_ / 4 = 5 ∧ s.xbarGrants 5 5 0 (12 + m.at_ % 4) = true ∧ mapGet (fun _ => []) (s.port 11).tx 0 = [] := by
  decide +kernel

theorem witness_TransfersAndMessagesTravel_head :
    ∀ z ∈ hopCases, let s := (routed 4 z.2.1 z.1).setPort 0 { Port.reset with rx := [(0, (xfer 0 z.2.1 1).flits)] }
      let f := headFlit 0 (xfer 0 z.2.1 1).h
      s.admitted (portDie 0) = true ∧ s.rxFlit 0 0 = some f ∧ s.hop 0 0 = none ∧ f.typ = 1 ∧ headBad (fld f.pay 0 2048) = false ∧
        s.hopGoal 4 (headOf (fld f.pay 0 2048)) = some z.2.2.1 ∧ outOf z.2.2.1 = some z.2.2.2 ∧ s.xbarGrants 4 z.2.2.2 0 (inputOf 0 0) = true ∧
        s.portTakes 3 0 = true := by decide +kernel

theorem witness_TransfersAndMessagesTravel_data :
    ∀ g ∈ [HopGoal.port 3, .die 2 (some 3), .die 0 none, .drain], ∀ n ∈ [2, 1],
      let f : Flit := ⟨2, 0, 0, 0, 0, 0, 2 - n, 0, 0, 0⟩
      let r : HopRun := ⟨g, { XHead.zero with ngr := 4 }, n, [], false⟩
      let s := (routed 4 9 3).setPort 0 { Port.reset with rx := [(0, [f])], hops := [(0, some r)] }
      s.admitted (portDie 0) = true ∧ s.rxFlit 0 0 = some f ∧ s.hop 0 0 = some r ∧ f.typ = 2 ∧ r.bad = false ∧ f.idx + r.left = dataFlits r.head ∧ r.head.kind ≠ 8 ∧
        s.portTakes 3 (2 * 0 + r.head.vl) = true := by decide +kernel

theorem witness_TransfersAndMessagesTravel_arrive :
    (let x : Xfer := { xfer 0 0 1 with h := { (xfer 0 0 1).h with rdie := 2 } }
     let m : DieMsg := ⟨4, 2, 2, 3, 4, .fabIn 0 none x⟩
     let s : State := { routed 0 0 0 with msgs := [m] }
     s.dieUp 0 = true ∧ s.msgs = m :: [] ∧ m.at_ / 4 = 0 ∧ s.dieUp 2 = true ∧ s.reaches 0 2 0 = true ∧ s.trackFull 2 x = false ∧ s.idValid = true ∧
       s.outside 2 x.h = false ∧ x.bad = false ∧ ngrOk x.h = true ∧ x.h.rdie = 2) ∧
    (let m : DieMsg := ⟨4, 5, 2, 3, 4, .fabIn 0 (some 3) (xfer 0 9 1)⟩
     let s : State := { routed 0 0 0 with msgs := [m] }
     s.msgs = m :: [] ∧ m.at_ / 4 = 0 ∧ s.gateTo 0 5 = some 1) := by decide +kernel

theorem witness_TransfersAndMessagesTravel_registers :
    (∀ b ∈ [MsgBody.cfgRd 1 oFuseState, .cfgWr 1 oFuseState 7], let m : DieMsg := ⟨0, 5, 4 * 5, 4, 1, b⟩
      let s : State := { routed 0 0 0 with msgs := [m] }
      s.dieUp 5 = true ∧ s.msgs = m :: [] ∧ m.at_ / 4 = 5 ∧ s.flag 5 fD2dAdmitAdmitted = true ∧ (regSpecOf 5 oFuseState).isSome = true) ∧
    (∀ e ∈ [false, true], let m : DieMsg := ⟨5, 1, 4 * 1 + 2, 4, 1, .cfgRsp 8 e 7⟩
      let s : State := { up with msgs := [m], cfgOuts := [(5, 8, cfgAddr 5 oFuseState)] }
      s.dieUp 1 = true ∧ s.msgs = m :: [] ∧ m.at_ / 4 = 1 ∧ s.cfgOuts = [(m.src, 8, cfgAddr 5 oFuseState)]) := by decide +kernel

theorem witness_ArrivedTransfersTakeEffect_granules :
    (up.setFi 2 [xfer 0 0 2]).fi 2 = xfer 0 0 2 :: [] ∧ (xfer 0 0 2).h.kind = 0 ∧
    (let v := qv 2 [(41, 2), (160, 3)]
     let x : Xfer := { xfer 1 0 2 with h := { (xfer 1 0 2).h with peerQ := 2 ^ 18 + 8 } }
     let s := cached (up.setFi 1 [x]) 1 8 v
     s.fi 1 = x :: [] ∧ x.h.kind = 1 ∧ QCached s (x.h.peerQ / 2 ^ 18) (x.h.peerQ % 2 ^ 18) v ∧ landBad v x = false) ∧
    (up.setFi 2 [xfer 2 0 0]).fi 2 = xfer 2 0 0 :: [] ∧ (up.setFi 2 [xfer 3 0 0]).fi 2 = xfer 3 0 0 :: [] := by
  and_intros <;> decide +kernel

theorem witness_ArrivedTransfersTakeEffect_acknowledged :
    (let g : InFlight := ⟨.sy, .crit, ⟨mkWord 4 0x020 0 0, 0, []⟩, false, false, 0, .none, .none, .none⟩
     let s : State := { (withCore { Core.reset with inflight := [g] }).setFi 0 [xfer 4 0 0] with fences := [(3, 0, .crit)] }
     s.fi 0 = xfer 4 0 0 :: [] ∧ s.fences = (3, 0, .crit) :: [] ∧ s.physOf 0 = some 0 ∧ (s.core 0).oldest .sy .crit = some (0, g) ∧ (toksOf g.ent.word).smode = 0) ∧
    (let v := qv 1 []
     let x : Xfer := { xfer 5 0 0 with h := { (xfer 5 0 0).h with peerQ := 8, amount := 7 } }
     let s := cached (up.setFi 0 [x]) 0 8 v
     s.fi 0 = x :: [] ∧ x.h.kind = 5 ∧ QCached s (x.h.peerQ / 2 ^ 18) (x.h.peerQ % 2 ^ 18) v ∧ qKind v = 1) := by
  and_intros <;> decide +kernel

theorem witness_ArrivedTransfersTakeEffect_released :
    ∀ z ∈ [2, 3], let x : Xfer := { xfer z 0 0 with h := { (xfer z 0 0).h with addr := 3 * 65536 + 5, amount := 1 } }
      let k : Track := ⟨9, 3, 0, 0, false, [⟨x, 0⟩]⟩
      let s := up.setTracks 1 [k]
      releasable z (s.trackTab 1) = some (x, { k with held := [] }) ∧ x.h.amount ≠ 0 ∧ s.berylUp (natBits x.h.addr 16 2) = true ∧
        s.reaches (BerOp.from ⟨diePort 3 1, .inc, 5, 1, .fabric 9 3⟩ 3) 3 5 = true := by decide +kernel

theorem witness_AnswersAndFabricTime_answers :
    ((up.setFi 0 [xfer 6 0 0]).fi 0 = xfer 6 0 0 :: [] ∧ (xfer 6 0 0).h.kind = 6) ∧
    ((up.setFi 0 [xfer 8 0 1]).fi 0 = xfer 8 0 1 :: [] ∧ (xfer 8 0 1).h.kind = 8) ∧
    (∀ w ∈ [ReadFor.dm 0 1 0, .item 0 1 64], let o : ReadOut := ⟨0, w, 0, 1⟩
      let s : State := { up.setFi 0 [xfer 9 0 1] with reads := [o] }
      s.fi 0 = xfer 9 0 1 :: [] ∧ s.reads = [o] ∧ o.tag = (xfer 9 0 1).h.tag ∧ o.left ≤ (xfer 9 0 1).h.ngr ∧ (xfer 9 0 1).h.status = 0 ∧
        (State.stageWrite 0 (xfer 9 0 1).data 64 (({ s.setFi 0 [] with reads := [] }).bump 0 fUpdFetchCntCount 1)).1 = true) := by decide +kernel

theorem witness_AnswersAndFabricTime_messages :
    (let x : Xfer := { xfer 7 0 1 with data := [⟨0, chkOf 0⟩] }
     let y : CRun := ⟨0, BitVec.ofNat 512 (1 + 2 * 2 ^ 32 + 32 * 2 ^ 192 + 2 ^ 432 + 32 * 2 ^ 448), [⟨0, 9, 0, 0⟩, ⟨1, 9, 0, 0⟩], [], [], []⟩
     let s : State := { up.setFi 3 [x] with ces := [(3, [y])] }
     s.fi 3 = x :: [] ∧ x.h.kind = 7 ∧ s.ceUp 3 = true ∧ s.flag 3 fCeStatusHalted = false ∧ s.chunkFate 3 x.h false (fun p => p.pkg == x.h.src) = .take y 1 ∧
       (∀ g ∈ x.data, chkOf g.v = g.chk) ∧ (mapGet (fun _ => []) y.part 1 ++ x.data).length < wireLen y.desc (cSpan y.desc (y.chunkOf (y.gotOf 1))).2) ∧
    (let x : Xfer := { xfer 10 0 1 with data := [⟨BitVec.ofNat 1024 (7 + 4 * 2 ^ 64 + 2 ^ 72 + 9 * 2 ^ 96), 0⟩] }
     (up.setFi 3 [x]).fi 3 = x :: [] ∧ x.h.kind = 10 ∧ boundOf x.data = some ⟨7, 4, 1, 0, 9⟩) ∧
    ((up.setTracks 2 [⟨9, 3, 0, 1, false, []⟩]).track 2 (9 : BitVec 12).toNat (3 : BitVec 20).toNat).unreported ≠ 0 := by decide +kernel

theorem witness_AnswersAndFabricTime_time :
    (∀ t ∈ [false, true], let s := (up.setF 1 fFiCfgTimeUp 6).modDie 1 (fun x => { x with timed := t })
      s.portUp 6 = true ∧ s.dieUp 1 = true ∧ s.getF 1 fFiCfgTimeUp = 6 ∧ s.flag 1 fFiCfgTimeRoot = false ∧ (s.die 1).timed = t) ∧
    ((up.modDie 1 (fun x => { x with syncAt := some (7, 9) })).die 1).syncAt = some (7, 9) ∧
    up.portUp 0 = true ∧
    (let s := up.setF 0 fFiTimeStatLocked 1
     s.dieUp 0 = true ∧ s.flag 0 fFiTimeStatLocked = true ∧ s.flag 0 fFiCfgTimeRoot = false ∧ s.lead = 0) := by decide +kernel

theorem witness_TaskPhasesFollow_end :
    let s := (span 0 4).foldl (fun (s : State) d => s.setF d fStepResultValid 1) { withJob (fun j => { j with phase := 2 }) with timeKids := [3] }
    s.job.running = true ∧ s.job.starting = false ∧ s.job.ended = false ∧ s.job.sent = false ∧ s.job.childEnds.length < s.timeKids.length ∧
      (∀ d < 4, s.dieEnded s.job.phase d = true) ∧ (s.digestStep = true → s.job.compared = true) ∧ s.job.phase = 2 := by decide +kernel

theorem witness_TaskPhasesFollow_messages :
    ∀ z ∈ [(0, 0, 0), (1, 0, 4), (1, 0, 3), (1, 1, 4), (1, 2, 4)], let m : BMsg := ⟨0, z.2.2, z.1, z.2.1, 9⟩
      let s : State := { withJob (fun j => { j with phase := z.2.2, sent := true, ended := false }) with bounds := [m] }
      s.bounds = m :: [] ∧ s.job.running = true ∧ s.between = false ∧ s.strange m = false ∧ m.kind = z.1 ∧ m.status = z.2.1 ∧ s.job.ended = false ∧ s.job.sent = true ∧
        s.job.starting = false ∧ s.job.phase = z.2.2 ∧ s.ctl.reading = false ∧ s.pkgFatal = false := by decide +kernel

/-- With an image that names one NORM range. -/
theorem witness_TaskPhasesFollow_norm (h : Config.imageOf [] = { noImage with norm := [⟨0, 0, 1, 0, 5⟩] }) :
    let s : State := { cached (withJob (fun j => { j with phase := 1 })) 0 5 (qv 0 [(64, 1)]) with ctl := { Ctl.reset with image := some [] } }
    (s.image.norm.filter (fun r => r.die == 0))[0]? = some ⟨0, 0, 1, 0, 5⟩ ∧ s.dieUp 0 = true ∧ s.job.running = true ∧ s.job.starting = false ∧ s.job.phase = 1 ∧
      0 ∉ (s.upd 0).normDone ∧ (s.parked 0 5).1 = true ∧ ((s.parked 0 5).2.readRun (.update 0) 0 (128 * 1)).1.isSome = true := by
  refine ⟨?_, ?_⟩
  · show ((Config.imageOf []).norm.filter (fun r => r.die == 0))[0]? = some ⟨0, 0, 1, 0, 5⟩
    rw [h]
    rfl
  · and_intros <;> decide +kernel

theorem witness_TaskPhasesFollow_verdict :
    (let s := withJob (fun j => { j with phase := 2 })
     s.job.running = true ∧ s.job.starting = false ∧ s.job.phase = 2 ∧ s.job.recorded = false ∧ (∀ d < 4, s.dieUp d = true)) ∧
    (let s := (withJob (fun j => { j with phase := 2, recorded := true })).setF 0 fCeStatusNext 1
     s.job.running = true ∧ s.job.phase = 2 ∧ s.job.recorded = true ∧ s.dieUp 3 = true ∧ s.flag 3 fStepResultValid = false ∧ s.flag 0 fCeStatusHalted = false ∧
       s.image.verdict < s.getF 0 fCeStatusNext ∧ (∀ r ∈ s.runs 0, r.ix ≠ s.image.verdict) ∧ (s.readRun (.update 3) (s.vrec 3 + 0x280) 64).1.isSome = true) := by
  and_intros <;> decide +kernel

theorem foldl_same {α β : Type} {f : β → α → β} {s : β} {l : List α} (h : ∀ x ∈ l, f s x = s) : l.foldl f s = s := by
  induction l with
  | nil => rfl
  | cons a r ih =>
    rw [List.foldl_cons, h a List.mem_cons_self]
    exact ih (fun x hx => h x (List.mem_cons_of_mem _ hx))

/-- With no core to test, no column map pending and no core to retire, the rotation moves on and nothing else changes. -/
theorem repairs_none {s : State} (h1 : (span 0 288).all (fun k => !s.testDue (k / 4) (k % 4)) = true)
    (h2 : (span 0 288).all (fun k => ((s.core (k / 4)).array (k % 4)).pend == 0) = true)
    (h3 : (span 0 72).all (fun pc => natBits (s.getF (pc / 18) fRetirePendCores) (pc % 18) 1 != 1) = true) :
    s.repairs [] = s.modCtl (fun x => { x with rot := (x.rot + 1) % 4, testAll := false }) := by
  have e1 : s.runTests [] = s := foldl_same (fun k hk => by
    have := List.all_eq_true.1 h1 k hk
    simp only [Bool.not_eq_true'] at this
    simp [this])
  have e2 : s.applyAll = s := foldl_same (fun k hk => by
    have := List.all_eq_true.1 h2 k hk
    simp only [beq_iff_eq] at this
    simp [this])
  unfold State.repairs State.retireMarked
  rw [e1, e2]
  refine foldl_same (fun pc hk => ?_)
  have : natBits (s.getF (pc / 18) fRetirePendCores) (pc % 18) 1 ≠ 1 := by simpa using List.all_eq_true.1 h3 pc hk
  exact if_neg this

/-- A package without a good core at the COMMIT boundary, a layout pending or not. -/
def atBoundary (p : Nat) : State :=
  (span 0 4).foldl (fun (s : State) d => s.modDie d (fun x => { x with good := 0 }))
    ((withJob (fun j => { j with phase := 4, atCommit := true })).setF 0 fLayoutStatusPending p)

/-- That package with the step's decision applied and actions 2 to 6 done. -/
def boundaryDone (p : Nat) : State := ((span 0 4).foldl (fun (s' : State) d => s'.setStep d ((atBoundary p).decided d)) (atBoundary p)).boundaryActions

theorem witness_TaskPhasesFollow_commit (p : Nat) (hp : p ∈ [0, 1]) :
    let s := atBoundary p
    let u := (boundaryDone p).repairs []
    s.job.running = true ∧ s.job.atCommit = true ∧ s.job.install = 0 ∧ s.actWaits = false ∧ s.skipped = false ∧ u.job.running = true ∧
      u.ckptDue (s.reg s.lead oStepIndex).toNat = false ∧ u.layoutDue (s.reg s.lead oStepIndex).toNat = (p == 1) := by
  have h : ∀ p ∈ [0, 1], (let s := atBoundary p
      let w := boundaryDone p
      let u := w.modCtl (fun x => { x with rot := (x.rot + 1) % 4, testAll := false })
      (span 0 288).all (fun k => !w.testDue (k / 4) (k % 4)) = true ∧ (span 0 288).all (fun k => ((w.core (k / 4)).array (k % 4)).pend == 0) = true ∧
        (span 0 72).all (fun pc => natBits (w.getF (pc / 18) fRetirePendCores) (pc % 18) 1 != 1) = true ∧
        s.job.running = true ∧ s.job.atCommit = true ∧ s.job.install = 0 ∧ s.actWaits = false ∧ s.skipped = false ∧ u.job.running = true ∧
        u.ckptDue (s.reg s.lead oStepIndex).toNat = false ∧ u.layoutDue (s.reg s.lead oStepIndex).toNat = (p == 1)) := by decide +kernel
  have h' := h p hp
  simp only
  rw [repairs_none h'.1 h'.2.1 h'.2.2.1]
  exact h'.2.2.2

theorem witness_TaskPhasesFollow_restore :
    ∀ v ∈ [0, 1], let s := (span 0 4).foldl (fun (s : State) d => s.setF d fParStatusValid v) (withJob (fun j => { j with rollback := true }))
      let r := ({ s with job := { s.job with rollback := false } }).readRun (.jasper 0) (s.headerAddr 0) 128
      s.job.running = true ∧ s.job.rollback = true ∧ s.committedOk = (v == 1) ∧ r.1.isSome = true ∧ r.2.decision ≠ some 2 := by decide +kernel

/-- A package whose job is in a phase, with one rule descriptor in progress on die 0. -/
def withRule (phase : Nat) (r : RuleRun) : State := (withJob (fun j => { j with phase := phase })).setUpd 0 { Upd.reset with rule := some r }

/-- A rule 0 with a number of elements, in items of 64, on local core 0, and further fields. -/
def ruleDesc (n : Nat) (l : List (Nat × Nat)) : RuleDesc :=
  BitVec.ofNat 1024 (([(16, 1), (32, n), (64, 64)] ++ l).foldl (fun (a : Nat) (p : Nat × Nat) => a + p.2 * 2 ^ p.1) 0)

/-- A package at the time of a PHASE, its update unit 0 before a descriptor of so many elements and that PHASE bit. -/
def beforeRule (ph n bit : Nat) : State :=
  let s := (withGran (withJob (fun j => { j with phase := 3 + ph })) 0 (ruleDesc n [(6, bit)]).toNat).setF 0 fUpdProgCount 1
  cached (s.setUpd 0 { Upd.reset with late := ph == 1 }) 0 0 (qv 0 [(64, 1)])

theorem witness_UpdateUnitsRunTheirRules_start :
    ∀ z ∈ [(0, 64, 0), (0, 0, 0), (0, 64, 1), (1, 64, 1)], let s := beforeRule z.1 z.2.1 z.2.2
      let r := s.readRun (.update 0) (s.getF 0 fUpdProgAddr * 65536 + 128 * s.getF 0 fUpdStatusNext) 128
      let x : RuleDesc := BitVec.ofNat 1024 (leNat (r.1.getD []))
      s.ruleTime 0 = some z.1 ∧ (s.upd 0).rule = none ∧ s.getF 0 fUpdStatusNext < s.getF 0 fUpdProgCount ∧ r.1.isSome = true ∧ rPhase x = z.2.2 ∧
        rItems x = z.2.1 / 64 ∧ rRule x ≠ 4 ∧ rParkq x = 0 ∧ (r.2.parked 0 0).1 = true := by decide +kernel

theorem witness_UpdateUnitsRunTheirRules_item :
    ∀ n ∈ [64, 128], let r : RuleRun := ⟨0, ruleDesc n [], 0, []⟩
      let s := withRule 3 r
      let a := (s.stageItem 0 r)
      let b := a.2.ruleScalars 0 r.desc
      s.ruleTime 0 = some 0 ∧ (s.upd 0).rule = some r ∧ rRule r.desc ≠ 4 ∧ rCores r.desc ≠ [] ∧ rItems r.desc = n / 64 ∧ a.1 = some 0 ∧ b.1.isSome = true ∧
        (b.2.writeRun (.update 0) (128 * b.2.getF 0 fUpdIringBase + 128 * (rCore r.desc r.next * b.2.getF 0 fUpdIringItems + 0))
          (itemRecord r.desc r.ix r.next 0 (b.1.getD []))).1 = true := by decide +kernel

theorem witness_UpdateUnitsRunTheirRules_fetch :
    ∀ p ∈ [9, 8], let r : RuleRun := ⟨0, ruleDesc 64 [(3, 1), (320, 9), (352, 3)], 0, []⟩
      let s := cached (cached ((withRule 3 r).setF 0 fUpdIctrSq 5) 0 5 (qv 2 [])) 0 3 (qv 1 [(180, p)])
      let a := s.qGet 0 (s.getF 0 fUpdIctrSq + rCore r.desc 0)
      s.ruleTime 0 = some 0 ∧ (s.upd 0).rule = some r ∧ rTier r.desc = true ∧ rCores r.desc ≠ [] ∧ 0 < rItems r.desc ∧ (r.ahead (rCore r.desc 0)).length = 0 ∧
        a.1 = some (qv 2 []) ∧ qHeld (qv 2 []) + 0 < qDepth (qv 2 []) ∧ (a.2.sendQueue (rFlow r.desc) (some (rHolder r.desc))).1.isSome = (p == 9) := by decide +kernel

/-- A parity rule whose staged regions begin at region 2. -/
def parityRule : RuleRun := ⟨0, BitVec.ofNat 1024 (4 + 2 ^ 6 + 0x2000000 * 2 ^ 192), 1, []⟩

/-- The package in COMMIT with that rule in progress, in a group of two. -/
def atParity : State := ((withJob (fun j => { j with phase := 4 })).setF 0 fParCfgG 2).setUpd 0 { Upd.reset with rule := some parityRule, late := true }

/-- The sources of that rule, as granules. -/
def paritySources (s : State) : List Nat :=
  ((span 0 (s.getF 0 fParCfgG)).filter (fun k => k != s.getF 0 fParCfgMember)).map (fun k => rSaddr parityRule.desc / 128 + 131072 * k)

theorem witness_UpdateUnitsRunTheirRules_parity :
    atParity.ruleTime 0 = some 1 ∧ (atParity.upd 0).rule = some parityRule ∧ rRule parityRule.desc = 4 ∧
      (∃ u, State.xorRegion 0 (rWaddr parityRule.desc / 128) (paritySources atParity) [] 131072 0 atParity = (true, u)) ∧
      (let s : State := { atParity with mem := { MemState.reset with regionRest := { Region.reset with lost := true } } }
       s.ruleTime 0 = some 1 ∧ (State.xorRegion 0 (rWaddr parityRule.desc / 128) (paritySources s) [] 131072 0 s).1 = false) := by
  refine ⟨?_, ?_, ?_, State.Blank.xorRegion 0 _ _ 131072 0 (blank_fresh ?_ ?_ ?_) ?_ ?_, ?_⟩ <;> decide +kernel

theorem witness_UpdateUnitsRunTheirRules_valid :
    ∀ z ∈ [(true, 4, 1), (true, 0, 0), (false, 0, 0)], let s := (withJob (fun j => { j with running := z.1, phase := z.2.1 })).setF 0 fParCfgG 2
      let s : State := { s with upds := (span 0 4).map (fun d => (d, { Upd.reset with late := true })) }
      (∀ d < 4, (s.upd d).late = true) ∧ s.rulesDone = true ∧ s.getF 0 fParCfgG ≠ 0 ∧ s.job.install = 0 ∧ s.job.running = z.1 ∧ s.job.phase = z.2.1 := by
  decide +kernel

/-- A package in a parity group of two that protects one block, a read-out due on a connection of KIND 3. -/
def reading (l : List Bulk) : State :=
  let s := (up.setF 0 fParCfgG 2).setF 0 fParCfgNblk 1
  s.modCtl (fun x => { x with reading := true, ckptConn := 7, conns := [connOf 3], bulks := l })

theorem witness_StateIsStoredAndRebuilt_open :
    (reading []).ctl.reading = true ∧ (reading []).conn (reading []).ctl.ckptConn = some (connOf 3) ∧ (reading []).ctl.bulks.find? (fun b => b.use == .checkpoint) = none ∧
      (connOf 3).kind = 3 ∧ (∀ b ∈ (reading []).ctl.bulks, b.conn ≠ (reading []).ctl.ckptConn) ∧ (reading []).protected_ = (0, 0x2000000) ∧
      ∃ l u, ((reading []).bind 7 false .checkpoint 0 0x2000000 0 0).2.egressSegs 0 0x2000000 = (some l, u) := by
  have h : ((reading []).bind 7 false .checkpoint 0 0x2000000 0 0).2.Plain := (blank_fresh (by decide +kernel) (by decide +kernel) (by decide +kernel)).toPlain
  obtain ⟨l, hl⟩ := h.egressSegs 0 0x2000000 (by decide)
  refine ⟨?_, ?_, ?_, ?_, ?_, ?_, l, _, hl⟩ <;> decide +kernel

theorem witness_StateIsStoredAndRebuilt_end :
    let b : Bulk := ⟨1, 7, false, .checkpoint, 0, 128, 0, 0, [], 0, 0⟩
    let s := reading [b]
    s.ctl.reading = true ∧ s.conn s.ctl.ckptConn = some (connOf 3) ∧ s.ctl.bulks.find? (fun b => b.use == .checkpoint) = some b ∧ (connOf 3).queue = [] ∧
      (connOf 3).flight = [] ∧ (s.readRun s.jas b.addr b.length).1.isSome = true := by decide +kernel

theorem witness_StateIsStoredAndRebuilt_layout :
    (let s := (withJob (fun j => { j with install := 1 })).modCtl (fun x => { x with layout := some [1] })
     s.job.running = true ∧ s.job.install = 1 ∧ s.ctl.layout = some [1] ∧ (∀ d < 4, s.runs d = [])) ∧
    (∀ n ∈ [2, 3], let s : State := { withJob (fun j => { j with install := n }) with cores := (span 0 72).map (fun i => (i, { Core.reset with done := true })) }
     s.job.install = n ∧ (∀ d < 4, s.dieUp d = true ∧ s.coresDone d = true ∧ s.ceDone d 5 = true ∧ s.ceDone d 6 = true) ∧ s.rulesDone = true) := by decide +kernel

/-- A package that reconstructs one block in a group of `g`, some slots done, one begun. -/
def rebuilding (g : Nat) (done : List Nat) (run : List (Nat × Nat)) : State :=
  let s := (up.setF 0 fParCfgG g).setF 0 fParCfgNblk 1
  s.modCtl (fun x => { x with progs := [⟨⟨0, [], [], 0⟩, .reconstruct⟩], recon := done, reconRun := run })

theorem witness_StateIsStoredAndRebuilt_begin :
    let s := cached (rebuilding 2 [1] []) 0 0 (qv 1 [])
    s.reconOn = true ∧ s.updUp 0 = true ∧ 0 < s.protRegions ∧ 0 ∉ s.ctl.recon ∧ s.ctl.reconRun = [] ∧ parAgree (s.getF s.lead fParCfgG) [1] = true ∧
      parAgree (s.getF s.lead fParCfgG) [] = false ∧ s.survivors 0 = [0] ∧
      (State.reconReads 0 0 (0x1000000 * (s.getF s.lead fParCfgBase + 0)) (s.survivors 0) s).isSome = true := by
  and_intros <;> decide +kernel

/-- That package with the answer to a READ of granule `gran` of slot 0 at hand. -/
def answered (g : Nat) (done : List Nat) (run : List (Nat × Nat)) (gran : Nat) : State :=
  { (rebuilding g done run).setFi 0 [xfer 9 0 1] with reads := [⟨0, .recon 0 0 gran, 0, 1⟩] }

/-- The state in which that answer acts. -/
def joining (s : State) : State := { (s.setFi 0 []).retire 0 (xfer 9 0 1) false with reads := [] }

theorem witness_StateIsStoredAndRebuilt_join :
    (∀ g ∈ [2, 3], let s := answered g [] [(0, 0)] 5
      s.fi 0 = xfer 9 0 1 :: [] ∧ (xfer 9 0 1).h.kind = 9 ∧ (xfer 9 0 1).h.status = 0 ∧ (xfer 9 0 1).h.ngr = 1 ∧ (xfer 9 0 1).data = [⟨0, 0⟩] ∧
        s.reads = [⟨0, .recon 0 0 5, 0, 1⟩] ∧ (xfer 9 0 1).h.tag = 0 ∧ s.reconOn = true ∧ (mapGet (fun _ => XorAcc.mk 0 0 0) s.ctl.reconAcc (0 * 131072 + 5)).n = 0 ∧
        s.getF s.lead fParCfgG = g ∧ s.ctl.reconRun = [(0, 0)] ∧ s.ctl.recon.length < s.protRegions) ∧
    (let s := answered 2 [] [(0, 0)] 5
     ((joining s).memWrite (.update 0) (131072 * (s.getF s.lead fParCfgBase + 0) + 5) (0 ^^^ 0) (0 ^^^ 0)).1 = .ok 0 ⟨0, 0, (Requester.update 0).code⟩) := by
  and_intros <;> decide +kernel

theorem witness_StateIsStoredAndRebuilt_last :
    let s := answered 2 [1] [(0, 131071)] 131071
    let z := (joining s).reconGran 0 0 131071 ⟨0, 0⟩
    let q := z.modCtl (fun c => { c with recon := c.recon ++ [0], reconRun := [] })
    s.reconOn = true ∧ z.ctl.reconRun = [(0, 131072)] ∧ z.reconOn = true ∧ z.protRegions ≤ z.ctl.recon.length + 1 ∧
      (q.readRun (.jasper 0) (q.headerAddr 0) 128).1.isSome = true := by
  and_intros <;> decide +kernel

theorem witness_StateIsStoredAndRebuilt_self :
    let s : State := { up with mem := { MemState.reset with regionRest := { Region.reset with lost := true }, coldLost := true } }
    s.mem.coldLost = true ∧ s.job.running = false ∧ s.leadRuns = true ∧ (∀ d < 4, s.dieUp d = true ∧ s.getF d fBootStatusStage = 4) ∧
      0 < nRegions ∧ (s.mem.region 0).lost = true := by decide +kernel

/-- A package in the COMMIT of a digest step that is not skipped. -/
def digesting (f : Job → Job) : State :=
  ((withJob (fun j => f { j with phase := 4 })).setF 0 fAgateDigCfgK 1).setF 0 fStepResultValid 1

theorem witness_IntegrityBlocksDigestAndReport_run :
    let s := (withGran (digesting id) 32 (2 ^ 64)).setF 0 fAgateDigRangesCount 1
    let s := s.setF 0 fAgateDigRangesAddr 1
    let r := s.readRun (.integrity 0) (4096 * s.getF 0 fAgateDigRangesAddr) 16
    s.digestTime = true ∧ 0 ∉ s.job.digs ∧ s.dieUp 0 = true ∧ s.getF 0 fAgateDigRangesCount = 1 ∧ r.1 = some (leBytes (2 ^ 64) 16) ∧
      (State.digAll 0 (digRanges (leBytes (2 ^ 64) 16) 1) 0 r.2).1.isSome = true := by decide +kernel

theorem witness_IntegrityBlocksDigestAndReport_block :
    let s := digesting (fun j => { j with digs := [0, 1, 2, 3] })
    s.digestTime = true ∧ s.job.digBlock = false ∧ (∀ d < 4, d ∈ s.job.digs) ∧
      (s.writeRun (.integrity 0) (4096 * s.getF 0 fAgateDigOutAddr)
        ((span 0 4).flatMap (fun d => leBytes (s.reg d oAgateDigValLo).toNat 8 ++ leBytes (s.reg d oAgateDigValHi).toNat 8)
          ++ leBytes s.digestOf 8 ++ List.replicate 4024 0)).1 = true := by decide +kernel

/-- The package after the COMMIT task of a digest step in a group, two digests gathered. -/
def gatheredAt (r a b was : Nat) : State :=
  let s : State := { digesting (fun j => { j with digs := [0, 1, 2, 3], digBlock := true }) with cores := (span 0 72).map (fun i => (i, { Core.reset with done := true })) }
  (withGran (withGran ((s.setF 0 fAgateDigCfgR r).setF 0 fAgateDigStatusSuspect was) 0 (a + 2 ^ 512)) 32 (b + 2 ^ 512))

theorem witness_IntegrityBlocksDigestAndReport_compare :
    (let s := gatheredAt 1 0 0 0
     s.digestTime = true ∧ s.job.compared = false ∧ s.job.digBlock = true ∧ (∀ d < 4, s.dieEnded 4 d = true) ∧ s.getF s.lead fAgateDigCfgR ≤ 1) ∧
    (∀ z ∈ [(5, 5, 0), (5, 6, 0), (5, 6, 1)], let s := gatheredAt 2 z.1 z.2.1 z.2.2
     s.digestTime = true ∧ s.job.compared = false ∧ s.job.digBlock = true ∧ (∀ d < 4, s.dieEnded 4 d = true) ∧ s.getF s.lead fAgateDigCfgR = 2 ∧
       (State.gathered s.lead 2 0 s).1 = some [(z.1, 1), (z.2.1, 1)] ∧ s.digestOf = 1 ∧ (State.gathered s.lead 2 0 s).2.digestOf = 1 ∧
       (State.gathered s.lead 2 0 s).2.getF s.lead fAgateDigCfgRank = 0 ∧ s.flag s.lead fAgateDigStatusSuspect = (z.2.2 == 1)) := by decide +kernel

/-- An error record. -/
def anyRec : ErrRec := ⟨0, 0, 2, false, 0, 7, 0x11, 4, 0, 0, 0, false, 0, 0, 1, 0, 0⟩

theorem witness_IntegrityBlocksDigestAndReport_records :
    (let v := qv 5 [(41, 1)]
     let s := cached (up.modDie 1 (fun x => { x with recs := [anyRec] })) 1 (up.getF 1 fErrCfgQueue) v
     let q := s.getF 1 fErrCfgQueue
     (s.die 1).recs = anyRec :: [] ∧ s.dieUp 1 = true ∧ QCached s 1 q v ∧ qEn v = true ∧ qErr v = false ∧ qHeld v < qDepth v ∧
       ((s.qGet 1 q).2.narrowAt (.integrity 1) (qEntryAt v (qProd v)) { anyRec with dropped := satAdd 65535 anyRec.dropped (s.die 1).recDropped }.bytes true).1 = none) ∧
    (let s := up.modDie 4 (fun x => { x with portRecs := [anyRec] })
     (s.die (4 + 0)).portRecs = anyRec :: [] ∧ s.recordHandler (4 + 0) = some 0) ∧
    (let q := up.getF 0 fErrCfgQueue
     let v := qv 5 [(41, 1), (64, 1)]
     let s := cached (cached (cached (cached up 3 q (qv 5 [])) 2 q (qv 5 [])) 1 q (qv 5 [])) 0 q v
     let r := ((s.qGet 0 q).2.qGet 0 q).2.readRun s.jas (qEntryAt v (qCons v)) 64
     s.jasperUp = true ∧ s.dieUp 0 = true ∧ s.getF 0 fErrCfgQueue = q ∧ QCached s 0 q v ∧ qHeld v = 1 ∧ QCached s 1 q (qv 5 []) ∧ QCached s 2 q (qv 5 []) ∧
       QCached s 3 q (qv 5 []) ∧ qHeld (qv 5 []) = 0 ∧ s.getF 1 fErrCfgQueue = q ∧ s.getF 2 fErrCfgQueue = q ∧ s.getF 3 fErrCfgQueue = q ∧ r.1.isSome = true ∧
       r.2.ctl.sub = none) := by
  and_intros <;> decide +kernel

/-- Die 0 in its boot ROM, both flash devices read, firmware images in both slots. -/
def inRom : State :=
  let s := ((up.setF 0 fBootStatusStage 1).modDie 0 (fun x => { x with xspi := true }))
  { s with flash := { Flash.reset with present := [true, true], slotA := fwImage, slotB := fwImage } }

theorem witness_FirmwareIsVerifiedAndUpdated_verify :
    inRom.dieUp 0 = true ∧ inRom.discFailed = false ∧ inRom.flag 0 fDieInfoLead = true ∧ (inRom.die 0).xspi = true ∧ inRom.getF 0 fBootStatusStage < 4 ∧ inRom.flash.present = [true, true] ∧
      inRom.flash.slotA = fwImage ∧ inRom.flash.slotB = fwImage ∧ inRom.reg 0 oFuseState = 0 ∧ (false = true → False) := by decide +kernel

theorem witness_FirmwareIsVerifiedAndUpdated_commit :
    up.leadRuns = true ∧
    (let s := up.setF common fFwUpdStatusOnB 63
     s.leadRuns = true ∧ s.flag common fFwUpdStatusCommitting = false ∧ s.getF common fFwUpdStatusOnB = 63 ∧ fld (s.reg s.lead oFuseState) 0 8 ≤ leAt s.flash.slotB 6 1) ∧
    (let s := (up.setF 0 fBootStatusFallback 1).setF 0 fFwVersionSlot 1
     s.leadRuns = true ∧ s.flag common fFwUpdStatusCommitting = false ∧ s.flag s.lead fBootStatusFallback = true ∧ s.flag s.lead fFwVersionSlot = true ∧
       fwCheck s.flash.slotA (s.reg s.lead oFuseState) ≠ 0) := by decide +kernel

/-- A package with an activation of die 2 under way, slot B holding an image. -/
def activating (img : List Byte) : State :=
  let s := (up.setF common fFwUpdStatusActBusy 1).setF common fFwUpdStatusActDie 2
  { s with flash := { s.flash with slotB := img } }

/-- Check 1 of Table 14.4 fails on an empty slot; an image passes them all where the part's keys admit its signature. -/
theorem witness_FirmwareIsVerifiedAndUpdated_activate :
    (∀ img ∈ [[], fwImage], let s := activating img
      s.flag common fFwUpdStatusActBusy = true ∧ s.getF common fFwUpdStatusActResult = 0 ∧ s.getF common fFwUpdStatusActDie = 2 ∧ s.dieUp 2 = true ∧ s.reg 2 oFuseState = 0) ∧
    fwCheck [] 0 ≠ 0 ∧ (∀ k < 4, (activating fwImage).getF k fFwVersionCompat = leAt fwImage 12 2) := by decide +kernel

theorem witness_FirmwareIsVerifiedAndUpdated_flash :
    ∀ o ∈ [FlashOp.cal [1], .stage fwImage, .commit, .keyRec 0 [1], .retireRec [1]], let s : State := { up with flash := { Flash.reset with ops := [o] } }
      s.flash.ops = o :: [] ∧ s.reg s.lead oFuseState = 0 ∧ leAt fwImage 12 2 = s.getF s.lead fFwVersionCompat := by decide +kernel

/-- A record of an operator key in slot 0. -/
def keyRecord : List Byte := leBytes 0x4B4F435A 4 ++ leBytes 0x100 12 ++ leBytes 5 112

/-- The package at an operator key operation: the pin, and the records in force. -/
def keyState (pin : Bool) (l : List (List Byte)) : State :=
  let s := up.modPwr (fun x => { x with enrol := pin })
  { s with flash := { s.flash with keys := l } }

theorem witness_OperatorKeysAreEnrolledWithThePin :
    ∀ pin ∈ [false, true], ∀ l ∈ [[], [keyRecord]], let s := keyState pin l
      s.leadRuns = true ∧ s.flag common fOpkeyStatusBusy = false ∧ s.pwr.enrol = pin ∧ s.getF common fOpkeySelSlot = 0 ∧
        (s.flash.opKey 0).isSome = !l.isEmpty ∧ s.stagedKey = 0 := by decide +kernel

theorem witness_OperatorKeysAreEnrolledWithThePin_sessions :
    let a : Session := ⟨1, 0, 0, 0, [], 0, 1, 7⟩
    let b : Session := ⟨2, 1, 0, 0, [], 0, 1, 7⟩
    let s := (keyState true [keyRecord]).modCtl (fun x => { x with sessions := [a, b] })
    b ∈ s.ctl.sessions ∧ b.key ≠ 0 ∧ (∀ z ∈ s.ctl.sessions, z.id = b.id → z.key ≠ 0) := by decide +kernel

theorem witness_OperatorKeysAreEnrolledWithThePin_records :
    ∀ o ∈ [FlashOp.key 0 true 5, .retire 1 2 5 7], let s : State := { up with flash := { Flash.reset with ops := [o] } }
      s.flash.ops = o :: [] ∧ s.flash.retired.length < 2048 := by decide +kernel

theorem witness_IdentityAndSessionsAreServed_reply :
    (let u := up.modCtl (fun x => { x with conns := [connOf 1] })
     let c := cmdOf 0x0101 0 0 []
     c.session = 0 ∧ u.session 0 = none ∧ u.conn c.conn = some (connOf 1)) ∧
    (let x : Session := ⟨3, 0, 0, 0, [], 1, 1, 7⟩
     let u := up.modCtl (fun y => { y with sessions := [x] })
     let c := cmdOf 0x0203 3 0 []
     c.session ≠ 0 ∧ u.session c.session = some x) := by decide +kernel

theorem witness_IdentityAndSessionsAreServed_commands :
    ∀ x ∈ [(0x0101, 0, 2), (0x0102, 0, 2), (0x0103, 32, 2), (0x0104, 0, 2), (0x0204, 0, 2), (0x0201, 0, 2), (0x0203, 0, 1)],
      let c := cmdOf x.1 0 0 (leBytes 1 x.2.1)
      opRow c.opcode = some ⟨x.1, (if x.1 = 0x0203 then 1 else 0), x.2.2, x.2.1⟩ ∧ c.opcode = x.1 ∧ up.jasperUp = true ∧ x.2.1 = c.body.length ∧ c.body.length ≠ 65535 := by
  decide +kernel

/-- SESSION_OPEN with challenge 4 and key slot 0. -/
def openCmd : Cmd := cmdOf 0x0202 0 0 (leBytes 4 72)

/-- A package with that challenge and an operator key in slot 0, or none. -/
def challenged (l : List (List Byte)) : State := (keyState false l).modCtl (fun x => { x with challenges := [(4, 9)] })

theorem witness_IdentityAndSessionsAreServed_open (l : List (List Byte)) (hl : l = [] ∨ l = [keyRecord])
    (h : Config.ed25519Ok 5 ((taken (challenged [keyRecord]) 1 openCmd).openMsg 9 0 4) 0 = true) :
    let c := openCmd
    let u := taken (challenged l) 1 c
    Serves (withCmd (challenged l) 1 c) 0x0202 c u ∧ leAt c.body 5 3 = 0 ∧ leAt c.body 4 1 = 0 ∧ leAt c.body 0 4 = 4 ∧
      u.ctl.challenges.find? (fun e => e.1 == 4) = some (4, 9) ∧ u.openOk 9 0 4 0 = !l.isEmpty ∧ u.ctl.sessions.length < 16 ∧ c.session ≠ u.ctl.nextSess := by
  obtain rfl | rfl := hl
  · exact ⟨serves (challenged []) openCmd ⟨0x0202, 0, 1, 72⟩ (by decide +kernel) (by decide +kernel) (by decide +kernel) (by decide +kernel) (by decide +kernel), by decide +kernel⟩
  · have hk : (taken (challenged [keyRecord]) 1 openCmd).flash.opKey 0 = some 5 := by decide +kernel
    have ho : (taken (challenged [keyRecord]) 1 openCmd).openOk 9 0 4 0 = true := by rw [State.openOk, hk]; exact h
    refine ⟨serves (challenged [keyRecord]) openCmd ⟨0x0202, 0, 1, 72⟩ ?_ ?_ ?_ ?_ ?_, ?_, ?_, ?_, ?_, ho, ?_, ?_⟩ <;> decide +kernel

theorem witness_SettingsAreReadAndWritten_registers :
    (let c := cmdOf 0x0301 0 0 (leBytes (cfgAddr 0 oDieTimebase) 8 ++ leBytes 1 2)
     let u := taken up 2 c
     let b := c.body
     served up ⟨0x0301, 0, 2, 10⟩ c = true ∧ leAt b 0 8 % 8 = 0 ∧ 1 ≤ leAt b 8 2 ∧ leAt b 8 2 ≤ 64 ∧ cfgOf (leAt b 0 8) = some (0, oDieTimebase) ∧
       (∀ k < leAt b 8 2, (cfgOf (leAt b 0 8 + 8 * k)).isSome = true ∧ (u.peekReg 0 (oDieTimebase + 8 * k)).isSome = true)) ∧
    (let c := cmdOf 0x0302 0 0 (leBytes (cfgAddr 1 oMcCfg) 8 ++ leBytes 0x18 8 ++ leBytes 0xFF 8)
     let u := taken up 1 c
     let b := c.body
     let mask : BitVec 64 := BitVec.ofNat 64 (leAt b 16 8)
     let old := (u.peekReg 1 oMcCfg).getD 0
     let new := (old &&& ~~~mask) ||| (BitVec.ofNat 64 (leAt b 8 8) &&& mask)
     served up ⟨0x0302, 1, 1, 24⟩ c = true ∧ leAt b 0 8 % 8 = 0 ∧ cfgOf (leAt b 0 8) = some (1, oMcCfg) ∧ opkeyReg 1 oMcCfg = false ∧ jobWritable 1 oMcCfg mask = true ∧
       u.peekReg 1 oMcCfg = some old ∧ ((regSpecOf 1 oMcCfg).map (fun r => r.fields.any (fun f => f.acc == .rw))) = some true ∧ fieldIgnored 1 oMcCfg new mask = false ∧
       u.ctrValStuck 1 oMcCfg new = false ∧ (u.writeReg? 1 oMcCfg new).isSome = true) := by decide +kernel

theorem witness_SettingsAreReadAndWritten_plain :
    served up ⟨0x0303, 1, 1, 34⟩ (cmdOf 0x0303 0 0 (leBytes 1 34)) = true ∧ (taken up 1 (cmdOf 0x0303 0 0 (leBytes 1 34))).func (svcFunc 1) = 2 ∧
    served up ⟨0x0304, 1, 1, 8⟩ (cmdOf 0x0304 0 0 (leBytes (1000 + 31 * 2 ^ 32) 8)) = true ∧
    (∀ w ∈ [0, 450, 2100], served up ⟨0x0601, 1, 0, 4⟩ (cmdOf 0x0601 0 0 (leBytes w 4)) = true ∧ leAt (cmdOf 0x0601 0 0 (leBytes w 4)).body 0 4 = w) ∧
    served up ⟨0x0602, 0, 2, 0⟩ (cmdOf 0x0602 0 0 []) = true ∧
    (let c := cmdOf 0x0603 0 0 (leBytes 1280 2 ++ leBytes 1680 2 ++ leBytes 5 1 ++ leBytes 0 3)
     served up ⟨0x0603, 1, 0, 8⟩ c = true ∧ thermOk (leAt c.body 0 2) (leAt c.body 2 2) = true ∧ leAt c.body 5 3 = 0 ∧ leAt c.body 4 1 = 5 ∧
       (∀ d < 4, natBits 5 d 1 = 1 → (taken up 0 c).dieUp d = true)) ∧
    served up ⟨0x0701, 0, 2, 10⟩ (cmdOf 0x0701 0 0 (leBytes 0 8 ++ leBytes 1000 2)) = true ∧
    served up ⟨0x0704, 0, 2, 1⟩ (cmdOf 0x0704 0 0 (leBytes 4 1)) = true := by
  and_intros <;> decide +kernel

theorem witness_SettingsAreReadAndWritten_sessions :
    (let c := cmdOf 0x0702 0 0 (leBytes 7 4 ++ leBytes 3 1 ++ leBytes 5 1)
     let s := up.modCtl (fun x => { x with conns := [connOf 1] })
     let u := taken s 1 c
     served s ⟨0x0702, 1, 1, 6⟩ c = true ∧ leAt c.body 4 1 < 4 ∧ leAt c.body 5 1 ≤ 5 ∧ u.conn (leAt c.body 0 4) = some (connOf 1)) ∧
    (let c := cmdOf 0x0703 3 0 (leBytes 9 8)
     let x : Session := ⟨3, 0, 0, 9, [⟨9, 0, []⟩], 1, 2, 7⟩
     let s := up.modCtl (fun y => { y with sessions := [x] })
     let u := taken s 2 c
     served s ⟨0x0703, 1, 2, 8⟩ c = true ∧ u.session c.session = some x ∧ x.cache.find? (fun r => r.seq == leAt c.body 0 8) = some ⟨9, 0, []⟩) := by decide +kernel

/-- The package in a domain with a schedule image loaded. -/
def jobReady : State :=
  let s := up.setF common fPkgIdIdValid 1
  s.modCtl (fun x => { x with image := some [] })

/-- JOB_START of a mode with digest 5. -/
def startCmd (mode : Nat) : Cmd := cmdOf 0x0402 1 0 (leBytes mode 8 ++ leBytes 5 64)

theorem witness_JobCommandsAreServed_start (mode : Nat) (hm : mode < 3) (hI : Config.imageOf [] = noImage) (hH : Config.sha512 [] = BitVec.ofNat 512 5) :
    let s := if mode = 1 then jobReady.setF 0 fParStatusValid 1 else jobReady
    let c := startCmd mode
    let u := taken s 1 c
    served s ⟨0x0402, 1, 1, 72⟩ c = true ∧ leAt c.body 1 7 = 0 ∧ leAt c.body 0 1 = mode ∧ u.jobParts = true ∧ u.job.running = false ∧ u.idValid = true ∧
      u.ctl.image = some [] ∧ Config.sha512 [] = BitVec.ofNat 512 (leAt c.body 8 64) ∧ (mode = 1 → u.flag u.lead fParStatusValid = true) ∧
      (∀ f ∈ u.jobFuncs ++ imagePorts (Config.imageOf []), u.funcUp f = true) ∧ u.shapeFits (Config.imageOf []) = true ∧
      (let w := (u.setClasses (Config.imageOf [])).writeRun u.jas (Config.imageOf []).base []
       w.1 = true ∧ w.2.imageFits (Config.imageOf []) = true) := by
  rw [hI, hH]
  match mode, hm with
  | 0, _ => and_intros <;> decide +kernel
  | 1, _ => and_intros <;> decide +kernel
  | 2, _ => and_intros <;> decide +kernel

/-- Images of one byte: one that begins in a LOST region, and one whose step register is out of range. -/
theorem witness_JobCommandsAreServed_misfit :
    ∀ k < 2, let t : ImageTables := if k = 0 then noImage else { noImage with regs := [(regKey 2 oStepLscale, 127)] }
      let s := jobReady.modCtl (fun x => { x with image := some [1] })
      let s : State := if k = 0 then { s with mem := s.mem.setRegion 0 { s.mem.region 0 with lost := true } } else s
      let c := startCmd 0
      let u := taken s 1 c
      let w := (u.setClasses t).writeRun u.jas t.base [1]
      served s ⟨0x0402, 1, 1, 72⟩ c = true ∧ u.jobParts = true ∧ u.job.running = false ∧ u.idValid = true ∧ u.ctl.image = some [1] ∧
        (∀ f ∈ u.jobFuncs ++ imagePorts t, u.funcUp f = true) ∧ u.shapeFits t = true ∧ (if k = 0 then w.1 = false else w.1 = true ∧ w.2.imageFits t = false) := by
  decide +kernel

theorem witness_JobCommandsAreServed_header : ∃ h, (up.loadJob noImage).readRun (.jasper 0) ((up.loadJob noImage).headerAddr 0) 128 = (some h, up.loadJob noImage) := by
  refine (blank_fresh (by decide +kernel) (by decide +kernel) (by decide +kernel)).toPlain.readRun _ _ _ (by decide +kernel)

theorem witness_JobCommandsAreServed_tree :
    (jobReady.setF 0 fFiCfgTimeUp 3).timeKids = [] ∧ (jobReady.setF 0 fFiCfgTimeUp 3).treeRoot = false ∧ up.timeKids = [] ∧ up.treeRoot = true := by decide +kernel

theorem witness_JobCommandsAreServed_job :
    (let s := withJob id
     let c := cmdOf 0x0403 1 0 (leBytes 9 8 ++ leBytes 0 1)
     served s ⟨0x0403, 1, 0, 9⟩ c = true ∧ (taken s 0 c).job.running = true ∧ leAt c.body 8 1 = 0 ∧ ((taken s 0 c).reg (taken s 0 c).lead oStepIndex).toNat ≤ leAt c.body 0 8) ∧
    (let c := cmdOf 0x0403 1 0 (leBytes 0 8 ++ leBytes 1 1)
     served (withJob id) ⟨0x0403, 1, 0, 9⟩ c = true ∧ leAt c.body 8 1 = 1 ∧ served up ⟨0x0403, 1, 0, 9⟩ c = true ∧ (taken up 0 c).job.running = false) ∧
    served up ⟨0x0404, 0, 2, 0⟩ (cmdOf 0x0404 0 0 []) = true ∧
    (let s := up.modCtl (fun x => { x with layout := some [] })
     let c := cmdOf 0x0406 1 0 (leBytes 4 8)
     let u := taken s 1 c
     served s ⟨0x0406, 1, 1, 8⟩ c = true ∧ u.layoutBusy = false ∧ u.ctl.layout ≠ none ∧ (u.reg u.lead oStepIndex).toNat ≤ leAt c.body 0 8) ∧
    (let s := (up.modCtl (fun x => { x with conns := [connOf 3] })).setF 0 fAgateDigCfgK 5
     let c := cmdOf 0x0506 1 0 (leBytes 10 4 ++ leBytes 7 4)
     let u := taken s 1 c
     served s ⟨0x0506, 1, 1, 8⟩ c = true ∧ leAt c.body 0 4 % u.getF u.lead fAgateDigCfgK = 0 ∧ leAt c.body 0 4 ≠ 0 ∧ u.conn (leAt c.body 4 4) = some (connOf 3)) := by
  and_intros <;> decide +kernel

theorem witness_JobCommandsAreServed_domain :
    (let c := cmdOf 0x0A01 1 0 (leBytes 4095 2 ++ leBytes 1 1 ++ leBytes 11 1 ++ leBytes 6 8)
     let u := taken up 1 c
     served up ⟨0x0A01, 1, 1, 12⟩ c = true ∧ leAt c.body 0 2 ≤ 4095 ∧ leAt c.body 2 1 ≤ 1 ∧ leAt c.body 3 1 ≤ 11 ∧ u.idValid = false ∧ u.job.running = false ∧ u.dieUp 3 = true) ∧
    served up ⟨0x0A02, 1, 1, 0⟩ (cmdOf 0x0A02 1 0 []) = true ∧ served (withJob id) ⟨0x0A02, 1, 1, 0⟩ (cmdOf 0x0A02 1 0 []) = true ∧
    served up ⟨0x0A03, 0, 2, 0⟩ (cmdOf 0x0A03 0 0 []) = true := by
  and_intros <;> decide +kernel

/-- An image that gives every die a parity group of four packages and one protected region. -/
def parityImage : ImageTables :=
  { noImage with regs := (span 0 4).map (fun d => (regKey d oParCfg, putFld (putFld (0 : BitVec 64) fParCfgG.lo fParCfgG.width 4) fParCfgNblk.lo fParCfgNblk.width 1)) }

theorem witness_JobCommandsAreServed_reconstruct (hI : Config.imageOf [] = parityImage) :
    let s := jobReady
    let c := cmdOf 0x0A04 1 0 (leBytes 3 1)
    let u := taken s 1 c
    served s ⟨0x0A04, 1, 1, 1⟩ c = true ∧ u.job.running = false ∧ u.ctl.image = some [] ∧ u.reconOn = false ∧ (∀ d < 4, u.updUp d = true) ∧
      (let r := u.loadTables (Config.imageOf [])
       leAt c.body 0 1 < r.getF r.lead fParCfgG ∧ r.protRegions ≠ 0) := by
  rw [hI]
  and_intros <;> decide +kernel

theorem readRun_fresh {s : State} {q : Requester} {a n : Nat} (hu : ∀ k < 12, s.stackUp k = true)
    (hw : ∀ a < 4, ∀ b < 4, ∀ t < 2, s.reaches a b t = true) (hm : s.mem = MemState.reset) (ha : a / 128 + ceilDiv (a % 128 + n) 128 ≤ stackBytes / 128) :
    ∃ bs w, s.readRun q a n = (some bs, w) :=
  ((blank_fresh hu hw hm).toPlain.readRun q a n ha).imp (fun _ h => ⟨s, h⟩)

theorem egressSegs_fresh {s : State} {a n : Nat} (hu : ∀ k < 12, s.stackUp k = true)
    (hw : ∀ a < 4, ∀ b < 4, ∀ t < 2, s.reaches a b t = true) (hm : s.mem = MemState.reset) (ha : a / 128 + ceilDiv (a % 128 + n) 128 ≤ stackBytes / 128) :
    ∃ l w, s.egressSegs a n = (some l, w) :=
  ((blank_fresh hu hw hm).toPlain.egressSegs a n ha).imp (fun _ h => ⟨s, h⟩)

/-- A load of `n` bytes on connection 7. -/
def loadCmd (code n : Nat) : Cmd := cmdOf code 1 8 (leBytes 7 4 ++ leBytes n 8)

/-- The package with an INGEST connection. -/
def ingestUp : State := let s := up.modCtl (fun x => { x with conns := [connOf 2] }); { s with flash := { s.flash with present := [true, true] } }

theorem witness_MaintenanceCommandsAreServed_loads :
    (∀ r ∈ [(0x0401, 1, stackBytes), (0x0405, 1, stackBytes), (0x0801, 1, 2 ^ 25), (0x0804, 2, 262144)], ∀ n ∈ [0, r.2.2],
      let c := loadCmd r.1 n
      let u := taken ingestUp 1 c
      served ingestUp ⟨r.1, r.2.1, 1, 12⟩ c = true ∧ u.conn (leAt c.body 0 4) = some (connOf 2) ∧ (connOf 2).kind = 2 ∧ leAt c.body 4 8 = n ∧
        u.freeIngest (leAt c.body 0 4) = true ∧ (∀ y ∈ u.ctl.bulks, y.handle ≠ u.ctl.nextBulk) ∧ u.job.running = false ∧ u.layoutBusy = false ∧
        u.getF common fFwUpdStatusOnB = 0 ∧ u.flag common fFwUpdStatusCommitting = false ∧ u.flash.present[1]? = some true) := by decide +kernel

/-- STREAM_OPEN of 128 bytes at address 0. -/
def streamCmd : Cmd := cmdOf 0x0501 1 0 (leBytes 7 4 ++ leBytes 5 4 ++ leBytes 0 8 ++ leBytes 128 8 ++ leBytes 1 4 ++ leBytes 0 4)

theorem witness_MaintenanceCommandsAreServed_open (kind : Nat) (hk : kind = 2 ∨ kind = 3) :
    let s := up.modCtl (fun x => { x with conns := [connOf kind] })
    let u := taken s 1 streamCmd
    let b := streamCmd.body
    let v := (u.bind (leAt b 0 4) (kind == 2) .user (leAt b 8 8) (leAt b 16 8) (leAt b 4 4) (leAt b 24 4)).2.replyOk streamCmd (leBytes u.ctl.nextBulk 4)
    served s ⟨0x0501, 1, 1, 32⟩ streamCmd = true ∧ u.conn (leAt b 0 4) = some (connOf kind) ∧ (connOf kind).kind = kind ∧ leAt b 28 4 = 0 ∧ leAt b 4 4 < 2 ^ 18 ∧
      leAt b 16 8 % 128 = 0 ∧ leAt b 16 8 ≠ 0 ∧ leAt b 8 8 % 128 = 0 ∧ u.userRun (leAt b 8 8) (leAt b 16 8) false = true ∧ (∀ x ∈ u.ctl.bulks, x.conn ≠ leAt b 0 4) ∧
      ∃ l w, v.egressSegs (leAt b 8 8) (leAt b 16 8) = (some l, w) := by
  obtain rfl | rfl := hk <;> refine ⟨?_, ?_, ?_, ?_, ?_, ?_, ?_, ?_, ?_, ?_, egressSegs_fresh ?_ ?_ ?_ ?_⟩ <;> decide +kernel

/-- A user stream bound to connection 7. -/
def bulkOf (ingest : Bool) : Bulk := ⟨1, 7, ingest, .user, 0, 128, 5, 1, [(0, List.replicate 128 0)], 128, 0⟩

/-- The package with a user stream. -/
def bulkUp (ingest : Bool) : State := up.modCtl (fun x => { x with conns := [connOf (if ingest then 2 else 3)], bulks := [bulkOf ingest] })

theorem witness_MaintenanceCommandsAreServed_close (i : Bool) :
    let c := cmdOf 0x0502 1 0 (leBytes 1 4)
    let u := taken (bulkUp i) 1 c
    served (bulkUp i) ⟨0x0502, 1, 1, 4⟩ c = true ∧ u.bulk (leAt c.body 0 4) = some (bulkOf i) ∧ (bulkOf i).use = .user ∧ (bulkOf i).ingest = i ∧
      u.conn (bulkOf i).conn = some (connOf (if i then 2 else 3)) ∧ ∃ bs w, u.readRun u.jas (bulkOf i).addr 128 = (some bs, w) := by
  cases i <;> refine ⟨?_, ?_, ?_, ?_, ?_, readRun_fresh ?_ ?_ ?_ ?_⟩ <;> decide +kernel

theorem witness_MaintenanceCommandsAreServed_notify :
    (bulkUp true).bulk (1#32).toNat = some (bulkOf true) ∧ (bulkOf true).ngr ≠ 0 ∧ (bulkOf true).ingest = true ∧
      (bulkOf true).notified < (bulkOf true).prefixBytes / 128 / (bulkOf true).ngr := by decide +kernel

theorem witness_MaintenanceCommandsAreServed_memory :
    (let c := cmdOf 0x0503 1 0 (leBytes 0x1000 8 ++ leBytes 32768 4)
     let u := taken up 2 c
     served up ⟨0x0503, 1, 2, 12⟩ c = true ∧ leAt c.body 0 8 % 128 = 0 ∧ leAt c.body 0 8 + leAt c.body 8 4 ≤ stackBytes ∧ leAt c.body 8 4 = 32768 ∧
       ∃ bs w, u.readRun u.jas (leAt c.body 0 8) (leAt c.body 8 4) = (some bs, w)) ∧
    (let c := cmdOf 0x0504 1 0 (leBytes 0x1000 8 ++ leBytes 7 128)
     let u := taken up 1 c
     served up ⟨0x0504, 1, 1, 65535⟩ c = true ∧ leAt c.body 0 8 % 128 = 0 ∧ u.userRun (leAt c.body 0 8) (c.body.length - 8) true = true ∧
       (u.writeRun u.jas (leAt c.body 0 8) (c.body.drop 8)).1 = true) ∧
    (let c := cmdOf 0x0505 1 0 (leBytes 5 2 ++ leBytes 1 2 ++ leBytes 3 1 ++ leBytes 3 1)
     let u := taken up 1 c
     served up ⟨0x0505, 1, 1, 6⟩ c = true ∧ leAt c.body 4 1 ≤ 3 ∧ leAt c.body 5 1 ≤ 3 ∧ u.regionBad (leAt c.body 4 1) (leAt c.body 0 2) (leAt c.body 2 2) = false) := by
  refine ⟨⟨?_, ?_, ?_, ?_, readRun_fresh ?_ ?_ ?_ ?_⟩, ?_, ?_⟩ <;> decide +kernel

theorem witness_MaintenanceCommandsAreServed_selftest :
    ∀ k < 2, let c := cmdOf 0x0705 1 0 (leBytes 15 1 ++ leBytes k 1)
      let u := taken up 1 c
      served up ⟨0x0705, 1, 1, 2⟩ c = true ∧ leAt c.body 0 1 = 15 ∧ leAt c.body 1 1 = k ∧ u.job.running = false ∧ (∀ d ∈ maskBits (leAt c.body 0 1) 4, u.dieUp d = true) ∧
        (u.core 0).quiet = true ∧ ((u.core 0).array 0).st ≠ .disabled := by decide +kernel

/-- The package with firmware staged. -/
def stagedUp (job : Bool) : State := (if job then withJob id else up).setF common fFwUpdStatusBValid 1

theorem witness_MaintenanceCommandsAreServed_activate :
    ∀ x ∈ [(0, false), (2, false), (5, false), (2, true)], let c := cmdOf 0x0802 1 0 (leBytes x.1 1)
      let u := taken (stagedUp x.2) 1 c
      served (stagedUp x.2) ⟨0x0802, 1, 1, 1⟩ c = true ∧ leAt c.body 0 1 = x.1 ∧ u.dieUp x.1 = true ∧ u.flag common fFwUpdStatusActBusy = false ∧
        u.flag common fFwUpdStatusBValid = true ∧ u.job.running = x.2 ∧ u.lead = 0 := by decide +kernel

theorem witness_MaintenanceCommandsAreServed_calibration :
    let c := cmdOf 0x0803 0 0 (leBytes 229376 4 ++ leBytes 32768 4)
    served up ⟨0x0803, 0, 2, 8⟩ c = true ∧ leAt c.body 4 4 ≤ 32768 ∧ leAt c.body 0 4 + leAt c.body 4 4 ≤ 262144 := by decide +kernel

theorem witness_MaintenanceCommandsAreServed_functions :
    (∀ v < 5, let s := up.setFunc (portFunc 2) v
      let c := cmdOf 0x0901 1 0 (leBytes (portFunc 2) 2)
      let u := taken s 1 c
      served s ⟨0x0901, 1, 1, 2⟩ c = true ∧ leAt c.body 0 2 = (portFunc 2) ∧ (portFunc 2) ∈ allFuncs ∧ u.restricted (portFunc 2) = false ∧ u.func (portFunc 2) = v ∧
        u.dieUp (funcDie (portFunc 2)) = true ∧ u.getF (funcDie (portFunc 2)) fBootStatusStage = 4) ∧
    (∀ v ∈ [0, 2], let s := up.setFunc (portFunc 2) v
      let c := cmdOf 0x0902 1 0 (leBytes (portFunc 2) 2)
      let u := taken s 0 c
      served s ⟨0x0902, 1, 0, 2⟩ c = true ∧ u.restricted (portFunc 2) = false ∧ u.jobUses (portFunc 2) = false ∧ u.lastService (portFunc 2) = false ∧ u.func (portFunc 2) = v) ∧
    served up ⟨0x0903, 0, 2, 0⟩ (cmdOf 0x0903 0 0 []) = true := by
  and_intros <;> decide +kernel

theorem witness_MaintenanceCommandsAreServed_dies :
    (∀ job : Bool, let s := if job then withJob id else up
      let c := cmdOf 0x0904 1 0 (leBytes 3 1 ++ leBytes 17 1)
      let u := taken s 1 c
      served s ⟨0x0904, 1, 1, 2⟩ c = true ∧ leAt c.body 0 1 = 3 ∧ leAt c.body 1 1 = 17 ∧ u.dieUp 3 = true ∧ (u.die 3).isGood 17 = true ∧ u.job.running = job ∧
       u.func (funcId 2 3 17) = 2 ∧ ∀ v < 2, (taken (s.setFunc (funcId 2 3 17) v) 1 c).func (funcId 2 3 17) = v) ∧
    (let c := cmdOf 0x0905 1 0 (leBytes 0 1 ++ leBytes 1 1 ++ leBytes 0 1)
     let u := taken up 1 c
     let b := c.body
     served up ⟨0x0905, 1, 1, 3⟩ c = true ∧ leAt b 0 1 = 0 ∧ leAt b 1 1 ≤ 5 ∧ (edgePeer (leAt b 1 1) (leAt b 2 1)).isSome = true ∧
       u.restricted (edgeFunc (leAt b 1 1) (leAt b 2 1)) = false ∧ u.funcUp (edgeFunc (leAt b 1 1) (leAt b 2 1)) = true) ∧
    (let c := cmdOf 0x0905 1 0 (leBytes 1 1 ++ leBytes 5 1 ++ leBytes 11 1)
     let u := taken up 1 c
     let b := c.body
     served up ⟨0x0905, 1, 1, 3⟩ c = true ∧ leAt b 0 1 = 1 ∧ leAt b 2 1 ≤ 11 ∧ leAt b 1 1 = portDie (leAt b 2 1) ∧ u.restricted (portFunc (leAt b 2 1)) = false ∧
       u.funcUp (portFunc (leAt b 2 1)) = true) ∧
    (∀ x ∈ [(3, 1), (3, 0), (5, 1)], let c := cmdOf 0x0906 1 8 (leBytes x.1 1 ++ leBytes x.2 1)
     let u := taken up 0 c
     served up ⟨0x0906, 2, 0, 2⟩ c = true ∧ leAt c.body 0 1 = x.1 ∧ x.1 ≠ u.lead ∧ u.dieUp x.1 = true ∧ leAt c.body 1 1 = x.2) := by
  and_intros <;> decide +kernel

/-- The package with connection 7 of a kind and one segment for it that has arrived. -/
def segUp (c : Conn) (g : Seg) : State := up.modCtl (fun x => { x with conns := [c], segsIn := [(⟨0, true, 1, 2, 3, 4, 5⟩, g)] })

/-- A segment for connection 7, last of its message. -/
def segOf (typ : Nat) (data : List Byte) : Seg := ⟨typ, 7, 0, 1, 0, 0, 64, 0, data⟩

theorem witness_TransportFollowsItsRows_syn :
    (let g : Seg := ⟨0, 0, 1, 0, 9, 0, 64, 0, []⟩
     ∀ x ∈ [([], none), ([{ connOf 0 with synPsn := 9 }], some { connOf 0 with synPsn := 9 }), (List.replicate 64 (connOf 0), none)],
       let s := (segUp (connOf 0) g).modCtl (fun y => { y with conns := x.1 })
       takeSeg 0 [] s.ctl.segsIn = some ((⟨0, true, 1, 2, 3, 4, 5⟩, g), []) ∧
         s.ctl.conns.find? (fun c => c.peer.same ⟨0, true, 1, 2, 3, 4, 5⟩ && c.synPsn == g.psn) = x.2) := by
  decide +kernel

/-- A GET_IDENTITY packet of session 0. -/
def identityPacket : List Byte :=
  let h := leBytes 0x314B435A 4 ++ leBytes 1 1 ++ leBytes 0 1 ++ leBytes 0x0101 2 ++ leBytes 0 16 ++ leBytes 0 4
  h.take 28 ++ leBytes (crc32c (h.take 28)).toNat 4

theorem witness_TransportFollowsItsRows_data :
    (let g : Seg := { segOf 2 [1, 2] with flags := 0 }
     let s := segUp (connOf 1) g
     let v := (s.modCtl (fun x => { x with segsIn := [] })).takeAck g.conn g.ack g.window
     ∃ c, takeSeg 2 [] s.ctl.segsIn = some ((⟨0, true, 1, 2, 3, 4, 5⟩, g), []) ∧ v.conn g.conn = some c ∧ g.psn = c.rxNext ∧ c.rxHeld = [] ∧ c.kind = 1 ∧
       (c.msg ++ g.data).length ≤ 65568 ∧ natBits g.flags 0 1 = 0) ∧
    (let g := segOf 2 identityPacket
     let s := segUp (connOf 0) g
     let v := (s.modCtl (fun x => { x with segsIn := [] })).takeAck g.conn g.ack g.window
     ∃ c, takeSeg 2 [] s.ctl.segsIn = some ((⟨0, true, 1, 2, 3, 4, 5⟩, g), []) ∧ v.conn g.conn = some c ∧ g.psn = c.rxNext ∧ c.rxHeld = [] ∧ c.kind = 0 ∧
       (let m := c.msg ++ g.data
        natBits g.flags 0 1 = 1 ∧ m.length = 32 ∧ headFault m = none ∧ leAt m 4 1 = 1 ∧ opRow (leAt m 6 2) = some ⟨0x0101, 0, 2, 0⟩ ∧ leAt m 24 4 = 0 ∧ leAt m 5 1 = 0 ∧
          leAt m 8 4 = 0 ∧ v.session 0 = none ∧ v.credits ⟨c.id, m.take 32, m.drop 32, (v.reg v.lead oDieTimebase).toNat⟩ ≠ 0 ∧ (mapGet (fun _ => []) v.ctl.cmds 2).length < 256)) := by
  refine ⟨⟨connOf 1, ?_⟩, ⟨connOf 0, ?_⟩⟩ <;> decide +kernel

theorem witness_TransportFollowsItsRows_others :
    ∀ typ ∈ [3, 4, 5, 6, 7], let g := segOf typ []
      let s := segUp (connOf 0) g
      let v := (s.modCtl (fun x => { x with segsIn := [] })).takeAck g.conn g.ack g.window
      takeSeg typ [] s.ctl.segsIn = some ((⟨0, true, 1, 2, 3, 4, 5⟩, g), []) ∧ v.conn g.conn = some (connOf 0) ∧ g.psn = (connOf 0).rxNext ∧ (connOf 0).rxHeld = [] ∧
        s.conn g.conn = some (connOf 0) ∧ (connOf 0).queue = [] := by
  decide +kernel

theorem witness_TransportFollowsItsRows_timers :
    ∀ n ∈ [0, 15], let c := { connOf 0 with owed := 1, flight := [segOf 2 []], expiries := n }
      (segUp c (segOf 2 [])).conn (7#32).toNat = some c ∧ c.owed ≠ 0 ∧ c.flight = [segOf 2 []] ∧ c.expiries = n := by
  decide +kernel

theorem witness_PinsPortsAndRegistersAnswer_telemetry :
    let v := qv 4 []
    let s := (cached up 0 5 v).modCtl (fun x => { x with telInterval := 1000, telMask := 31 })
    s.leadRuns = true ∧ s.ctl.telInterval ≠ 0 ∧ s.getF common fCmdStatusShed < 5 ∧ (∀ k ∈ [(0, 0), (1, 3), (2, 2), (3, 4), (4, 1)], natBits s.ctl.telMask k.1 1 = 1 ∧
      s.samples k.1 k.2 = true) ∧ QCached s s.lead 5 v ∧ qEn v = true ∧ qErr v = false ∧ qKind v = 4 ∧ qHeld v < qDepth v ∧
      ((s.qGet s.lead 5).2.narrowAt s.jas (qEntryAt v (qProd v)) (s.sample 1 3) true).1 = none := by
  and_intros <;> decide +kernel

theorem witness_PinsPortsAndRegistersAnswer_shed :
    (let s := up.modCtl (fun x => { x with cmds := mapSet (fun _ => []) x.cmds 1 (List.replicate 129 (cmdOf 0 0 0 [])) })
     s.leadRuns = true ∧ s.getF common fCmdStatusShed < 5 ∧ 128 < s.waitingCmds) ∧
    (let s := up.setF common fCmdStatusShed 5
     s.leadRuns = true ∧ s.getF common fCmdStatusShed ≠ 0 ∧ s.waitingCmds < 32) := by
  and_intros <;> decide +kernel

/-- A frame to the broadcast address, with its payload padded. -/
def frameOf (etype : Nat) (payload : List Byte) : List Byte :=
  List.replicate 6 255 ++ leBytes 7 6 ++ (leBytes etype 2).reverse ++ payload ++ List.replicate (46 - payload.length) 0

/-- An ARP request for address 5. -/
def arpRequest : List Byte := (leBytes 0x000108000604 6).reverse ++ (leBytes 1 2).reverse ++ (leBytes 9 6).reverse ++ (leBytes 6 4).reverse ++ leBytes 0 6 ++ (leBytes 5 4).reverse

/-- The package with a link on both service ports and IPv4 address 5 on service port 1. -/
def netUp : State :=
  ((up.setF 4 fSvcStatusLink 1).setF 5 fSvcStatusLink 1).modCtl (fun x => { x with net := mapSet (fun _ => NetCfg.mk 0 0 0 0 0 0 none) x.net 1 ⟨0, 0, 0, 5, 0, 0, none⟩ })

theorem witness_PinsPortsAndRegistersAnswer_frames :
    netUp.dieUp 5 = true ∧ netUp.funcUp (svcFunc 1) = true ∧ netUp.flag 5 fSvcStatusLink = true ∧ readFrame (netUp.netOf 1).vlan [] = none ∧
      (∀ t ∈ [0x86DD, 0x0800], let f := frameOf t []
        netUp.takesMac 1 (beAt f 0 6) = true ∧ (readFrame (netUp.netOf 1).vlan f).map (fun x => x.2.1) = some t) ∧
      (let f := frameOf 0x0806 arpRequest
       let b := arpRequest ++ List.replicate 18 0
       netUp.takesMac 1 (beAt f 0 6) = true ∧ (readFrame (netUp.netOf 1).vlan f).map Prod.snd = some (0x0806, b) ∧ (netUp.netOf 1).ip4 ≠ 0 ∧ 28 ≤ b.length ∧
         beAt b 0 6 = 0x000108000604 ∧ beAt b 6 2 = 1 ∧ beAt b 24 4 = (netUp.netOf 1).ip4) := by
  and_intros <;> decide +kernel

theorem witness_PinsPortsAndRegistersAnswer_smbus :
    up.dieUp 0 = true ∧ smbusReads 6 oCmdStatus = true ∧ up.smbusUp 6 = true ∧ (up.peekReg 6 oCmdStatus).isSome = true ∧
      smbusReads 2 oStepIndex = true ∧ up.smbusUp 2 = true ∧ (up.peekReg 2 oStepIndex).isSome = true ∧ smbusReads 2 oMcCfg = false ∧
      up.smbusStatus 0 oErrCfg (2 ^ fErrCfgAlertMin.lo) = 0 ∧ (up.peekReg 0 oErrCfg).isSome = true ∧ up.smbusStatus 0 oMcCfg 1 ≠ 0 ∧ ({ up with alert := true } : State).alert = true := by
  and_intros <;> decide +kernel

theorem witness_PinsPortsAndRegistersAnswer_registers :
    (let v : BitVec 96 := BitVec.ofNat 96 (6 * 2 ^ 88 + oCmdStatus * 2 ^ 64)
     up.dieUp 3 = true ∧ fld v 88 3 ≤ 6 ∧ bit v 91 = false ∧ (up.peekReg (fld v 88 3) (fld v 64 24)).isSome = true) ∧
    ((regSpecOf common oCstDropCnt).isSome = true ∧ up.spaceUp common = true ∧ (regSpecOf common oCstDropCnt).map (fun r => (r.off ≠ oArrStatus && r.fields.any (fun f => f.acc == .rc))) = some true) ∧
    ((regSpecOf 1 oMcCfg).isSome = true ∧ up.spaceUp 1 = true ∧ (regSpecOf 1 oMcCfg).map (fun r => up.writable 1 oMcCfg r.off && !viewOnly 1 r.off && (up.writeAct 1 oMcCfg r.off 5).isNone &&
      r.fields.any (fun f => f.acc == .rw) && decide (r.off ≠ oThermCfg ∧ r.off ≠ oPwrBudgetCfg)) = some true) := by
  and_intros <;> decide +kernel

theorem witness_PinsPortsAndRegistersAnswer_holes :
    up.peekReg 0 1 = none ∧ up.peekReg 6 0xFFFFF8 = none ∧ (∀ x ∈ [(4, 0), (5, 0)], (up.gateTo up.lead x.1).isSome = true ∧ up.cfgTag x.1 = some x.2) := by
  decide +kernel

theorem witness_EveryStepKeepsTheCanonicalForm :
    State.reset.Canon ∧ ∃ t, step State.reset = .next t := by
  refine ⟨⟨?_, ?_⟩, _, rfl⟩
  · decide +kernel
  · decide +kernel

/-! ### The spec's worked examples and check values -/

/-- The characters 1 to 9. -/
def digits : List Byte := (span 1 9).map (fun i => BitVec.ofNat 8 (48 + i))

/-- Check values of the two CRCs (R187, link layer of ch. 8). -/
theorem test_crc_check_values : crc16 digits = 0xD0DB ∧ crc32c digits = 0xE3069283 := by decide +kernel

/-- The worked address of ch. 6: stack 5, channel 30, channel address 795,264, region 18. -/
theorem test_stripe_example : stripeMap 0x12345A80 = (5, 30, 795264) ∧ granRegion (0x12345A80 / 128) = 18 := by decide +kernel

/-- The worked MX.MMA word of ch. 3. -/
theorem test_mma_word : mkWord 1 0x010 0x0A00 (ops [(18, 2), (26, 15), (30, 3), (39, 64)]) = 0x10100A0000000000_00002000FC080000#128 := by decide +kernel

/-- The worked DM.LOAD word of ch. 6. -/
theorem test_load_word : mkWord 3 0x001 0x0005 (ops [(0, 0x800), (24, 256), (39, 0x2468B5)]) = 0x3001000500000000_12345A8100000800#128 := by decide +kernel

/-- MX.GOPEN of ch. 4's encoding example opens group 0 of every array with the descriptor of the example. -/
theorem test_gopen_descriptor :
    let w : InstrWord := 0x1020000000000000_00783EEA0000020F#128
    let t := ran (.mxGopen 0 .crit .issue 0 (BitVec.ofNat 96 0x00783EEA0000020F)) (Queued .mx .crit w Core.reset)
    (t.core 0).inflight = [] ∧ (∀ j < 4, (((t.core 0).array j).group 0).isOpen = true ∧ (((t.core 0).array j).group 0).desc = 0x783EEA) ∧ gFormat 0x783EEA = 10 ∧ gLsb 0x783EEA = -18 ∧ gHeight 0x783EEA = 64 ∧ gWidth 0x783EEA = 64 := by decide +kernel

/-- One sum, four splits (ch. 4): block 3 is 258 + 1, with UFR; the total 1,219 exports as BF16 0x4098. -/
theorem test_block_value :
    let d : BitVec 32 := BitVec.ofNat 32 (10 + 2 ^ 4 * (1024 - 8) + 2 ^ 19 * 3 + 2 ^ 21 * 3)
    let p (x y : Nat) := (decodeElem 1 x).mul (decodeElem 1 y)
    let b := blockValue d [p 0x3F81 0x3F80, p 0x3D40 0x3D80]
    (b.val = 259 ∧ b.ufr = true ∧ b.ovf = 0) ∧ (exportConv 1 .rne false none (Machine.Num.ofInt 1219 (-8))).pat = 0x4098 := by decide +kernel

/-- Table 4.9: the same element in FP32 under three orders. -/
theorem test_fp32_orders :
    let a := 0x4C000000
    let b := 0x40700000
    let c := 0xCC000000
    let d := 0x3F816000
    f32Add (f32Add (f32Add a b) c) d = 0x40A05800 ∧ f32Add (f32Add (f32Add d b) a) c = 0x40800000 ∧ f32Add (f32Add a b) (f32Add c d) = 0x40C00000 := by decide +kernel

/-- The row of Table 5.8: VSMAX writes the row, the state and the row-empty predicate when it completes. -/
theorem test_vsmax_row :
    let row := [0x40400000, 0x3F800000, 0x40000000, 0xFF800000, 0x40400000, 0x7FC00000, 0, 0x3F800000]
    let v : VCtx := { VCtx.reset with v := [(2, BitVec.ofNat 2048 (leNat (row.flatMap (fun x => leBytes x 4))))], p := [(3, 0xFFF), (4, 0xDF)], s := [(4, 0x3F800000)], vl := 8 }
    let w : InstrWord := 0x2070000000000000_0000180427418048#128
    let f := (((ran (.vsmax 0 .crit .issue 0 (BitVec.ofNat 96 0x180427418048)) (Queued .vx .crit w { Core.reset with vcrit := v })).core 0).inflight.headD
      (mxFlight 0 0)).vx
    let c := v.applyWrites f
    (span 0 8).map (fun i => natBits (mapGet (fun _ => (0 : BitVec 2048)) c.v 8).toNat (32 * i) 32) =
        [0x3EA3D70A, 0x3DA3D70A, 0x3E23D70A, 0, 0x3EA3D70A, 0, 0x3D23D70A, 0x3DA3D70A] ∧
      mapGet (fun _ => 0) c.s 6 = 0x40400000 ∧ mapGet (fun _ => 0) c.s 7 = 0x40480000 ∧ mapGet (fun _ => 0) c.p 3 = 0xDFF ∧ f.nonfin = false := by decide +kernel

/-- The two attempts of step 4,999 (ch. 9): NONFIN skips; the second applies with the values of the example. -/
theorem test_step_verdict :
    (decide305 (2 ^ 320) 12 (-20) (-16) 0x3F800000 0).decision = 1 ∧
    decide305 (0x190000000000 + 2 ^ 128 * 0x3665000000 + 2 ^ 192 * 1048576) 11 (-20) (-16) 0x3F800000 0 =
      ⟨0, 0, 0x40200000, 0x3ECCCCCD, 0x394CCCCD, 0x40599400⟩ := by decide +kernel

/-- Two slots watch GE 1 (ch. 7): with TAKE an INC fires slot 40 alone and the counter returns to 0; with LEVEL it fires both and the counter stays 1. -/
theorem test_take_and_level :
    let w (take : Bool) : Watch := ⟨3, 0, take, 1, 0, 0, 0, 0, false, false⟩
    let b (take : Bool) : Beryl := ((Beryl.reset.setSlot 40 (some (w take))).setSlot 41 (some (w take))).setCtr 3 1
    (((b true).evaluate 3).1.ctr 3 = 0 ∧ ((b true).evaluate 3).2.map Prod.fst = [40]) ∧
    (((b false).evaluate 3).1.ctr 3 = 1 ∧ ((b false).evaluate 3).2.map Prod.fst = [40, 41]) := by decide +kernel

/-- The header of Table 13.15's JOB_START. -/
theorem test_command_header :
    let c : Cmd := ⟨8, [0x5A, 0x43, 0x4B, 0x31, 1, 2, 2, 4, 1, 1, 0, 0, 1, 0, 0, 0, 0, 0, 0, 0, 0x88, 0, 0, 0, 0, 0, 0, 0, 0, 0, 0, 0], [], 0⟩
    c.opcode = 0x0402 ∧ c.session = 0x101 ∧ c.seq = 1 ∧ c.signed = true ∧ c.confirm = false := by decide +kernel

/-- R414: class 0 goes before class 1, but not before a command of class 2 that has waited 50 ms. -/
theorem test_class_order :
    let c : Cmd := cmdOf 0x0301 0 0 []
    (withCmd (withCmd up 0 c) 1 c).nextClass = some 0 ∧
    (withCmd (withCmd (up.setReg 0 oDieTimebase 50000000) 0 { c with time := 1 }) 2 c).nextClass = some 2 ∧
    (withCmd (withCmd (up.setReg 0 oDieTimebase 49999999) 0 c) 2 c).nextClass = some 0 := by decide +kernel

/-- R393 and Table 12.13: C0's diagonal traffic to C3 goes through C1 while C2 has come back and not all its edges are READY. -/
theorem test_rejoined_die_is_not_crossed :
    let s := (up.modDie 2 (fun x => { x with back := true })).setFunc (edgeFunc 2 2) 1
    up.way 0 3 1 = some [0, 2, 3] ∧ s.way 0 3 1 = some [0, 1, 3] ∧ (s.setFunc (edgeFunc 2 2) 2).way 0 3 1 = some [0, 2, 3] ∧
      s.way 0 2 0 = some [0, 2] ∧ s.crossing 4 0 = some (0, 1) ∧ s.crossing 4 1 = some (0, 1) := by decide +kernel

/-- A core block of die 2 in the local address space (ch. 1): PC0 of C2. -/
theorem test_config_address : cfgAddr 2 0x100000 = 0x01F002100000 := by decide +kernel

/-- An idle step adds 10 ns to DIE_TIMEBASE. -/
theorem test_idle_step : (match step up with | .next t => decide ((t.reg 0 oDieTimebase).toNat = (up.reg 0 oDieTimebase).toNat + 10) && t.pending.isEmpty | _ => false) = true := by
  decide +kernel

end Sys2Proof.Tests
end

section
/-! What a loss of all supplies leaves, and the state right after reset (R3, R425). -/

namespace Sys2Proof.Machine

/-- Where no register is listed, each reads its reset value. -/
theorem State.reg_of_regs_nil {s : State} (h : s.regs = []) (d off : Nat) : s.reg d off = regReset (regKey d off) := by
  rw [State.reg, h, mapGet_nil]

theorem canon_reset : State.reset.Canon := ⟨mapWf_nil _, MemState.wf_reset⟩

/-- Settles O58: nothing is listed in the state after reset, so every table reads as its default. -/
theorem resetLeavesEveryValueAsGiven : Obligations.ResetLeavesEveryValueAsGiven :=
  ⟨canon_reset, rfl, State.reg_of_regs_nil rfl, fun _ => rfl, fun _ => rfl, rfl, rfl, rfl, fun _ => rfl, rfl, gran_reset, rfl⟩

/-! ### The loss of all supplies -/

@[simp] theorem Flash.keys_cut (f : Flash) : f.cut.keys = f.keys := by
  unfold Flash.cut; split <;> rfl

@[simp] theorem Flash.retired_cut (f : Flash) : f.cut.retired = f.retired := by
  unfold Flash.cut; split <;> rfl

/-- Of the dies, the port dies' qualification records are kept. -/
theorem State.die_loseAll (s : State) (b : Bool) (d : Nat) :
    (s.loseAll b).die d = if d = 4 ∨ d = 5 then { Die.reset with record := (s.die d).record } else Die.reset := by
  simp only [State.die, State.loseAll, List.foldl_cons, List.foldl_nil, mapGet_mapSet, mapGet_nil]
  by_cases h5 : d = 5
  · simp [h5]
  · by_cases h4 : d = 4
    · simp [h4]
    · simp [h4, h5]

/-- Everything but flash, the records and what waits outside is at its reset value after the loss of all supplies. -/
structure NothingKept (s t : State) : Prop where
  dies : ∀ d, t.die d = if d = 4 ∨ d = 5 then { Die.reset with record := (s.die d).record } else Die.reset
  regs : ∀ d off, t.reg d off = regReset (regKey d off)
  mem : t.mem = MemState.reset
  funcs : ∀ f, t.func f = 0
  job : t.job.running = false
  keys : t.flash.keys = s.flash.keys
  retired : t.flash.retired = s.flash.retired
  pending : t.pending = s.pending

theorem State.loseAll_keepsNothing (s : State) (b : Bool) : NothingKept s (s.loseAll b) where
  dies := s.die_loseAll b
  regs := State.reg_of_regs_nil rfl
  mem := rfl
  funcs := fun _ => rfl
  job := rfl
  keys := Flash.keys_cut s.flash
  retired := Flash.retired_cut s.flash
  pending := rfl

/-- Settles O3: each of the four commands is `State.loseAll`, which differs between them in the latched thermal trip only. -/
theorem lossOfSuppliesKeepsNothing : Obligations.LossOfSuppliesKeepsNothing := by
  intro s
  refine ⟨s.loseAll false, s.loseAll s.pwr.tripped, s.loseAll true, s.loseAll false, rfl, rfl, rfl, rfl, rfl, rfl, rfl, rfl, fun t ht => ?_⟩
  have h : ∃ b, t = s.loseAll b := by
    simp only [List.mem_cons, List.not_mem_nil, or_false] at ht
    rcases ht with rfl | rfl | rfl | rfl <;> exact ⟨_, rfl⟩
  obtain ⟨b, rfl⟩ := h
  obtain ⟨dies, regs, mem, funcs, job, keys, retired, pending⟩ := s.loseAll_keepsNothing b
  exact ⟨dies, regs, mem, funcs, job, keys, retired, pending⟩

end Sys2Proof.Machine
end

section
/-! The issue of an engine word that may issue (R64, R69, R85), and what every vector word that works on its context alone gives (R149, R151). -/

namespace Sys2Proof.Machine

variable {s : State} {lc : Fin 64} {st : Stream} {eng : Engine} {opc : Nat} {tok : BitVec 16} {ops : BitVec 96} {pc : Nat} {e : QEntry} {r : List QEntry}

/-- A check that does not refuse is passed over. -/
@[simp] theorem firstRefuse_none_cons (l : List (Option Refuse)) : firstRefuse (none :: l) = firstRefuse l := rfl

@[simp] theorem firstRefuse_nil : firstRefuse [] = none := rfl

@[simp] theorem refuseIf_false (cause : Nat) : refuseIf false cause = none := rfl

/-- The core once a word has left the head of its queue: `r` is left in the queue, the token is taken, the word is the last in flight. -/
def Core.issueHead (c : Core) (eng : Engine) (st : Stream) (e : QEntry) (r : List QEntry) : Core :=
  let c1 := (c.setQueue eng st r).takeToken e.word
  { c1 with inflight := c1.inflight ++ [⟨eng, st, e, false, false, c1.issued, .none, .none, .none⟩], issued := c1.issued + 1 }

/-- The issues of the deferred stream are counted. -/
def State.countIssue (s : State) (pc : Nat) : Stream → State
  | .defr => s.coreBump pc fDeferIssueCntCount 1
  | .crit => s

@[simp] theorem Core.queues_takeToken (c : Core) (w : InstrWord) : (c.takeToken w).queues = c.queues := by
  unfold Core.takeToken; dsimp only; split <;> rfl

@[simp] theorem Core.inflight_takeToken (c : Core) (w : InstrWord) : (c.takeToken w).inflight = c.inflight := by
  unfold Core.takeToken; dsimp only; split <;> rfl

@[simp] theorem Core.vctx_takeToken (c : Core) (w : InstrWord) (st : Stream) : (c.takeToken w).vctx st = c.vctx st := by
  unfold Core.takeToken; dsimp only; split <;> cases st <;> rfl

@[simp] theorem Core.queue_issueHead (c : Core) : (c.issueHead eng st e r).queue eng st = r := by
  simp [Core.issueHead, Core.queue, Core.setQueue]

theorem Core.inflight_issueHead (c : Core) : ∃ f, (c.issueHead eng st e r).inflight = c.inflight ++ [f] ∧ f.ent = e :=
  ⟨⟨eng, st, e, false, false, ((c.setQueue eng st r).takeToken e.word).issued, .none, .none, .none⟩, by simp only [Core.issueHead, Core.inflight_takeToken]; rfl, rfl⟩

@[simp] theorem Core.vctx_setQueue (c : Core) (q : List QEntry) (st' : Stream) : (c.setQueue eng st q).vctx st' = c.vctx st' := by
  cases st' <;> rfl

@[simp] theorem Core.vctx_issueHead (c : Core) (st' : Stream) : (c.issueHead eng st e r).vctx st' = c.vctx st' := by
  have h : (c.issueHead eng st e r).vctx st' = ((c.setQueue eng st r).takeToken e.word).vctx st' := by cases st' <;> rfl
  rw [h, Core.vctx_takeToken, Core.vctx_setQueue]

/-- The last word in flight is given its results. -/
theorem Core.inflight_setResults {c : Core} {l : List InFlight} {f : InFlight} (h : c.inflight = l ++ [f]) (w : VxWrites) :
    (c.setResults w).inflight = l ++ [{ f with vx := w }] := by
  simp [Core.setResults, Core.mapLast, h]

@[simp] theorem Core.queue_setResults (c : Core) (w : VxWrites) (eng : Engine) (st : Stream) : (c.setResults w).queue eng st = c.queue eng st := by
  unfold Core.setResults Core.mapLast; split <;> rfl

@[simp] theorem State.mem_countIssue (pc : Nat) (st : Stream) : (s.countIssue pc st).mem = s.mem := by
  cases st <;> rfl

@[simp] theorem State.core_countIssue (pc pc' : Nat) (st : Stream) : (s.countIssue pc st).core pc' = s.core pc' := by
  cases st <;> rfl

/-- A word that may issue and passes its checks leaves its queue and acts. -/
theorem State.issueWord_of_issuesNext {check : State → Nat → QEntry → Option Refuse} {act : State → Nat → QEntry → Except (Refuse × State) State} {u : State}
    (h : IssuesNext lc st eng (mkWord eng.code opc tok ops) pc e r s) (hc : check s pc e = none)
    (ha : act (s.setCore pc ((s.core pc).issueHead eng st e r)) pc e = .ok u) :
    s.issueWord lc st eng opc tok ops check act = u.countIssue pc st := by
  obtain ⟨hp, hq, hw, hm, ht, hacc, htok, -, -⟩ := h
  rw [← hw] at hm htok
  unfold State.issueWord
  simp only [hp, hq, hw.symm, ne_eq, not_true_eq_false, if_false, hm, ht, hacc, htok, hc, Bool.and_self, Bool.not_true, Bool.false_eq_true,
    refuseIf_false, firstRefuse_none_cons, firstRefuse_nil]
  rw [Core.issueHead] at ha
  rw [ha]
  cases st <;> rfl

@[simp] theorem State.srEnv_setCore (c : Core) : (s.setCore pc c).srEnv pc = s.srEnv pc := rfl

/-- A vector word that works on its context alone computes at issue, from its context as it stands. -/
theorem State.vxWord_issue {used : Nat} {regs : QEntry → List Nat} {check : VCtx → QEntry → Option Refuse} {res : SrEnv → VCtx → QEntry → VxWrites}
    (h : IssuesNext lc st .vx (mkWord 2 opc tok ops) pc e r s) (hx : vxCheck ((s.core pc).vctx st) opc used (regs e) e = none)
    (hc : check ((s.core pc).vctx st) e = none) :
    s.vxWord lc st .issue opc tok ops used regs check res =
      ((s.setCore pc ((s.core pc).issueHead .vx st e r)).setCore pc
        (((s.core pc).issueHead .vx st e r).setResults (res (s.srEnv pc) ((s.core pc).vctx st) e))).countIssue pc st := by
  unfold State.vxWord State.engineWord
  exact State.issueWord_of_issuesNext h (by simp [hx, hc]) (by simp [State.modCore])

/-- A vector word that works on its context alone is in flight with its results once it has issued. -/
theorem vxGives_of_vxWord {mk : Fin 64 → Stream → Phase → BitVec 16 → BitVec 96 → Instr} {opc used : Nat} {regs : QEntry → List Nat}
    {own : VCtx → QEntry → Bool} {check : VCtx → QEntry → Option Refuse} {res : SrEnv → VCtx → QEntry → VxWrites}
    (hmk : ∀ lc st tok ops s, exec (mk lc st .issue tok ops) s = .next (s.vxWord lc st .issue opc tok ops used regs check res))
    (hown : ∀ c e, own c e = true → check c e = none) : VxGives mk opc used regs own res := by
  intro lc st tok ops pc e r s h hx ho
  obtain ⟨f, hf, he⟩ := (s.core pc).inflight_issueHead (eng := .vx) (st := st) (e := e) (r := r)
  rw [hmk, State.vxWord_issue h hx (hown _ _ ho)]
  exact ⟨_, { f with vx := res (s.srEnv pc) ((s.core pc).vctx st) e }, rfl, by simp, by simp, by simp [Core.inflight_setResults hf], he, rfl⟩

/-- Settles O28: each of the words computes on its context alone, and VSF alone has a check of its own. -/
theorem vectorFloatWordsIssue : Obligations.VectorFloatWordsIssue := by
  have free (c : VCtx) (e : QEntry) (_ : true = true) : noCheck c e = none := rfl
  refine ⟨vxGives_of_vxWord (fun _ _ _ _ _ => rfl) free, vxGives_of_vxWord (fun _ _ _ _ _ => rfl) free, vxGives_of_vxWord (fun _ _ _ _ _ => rfl) free,
    vxGives_of_vxWord (fun _ _ _ _ _ => rfl) free, vxGives_of_vxWord (fun _ _ _ _ _ => rfl) free, vxGives_of_vxWord (fun _ _ _ _ _ => rfl) free,
    vxGives_of_vxWord (fun _ _ _ _ _ => rfl) free,
    vxGives_of_vxWord (check := fun _ e => refuseIf (decide (fMOD e 0 4 > 8)) 0x02) (fun _ _ _ _ _ => rfl) (fun _ e he => ?_)⟩
  have hle : fMOD e 0 4 ≤ 8 := of_decide_eq_true he
  simp [Nat.not_lt.mpr hle]

end Sys2Proof.Machine
end

section
/-!
How far the shared machinery reaches: what the service transport sends, what a record of an error leads to, and what an access to stack memory can
change beside memory. One lemma for each operation says that it stays within its extent; what the extent leaves alone then follows at once.
-/

namespace Sys2Proof.Machine

/-! ### Extents -/

/-- Three extents, each within the next: sending on the service ports (R419 to R421), raising a record of an error (R364, R290), and accessing stack
memory (R196). -/
inductive Extent
  | transport
  | record
  | access

/-- `s` with the fields of `t` that an extent covers. -/
def Extent.merge (k : Extent) (s t : State) : State :=
  match k with
  | .transport => { s with regs := t.regs, ctl := t.ctl, out := t.out }
  | .record =>
    { s with
      regs := t.regs, ctl := t.ctl, out := t.out, dies := t.dies, beryls := t.beryls, resp := t.resp, bounds := t.bounds, upds := t.upds, job := t.job
      alert := t.alert, pkgFatal := t.pkgFatal }
  | .access =>
    { s with
      regs := t.regs, ctl := t.ctl, out := t.out, dies := t.dies, beryls := t.beryls, resp := t.resp, bounds := t.bounds, upds := t.upds, job := t.job
      alert := t.alert, pkgFatal := t.pkgFatal, mem := t.mem, funcs := t.funcs, flash := t.flash }

/-- `t` differs from `s` within an extent only; neither DIE_INFO of any die nor the telemetry sequence differs. -/
structure Keeps (k : Extent) (s t : State) : Prop where
  rest : t = k.merge s t
  dieInfo : ∀ d, t.reg d oDieInfo = s.reg d oDieInfo
  telSeq : t.ctl.telSeq = s.ctl.telSeq

namespace Keeps

variable {k : Extent} {s t u : State}

theorem refl (s : State) : Keeps k s s := ⟨by cases k <;> rfl, fun _ => rfl, rfl⟩

theorem trans (h : Keeps k s t) (h' : Keeps k t u) : Keeps k s u where
  rest := calc
    u = k.merge t u := h'.rest
    _ = k.merge (k.merge s t) u := congrArg (k.merge · u) h.rest
    _ = k.merge s u := by cases k <;> rfl
  dieInfo d := (h'.dieInfo d).trans (h.dieInfo d)
  telSeq := h'.telSeq.trans h.telSeq

/-- What stays within an extent stays within every wider one. -/
theorem mono {j : Extent} (hjk : ∀ s t, k.merge s (j.merge s t) = j.merge s t) (h : Keeps j s t) : Keeps k s t where
  rest := calc
    t = j.merge s t := h.rest
    _ = k.merge s (j.merge s t) := (hjk s t).symm
    _ = k.merge s t := congrArg (k.merge s) h.rest.symm
  dieInfo := h.dieInfo
  telSeq := h.telSeq

theorem of_transport (h : Keeps .transport s t) : Keeps k s t := h.mono (by intros; cases k <;> rfl)

theorem access_of_record (h : Keeps .record s t) : Keeps .access s t := h.mono (by intros; rfl)

theorem ite {c : Prop} [Decidable c] (h : Keeps k s t) (h' : Keeps k s u) : Keeps k s (if c then t else u) := by
  split
  · exact h
  · exact h'

theorem ite_snd {α : Type} {c : Prop} [Decidable c] {x y : α × State} (h : Keeps k s x.2) (h' : Keeps k s y.2) : Keeps k s (if c then x else y).2 := by
  split
  · exact h
  · exact h'

theorem foldl {β : Type} {f : State → β → State} (h : ∀ s b, Keeps k s (f s b)) (l : List β) : ∀ s, Keeps k s (l.foldl f s) := by
  induction l with
  | nil => exact refl
  | cons b l ih => exact fun s => (h s b).trans (ih (f s b))

/-! What every extent, or a narrower one, leaves alone. -/

theorem qes (h : Keeps k s t) : t.qes = s.qes := by rw [h.rest]; cases k <;> rfl

theorem cores (h : Keeps k s t) : t.cores = s.cores := by rw [h.rest]; cases k <;> rfl

theorem mem (h : Keeps .record s t) : t.mem = s.mem := by rw [h.rest]; rfl

theorem job (h : Keeps .transport s t) : t.job = s.job := by rw [h.rest]; rfl

/-- The lead die is the one that DIE_INFO names. -/
theorem lead (h : Keeps k s t) : t.lead = s.lead := by
  have hf : ∀ d, t.flag d fDieInfoLead = s.flag d fDieInfoLead := fun d => by
    simp only [State.flag, State.getF]
    rw [show fDieInfoLead.off = oDieInfo from rfl, h.dieInfo]
  simp only [State.lead, hf]

end Keeps

/-! ### Basic updates -/

variable {k : Extent}

namespace State

variable (s : State)

/-- Registers of a die's space other than DIE_INFO, which is the first. -/
theorem keeps_setReg (d off : Nat) (v : BitVec 64) (h : 0 < off ∧ off < 0x1000000 := by decide) : Keeps k s (s.setReg d off v) where
  rest := by cases k <;> rfl
  dieInfo d' := reg_setReg_other s v (by unfold regKey oDieInfo; omega)
  telSeq := rfl

theorem keeps_setF (d : Nat) (f : Fld) (v : Nat) (h : 0 < f.off ∧ f.off < 0x1000000 := by decide) : Keeps k s (s.setF d f v) := s.keeps_setReg d f.off _ h

theorem keeps_bump (d : Nat) (f : Fld) (n : Nat) (h : 0 < f.off ∧ f.off < 0x1000000 := by decide) : Keeps k s (s.bump d f n) := s.keeps_setF d f _ h

theorem keeps_modCtl (f : Ctl → Ctl) (h : (f s.ctl).telSeq = s.ctl.telSeq := by rfl) : Keeps k s (s.modCtl f) :=
  ⟨by cases k <;> rfl, fun _ => rfl, h⟩

theorem keeps_send (m : OutMsg) : Keeps k s (s.send m) := ⟨by cases k <;> rfl, fun _ => rfl, rfl⟩

/-! ### The service transport -/

theorem keeps_ethOut (p dst etype : Nat) (b : List Byte) : Keeps .transport s (s.ethOut p dst etype b) := by
  unfold ethOut
  exact .ite ((s.keeps_bump _ _ _).trans (keeps_send _ _)) (.refl s)

theorem keeps_ip6Out (p mac src dst next : Nat) (b : List Byte) : Keeps .transport s (s.ip6Out p mac src dst next b) := s.keeps_ethOut ..

theorem keeps_icmp6Out (p mac src dst typ : Nat) (b : List Byte) : Keeps .transport s (s.icmp6Out p mac src dst typ b) := s.keeps_ip6Out ..

theorem keeps_arpOut (p dmac op tmac tip : Nat) : Keeps .transport s (s.arpOut p dmac op tmac tip) := s.keeps_ethOut ..

theorem keeps_ip4Out (p mac src dst proto : Nat) (b : List Byte) : Keeps .transport s (s.ip4Out p mac src dst proto b) := by
  unfold ip4Out
  dsimp only
  split
  · exact s.keeps_ethOut ..
  · exact s.keeps_arpOut ..

theorem keeps_udpOut (e : NetEnd) (b : List Byte) : Keeps .transport s (s.udpOut e b) := by
  unfold udpOut
  exact .ite (s.keeps_ip6Out ..) (s.keeps_ip4Out ..)

theorem keeps_segOut (c : Conn) (g : Seg) : Keeps .transport s (s.segOut c g) := s.keeps_udpOut ..

theorem keeps_setConn (c : Conn) : Keeps k s (s.setConn c) := s.keeps_modCtl _

theorem keeps_showCtl : Keeps k s s.showCtl := (s.keeps_setF ..).trans (keeps_setF ..)

theorem keeps_rstTo (e : NetEnd) (id reason : Nat) : Keeps .transport s (s.rstTo e id reason) := (s.keeps_bump ..).trans (keeps_udpOut ..)

theorem keeps_dropConn (id : Nat) : Keeps k s (s.dropConn id) := (s.keeps_modCtl _).trans (keeps_showCtl _)

theorem keeps_resetConn (c : Conn) (reason : Nat) : Keeps .transport s (s.resetConn c reason) := (s.keeps_rstTo ..).trans (keeps_dropConn ..)

theorem keeps_pumpConn (id n : Nat) : ∀ s, Keeps .transport s (pumpConn id n s) := by
  induction n with
  | zero => exact .refl
  | succ n ih =>
    intro s
    unfold pumpConn
    split
    · exact .refl s
    · split
      · exact .refl s
      · exact .ite (((s.keeps_setConn _).trans (keeps_segOut ..)).trans (ih _)) (.refl s)

theorem keeps_queueSegs (id : Nat) (l : List Seg) : Keeps .transport s (s.queueSegs id l) := by
  unfold queueSegs
  split
  · exact .refl s
  · exact (s.keeps_setConn _).trans (keeps_pumpConn ..)

theorem keeps_sendMsg (id : Nat) (b : List Byte) : Keeps .transport s (s.sendMsg id b) := s.keeps_queueSegs ..

theorem keeps_sendEvent (id kind first : Nat) (l : List (List Byte)) : Keeps .transport s (s.sendEvent id kind first l) :=
  .ite (.refl s) (s.keeps_sendMsg ..)

theorem keeps_segArrive (e : NetEnd) (b : List Byte) : Keeps .transport s (s.segArrive e b) := by
  unfold segArrive
  split
  · exact s.keeps_bump ..
  · split
    · exact .ite (s.keeps_resetConn ..) (.refl s)
    · exact s.keeps_rstTo ..
  · split
    · exact s.keeps_modCtl _
    · split
      · exact .ite (.refl s) (s.keeps_rstTo ..)
      · exact .ite ((s.keeps_setConn _).trans (keeps_modCtl _ _)) (.refl s)

/-! Frames that arrive -/

theorem keeps_ipDrop (p : Nat) : Keeps k s (s.ipDrop p) := s.keeps_bump ..

theorem keeps_udpIn (e : NetEnd) (b : List Byte) : Keeps .transport s (s.udpIn e b) := by
  unfold udpIn
  exact .ite (s.keeps_ipDrop _) (.ite (s.keeps_segArrive ..) (.refl s))

theorem keeps_icmp6In (p mac src dst : Nat) (b : List Byte) : Keeps .transport s (s.icmp6In p mac src dst b) := by
  unfold icmp6In
  refine .ite (s.keeps_ipDrop _) ?_
  split
  · exact .ite (s.keeps_icmp6Out ..) (s.keeps_ipDrop _)
  · exact .ite (s.keeps_ipDrop _) (.ite (.refl s) (.ite (s.keeps_icmp6Out ..) (s.keeps_icmp6Out ..)))
  · exact .refl s
  · exact s.keeps_ipDrop _

theorem keeps_ip6In (p mac : Nat) (b : List Byte) : Keeps .transport s (s.ip6In p mac b) := by
  unfold ip6In
  exact .ite (s.keeps_ipDrop _) (.ite (s.keeps_udpIn ..) (.ite (s.keeps_icmp6In ..) (s.keeps_ipDrop _)))

theorem keeps_ip4In (p mac : Nat) (b : List Byte) : Keeps .transport s (s.ip4In p mac b) := by
  unfold ip4In
  refine .ite (s.keeps_ipDrop _) ?_
  split
  · exact s.keeps_udpIn ..
  · exact .ite (s.keeps_ipDrop _) (s.keeps_ip4Out ..)
  · exact s.keeps_ipDrop _

theorem keeps_arpIn (p : Nat) (b : List Byte) : Keeps .transport s (s.arpIn p b) := by
  unfold arpIn
  refine .ite (s.keeps_ipDrop _) ?_
  split
  · exact .ite (s.keeps_arpOut ..) (.refl s)
  · exact .ite (s.keeps_modCtl _) (.refl s)
  · exact s.keeps_ipDrop _

/-! Replies to commands -/

theorem keeps_modSession (id : Nat) (f : Session → Session) : Keeps k s (s.modSession id f) := s.keeps_modCtl _

theorem keeps_giveCredit (c : Cmd) : Keeps k s (s.giveCredit c) := .ite (s.keeps_modCtl _) (s.keeps_modSession ..)

theorem keeps_countStatus (n : Nat) : Keeps k s (s.countStatus n) := by
  unfold countStatus
  split
  · exact s.keeps_bump ..
  · exact s.keeps_bump ..
  · exact s.keeps_bump ..
  · exact s.keeps_bump ..
  · exact s.keeps_bump ..
  · exact .refl s

theorem keeps_reply (c : Cmd) (final : Bool) (status detail : Nat) (b : List Byte) : Keeps .transport s (s.reply c final status detail b) := by
  have h : Keeps .transport s (((if final then s.giveCredit c else s).modSession c.session (fun x => x.remember c.seq status b)).countStatus status) :=
    ((Keeps.ite (s.keeps_giveCredit c) (.refl s)).trans (keeps_modSession ..)).trans (keeps_countStatus ..)
  exact .ite h (h.trans (keeps_sendMsg ..))

theorem keeps_finish (p : Waits → Bool) (status detail : Nat) : Keeps .transport s (s.finish p status detail) :=
  (s.keeps_modCtl _).trans (.foldl (fun s _ => s.keeps_reply ..) _ _)

/-! ### Records of errors -/

theorem keeps_setDie (d : Nat) (v : Die) : Keeps .record s (s.setDie d v) := ⟨rfl, fun _ => rfl, rfl⟩

theorem keeps_setUpd (d : Nat) (u : Upd) : Keeps .record s (s.setUpd d u) := ⟨rfl, fun _ => rfl, rfl⟩

theorem keeps_setBeryl (d : Nat) (b : Beryl) : Keeps .record s (s.setBeryl d b) := ⟨rfl, fun _ => rfl, rfl⟩

theorem keeps_modDie (d : Nat) (f : Die → Die) : Keeps .record s (s.modDie d f) := s.keeps_setDie ..

theorem keeps_respond (d : Nat) (x : Xfer) : Keeps .record s (s.respond d x) := ⟨rfl, fun _ => rfl, rfl⟩

theorem keeps_sendBound (ports : List Nat) (kind step phase status : Nat) : Keeps .record s (s.sendBound ports kind step phase status) :=
  .foldl (fun s _ => s.keeps_respond ..) _ _

theorem keeps_stopRules : Keeps .record s s.stopRules := by
  refine .foldl (fun s d => ?_) _ _
  have h : Keeps .record s ((s.setUpd d { s.upd d with rule := .none, late := false }).setF d fParStatusGenRun 0) := (s.keeps_setUpd ..).trans (keeps_setF ..)
  exact .ite h (h.trans (keeps_setF ..))

theorem keeps_endFatal (cause : Nat) : Keeps .record s (s.endFatal cause) := by
  have ended : ∀ (j : Job) (l : List BMsg), Keeps .record s { s with job := j, bounds := l } := fun _ _ => ⟨rfl, fun _ => rfl, rfl⟩
  unfold endFatal
  extract_lets j s1
  have h1 : Keeps .record s s1 := (ended ..).trans (keeps_stopRules _)
  exact (h1.trans (.of_transport (keeps_finish ..))).trans (.of_transport (keeps_finish ..))

theorem keeps_abortJob (cause : Nat) : Keeps .record s (s.abortJob cause) :=
  .ite ((Keeps.ite (s.keeps_sendBound ..) (s.keeps_sendBound ..)).trans (keeps_endFatal ..)) (.refl s)

theorem keeps_classEffect (h cause : Nat) (cls : ErrClass) : Keeps .record s (s.classEffect h cause cls) := by
  cases cls with
  | tainted => exact s.keeps_setDie ..
  | jobFatal => exact s.keeps_abortJob _
  | packageFatal =>
    have hf : ∀ s : State, Keeps .record s { s with pkgFatal := true } := fun _ => ⟨rfl, fun _ => rfl, rfl⟩
    exact .ite (hf s) (((s.keeps_abortJob _).trans (keeps_setF ..)).trans (hf _))
  | info => exact .refl s
  | corrected => exact .refl s
  | contained => exact .refl s

/-- The counters of the six classes lie side by side. -/
theorem errCnt_off (cls : ErrClass) : 0 < (fErrCntCount.at (8 * cls.code)).off ∧ (fErrCntCount.at (8 * cls.code)).off < 0x1000000 := by
  cases cls <;> decide

theorem keeps_fileRec (h : Nat) (r : ErrRec) (cls : ErrClass) : Keeps .record s (s.fileRec h r cls) := by
  have alert : ∀ s : State, Keeps .record s { s with alert := true } := fun _ => ⟨rfl, fun _ => rfl, rfl⟩
  unfold fileRec
  extract_lets b s1 s2 s3 s4 s5
  have h3 : Keeps .record s s3 := ((s.keeps_setF ..).trans (keeps_bump _ _ _ _ (errCnt_off cls))).trans (keeps_modDie ..)
  have h4 : Keeps .record s s4 := .ite (h3.trans (keeps_bump ..)) h3
  have h5 : Keeps .record s s5 := .ite (h4.trans (alert _)) h4
  exact h5.trans (keeps_classEffect ..)

theorem keeps_raise (d : Nat) (i : ErrInfo) : Keeps .record s (s.raise d i) := by
  unfold raise
  dsimp only
  split
  · exact .ite (s.keeps_setDie ..) (s.keeps_setDie ..)
  · exact s.keeps_fileRec ..

/-- A block's own increment of a counter of its die waits at the unit, or is refused with a record. -/
theorem keeps_localInc (d port ctr n : Nat) : Keeps .record s (s.localInc d port ctr n) := by
  have refused : Keeps .record s (s.refuseCtr d ⟨port, .inc, ctr, n, .unit d⟩ 0 false) :=
    (Keeps.ite (s.keeps_bump ..) (.refl s)).trans (keeps_raise ..)
  exact .ite (.refl s) (.ite (s.keeps_setBeryl ..) refused)

theorem keeps_notify (d : Nat) (v : BitVec 256) (n : Nat) : Keeps .record s (s.notify d v n) := .ite (s.keeps_localInc ..) (.refl s)

theorem keeps_accessFailed (q : Requester) (g kind : Nat) : Keeps .record s (s.accessFailed q g kind) := by
  unfold accessFailed
  split
  · exact .ite (s.keeps_raise ..) (.refl s)
  · exact .ite (.refl s) (s.keeps_raise ..)

/-! ### Accesses to stack memory -/

theorem keeps_mem (m : MemState) : Keeps .access s { s with mem := m } := ⟨rfl, fun _ => rfl, rfl⟩

theorem keeps_setFunc (i v : Nat) : Keeps .access s (s.setFunc i v) := ⟨rfl, fun _ => rfl, rfl⟩

theorem stackF_off {f : Fld} (h : 0 < f.off ∧ f.off < 0x100000) (k : Nat) : 0 < (stackF k f).off ∧ (stackF k f).off < 0x1000000 := by
  have := Nat.mod_lt k (show 0 < 3 by decide)
  simp only [stackF, Fld.at]
  omega

theorem keeps_setStackF (d k : Nat) (f : Fld) (v : Nat) (h : 0 < f.off ∧ f.off < 0x100000 := by decide) : Keeps .access s (s.setF d (stackF k f) v) :=
  s.keeps_setF _ _ _ (stackF_off h k)

theorem keeps_bumpStackF (d k : Nat) (f : Fld) (n : Nat) (h : 0 < f.off ∧ f.off < 0x100000 := by decide) : Keeps .access s (s.bump d (stackF k f) n) :=
  s.keeps_bump _ _ _ (stackF_off h k)

theorem keeps_raiseAccess (d : Nat) (i : ErrInfo) : Keeps .access s (s.raise d i) := .access_of_record (s.keeps_raise d i)

theorem keeps_noteUncorr (g kind writer : Nat) : Keeps .access s (s.noteUncorr g kind writer) := by
  have := Nat.mod_lt (granStack g) (show 0 < 3 by decide)
  exact (s.keeps_bumpStackF ..).trans (keeps_setReg _ _ _ _ (by unfold oMcLastErr; omega))

theorem keeps_erasePin (ch sym : Nat) : Keeps .access s (s.erasePin ch sym) := by
  unfold erasePin
  extract_lets k d old m s1 s2 s3 s4 s5
  have h1 : Keeps .access s s1 := s.keeps_mem _
  have h3 : Keeps .access s s3 := (h1.trans (keeps_setStackF _ _ _ fMcPinfailLastCh _)).trans (keeps_setStackF _ _ _ fMcPinfailLastSym _)
  have h4 : Keeps .access s s4 := h3.trans (keeps_raiseAccess ..)
  split
  · exact (h4.trans (keeps_bumpStackF ..)).trans (keeps_setFunc ..)
  · exact (h4.trans (keeps_setStackF ..)).trans (keeps_bumpStackF ..)
  · exact ((h4.trans (keeps_setFunc ..)).trans (keeps_mem ..)).trans (keeps_raiseAccess ..)

theorem keeps_countPin (ch sym : Nat) : Keeps .access s (s.countPin ch sym) := .ite ((s.keeps_mem _).trans (keeps_erasePin ..)) (s.keeps_mem _)

theorem keeps_noteCorr (g : Nat) (fixes : List SymErr) : Keeps .access s (s.noteCorr g fixes) := by
  unfold noteCorr
  extract_lets ch k d s1 erased s2 now due
  have h1 : Keeps .access s s1 := s.keeps_bumpStackF ..
  have h2 : Keeps .access s s2 := h1.trans (.foldl (fun s (e : SymErr) => s.keeps_countPin ch e.pos) _ _)
  exact .ite ((h2.trans (keeps_mem ..)).trans (keeps_raiseAccess ..)) h2

theorem keeps_restoreAsk (g : Nat) : Keeps .access s (s.restoreAsk g) := ⟨rfl, fun _ => rfl, rfl⟩

theorem keeps_uncorrEffect (g kind writer : Nat) : Keeps .access s (s.uncorrEffect g kind writer).2 := by
  have h := s.keeps_noteUncorr g kind writer
  unfold uncorrEffect
  dsimp only
  split
  · exact h
  · exact h.trans (keeps_restoreAsk ..)
  · exact h.trans (keeps_raiseAccess ..)

theorem keeps_readStack (g : Nat) : Keeps .access s (s.readStack g).2 := by
  have deliver : ∀ (u : State) (v : GranBits) (m : GranMeta), Keeps .access s u →
      Keeps .access s (if m.epoch ≠ (s.mem.region (granRegion g)).epoch then (MemRes.ok 0 ⟨0, (s.mem.region (granRegion g)).epoch, 0xFF⟩, u)
        else if chkOf v = m.chk then (.ok v m, u) else u.uncorrEffect g 2 m.writer).2 := by
    intro u v m h
    split
    · exact h
    · split
      · exact h
      · exact h.trans (keeps_uncorrEffect ..)
  unfold readStack
  dsimp only
  split
  · exact deliver _ _ _ (.refl s)
  · exact deliver _ _ _ ((s.keeps_noteCorr ..).trans (.ite (.refl _) (keeps_mem ..)))
  · exact s.keeps_uncorrEffect ..

theorem keeps_answerWrites (e : MergeEntry) (err : Option Nat) : Keeps k s (s.answerWrites e err) := .foldl (fun s _ => s.keeps_send _) _ _

theorem keeps_flushEntry (e : MergeEntry) : Keeps .access s (s.flushEntry e).2 := by
  have put : ∀ (u : State) (m : MemState), Keeps .access s u → Keeps .access s (State.answerWrites { u with mem := m } e none) := fun u m h =>
    (h.trans (u.keeps_mem m)).trans (keeps_answerWrites ..)
  unfold flushEntry
  dsimp only
  split
  · exact ((s.keeps_mem _).trans (keeps_noteUncorr ..)).trans (keeps_answerWrites ..)
  · split
    · exact put _ _ ((s.keeps_mem _).trans (keeps_bumpStackF ..))
    · have hr := s.keeps_readStack e.gran
      split <;> rename_i u hu <;> rw [hu] at hr
      · exact put _ _ ((hr.trans (keeps_bumpStackF ..)).trans (keeps_mem ..))
      · exact ((hr.trans (keeps_bumpStackF ..)).trans (keeps_mem ..)).trans (keeps_answerWrites ..)
      · exact hr

theorem keeps_failWrites (l : List (Requester × Bool)) (g kind : Nat) : Keeps .record s (s.failWrites l g kind) :=
  .foldl (fun s (q : Requester × Bool) => s.keeps_accessFailed q.1 g kind) _ _

theorem keeps_flushGran (g : Nat) : Keeps .access s (s.flushGran g) := by
  unfold flushGran
  split
  · exact .refl s
  · rename_i e _
    have hf := s.keeps_flushEntry e
    split <;> rename_i hu <;> rw [hu] at hf
    · exact hf
    · exact hf.trans (.access_of_record (keeps_failWrites ..))

/-- A narrow write reaches no farther than an access. -/
theorem keeps_narrow (q : Requester) (g : Nat) (mask : BitVec 128) (v : GranBits) (crc : BitVec 16) (flush own : Bool) :
    Keeps .access s (s.narrow q g mask v crc flush own).2 := by
  unfold narrow
  extract_lets r view ch buf roomy entry merged
  have h1 : Keeps .access s roomy := by
    refine .ite ?_ (.refl s)
    split
    · exact s.keeps_flushGran _
    · exact .refl s
  have h2 : Keeps .access s merged := by
    dsimp only [merged]
    split
    · exact s.keeps_mem _
    · exact h1.trans (keeps_mem ..)
  refine .ite_snd (.refl s) (.ite_snd (.refl s) (.ite_snd (.refl s) (.ite_snd (s.keeps_noteUncorr ..) (.ite_snd (s.keeps_noteUncorr ..) ?_))))
  split
  · exact h2
  · rename_i e _
    refine .ite_snd ?_ h2
    have hf := merged.keeps_flushEntry e
    split <;> rename_i hu <;> rw [hu] at hf
    · exact h2.trans hf
    · exact (h2.trans hf).trans (.access_of_record (keeps_failWrites ..))

theorem keeps_narrowAt (q : Requester) (a : Nat) (bs : List Byte) (flush : Bool) : Keeps .access s (s.narrowAt q a bs flush).2 := s.keeps_narrow ..

end State
end Sys2Proof.Machine
end

section
/-! Queues that are cached, samples written to a TELEM queue, messages on the edges of dies, and what registers answer. -/

namespace Sys2Proof.Machine

variable {s t u : State}

/-! ### Cached queues (R244) -/

@[simp] theorem State.qe_setQe_same (s : State) (d : Nat) (q : QEngine) : (s.setQe d q).qe d = q := mapGet_mapSet_same ..

@[simp] theorem State.mem_setQe (s : State) (d : Nat) (q : QEngine) : (s.setQe d q).mem = s.mem := rfl

@[simp] theorem State.ctl_setQe (s : State) (d : Nat) (q : QEngine) : (s.setQe d q).ctl = s.ctl := rfl

@[simp] theorem QEngine.line_putLine_same (q : QEngine) (i : Nat) (v : BitVec 256) (dirty : Bool) : (q.putLine i v dirty).line i = some ⟨v, dirty, q.uses⟩ :=
  mapGet_mapSet_same ..

/-- What a queue's line shows depends on the queue engines alone. -/
theorem qShows_of_qes {d i : Nat} {v : BitVec 256} (h : QShows s d i v) (hq : t.qes = s.qes) : QShows t d i v := by
  rw [QShows, State.qe, hq]
  exact h

theorem qShows_putLine (s : State) (d i : Nat) (v : BitVec 256) (dirty : Bool) : QShows (s.setQe d ((s.qe d).putLine i v dirty)) d i v :=
  ⟨⟨v, dirty, (s.qe d).uses⟩, by rw [State.qe_setQe_same, QEngine.line_putLine_same], rfl⟩

/-- Nothing waits on a queue's miss, so nothing is applied. -/
theorem State.qDrain_of_waits_false {d i : Nat} (h : (s.qe d).waits i = false) : s.qDrain d i = s := by
  have he : ((s.qe d).waiting.filter (fun o => o.q == i)).isEmpty = true := by
    simpa [QEngine.waits, List.filter_eq_nil_iff] using h
  unfold State.qDrain
  exact if_pos he

/-- An engine's access to a cached queue is a hit. -/
theorem State.qGet_of_cached {d i : Nat} {v : BitVec 256} (h : QCached s d i v) :
    ∃ dirty, s.qGet d i = (some v, (s.setQe d ((s.qe d).putLine i v dirty)).bump d fQeCacheHitCntCount 1) := by
  obtain ⟨hup, hw, l, hl, rfl⟩ := h
  refine ⟨l.dirty, ?_⟩
  rw [State.qGet, hup, State.qDrain_of_waits_false hw, State.qLook, hl]
  rfl

/-- A new state of a cached queue stays in the cache. -/
theorem State.qPut_of_shown {d i : Nat} {v : BitVec 256} (h : QShows s d i v) (w : BitVec 256) : s.qPut d i w = s.setQe d ((s.qe d).putLine i w true) := by
  obtain ⟨l, hl, -⟩ := h
  rw [State.qPut, hl]

/-! ### Telemetry (R416) -/

/-- A sample goes into a TELEM queue with room, which is the one access to memory; the queue shows one entry more. -/
theorem State.putSample_of_room {q : Nat} {v : BitVec 256} {bs : List Byte} (hc : QCached s s.lead q v) (hen : qEn v = true) (herr : qErr v = false)
    (hkind : qKind v = 4) (hroom : qHeld v < qDepth v)
    (hn : (s.qGet s.lead q).2.narrowAt s.jas (qEntryAt v (qProd v)) bs true = (none, u)) :
    Keeps .record (u.setQe s.lead ((u.qe s.lead).putLine q (qAddProd v 1) true)) (s.putSample q bs) := by
  obtain ⟨dirty, hg⟩ := State.qGet_of_cached hc
  rw [hg] at hn
  have hk := State.keeps_narrowAt ((s.setQe s.lead ((s.qe s.lead).putLine q v dirty)).bump s.lead fQeCacheHitCntCount 1) s.jas (qEntryAt v (qProd v)) bs true
  have hs : QShows u s.lead q v := by
    rw [hn] at hk
    exact qShows_of_qes (qShows_putLine s s.lead q v dirty) hk.qes
  have hl1 : ((s.setQe s.lead ((s.qe s.lead).putLine q v dirty)).bump s.lead fQeCacheHitCntCount 1).lead = s.lead :=
    (State.keeps_bump (k := .record) _ _ _ _).lead
  have hlu : u.lead = s.lead := by
    rw [hn] at hk
    exact hk.lead.trans hl1
  have hj : ((s.setQe s.lead ((s.qe s.lead).putLine q v dirty)).bump s.lead fQeCacheHitCntCount 1).jas = s.jas := congrArg Requester.jasper hl1
  unfold State.putSample
  rw [hg]
  simp only [hen, herr, hkind, hj, hn, hlu, State.qPut_of_shown hs, Nat.not_le.mpr hroom, Bool.not_true, bne_self_eq_false, decide_false, Bool.or_self, Bool.false_eq_true, if_false]
  exact State.keeps_notify ..

/-! ### Messages on the edges (R371) -/

/-- `t` differs from `s` in the edges and in what has been sent only. -/
def OnEdges (s t : State) : Prop := t = { s with edges := t.edges, out := t.out }

theorem OnEdges.refl (s : State) : OnEdges s s := rfl

theorem OnEdges.trans (h : OnEdges s t) (h' : OnEdges t u) : OnEdges s u :=
  calc
    u = { t with edges := u.edges, out := u.out } := h'
    _ = { s with edges := u.edges, out := u.out } := congrArg (fun x : State => { x with edges := u.edges, out := u.out }) h

theorem OnEdges.mem (h : OnEdges s t) : t.mem = s.mem := by unfold OnEdges at h; rw [h]

theorem OnEdges.job (h : OnEdges s t) : t.job = s.job := by unfold OnEdges at h; rw [h]

theorem OnEdges.cfgOuts (h : OnEdges s t) : t.cfgOuts = s.cfgOuts := by unfold OnEdges at h; rw [h]

theorem State.setEdge_onEdges (s : State) (d e : Nat) (x : Edge) : OnEdges s (s.setEdge d e x) := rfl

theorem State.send_onEdges (s : State) (m : OutMsg) : OnEdges s (s.send m) := rfl

theorem State.edgeBytes_onEdges (d e : Nat) (bs : List Byte) (s : State) : OnEdges s (State.edgeBytes d e bs s) := by
  unfold State.edgeBytes
  generalize span 0 (ceilDiv bs.length 244) = l
  induction l generalizing s with
  | nil => exact .refl s
  | cons i l ih => exact ((s.setEdge_onEdges ..).trans (State.send_onEdges ..)).trans (ih _)

theorem State.edgeFlush_onEdges (d e n : Nat) : ∀ s, OnEdges s (State.edgeFlush d e n s) := by
  induction n with
  | zero => exact .refl
  | succ n ih =>
    intro s
    unfold State.edgeFlush
    dsimp only
    split
    · exact .refl s
    · exact ((s.setEdge_onEdges ..).trans (State.edgeBytes_onEdges ..)).trans (ih _)

/-- A message between dies is sent, or waits at its edge. -/
theorem State.edgeSend_onEdges (s : State) (d e src dst : Nat) (b : MsgBody) : OnEdges s (s.edgeSend d e src dst b) :=
  (s.setEdge_onEdges ..).trans (State.edgeFlush_onEdges ..)

/-- An access to a port die's register that has a way and a tag waits for its answer. -/
theorem State.cfgSend_of_way {pd g k : Nat} (a : Nat) (b : Nat → MsgBody) (hg : s.gateTo s.lead pd = some g) (hk : s.cfgTag pd = some k) :
    OnEdges { s with cfgOuts := s.cfgOuts ++ [(pd, k, a)] } (s.cfgSend pd a b) := by
  rw [State.cfgSend, hg, hk]
  exact State.edgeSend_onEdges ..

/-! ### Registers -/

/-- A register is there to be read where the spec has one and its space is up. -/
theorem State.peekReg_isSome {d off : Nat} {r : RegSpec} (hr : regSpecOf d off = some r) (hu : s.spaceUp d = true) : ∃ v, s.peekReg d off = some v := by
  simp only [State.peekReg, hr, hu, Bool.not_true, Bool.false_eq_true, if_false]
  exact ⟨_, rfl⟩

/-- Where no register answers a read, the read clears nothing. -/
theorem State.clearRc_of_peekReg_none {d off : Nat} (h : s.peekReg d off = none) : s.clearRc d off = s := by
  unfold State.peekReg at h
  unfold State.clearRc
  split
  · rfl
  · next r hr =>
    have hu : s.spaceUp d = false := by simpa [hr] using h
    simp [hu]

/-- A read clears RC fields in a register or in a core, and nothing else. -/
theorem State.clearRc_cases (s : State) (d off : Nat) : s.clearRc d off = s ∨ (∃ v, s.clearRc d off = s.setReg d off v) ∨
    ∃ pc f, s.clearRc d off = s.modCore pc f := by
  unfold State.clearRc
  split
  · exact .inl rfl
  · split
    · exact .inl rfl
    · split
      · exact .inr (.inr ⟨_, _, rfl⟩)
      · exact .inr (.inl ⟨_, rfl⟩)

@[simp] theorem State.mem_clearRc (s : State) (d off : Nat) : (s.clearRc d off).mem = s.mem := by
  rcases s.clearRc_cases d off with h | ⟨_, h⟩ | ⟨_, _, h⟩ <;> rw [h] <;> rfl

@[simp] theorem State.job_clearRc (s : State) (d off : Nat) : (s.clearRc d off).job = s.job := by
  rcases s.clearRc_cases d off with h | ⟨_, h⟩ | ⟨_, _, h⟩ <;> rw [h] <;> rfl

@[simp] theorem State.out_clearRc (s : State) (d off : Nat) : (s.clearRc d off).out = s.out := by
  rcases s.clearRc_cases d off with h | ⟨_, h⟩ | ⟨_, _, h⟩ <;> rw [h] <;> rfl

/-- The RC fields of a register that holds them itself are cleared by a read. -/
theorem State.reg_clearRc {d off : Nat} {r : RegSpec} (hr : regSpecOf d off = some r) (hu : s.spaceUp d = true) (hv : r.off ≠ oArrStatus ∨ 4 ≤ d)
    (hf : ∃ f ∈ r.fields, f.acc = .rc) : (s.clearRc d off).reg d off = r.without .rc (s.reg d off) := by
  have ha : r.fields.any (fun f => f.acc == .rc) = true := by simpa using hf
  have hd : ¬(r.off = oArrStatus ∧ d < 4) := by omega
  simp only [State.clearRc, hr, hu, ha, hd, Bool.not_true, Bool.or_self, Bool.false_eq_true, if_false, State.reg_setReg_same]

/-- A write to an ordinary register that takes it merges by field access. -/
theorem State.writeReg_of_ordinary {d off : Nat} {r : RegSpec} {v : BitVec 64} (hr : regSpecOf d off = some r) (hu : s.spaceUp d = true)
    (ha : s.writeAct d off r.off v = none) (hv : viewOnly d r.off = false) (hf : ∃ f ∈ r.fields, f.acc = .rw ∨ f.acc = .wo ∨ f.acc = .w1c)
    (hw : s.writable d off r.off = true) (ho : 4 ≤ d ∨ (r.off ≠ oThermCfg ∧ r.off ≠ oPwrBudgetCfg)) :
    s.writeReg d off v = s.setReg d off (r.merge d (s.reg d off) v) := by
  have hany : r.fields.any (fun f => f.acc == .rw || f.acc == .wo || f.acc == .w1c) = true := by simpa [or_assoc] using hf
  have ht : ¬(d < 4 ∧ r.off = oThermCfg ∧ thermOk (fld v 0 12) (fld v 16 12) = false) := by omega
  have hp : ¬(d < 4 ∧ r.off = oPwrBudgetCfg) := by omega
  simp only [State.writeReg, State.writeReg?, hr, hu, ha, hv, hany, hw, ht, hp, Bool.not_true, Bool.false_eq_true, if_false, Option.getD_some]

/-- LAST_STATUS shows in no register. -/
theorem State.peekReg_smb (s : State) (n d off : Nat) : State.peekReg { s with smb := n } d off = s.peekReg d off := rfl

end Sys2Proof.Machine
end

section
/-! What the pins, ports and registers of the package answer. -/

namespace Sys2Proof.Machine

variable {s u : State}

/-- A sample that is due goes into its TELEM queue, and the sequence moves on by one. -/
theorem execTelemetrySample_of_due {kind : Fin 5} {d : Fin 6} {q : BitVec 18} {v : BitVec 256} (hlead : s.leadRuns = true) (hint : s.ctl.telInterval ≠ 0)
    (hmask : natBits s.ctl.telMask kind 1 = 1) (hshed : s.getF common fCmdStatusShed < 5) (hs : s.samples kind d = true) (hc : QCached s s.lead q.toNat v)
    (hen : qEn v = true) (herr : qErr v = false) (hkind : qKind v = 4) (hroom : qHeld v < qDepth v)
    (hn : (s.qGet s.lead q.toNat).2.narrowAt s.jas (qEntryAt v (qProd v)) (s.sample kind d) true = (none, u)) :
    ∃ t, exec (.telemetrySample kind d q) s = .next t ∧ t.mem = u.mem ∧ t.ctl.telSeq = (u.ctl.telSeq + 1) % 65536 ∧ QShows t s.lead q.toNat (qAddProd v 1) := by
  have hp := State.putSample_of_room hc hen herr hkind hroom hn
  have hshow := qShows_of_qes (qShows_putLine u s.lead q.toNat (qAddProd v 1) true) hp.qes
  let next : State := (s.putSample q.toNat (s.sample kind d)).modCtl (fun x => { x with telSeq := (x.telSeq + 1) % 65536 })
  have hseq : next.ctl.telSeq = (u.ctl.telSeq + 1) % 65536 := congrArg (fun n => (n + 1) % 65536) hp.telSeq
  have hdue : ¬(!s.leadRuns || s.ctl.telInterval == 0 || natBits s.ctl.telMask kind 1 == 0 || decide (5 ≤ s.getF common fCmdStatusShed) || !s.samples kind d) = true := by
    simp [hlead, hint, hmask, hs, hshed]
  have hexec : ∃ t, exec (.telemetrySample kind d q) s = .next t ∧ Keeps .transport next t := by
    refine ⟨_, congrArg Host.Outcome.next (if_neg hdue), ?_⟩
    dsimp only
    split
    · exact .ite (State.keeps_sendEvent ..) (.refl _)
    · exact .refl _
  obtain ⟨t, he, ht⟩ := hexec
  exact ⟨t, he, (ht.of_transport (k := .record)).mem.trans hp.mem, ht.telSeq.trans hseq, qShows_of_qes hshow ht.qes⟩

/-! ### Frames (R483) -/

section Frames

variable {p : Fin 2} {bytes : List Byte} {fcs : Bool}

/-- A frame that the frame layer refuses is counted as dropped. -/
theorem execFrameReceive_of_bad (hd : s.dieUp (4 + p.val) = true) (hf : s.funcUp (svcFunc p) = true) (hl : s.flag (4 + p.val) fSvcStatusLink = true)
    (h : fcs = false ∨ s.takesMac p (beAt bytes 0 6) = false ∨ readFrame (s.netOf p).vlan bytes = none) :
    exec (.frameReceive p bytes fcs) s = .next (s.bump (4 + p.val) fSvcRxDropCntCount 1) := by
  have hr : (if fcs && s.takesMac p (beAt bytes 0 6) then readFrame (s.netOf p).vlan bytes else none) = none := by
    rcases h with h | h | h <;> simp [h]
  change execFrameReceive p bytes fcs s = _
  simp only [execFrameReceive, hd, hf, hl, hr, Bool.not_true, Bool.or_self, Bool.false_eq_true, if_false]

/-- A frame that is taken is counted and goes to its protocol. -/
theorem execFrameReceive_of_good {mac etype : Nat} {b : List Byte} (hd : s.dieUp (4 + p.val) = true) (hf : s.funcUp (svcFunc p) = true)
    (hl : s.flag (4 + p.val) fSvcStatusLink = true) (hc : fcs = true) (hm : s.takesMac p (beAt bytes 0 6) = true)
    (hr : readFrame (s.netOf p).vlan bytes = some (mac, etype, b)) :
    exec (.frameReceive p bytes fcs) s = .next (
      let v := s.bump (4 + p.val) fSvcRxFramesCntCount 1
      if etype = 0x86DD then v.ip6In p mac b else if etype = 0x0800 then v.ip4In p mac b else v.arpIn p b) := by
  change execFrameReceive p bytes fcs s = _
  simp only [execFrameReceive, hd, hf, hl, hc, hm, hr, Bool.not_true, Bool.or_self, Bool.and_self, Bool.false_eq_true, if_false, if_true]

/-- A request for the port's address is answered. -/
theorem State.arpIn_of_request {p : Nat} {b : List Byte} (h0 : (s.netOf p).ip4 ≠ 0) (hl : 28 ≤ b.length) (hh : beAt b 0 6 = 0x000108000604) (ho : beAt b 6 2 = 1)
    (ht : beAt b 24 4 = (s.netOf p).ip4) : s.arpIn p b = s.arpOut p (beAt b 8 6) 2 (beAt b 8 6) (beAt b 14 4) := by
  have h : ¬((s.netOf p).ip4 = 0 ∨ b.length < 28 ∨ beAt b 0 6 ≠ 0x000108000604) := by omega
  simp only [State.arpIn, h, ho, ht, if_false, if_true]

end Frames

/-! ### SMBus (R486) -/

/-- The lead die is a compute die. -/
theorem State.lead_lt (s : State) : s.lead < 4 := by
  unfold State.lead
  cases h : (span 0 4).find? (fun d => s.flag d fDieInfoLead) with
  | none => decide
  | some d => exact (mem_span.1 (List.mem_of_find?_eq_some h)).2

theorem State.summary_length (s : State) : s.summary.length = 32 := by simp [State.summary]

/-- The summary begins with the step and names the lead die in byte 11. -/
theorem State.summary_step (s : State) : leAt s.summary 0 8 = (s.reg s.lead oStepIndex).toNat := by
  have h := (s.reg s.lead oStepIndex).isLt
  simp only [leAt, State.summary, List.drop_zero, List.append_assoc]
  rw [List.take_left' (leBytes_length ..), leNat_leBytes]
  omega

theorem State.summary_lead (s : State) : leAt s.summary 11 1 = s.lead := by
  have h := s.lead_lt
  simp only [leAt, State.summary, List.append_assoc]
  rw [← List.append_assoc, ← List.append_assoc, List.drop_left' (by simp), List.take_left' (leBytes_length ..), leNat_leBytes]
  omega

/-- A register that SMBus reaches is read. -/
theorem execRegRead_of_reached {space : BitVec 8} {off : BitVec 24} {v : BitVec 64} (hd : s.dieUp 0 = true) (hs : space.toNat ≤ 6)
    (hr : smbusReads space.toNat off.toNat = true) (hu : s.smbusUp space.toNat = true) (hv : s.peekReg space.toNat off.toNat = some v) :
    exec (.regRead space off) s = .next (s.send (.smbus (leBytes 0 1 ++ leBytes v.toNat 8))) := by
  have hin : ¬(space.toNat > 6 ∨ smbusReads space.toNat off.toNat = false) := by simp [hr, hs]
  change execRegRead space off s = _
  simp only [execRegRead, hd, hin, hu, hv, Bool.not_true, Bool.false_eq_true, if_false]

/-- A read beyond what SMBus reaches answers status 1, and draws what else it sends. -/
theorem execRegRead_of_not_reached {space : BitVec 8} {off : BitVec 24} (hd : s.dieUp 0 = true) (h : 6 < space.toNat ∨ smbusReads space.toNat off.toNat = false) :
    exec (.regRead space off) s = .next (s.draw.2.send (.smbus (leBytes 1 1 ++ leBytes (Config.smbusNoise s.draw.1).toNat 8))) := by
  change execRegRead space off s = _
  simp only [execRegRead, hd, h, Bool.not_true, Bool.false_eq_true, if_false, if_true, gt_iff_lt]

/-- A write that is too short or whose PEC is wrong leaves its status only. -/
theorem execRegWrite_of_bad {space : BitVec 8} {off : BitVec 24} (value mask : BitVec 64) (hd : s.dieUp 0 = true) :
    exec (.regWrite false space off value mask) s = .next { s with smb := 4 } := by
  change execRegWrite false space off value mask s = _
  simp only [execRegWrite, hd, Bool.not_true, Bool.not_false, Bool.false_eq_true, if_false, if_true]

/-- A write that is refused leaves its status only. -/
theorem execRegWrite_of_refused {space : BitVec 8} {off : BitVec 24} {value mask : BitVec 64} (hd : s.dieUp 0 = true)
    (hst : s.smbusStatus space.toNat off.toNat mask.toNat ≠ 0) :
    exec (.regWrite true space off value mask) s = .next { s with smb := s.smbusStatus space.toNat off.toNat mask.toNat } := by
  change execRegWrite true space off value mask s = _
  simp only [execRegWrite, hd, hst, Bool.not_true, Bool.false_eq_true, if_false, ne_eq, not_false_eq_true, if_true]

/-- A write that is taken replaces the bits of its mask. -/
theorem execRegWrite_of_taken {space : BitVec 8} {off : BitVec 24} {value mask old : BitVec 64} (hd : s.dieUp 0 = true)
    (hst : s.smbusStatus space.toNat off.toNat mask.toNat = 0) (hv : s.peekReg space.toNat off.toNat = some old) :
    exec (.regWrite true space off value mask) s =
      .next (State.writeReg { s with smb := 0 } space.toNat off.toNat ((old &&& ~~~mask) ||| (value &&& mask))) := by
  change execRegWrite true space off value mask s = _
  simp only [execRegWrite, hd, hst, Bool.not_true, Bool.false_eq_true, if_false, ne_eq, not_true_eq_false, State.peekReg_smb, hv]

/-! ### JTAG (R491) -/

@[simp] theorem State.tap_setTap_same (s : State) (d : Nat) (t : Tap) : (s.setTap d t).tap d = t := mapGet_mapSet_same ..

@[simp] theorem State.mem_setTap (s : State) (d : Nat) (t : Tap) : (s.setTap d t).mem = s.mem := rfl

@[simp] theorem State.out_setTap (s : State) (d : Nat) (t : Tap) : (s.setTap d t).out = s.out := rfl

@[simp] theorem State.tap_send (s : State) (d : Nat) (m : OutMsg) : (s.send m).tap d = s.tap d := rfl

/-- What CFG returns of an access: its data and its status. -/
theorem fld_cfgData (v : BitVec 96) (data status : Nat) : fld (putFld (putFld v 0 64 data) 92 4 status) 0 64 = data % 2 ^ 64 := by
  rw [fld_putFld_other _ _ (by decide) (by decide), fld_putFld_same _ _ (by decide)]

theorem fld_cfgStatus (v : BitVec 96) (data status : Nat) : fld (putFld (putFld v 0 64 data) 92 4 status) 92 4 = status % 2 ^ 4 :=
  fld_putFld_same _ _ (by decide)

/-- A read through CFG of a register that answers. -/
theorem State.cfgAccess_of_read {d : Nat} {v : BitVec 96} {w : BitVec 64} (hd : s.dieUp d = true) (hs : fld v 88 3 ≤ 6) (ho : d < 4 ∨ fld v 88 3 = d)
    (hr : bit v 91 = false) (hw : s.peekReg (fld v 88 3) (fld v 64 24) = some w) :
    s.cfgAccess d v = (putFld (putFld v 0 64 w.toNat) 92 4 0, s.clearRc (fld v 88 3) (fld v 64 24)) := by
  have hout : ¬(!s.dieUp d || decide (6 < fld v 88 3) || (decide (4 ≤ d) && fld v 88 3 != d) || (s.peekReg (fld v 88 3) (fld v 64 24)).isNone) = true := by
    have : d < 4 ∨ fld v 88 3 = d := ho
    simp [hd, hw, Nat.not_lt.mpr hs]
    omega
  unfold State.cfgAccess
  dsimp only
  rw [if_neg hout, hr, if_neg Bool.false_ne_true]
  simp only [State.readReg, hw, Option.map_some, Option.getD_some]

/-- Reading a register through CFG shifts out what the access before left, and leaves the value with status 0. -/
theorem execJtagCfg_of_read {d : Fin 6} {v : BitVec 96} {w : BitVec 64} (hd : s.dieUp d = true) (hs : fld v 88 3 ≤ 6) (ho : d.val < 4 ∨ fld v 88 3 = d)
    (hr : bit v 91 = false) (hw : s.peekReg (fld v 88 3) (fld v 64 24) = some w) :
    exec (.jtagCfg d v) s = .next (((s.clearRc (fld v 88 3) (fld v 64 24)).setTap d { s.tap d with ir := 0x20, cfg := putFld (putFld v 0 64 w.toNat) 92 4 0 }).send
      (.jtag d ((span 0 96).map (bit (s.tap d).cfg)))) := by
  change execJtagCfg d v s = _
  simp only [execJtagCfg, State.cfgAccess_of_read hd hs ho hr hw]

/-! ### Register accesses of a cluster (R11, R12, R13, R50) -/

/-- A read that answers a value completes with it. -/
theorem execRcRead_of_ordinary {space : Fin 7} {off : BitVec 24} {v : BitVec 64} (h4 : space ≠ 4) (h5 : space ≠ 5) (hv : s.peekReg space off.toNat = some v) :
    exec (.rcRead space off) s = .next ((s.clearRc space off.toNat).send (.readAnswer (cfgAddr space off.toNat) (some v.toNat))) := by
  have h : ¬(space.val = 4 ∨ space.val = 5) := by omega
  change execRcRead space off s = _
  simp only [execRcRead, h, if_false, State.readReg, hv, Option.isNone_some, Bool.false_eq_true, Option.map_some]

/-- A read that no register answers completes with error. -/
theorem execRcRead_of_hole {space : Fin 7} {off : BitVec 24} (h4 : space ≠ 4) (h5 : space ≠ 5) (hv : s.peekReg space off.toNat = none) :
    exec (.rcRead space off) s = .next ((s.clusterFailed (cfgAddr space off.toNat)).send (.readAnswer (cfgAddr space off.toNat) none)) := by
  have h : ¬(space.val = 4 ∨ space.val = 5) := by omega
  change execRcRead space off s = _
  simp only [execRcRead, h, if_false, State.readReg, hv, Option.isNone_none, if_true, Option.map_none, State.clearRc_of_peekReg_none hv]

/-- A write acts where the register answers, and completes with error where none does. -/
theorem execRegisterWrite_of_near {space : Fin 7} (off : BitVec 24) (v : BitVec 64) (h4 : space ≠ 4) (h5 : space ≠ 5) :
    exec (.registerWrite space off v) s = .next (
      if (s.peekReg space off.toNat).isNone then (s.clusterFailed (cfgAddr space off.toNat)).send (.readAnswer (cfgAddr space off.toNat) none)
      else s.writeReg space off.toNat v) := by
  have h : ¬(space.val = 4 ∨ space.val = 5) := by omega
  change execRegisterWrite space off v s = _
  simp only [execRegisterWrite, h, if_false]

/-- An access to a port die's register waits for its answer and changes no memory and no job. -/
theorem State.cfgSend_waits {pd g k : Nat} (a : Nat) (b : Nat → MsgBody) (hg : s.gateTo s.lead pd = some g) (hk : s.cfgTag pd = some k) :
    (s.cfgSend pd a b).mem = s.mem ∧ (s.cfgSend pd a b).job = s.job ∧ (s.cfgSend pd a b).cfgOuts = s.cfgOuts ++ [(pd, k, a)] := by
  have h := State.cfgSend_of_way a b hg hk
  exact ⟨h.mem, h.job, h.cfgOuts⟩

/-- Settles O57, a command at a time. -/
theorem pinsPortsAndRegistersAnswer : Obligations.PinsPortsAndRegistersAnswer := by
  refine ⟨?telemetry, ?shed, ?frames, ?smbus, ?jtag, ?registers, ?holes⟩
  case telemetry =>
    intro kind d q v s u hlead hint hmask hshed hs hc hen herr hkind hroom hn
    exact execTelemetrySample_of_due hlead hint hmask hshed hs hc hen herr hkind hroom hn
  case shed =>
    refine fun s hlead => ⟨fun hn hw => ?_, fun hn hw => ?_⟩
    · have h : decide (128 < s.waitingCmds) || decide (2048 < s.ctl.forward.length) := by simpa using hw
      exact congrArg Host.Outcome.next (if_neg (by simp [hlead, hn, h]))
    · exact congrArg Host.Outcome.next (if_neg (by simp [hlead, hn, hw]))
  case frames =>
    refine fun p bytes fcs s hd hf hl => ⟨execFrameReceive_of_bad hd hf hl, fun mac etype b hc hm hr => ?_⟩
    intro v
    have hk : Keeps .transport s (if etype = 0x86DD then v.ip6In p mac b else if etype = 0x0800 then v.ip4In p mac b else v.arpIn p b) :=
      (s.keeps_bump ..).trans (.ite (State.keeps_ip6In ..) (.ite (State.keeps_ip4In ..) (State.keeps_arpIn ..)))
    refine ⟨_, execFrameReceive_of_good hd hf hl hc hm hr, hk.of_transport.mem, hk.job, hk.cores, ?_, ?_, ?_⟩
    · rintro rfl h0 hb hh ho ht
      exact State.arpIn_of_request h0 hb hh ho ht
    · rintro rfl
      rfl
    · rintro rfl
      rfl
  case smbus =>
    refine fun space off s hd => ⟨fun v => execRegRead_of_reached hd, fun h => ?_, fun value mask => execRegWrite_of_bad value mask hd,
      fun value mask => ⟨execRegWrite_of_refused hd, fun old => execRegWrite_of_taken hd⟩, congrArg Host.Outcome.next (if_pos hd),
      ⟨s.summary, congrArg Host.Outcome.next (if_pos hd), s.summary_length, s.summary_step, s.summary_lead⟩,
      fun ha => congrArg Host.Outcome.next (if_pos (by rw [hd, ha]; rfl))⟩
    exact ⟨_, _, execRegRead_of_not_reached hd h, rfl, rfl, rfl⟩
  case jtag =>
    refine fun d s => ⟨fun v w hd hs ho hr hw => ?_, rfl, rfl, fun pins load => ⟨rfl, rfl⟩⟩
    have hdata : fld (putFld (putFld v 0 64 w.toNat) 92 4 0) 0 64 = w.toNat := by
      rw [fld_cfgData, Nat.mod_eq_of_lt w.isLt]
    refine ⟨_, execJtagCfg_of_read hd hs ho hr hw, ?_, ?_, ?_, ?_, ?_⟩
    · rw [State.mem_send, State.mem_setTap, State.mem_clearRc]
    · rw [State.out_send, State.out_setTap, State.out_clearRc]
    · rw [State.tap_send, State.tap_setTap_same]
    · rw [State.tap_send, State.tap_setTap_same, hdata]
    · rw [State.tap_send, State.tap_setTap_same, fld_cfgStatus, Nat.zero_mod]
  case registers =>
    refine fun space off r s hr hu h4 h5 => ⟨?_, fun v ha hv hf hw ho => ?_⟩
    · obtain ⟨v, hv⟩ := State.peekReg_isSome hr hu
      exact ⟨_, v, execRcRead_of_ordinary h4 h5 hv, s.mem_clearRc .., s.job_clearRc .., hv, by simp, fun ha hf => State.reg_clearRc hr hu ha hf⟩
    · obtain ⟨x, hx⟩ := State.peekReg_isSome hr hu
      rw [execRegisterWrite_of_near off v h4 h5, hx, State.writeReg_of_ordinary hr hu ha hv hf hw ho]
      rfl
  case holes =>
    refine fun space off v s => ⟨fun h4 h5 hn => ⟨execRcRead_of_hole h4 h5 hn, ?_⟩, fun g k hp hg hk => ?_⟩
    · rw [execRegisterWrite_of_near off v h4 h5, hn]
      rfl
    · have h : space.val = 4 ∨ space.val = 5 := by omega
      exact ⟨⟨_, congrArg Host.Outcome.next (if_pos h), State.cfgSend_waits _ _ hg hk⟩, ⟨_, congrArg Host.Outcome.next (if_pos h), State.cfgSend_waits _ _ hg hk⟩⟩

end Sys2Proof.Machine
end

section
/-! Upkeep of the memories: diagnostic reads (R48), the patrols (R212, R213) and the initialisation sweep of a stack (R183). -/

namespace Sys2Proof.Machine

variable {s : State}

/-! ### What a diagnostic read leaves alone (R48) -/

/-- A record of a class without an effect of its own sends nothing. -/
theorem State.out_raise {i : ErrInfo} (s : State) (d : Nat) (h : ∀ (u : State) hd cause, u.classEffect hd cause i.cls = u) : (s.raise d i).out = s.out := by
  unfold State.raise
  dsimp only
  split
  · split <;> rfl
  · unfold State.fileRec
    dsimp only
    rw [h]
    split <;> split <;> rfl

theorem Keeps.core {k : Extent} {t : State} (h : Keeps k s t) (pc : Nat) : t.core pc = s.core pc := by
  rw [State.core, h.cores, State.core]

/-- A failed access of the cluster leaves memory, the cores and what is sent as they are. -/
theorem State.clusterFailed_leaves (s : State) (addr : Nat) :
    (s.clusterFailed addr).mem = s.mem ∧ (s.clusterFailed addr).cores = s.cores ∧ (s.clusterFailed addr).out = s.out :=
  ⟨(s.keeps_raise ..).mem, (s.keeps_raise ..).cores, s.out_raise _ (fun _ _ _ => rfl)⟩

/-- A counter of a core lies in the registers. -/
theorem State.coreBump_leaves (s : State) (pc : Nat) (f : Fld) (k : Nat) :
    (s.coreBump pc f k).mem = s.mem ∧ (s.coreBump pc f k).cores = s.cores ∧ (s.coreBump pc f k).out = s.out := by
  unfold State.coreBump
  split <;> exact ⟨rfl, rfl, rfl⟩

/-- A diagnostic read answers what the core's bank decodes to, or an error; of the core it changes counters only. -/
theorem execAccDiagnosticRead_answers (lc : Fin 64) (word : Fin 16384) (s : State) :
    ∃ t, exec (.accDiagnosticRead lc word) s = .next t ∧ t.mem = s.mem ∧ t.cores = s.cores ∧
      t.out = s.out ++ [.readAnswer (0x014000000000 + lc.val * 0x100000 + 64 * word.val)
        ((s.physOf lc).bind (fun pc => (diagWord pc (s.core pc) word).1.map BitVec.toNat))] := by
  refine ⟨_, rfl, ?_⟩
  dsimp only
  cases s.physOf lc with
  | none =>
    obtain ⟨hm, hc, ho⟩ := s.clusterFailed_leaves (0x014000000000 + lc.val * 0x100000 + 64 * word.val)
    exact ⟨hm, hc, congrArg (· ++ _) ho⟩
  | some pc =>
    simp only [Option.bind_some]
    cases (diagWord pc (s.core pc) word).1 with
    | none =>
      obtain ⟨hm, hc, ho⟩ := s.coreBump_leaves pc fSpadUncorrCntCount 1
      obtain ⟨hm', hc', ho'⟩ := (s.coreBump pc fSpadUncorrCntCount 1).clusterFailed_leaves (0x014000000000 + lc.val * 0x100000 + 64 * word.val)
      exact ⟨hm'.trans hm, hc'.trans hc, congrArg (· ++ _) (ho'.trans ho)⟩
    | some v =>
      obtain ⟨hm, hc, ho⟩ := s.coreBump_leaves pc fSpadCorrCntCount (b2n (diagWord pc (s.core pc) word).2)
      exact ⟨hm, hc, congrArg (· ++ _) ho⟩

/-! ### The patrols (R212, R213) -/

@[simp] theorem MemState.damage_nil (m : MemState) (g : Nat) : m.damage g [] = m := rfl

/-- The patrol does nothing about a granule without wrong symbols whose check holds. -/
theorem State.patrolGran_of_sound {g : Nat} (he : s.mem.errsOf g = []) (hc : chkOf (s.mem.gran g) = (s.mem.metaOf g).chk) : s.patrolGran g = s := by
  have hd : s.mem.decode g = .clean (s.mem.gran g) (s.mem.metaOf g) := by simp [MemState.decode, he]
  simp only [State.patrolGran, hd, hc, ne_eq, not_true_eq_false, and_false, if_false]

/-- On a sound granule before the last of its die, the patrol moves on and does nothing else. -/
theorem execStackPatrolScrub_of_sound {d : Fin 4} {p g : Nat} (hpos : s.getF d fMcScrubStatusPosition = p)
    (hgran : stackGran (3 * d.val + p / stackGrans) (p % stackGrans) = g) (hd : s.dieUp d = true) (hh : s.getF d fMcCfgScrubHours ≠ 0)
    (hk : s.stackUp (3 * d.val + p / stackGrans) = true) (he : s.mem.errsOf g = []) (hc : chkOf (s.mem.gran g) = (s.mem.metaOf g).chk) (hp : p + 1 < 3 * stackGrans) :
    exec (.stackPatrolScrub d []) s = .next (s.setF d fMcScrubStatusPosition (p + 1)) := by
  change execStackPatrolScrub d [] s = _
  simp only [execStackPatrolScrub, hpos, hgran, hd, beq_eq_false_iff_ne.mpr hh, hk, MemState.damage_nil, State.patrolGran_of_sound he hc, hp.ne, Bool.not_true,
    Bool.false_and, Bool.or_self, Bool.false_eq_true, if_false, if_true]

@[simp] theorem Core.spadWord_putWord (c : Core) (w w' : Nat) (v : SpadBits) : (c.putWord w v).spadWord w' = if w' = w then .stored v [] else c.spadWord w' :=
  mapGet_mapSet ..

/-- A stored word that no further symbol strikes stays as it is. -/
theorem Core.spadWord_damageWord_nil {c : Core} {w : Nat} {v : SpadBits} {old : List SymErr} (h : c.spadWord w = .stored v old) (hl : old.length ≤ 2) (w' : Nat) :
    (c.damageWord w []).spadWord w' = c.spadWord w' := by
  have hs : strike v old [] = (v, old) := if_pos hl
  simp only [Core.damageWord, h, hs]
  by_cases hw : w' = w
  · rw [hw, h]
    exact mapGet_mapSet_same ..
  · exact mapGet_mapSet_other _ _ _ hw

/-- What a scratchpad error leaves alone. -/
theorem State.noteSpad_leaves (s : State) (pc lc : Nat) (corrs : List (Nat × Nat)) (nbad pc' w : Nat) :
    (s.noteSpad pc lc corrs nbad).mem = s.mem ∧ ((s.noteSpad pc lc corrs nbad).core pc').spadWord w = (s.core pc').spadWord w := by
  obtain ⟨hm, hc, -⟩ := (s.coreBump pc fSpadCorrCntCount corrs.length).coreBump_leaves pc fSpadUncorrCntCount nbad
  obtain ⟨hm', hc', -⟩ := s.coreBump_leaves pc fSpadCorrCntCount corrs.length
  unfold State.noteSpad
  extract_lets s1 s2
  have hm2 : s2.mem = s.mem := hm.trans hm'
  have hc2 : s2.core pc' = s.core pc' := by rw [State.core, hc.trans hc', State.core]
  split
  · exact ⟨hm2, congrArg (·.spadWord w) hc2⟩
  · split
    · refine ⟨(State.keeps_raise ..).mem.trans hm2, ?_⟩
      rw [(State.keeps_raise ..).core, State.core_modCore, ← hc2]
      split
      · next h => rw [h]; rfl
      · rfl
    · exact ⟨hm2, congrArg (·.spadWord w) hc2⟩

/-- The patrol writes a word with one wrong symbol back whole. -/
theorem execSpadPatrolScrub_of_one {pc : Fin 72} {word : Fin 196608} {v : SpadBits} {e : SymErr} (hd : s.dieUp (pcDie pc) = true)
    (hh : s.getF (pcDie pc) fMcCfgSpadScrubHours ≠ 0) (hw : (s.core pc).spadWord word = .stored v [e]) :
    exec (.spadPatrolScrub pc word []) s =
      .next (((s.setCore pc ((s.core pc).damageWord word [])).noteSpad pc ((s.logicalOf pc).getD 0) [(word.val, e.pos)] 0).modCore pc (fun c => c.putWord word v)) := by
  have hr : spadDecode pc ((s.core pc).damageWord word []) word = ⟨some v, [e]⟩ := by
    simp [spadDecode, Core.spadWord_damageWord_nil hw (Nat.le_succ 1), hw]
  change execSpadPatrolScrub pc word [] s = _
  simp only [execSpadPatrolScrub, hd, hh, State.core_setCore_same, hr, SpadRd.corr, List.head?_cons, Option.map_some, List.length_cons, List.length_nil, Bool.not_true,
    Bool.false_eq_true, decide_false, Bool.or_self, if_false, if_true]

/-- The word is whole after the patrol, and no other word of the core nor memory has changed. -/
theorem spadPatrolScrub_mends {pc : Fin 72} {word : Fin 196608} {v : SpadBits} {e : SymErr} (hd : s.dieUp (pcDie pc) = true)
    (hh : s.getF (pcDie pc) fMcCfgSpadScrubHours ≠ 0) (hw : (s.core pc).spadWord word = .stored v [e]) :
    ∃ t, exec (.spadPatrolScrub pc word []) s = .next t ∧ t.mem = s.mem ∧ (t.core pc).spadWord word = .stored v [] ∧
      ∀ w, w ≠ word.val → (t.core pc).spadWord w = (s.core pc).spadWord w := by
  have hn := fun w => (s.setCore pc ((s.core pc).damageWord word [])).noteSpad_leaves pc ((s.logicalOf pc).getD 0) [(word.val, e.pos)] 0 pc w
  refine ⟨_, execSpadPatrolScrub_of_one hd hh hw, (hn 0).1, ?_, fun w hne => ?_⟩
  · rw [State.core_modCore_same, Core.spadWord_putWord, if_pos rfl]
  · rw [State.core_modCore_same, Core.spadWord_putWord, if_neg hne, (hn w).2, State.core_setCore_same, Core.spadWord_damageWord_nil hw (Nat.le_succ 1)]

/-! ### The initialisation sweep (R183) -/

theorem mapGet_mapDrop {α : Type} (d : Nat → α) (p : Nat → Bool) (m : SMap α) (k : Nat) : mapGet d (mapDrop p m) k = if p k = true then d k else mapGet d m k := by
  induction m with
  | nil => simp [mapDrop]
  | cons e r ih =>
    obtain ⟨j, v⟩ := e
    have ih : mapGet d (r.filter (fun e => !p e.1)) k = if p k = true then d k else mapGet d r k := ih
    simp only [mapDrop, List.filter_cons, mapGet]
    by_cases hj : j = k
    · subst hj
      cases hp : p j <;> simp [hp, ih, mapGet]
    · cases hp : p j <;> simp [ih, hj, mapGet]

/-- Two tables of the same entries read alike where their defaults agree. -/
theorem mapGet_congr_default {α : Type} {d d' : Nat → α} {k : Nat} (h : d k = d' k) (m : SMap α) : mapGet d m k = mapGet d' m k := by
  induction m with
  | nil => exact h
  | cons e r ih => simp only [mapGet, ih]

/-- Memory without what is listed of the granules of stack `k`. -/
def MemState.dropStack (m : MemState) (k : Nat) : MemState :=
  { m with
    data := mapDrop (fun a => granStack (a / 128) == k) m.data, gmeta := mapDrop (fun g => granStack g == k) m.gmeta
    errs := mapDrop (fun g => granStack g == k) m.errs }

/-- Memory after the initialisation sweep of stack `k`: each region notes that the stack was swept. -/
def MemState.sweepStack (m : MemState) (k : Nat) : MemState := (m.dropStack k).allRegions (fun r => { r with anew := natPutBits r.anew k 1 1 })

theorem MemState.wf_dropStack {m : MemState} (h : m.wf) (k : Nat) : (m.dropStack k).wf := by
  obtain ⟨hd, hm, he, hr⟩ := h
  exact ⟨mapWf_drop (fun a => granStack (a / 128) == k) hd, mapWf_drop (fun g => granStack g == k) hm, mapWf_drop (fun g => granStack g == k) he, hr⟩

theorem MemState.data_sweepStack (m : MemState) (k : Nat) : (m.sweepStack k).data = mapDrop (fun a => granStack (a / 128) == k) m.data := rfl

theorem MemState.gmeta_sweepStack (m : MemState) (k : Nat) : (m.sweepStack k).gmeta = mapDrop (fun g => granStack g == k) m.gmeta := rfl

theorem MemState.errs_sweepStack (m : MemState) (k : Nat) : (m.sweepStack k).errs = mapDrop (fun g => granStack g == k) m.errs := rfl

theorem MemState.region_sweepStack {m : MemState} (h : m.wf) (k r : Nat) :
    (m.sweepStack k).region r = { m.region r with anew := natPutBits (m.region r).anew k 1 1 } :=
  MemState.region_allRegions (MemState.wf_dropStack h k) _ r

/-- Each byte of a granule is of its stack. -/
theorem granStack_byte {g a : Nat} (h : a ∈ span (128 * g) 128) : granStack (a / 128) = granStack g := by
  have ha := mem_span.1 h
  rw [show a / 128 = g by omega]

theorem MemState.gran_sweepStack (m : MemState) (k g : Nat) : (m.sweepStack k).gran g = if granStack g = k then 0 else m.gran g := by
  have hl : (span (128 * g) 128).map (mapGet (fun _ => (0 : Byte)) (m.sweepStack k).data)
      = (span (128 * g) 128).map (mapGet (fun _ => (0 : Byte)) (if granStack g = k then [] else m.data)) := by
    refine List.map_congr_left (fun a ha => ?_)
    rw [MemState.data_sweepStack, mapGet_mapDrop, granStack_byte ha]
    by_cases hg : granStack g = k <;> simp [hg]
  unfold MemState.gran
  rw [hl]
  split
  · exact gran_reset g
  · rfl

theorem MemState.errsOf_sweepStack (m : MemState) {k g : Nat} (h : granStack g = k) : (m.sweepStack k).errsOf g = [] := by
  rw [MemState.errsOf, MemState.errs_sweepStack, mapGet_mapDrop, if_pos (beq_iff_eq.mpr h)]

/-- Granules that are not listed read as swept now in the stack that was swept, and as before in every other. -/
theorem MemState.metaRest_sweepStack {m : MemState} (h : m.wf) (k g : Nat) :
    (m.sweepStack k).metaRest g = if granStack g = k then .swept 0 else m.metaRest g := by
  simp only [MemState.metaRest, MemState.region_sweepStack h]
  by_cases hg : granStack g = k
  · rw [if_pos hg, hg, natBits_put_same]
    rfl
  · rw [if_neg hg, natBits_put_other (by omega)]

theorem MemState.metaOf_sweepStack {m : MemState} (h : m.wf) (k g : Nat) : (m.sweepStack k).metaOf g = if granStack g = k then .swept 0 else m.metaOf g := by
  have hr := MemState.metaRest_sweepStack h k g
  rw [MemState.metaOf, MemState.gmeta_sweepStack, mapGet_mapDrop]
  by_cases hg : granStack g = k
  · simpa [hg] using hr
  · rw [if_neg (by simpa using hg), if_neg hg]
    rw [if_neg hg] at hr
    exact mapGet_congr_default hr _

/-- A starting stack that has not been swept is swept. -/
theorem execInitSweep_of_starting {k : Fin 12} (hd : s.dieUp (k.val / 3) = true) (hf : s.func (stackFunc k) = 1)
    (hs : s.flag (k.val / 3) (stackF k fMcStkStatusSwept) = false) :
    exec (.initSweep k) s = .next (State.setF { s with mem := s.mem.sweepStack k } (k.val / 3) (stackF k fMcStkStatusSwept) 1) := by
  change execInitSweep k s = _
  simp only [execInitSweep, hd, hf, hs, Bool.not_true, ne_eq, not_true_eq_false, decide_false, Bool.or_self, Bool.false_eq_true, if_false]
  rfl

/-- Settles O40, a command at a time. -/
theorem memoryUpkeep : Obligations.MemoryUpkeep := by
  refine ⟨execAccDiagnosticRead_answers, ?stackPatrol, fun _ _ _ _ _ => spadPatrolScrub_mends, ?sweep⟩
  case stackPatrol =>
    intro d s p k g hd hh hk he hc hp
    refine ⟨_, execStackPatrolScrub_of_sound rfl rfl hd hh hk he hc hp, rfl, rfl, ?_⟩
    have hp31 : p + 1 < 2 ^ 31 := hp.trans (by decide)
    rw [State.getF_setF_same _ _ _ _ (by decide)]
    exact Nat.mod_eq_of_lt hp31
  case sweep =>
    intro k s hwf hd hf hs
    refine ⟨_, execInitSweep_of_starting hd hf hs, rfl, ?_, fun g hg => ?_, fun g hg => ?_⟩
    · rw [State.flag, State.getF_setF_same _ _ (stackF k fMcStkStatusSwept) _ (show 4 + 1 ≤ 64 by decide)]
      rfl
    · refine ⟨?_, MemState.errsOf_sweepStack _ hg, ?_⟩
      · exact (MemState.gran_sweepStack ..).trans (if_pos hg)
      · exact (MemState.metaOf_sweepStack hwf ..).trans (if_pos hg)
    · exact ⟨(MemState.gran_sweepStack ..).trans (if_neg hg), (MemState.metaOf_sweepStack hwf ..).trans (if_neg hg)⟩

end Sys2Proof.Machine
end

section
/-!
What answering a command leaves alone (R399 to R408), registers in which a run of writes changes one field only, and what serving a command comes to.
-/

namespace Sys2Proof.Machine

variable {s t u : State}

/-! ### What an answer changes -/

/-- The registers that count what an answer is: a refusal of one of five kinds (R408), and a frame sent (R483). -/
def answerCounters : List Nat :=
  [fCmdMalformedCntCount, fCmdUnsupportedCntCount, fCmdDuplicateCntCount, fCmdNotauthCntCount, fCmdExhaustedCntCount, fSvcTxFramesCntCount].map Fld.off

/-- `t` differs from `s` by answers only: in those counters, in connections, sessions and credits, and in what has been sent. -/
structure Answers (s t : State) : Prop where
  rest : t = { s with regs := t.regs, out := t.out, ctl := { s.ctl with conns := t.ctl.conns, sessions := t.ctl.sessions, s0 := t.ctl.s0 } }
  reg : ∀ d off, off < 0x1000000 → off ∉ answerCounters → t.reg d off = s.reg d off

namespace Answers

theorem refl (s : State) : Answers s s := ⟨rfl, fun _ _ _ _ => rfl⟩

theorem trans (h : Answers s t) (h' : Answers t u) : Answers s u where
  rest := calc
    u = { t with regs := u.regs, out := u.out, ctl := { t.ctl with conns := u.ctl.conns, sessions := u.ctl.sessions, s0 := u.ctl.s0 } } := h'.rest
    _ = { s with regs := u.regs, out := u.out, ctl := { s.ctl with conns := u.ctl.conns, sessions := u.ctl.sessions, s0 := u.ctl.s0 } } :=
      congrArg (fun x : State => { x with regs := u.regs, out := u.out, ctl := { x.ctl with conns := u.ctl.conns, sessions := u.ctl.sessions, s0 := u.ctl.s0 } }) h.rest
  reg d off ho hn := (h'.reg d off ho hn).trans (h.reg d off ho hn)

theorem ite {c : Prop} [Decidable c] (h : Answers s t) (h' : Answers s u) : Answers s (if c then t else u) := by
  split
  · exact h
  · exact h'

theorem mem (h : Answers s t) : t.mem = s.mem := by rw [h.rest]

theorem cores (h : Answers s t) : t.cores = s.cores := by rw [h.rest]

theorem job (h : Answers s t) : t.job = s.job := by rw [h.rest]

theorem timeKids (h : Answers s t) : t.timeKids = s.timeKids := by rw [h.rest]

theorem progs (h : Answers s t) : t.ctl.progs = s.ctl.progs := by rw [h.rest]

theorem recon (h : Answers s t) : t.ctl.recon = s.ctl.recon := by rw [h.rest]

theorem reconRun (h : Answers s t) : t.ctl.reconRun = s.ctl.reconRun := by rw [h.rest]

theorem applyStep (h : Answers s t) : t.ctl.applyStep = s.ctl.applyStep := by rw [h.rest]

theorem getF (h : Answers s t) (d : Nat) (f : Fld) (hf : f.off < 0x1000000 ∧ f.off ∉ answerCounters := by decide) : t.getF d f = s.getF d f := by
  rw [State.getF, h.reg d f.off hf.1 hf.2, State.getF]

theorem flag (h : Answers s t) (d : Nat) (f : Fld) (hf : f.off < 0x1000000 ∧ f.off ∉ answerCounters := by decide) : t.flag d f = s.flag d f :=
  congrArg (· == 1) (h.getF d f hf)

end Answers

/-- The lead die is the one whose flag says so. -/
theorem State.lead_of_flag (h : ∀ d, t.flag d fDieInfoLead = s.flag d fDieInfoLead) : t.lead = s.lead := by
  simp only [State.lead, h]

theorem Answers.lead (h : Answers s t) : t.lead = s.lead := State.lead_of_flag (fun d => h.flag d _)

theorem Answers.treeRoot (h : Answers s t) : t.treeRoot = s.treeRoot := by
  rw [State.treeRoot, State.idValid, h.lead, h.flag common _, h.flag _ fFiCfgTimeRoot, State.treeRoot, State.idValid]

namespace State

variable (s : State)

theorem answers_bump {d : Nat} {f : Fld} (n : Nat) (hf : f.off ∈ answerCounters := by decide) : Answers s (s.bump d f n) where
  rest := rfl
  reg d' off ho hn := by
    have hlt : ∀ x ∈ answerCounters, x < 0x1000000 := by decide
    have hne : off ≠ f.off := fun h => hn (h ▸ hf)
    have := hlt _ hf
    exact s.reg_setF_other _ (by unfold regKey; omega)

theorem answers_send (m : OutMsg) : Answers s (s.send m) := ⟨rfl, fun _ _ _ _ => rfl⟩

theorem answers_setConn (c : Conn) : Answers s (s.setConn c) := ⟨rfl, fun _ _ _ _ => rfl⟩

theorem answers_modSession (id : Nat) (f : Session → Session) : Answers s (s.modSession id f) := ⟨rfl, fun _ _ _ _ => rfl⟩

theorem answers_giveCredit (c : Cmd) : Answers s (s.giveCredit c) :=
  .ite ⟨rfl, fun _ _ _ _ => rfl⟩ (s.answers_modSession ..)

theorem answers_countStatus (n : Nat) : Answers s (s.countStatus n) := by
  unfold countStatus
  split
  · exact s.answers_bump _
  · exact s.answers_bump _
  · exact s.answers_bump _
  · exact s.answers_bump _
  · exact s.answers_bump _
  · exact .refl s

theorem answers_ethOut (p dst etype : Nat) (b : List Byte) : Answers s (s.ethOut p dst etype b) := by
  unfold ethOut
  exact .ite ((s.answers_bump _).trans (answers_send ..)) (.refl s)

theorem answers_udpOut (e : NetEnd) (b : List Byte) : Answers s (s.udpOut e b) := by
  unfold udpOut
  refine .ite (s.answers_ethOut ..) ?_
  unfold ip4Out
  dsimp only
  split
  · exact s.answers_ethOut ..
  · exact s.answers_ethOut ..

theorem answers_pumpConn (id n : Nat) : ∀ s, Answers s (pumpConn id n s) := by
  induction n with
  | zero => exact .refl
  | succ n ih =>
    intro s
    unfold pumpConn
    split
    · exact .refl s
    · split
      · exact .refl s
      · exact .ite (((s.answers_setConn _).trans (answers_udpOut ..)).trans (ih _)) (.refl s)

theorem answers_sendMsg (id : Nat) (b : List Byte) : Answers s (s.sendMsg id b) := by
  unfold sendMsg queueSegs
  split
  · exact .refl s
  · exact (s.answers_setConn _).trans (answers_pumpConn ..)

theorem answers_reply (c : Cmd) (final : Bool) (status detail : Nat) (b : List Byte) : Answers s (s.reply c final status detail b) := by
  have h : Answers s (((if final then s.giveCredit c else s).modSession c.session (fun x => x.remember c.seq status b)).countStatus status) :=
    ((Answers.ite (s.answers_giveCredit c) (.refl s)).trans (answers_modSession ..)).trans (answers_countStatus ..)
  exact .ite h (h.trans (answers_sendMsg ..))

/-- A command that goes on is answered once, and waits. -/
theorem answers_progress (c : Cmd) (status : Nat) (w : Waits) :
    Answers (s.modCtl (fun x => { x with progs := x.progs ++ [⟨c, w⟩] })) (s.progress c status w) where
  rest := congrArg (fun x : State => x.modCtl (fun x => { x with progs := x.progs ++ [⟨c, w⟩] })) (s.answers_reply c false status 0 []).rest
  reg := (s.answers_reply c false status 0 []).reg

/-! What a command that goes on leaves as it was -/

section Progress

variable (c : Cmd) (status : Nat) (w : Waits)

theorem mem_progress : (s.progress c status w).mem = s.mem := (s.answers_progress c status w).mem

theorem cores_progress : (s.progress c status w).cores = s.cores := (s.answers_progress c status w).cores

theorem job_progress : (s.progress c status w).job = s.job := (s.answers_progress c status w).job

theorem timeKids_progress : (s.progress c status w).timeKids = s.timeKids := (s.answers_progress c status w).timeKids

theorem treeRoot_progress : (s.progress c status w).treeRoot = s.treeRoot := (s.answers_progress c status w).treeRoot

theorem progs_progress : (s.progress c status w).ctl.progs = s.ctl.progs ++ [⟨c, w⟩] := (s.answers_progress c status w).progs

theorem recon_progress : (s.progress c status w).ctl.recon = s.ctl.recon := (s.answers_progress c status w).recon

theorem reconRun_progress : (s.progress c status w).ctl.reconRun = s.ctl.reconRun := (s.answers_progress c status w).reconRun

theorem applyStep_progress : (s.progress c status w).ctl.applyStep = s.ctl.applyStep := (s.answers_progress c status w).applyStep

theorem getF_progress (d : Nat) (f : Fld) (hf : f.off < 0x1000000 ∧ f.off ∉ answerCounters := by decide) : (s.progress c status w).getF d f = s.getF d f :=
  (s.answers_progress c status w).getF d f hf

theorem flag_progress (d : Nat) (f : Fld) (hf : f.off < 0x1000000 ∧ f.off ∉ answerCounters := by decide) : (s.progress c status w).flag d f = s.flag d f :=
  (s.answers_progress c status w).flag d f hf

end Progress
end State

/-! ### Fields written in several dies -/

/-- Two fields that lie in registers of the dies' spaces and share no bit. -/
abbrev Fld.Apart (f f' : Fld) : Prop :=
  f.off < 0x1000000 ∧ f'.off < 0x1000000 ∧ f.lo + f.width ≤ 64 ∧ (f'.off ≠ f.off ∨ f'.lo + f'.width ≤ f.lo ∨ f.lo + f.width ≤ f'.lo)

/-- Writing a field changes no field apart from it, of any die. -/
theorem State.getF_setF_of_apart {f f' : Fld} {d d' v : Nat} (h : f.Apart f') : (s.setF d f v).getF d' f' = s.getF d' f' := by
  obtain ⟨ho, ho', hw, hne⟩ := h
  by_cases hk : regKey d' f'.off = regKey d f.off
  · have hd : d' = d := by unfold regKey at hk; omega
    have hf : f'.off = f.off := by unfold regKey at hk; omega
    rw [hd]
    exact s.getF_setF_bits v hf hw (hne.resolve_left (not_not.mpr hf))
  · exact s.getF_setF_reg v hk

/-- Writing a field changes it in no other die. -/
theorem State.getF_setF_die {f : Fld} {d d' v : Nat} (ho : f.off < 0x1000000) (hd : d' ≠ d) : (s.setF d f v).getF d' f = s.getF d' f :=
  s.getF_setF_reg v (regKey_ne_die hd ho ho)

/-- `t` differs from `s` in registers only. -/
def RegsOnly (s t : State) : Prop := t = { s with regs := t.regs }

namespace RegsOnly

theorem refl (s : State) : RegsOnly s s := rfl

theorem trans (h : RegsOnly s t) (h' : RegsOnly t u) : RegsOnly s u :=
  calc
    u = { t with regs := u.regs } := h'
    _ = { s with regs := u.regs } := congrArg (fun x : State => { x with regs := u.regs }) h

theorem modCtl (h : RegsOnly s t) (f : Ctl → Ctl) : RegsOnly (s.modCtl f) (t.modCtl f) := congrArg (fun x : State => x.modCtl f) h

theorem mem (h : RegsOnly s t) : t.mem = s.mem := by unfold RegsOnly at h; rw [h]

theorem job (h : RegsOnly s t) : t.job = s.job := by unfold RegsOnly at h; rw [h]

theorem ctl (h : RegsOnly s t) : t.ctl = s.ctl := by unfold RegsOnly at h; rw [h]

theorem ofCtl {α : Type} (h : RegsOnly s t) (f : Ctl → α) : f t.ctl = f s.ctl := congrArg f h.ctl

theorem dies (h : RegsOnly s t) : t.dies = s.dies := by unfold RegsOnly at h; rw [h]

theorem dieUp (h : RegsOnly s t) (d : Nat) : t.dieUp d = s.dieUp d := by rw [State.dieUp, State.die, h.dies]; rfl

end RegsOnly

theorem State.setF_regsOnly (s : State) (d : Nat) (f : Fld) (v : Nat) : RegsOnly s (s.setF d f v) := rfl

/-- `s` with `v` in the field `f` of each die of `l`. -/
def State.setIn (s : State) (l : List Nat) (f : Fld) (v : Nat) : State := l.foldl (fun (s : State) d => s.setF d f v) s

theorem State.setAll_eq (f : Fld) (v : Nat) : s.setAll f v = s.setIn (span 0 4) f v := rfl

theorem State.setUp_eq (f : Fld) (v : Nat) : s.setUp f v = s.setIn s.upCompute f v := rfl

theorem State.setIn_regsOnly (l : List Nat) (f : Fld) (v : Nat) : ∀ s : State, RegsOnly s (s.setIn l f v) := by
  induction l with
  | nil => exact .refl
  | cons d l ih => exact fun s => (s.setF_regsOnly d f v).trans (ih _)

theorem State.getF_setIn_of_apart {l : List Nat} {f f' : Fld} {d v : Nat} (h : f.Apart f') : ∀ {s : State}, (s.setIn l f v).getF d f' = s.getF d f' := by
  induction l with
  | nil => exact rfl
  | cons e l ih => exact ih.trans (State.getF_setF_of_apart h)

/-- Each die of the list reads what was written. -/
theorem State.getF_setIn {l : List Nat} {f : Fld} {d v : Nat} (hf : f.lo + f.width ≤ 64) (ho : f.off < 0x1000000) :
    ∀ {s : State}, (s.setIn l f v).getF d f = if d ∈ l then v % 2 ^ f.width else s.getF d f := by
  induction l with
  | nil => exact (if_neg List.not_mem_nil).symm
  | cons e l ih =>
    intro s
    refine ih.trans ?_
    by_cases he : d = e
    · subst he
      rw [s.getF_setF_same _ _ _ hf, ite_self, if_pos List.mem_cons_self]
    · rw [State.getF_setF_die ho he]
      simp [he]

theorem State.getF_setAll {f : Fld} {d v : Nat} (hd : d < 4) (hf : f.lo + f.width ≤ 64 ∧ f.off < 0x1000000 := by decide) :
    (s.setAll f v).getF d f = v % 2 ^ f.width := by
  rw [State.setAll_eq, State.getF_setIn hf.1 hf.2, if_pos (mem_span.mpr ⟨Nat.zero_le d, by omega⟩)]

theorem State.getF_setAll_of_apart {f f' : Fld} {d v : Nat} (h : f.Apart f') : (s.setAll f v).getF d f' = s.getF d f' := State.getF_setIn_of_apart h

theorem State.getF_setUp {f : Fld} {d v : Nat} (hd : d < 4) (hu : s.dieUp d = true) (hf : f.lo + f.width ≤ 64 ∧ f.off < 0x1000000 := by decide) :
    (s.setUp f v).getF d f = v % 2 ^ f.width := by
  rw [State.setUp_eq, State.getF_setIn hf.1 hf.2, if_pos (show d ∈ s.upCompute from List.mem_filter.mpr ⟨mem_span.mpr ⟨Nat.zero_le d, by omega⟩, hu⟩)]

theorem State.getF_setUp_of_apart {f f' : Fld} {d v : Nat} (h : f.Apart f') : (s.setUp f v).getF d f' = s.getF d f' := State.getF_setIn_of_apart h

theorem State.setAll_regsOnly (s : State) (f : Fld) (v : Nat) : RegsOnly s (s.setAll f v) := State.setIn_regsOnly _ f v s

theorem State.setUp_regsOnly (s : State) (f : Fld) (v : Nat) : RegsOnly s (s.setUp f v) := State.setIn_regsOnly _ f v s

/-! ### Commands that are served (R399) -/

/-- A command that is served acts on the state once it has been taken. -/
theorem State.serve_of_serves {code : Nat} {c : Cmd} {k : Cmd → List Byte → State → State} (h : Serves s code c u) : s.serve code k = k c c.body u := by
  obtain ⟨row, r, hrow, hq, hop, hup, hnext, hlen, hauth, rfl⟩ := h
  have ha : ¬(row.auth = 2 ∧ c.confirm = false) := fun ⟨h2, hc⟩ => by simp [hauth h2] at hc
  simp only [State.serve, hrow, hq, hop, hup, hnext, hlen, ha, ne_eq, not_true_eq_false, Bool.true_eq_false, Bool.not_true, Bool.false_eq_true, or_self, if_false]

end Sys2Proof.Machine
end

section
/-! A job that starts (R329, R410), and a job that an error ends (R290). -/

namespace Sys2Proof.Machine

variable {s t u : State}

/-! ### What an error does to the job -/

/-- A job that was ended by an error. -/
def Job.failed (j : Job) : Job := { Job.none with phase := j.phase, status := 2, fatal := true, digestBad := j.digestBad }

/-- The job of `s` is in `t` as it was, or was ended by an error. -/
def JobStands (s t : State) : Prop := t.job = s.job ∨ t.job = s.job.failed

namespace JobStands

theorem of_job (h : t.job = s.job) : JobStands s t := .inl h

theorem refl (s : State) : JobStands s s := .inl rfl

theorem trans (h : JobStands s t) (h' : JobStands t u) : JobStands s u := by
  unfold JobStands at *
  rcases h with h | h <;> rw [h] at h'
  · exact h'
  · exact .inr (h'.elim id id)

theorem ite {c : Prop} [Decidable c] (h : JobStands s t) (h' : JobStands s u) : JobStands s (if c then t else u) := by
  split
  · exact h
  · exact h'

theorem foldl {β : Type} {f : State → β → State} (h : ∀ s b, JobStands s (f s b)) (l : List β) : ∀ s, JobStands s (l.foldl f s) := by
  induction l with
  | nil => exact refl
  | cons b l ih => exact fun s => (h s b).trans (ih (f s b))

/-- Either way the phase stays, and no start or end of a phase comes up. -/
theorem phase (h : JobStands s t) : t.job.phase = s.job.phase := by rcases h with h | h <;> rw [h]; rfl

theorem starting (h : JobStands s t) (hs : s.job.starting = false) : t.job.starting = false := by
  rcases h with h | h <;> rw [h]
  · exact hs
  · rfl

theorem ended (h : JobStands s t) (hs : s.job.ended = false) : t.job.ended = false := by
  rcases h with h | h <;> rw [h]
  · exact hs
  · rfl

end JobStands

/-- What leaves the job alone one item at a time leaves it alone. -/
theorem job_foldl {β : Type} {f : State → β → State} (h : ∀ s b, (f s b).job = s.job) (l : List β) : ∀ s : State, (l.foldl f s).job = s.job := by
  induction l with
  | nil => exact fun _ => rfl
  | cons b l ih => exact fun s => (ih (f s b)).trans (h s b)

namespace State

variable (s : State)

@[simp] theorem job_stopRules : s.stopRules.job = s.job := by
  refine job_foldl (fun s d => ?_) _ s
  dsimp only
  split <;> rfl

@[simp] theorem job_sendBound (ports : List Nat) (kind step phase status : Nat) : (s.sendBound ports kind step phase status).job = s.job :=
  job_foldl (fun _ _ => by rfl) ports s

@[simp] theorem job_finish (p : Waits → Bool) (status detail : Nat) : (s.finish p status detail).job = s.job := (s.keeps_finish ..).job

theorem job_endFatal (cause : Nat) : (s.endFatal cause).job = s.job.failed := by
  unfold endFatal
  dsimp only
  rw [job_finish, job_finish, job_stopRules]
  rfl

/-- An abort ends a job that runs, whether it is passed up or down. -/
theorem job_abortJob (cause : Nat) : (s.abortJob cause).job = if s.job.running then s.job.failed else s.job := by
  unfold abortJob
  split
  · rw [job_endFatal]
    split
    · rw [boundDown, job_sendBound]
    · rw [boundUp, job_sendBound]
  · rfl

theorem jobStands_abortJob (cause : Nat) : JobStands s (s.abortJob cause) := by
  rw [JobStands, job_abortJob]
  split
  · exact .inr rfl
  · exact .inl rfl

theorem jobStands_classEffect (h cause : Nat) (cls : ErrClass) : JobStands s (s.classEffect h cause cls) := by
  cases cls with
  | jobFatal => exact s.jobStands_abortJob _
  | packageFatal => exact .ite (.of_job rfl) ((s.jobStands_abortJob _).trans (.of_job rfl))
  | tainted => exact .of_job rfl
  | info => exact .refl s
  | corrected => exact .refl s
  | contained => exact .refl s

theorem jobStands_raise (d : Nat) (i : ErrInfo) : JobStands s (s.raise d i) := by
  unfold raise
  dsimp only
  split
  · exact .ite (.of_job rfl) (.of_job rfl)
  · unfold fileRec
    refine JobStands.trans (.of_job ?_) (jobStands_classEffect ..)
    split <;> split <;> rfl

@[simp] theorem job_showShape : s.showShape.job = s.job := job_foldl (fun _ _ => by rfl) _ s

theorem jobStands_retireCore (d p why : Nat) (save : Bool) : JobStands s (s.retireCore d p why save) := by
  unfold retireCore
  extract_lets x held good spare map s1 s2 s3 flash s4 s5
  have h1 : s1.job = s.job := job_finish ..
  have h2 : s2.showShape.job = s.job := (job_showShape s2).trans h1
  have h3 : JobStands s s3 := JobStands.trans (.of_job h2) (jobStands_raise ..)
  have h4 : JobStands s s4 := h3.trans (.ite (.of_job rfl) (.refl _))
  have h5 : JobStands s s5 := h4.trans (.of_job (job_finish ..))
  exact .ite (h5.trans (jobStands_raise ..)) h5

/-! ### The start of the cores -/

@[simp] theorem job_coreBump (pc : Nat) (f : Fld) (k : Nat) : (s.coreBump pc f k).job = s.job := by
  unfold coreBump
  split <;> rfl

@[simp] theorem job_closeGroup (pc j gi : Nat) : (s.closeGroup pc j gi).job = s.job := by
  unfold closeGroup
  extract_lets c a g s1 s2 s3 s4
  have h2 : s2.job = s.job := s1.job_coreBump ..
  have h3 : s3.job = s.job := by dsimp only [s3]; split <;> exact h2
  have h4 : s4.job = s.job := by dsimp only [s4]; split <;> exact h3
  split <;> exact h4

@[simp] theorem job_closeAll (pc : Nat) : (s.closeAll pc).2.job = s.job := by
  have h : ∀ (l : List Nat) (r : Nat × State), (l.foldl (fun (r : Nat × State) k =>
      if ((r.2.core pc).array (k / 32) |>.group (k % 32)).isOpen then (r.1 + 2 ^ k, r.2.closeGroup pc (k / 32) (k % 32)) else r) r).2.job = r.2.job := by
    intro l
    induction l with
    | nil => exact fun _ => rfl
    | cons k l ih =>
      intro r
      refine (ih _).trans ?_
      dsimp only
      split
      · exact job_closeGroup ..
      · rfl
  unfold closeAll
  rw [h]

theorem jobStands_goCore (pc : Nat) : JobStands s (s.goCore pc) := by
  unfold goCore
  exact .ite (.refl s) (.ite (s.jobStands_retireCore ..) (.of_job ((job_modCore ..).trans (s.job_closeAll pc))))

theorem jobStands_startCores (p : Nat) : JobStands s (s.startCores p) := by
  refine .foldl (fun s d => .foldl (fun s e => ?_) _ s) _ s
  extract_lets s1 s2
  have h1 : s1.job = s.job := by dsimp only [s1]; split <;> rfl
  have h2 : s2.job = s.job := by
    dsimp only [s2]
    split <;> exact h1
  exact JobStands.trans (.of_job h2) (jobStands_goCore ..)

/-- COMPUTE begins: neither the boundary round nor the start goes on. -/
theorem job_beginPhase_compute : (s.beginPhase 0).job.phase = 0 ∧ (s.beginPhase 0).job.starting = false ∧ (s.beginPhase 0).job.ended = false := by
  unfold beginPhase
  extract_lets skip s1 s2 s3 j s4
  have hs : ¬(0 = 2 ∨ skip = true) := by simp [skip]
  rw [if_neg hs]
  have h := s4.jobStands_startCores 0
  exact ⟨h.phase, h.starting rfl, h.ended rfl⟩

/-! ### The start of a job -/

/-- The job that JOB_START begins: the boundary round that precedes COMPUTE. -/
def startingJob : Job := { Job.none with running := true, starting := true, phase := 4, ended := true }

/-- The state in which a job that starts tries to pass the round. -/
def jobStarted (c : Cmd) : State := State.progress { s with job := startingJob } c 2 .jobStart

theorem startJob_eq (c : Cmd) : s.startJob c = (s.jobStarted c).tryPass := rfl

theorem job_jobStarted (c : Cmd) : (s.jobStarted c).job = startingJob := job_progress ..

theorem timeKids_jobStarted (c : Cmd) : (s.jobStarted c).timeKids = s.timeKids := timeKids_progress ..

theorem treeRoot_jobStarted (c : Cmd) : (s.jobStarted c).treeRoot = s.treeRoot := treeRoot_progress ..

/-- A job that starts waits for its children. -/
theorem job_startJob_of_children {c : Cmd} (h : s.timeKids ≠ []) : (s.startJob c).job = startingJob := by
  have hl : 0 < s.timeKids.length := List.length_pos_iff.mpr h
  rw [startJob_eq, tryPass, job_jobStarted, timeKids_jobStarted]
  simp [startingJob, Job.none, hl, job_jobStarted]

/-- The state in which a job that starts has passed the round. -/
def jobPassed (c : Cmd) : State := { s.jobStarted c with job := { startingJob with sent := true } }

/-- A job without children passes the round on. -/
theorem startJob_of_leaf {c : Cmd} (h : s.timeKids = []) :
    s.startJob c = if s.treeRoot then (s.jobPassed c).goDown 0 else (s.jobPassed c).boundUp 0 (s.jobPassed c).boundStep 4 0 := by
  have hr : (s.jobPassed c).treeRoot = s.treeRoot := s.treeRoot_jobStarted c
  rw [startJob_eq, ← hr]
  unfold tryPass
  dsimp only
  refine (if_neg ?_).trans ?_
  · rw [job_jobStarted, timeKids_jobStarted, h]
    decide
  · rw [job_jobStarted]
    rfl

/-- Below a parent it passes the round up. -/
theorem job_startJob_of_child {c : Cmd} (h : s.timeKids = []) (hr : s.treeRoot = false) : (s.startJob c).job = { startingJob with sent := true } := by
  rw [startJob_of_leaf s h]
  simp only [hr, Bool.false_eq_true, if_false, boundUp, job_sendBound]
  rfl

/-- Alone it begins COMPUTE. -/
theorem job_startJob_of_root {c : Cmd} (h : s.timeKids = []) (hr : s.treeRoot = true) :
    (s.startJob c).job.phase = 0 ∧ (s.startJob c).job.starting = false ∧ (s.startJob c).job.ended = false := by
  rw [startJob_of_leaf s h]
  simp only [hr, if_true]
  have hj : ∀ v : State, v.job.starting = true → (v.actGo 0).job = (v.beginPhase 0).job := by
    intro v hv
    simp only [actGo, hv, if_true, job_finish]
  rw [goDown, hj _ (by rw [boundDown, job_sendBound]; rfl)]
  exact job_beginPhase_compute _

/-! ### The STEP registers of a header (R338) -/

/-- A die that reloads takes the step from the header; the others keep theirs. -/
theorem reg_stepIndex_reload (h : List Byte) (taint : Bool) (d d' : Nat) :
    (s.reload h taint d).reg d' oStepIndex = if d' = d then BitVec.ofNat 64 (leAt h 0 8) else s.reg d' oStepIndex := by
  have apart : ∀ off, off ∈ [oStepCursor, oStepLscale, oStepSkip] → regKey d' oStepIndex ≠ regKey d off := by
    intro off ho
    simp only [List.mem_cons, List.not_mem_nil, or_false] at ho
    rcases ho with rfl | rfl | rfl <;> simp only [regKey, oStepIndex, oStepCursor, oStepLscale, oStepSkip] <;> omega
  rw [reload, setStep, reg_setReg_other _ _ (apart _ (by simp)), reg_setReg_other _ _ (apart _ (by simp)), reg_setReg_other _ _ (apart _ (by simp)), reg_setReg]
  by_cases hd : d' = d
  · rw [hd, if_pos rfl, if_pos rfl]
  · rw [if_neg (regKey_ne_die hd (by decide) (by decide)), if_neg hd]

theorem reg_stepIndex_reloads (h : List Byte) (taint : Bool) (d' : Nat) (l : List Nat) : ∀ s : State,
    (l.foldl (fun (s : State) d => s.reload h taint d) s).reg d' oStepIndex = if d' ∈ l then BitVec.ofNat 64 (leAt h 0 8) else s.reg d' oStepIndex := by
  induction l with
  | nil => exact fun _ => (if_neg List.not_mem_nil).symm
  | cons e l ih =>
    intro s
    refine (ih _).trans ?_
    rw [reg_stepIndex_reload]
    by_cases he : d' = e <;> simp [he]

theorem mem_reloads (h : List Byte) (taint : Bool) (l : List Nat) : ∀ s : State, (l.foldl (fun (s : State) d => s.reload h taint d) s).mem = s.mem := by
  induction l with
  | nil => exact fun _ => rfl
  | cons e l ih => exact fun s => ih _

end State
end Sys2Proof.Machine
end

section
/-! Jobs, layouts, checkpoints, domains and reconstruction: each command served with operands in range and none of its refusals (R410, R411, R422, R466). -/

namespace Sys2Proof.Machine

variable {s u : State} {c : Cmd}

/-! ### JOB_START -/

/-- What JOB_START does with an image that none of its checks refuses: the image is written at its base, its tables are loaded, and with MODE 1 or 2 the
STEP registers come from the header. -/
def State.startImage (u : State) (c : Cmd) (bs : List Byte) : State :=
  match (u.setClasses (Config.imageOf bs)).writeRun u.jas (Config.imageOf bs).base bs with
  | (false, p) => p.refuse c 0x200 0x0011
  | (true, p) =>
    if !p.imageFits (Config.imageOf bs) then u.refuse c 0x107 0
    else
      let r := p.loadJob (Config.imageOf bs)
      if leAt c.body 0 1 = 0 then r.startJob c
      else match r.readRun (.jasper 0) (r.headerAddr 0) 128 with
        | (none, r) => r.refuse c 0x200 0x0011
        | (some h, r) => ((span 0 4).foldl (fun (s : State) d => s.reload h false d) r).startJob c

section Start

variable {bs : List Byte} (h : Serves s 0x0402 c u) (hpad : leAt c.body 1 7 = 0) (hmode : leAt c.body 0 1 ≤ 2) (hparts : u.jobParts = true)
include h hpad hmode hparts

/-- Where a job runs, no other starts. -/
theorem execJobStart_of_running (hrun : u.job.running = true) : exec .jobStart s = .next (u.refuse c 0x105 0) := by
  refine congrArg Host.Outcome.next ((State.serve_of_serves h).trans ?_)
  simp only [hpad, Nat.not_lt.mpr hmode, hparts, hrun, ne_eq, not_true_eq_false, Bool.not_true, Bool.true_or, Bool.false_eq_true, if_false, if_true]

theorem execJobStart_of_admitted (hrun : u.job.running = false) (hid : u.idValid = true) (himg : u.ctl.image = some bs)
    (hsha : Config.sha512 bs = BitVec.ofNat 512 (leAt c.body 8 64)) (hpar : leAt c.body 0 1 = 1 → u.flag u.lead fParStatusValid = true)
    (hup : ∀ f ∈ u.jobFuncs ++ imagePorts (Config.imageOf bs), u.funcUp f = true) (hshape : u.shapeFits (Config.imageOf bs) = true) :
    exec .jobStart s = .next (u.startImage c bs) := by
  refine congrArg Host.Outcome.next ((State.serve_of_serves h).trans ?_)
  have hp : ¬(leAt c.body 0 1 = 1 ∧ u.flag u.lead fParStatusValid = false) := fun ⟨h1, hf⟩ => by simp [hpar h1] at hf
  have ha : (u.jobFuncs ++ imagePorts (Config.imageOf bs)).all u.funcUp = true := List.all_eq_true.mpr hup
  simp only [hpad, Nat.not_lt.mpr hmode, hparts, hrun, hid, himg, hsha, hp, ha, hshape, ne_eq, not_true_eq_false, Bool.not_true, Bool.or_self,
    Bool.false_eq_true, if_false]
  rfl

end Start

section Image

variable {bs : List Byte} {p w : State}

theorem State.startImage_of_write_fails (h : (u.setClasses (Config.imageOf bs)).writeRun u.jas (Config.imageOf bs).base bs = (false, w)) :
    u.startImage c bs = w.refuse c 0x200 0x0011 := by
  rw [State.startImage, h]

variable (h : (u.setClasses (Config.imageOf bs)).writeRun u.jas (Config.imageOf bs).base bs = (true, p))
include h

theorem State.startImage_of_not_fits (hf : p.imageFits (Config.imageOf bs) = false) : u.startImage c bs = u.refuse c 0x107 0 := by
  simp only [State.startImage, h, hf, Bool.not_false, if_true]

theorem State.startImage_of_mode0 (hf : p.imageFits (Config.imageOf bs) = true) (hm : leAt c.body 0 1 = 0) :
    u.startImage c bs = (p.loadJob (Config.imageOf bs)).startJob c := by
  simp only [State.startImage, h, hf, hm, Bool.not_true, Bool.false_eq_true, if_false, if_true]

theorem State.startImage_of_header {hd : List Byte} (hf : p.imageFits (Config.imageOf bs) = true) (hm : leAt c.body 0 1 ≠ 0)
    (hr : (p.loadJob (Config.imageOf bs)).readRun (.jasper 0) ((p.loadJob (Config.imageOf bs)).headerAddr 0) 128 = (some hd, w)) :
    u.startImage c bs = ((span 0 4).foldl (fun (s : State) d => s.reload hd false d) w).startJob c := by
  simp only [State.startImage, h, hf, hm, hr, Bool.not_true, Bool.false_eq_true, if_false]

end Image

/-! ### JOB_STOP -/

section Stop

variable (h : Serves s 0x0403 c u)
include h

/-- A stop is noted, and its command waits for the step. -/
theorem execJobStop_of_step (hrun : u.job.running = true) (hm : leAt c.body 8 1 = 0) (hs : (u.reg u.lead oStepIndex).toNat ≤ leAt c.body 0 8) :
    exec .jobStop s = .next { u.progress c 2 .jobStop with job := { (u.progress c 2 .jobStop).job with stopAt := some (leAt c.body 0 8) } } := by
  refine congrArg Host.Outcome.next ((State.serve_of_serves h).trans ?_)
  simp only [hrun, hm, Nat.not_lt.mpr hs, Nat.not_lt_zero, gt_iff_lt, Bool.not_true, Bool.false_eq_true, and_false, if_false, if_true]

theorem execJobStop_of_abort (hrun : u.job.running = true) (hm : leAt c.body 8 1 = 1) :
    exec .jobStop s = .next ((u.progress c 2 .jobStop).abortJob ((Config.recordArg 0 5 []).toNat % 65536)) := by
  refine congrArg Host.Outcome.next ((State.serve_of_serves h).trans ?_)
  simp only [hrun, hm, Nat.lt_irrefl, gt_iff_lt, Bool.not_true, Bool.false_eq_true, Nat.one_ne_zero, false_and, if_false]

theorem execJobStop_of_no_job (hrun : u.job.running = false) (hm : leAt c.body 8 1 ≤ 1) : exec .jobStop s = .next (u.refuse c 0x105 0) := by
  refine congrArg Host.Outcome.next ((State.serve_of_serves h).trans ?_)
  simp only [hrun, Nat.not_lt.mpr hm, Bool.not_false, if_false, if_true]

end Stop

/-- JOB_STATUS gives the state of the job as a code. -/
theorem Job.code_eq (j : Job) : j.code = if j.running = false then 0 else if j.stopAt ≠ Option.none then 3 else if j.starting = true then 1 else 2 := by
  cases hr : j.running <;> cases hs : j.stopAt <;> simp [Job.code, hr, hs]

/-! ### LAYOUT_COMMIT -/

/-- The state in which a layout is to be applied at `step`. -/
def State.layoutPending (u : State) (step : Nat) : State :=
  ((u.setAll fLayoutStatusPending 1).setAll fLayoutStatusApplyStep step).modCtl (fun x => { x with applyStep := step })

theorem State.layoutPending_regsOnly (u : State) (step : Nat) : RegsOnly (u.modCtl (fun x => { x with applyStep := step })) (u.layoutPending step) :=
  ((u.setAll_regsOnly ..).trans (State.setAll_regsOnly ..)).modCtl _

theorem State.layoutPending_leaves (u : State) (step : Nat) :
    (u.layoutPending step).mem = u.mem ∧ (u.layoutPending step).job = u.job ∧ (u.layoutPending step).ctl.progs = u.ctl.progs ∧
      (u.layoutPending step).ctl.applyStep = step := by
  have h := u.layoutPending_regsOnly step
  exact ⟨h.mem, h.job, h.ofCtl Ctl.progs, h.ofCtl Ctl.applyStep⟩

@[simp] theorem State.getF_modCtl (s : State) (g : Ctl → Ctl) (d : Nat) (f : Fld) : (s.modCtl g).getF d f = s.getF d f := rfl

theorem State.getF_layoutPending (u : State) (step d : Nat) (f : Fld) :
    (u.layoutPending step).getF d f = ((u.setAll fLayoutStatusPending 1).setAll fLayoutStatusApplyStep step).getF d f := State.getF_modCtl ..

theorem State.layoutPending_shows (u : State) (step : Nat) {d : Nat} (hd : d < 4) :
    (u.layoutPending step).flag d fLayoutStatusPending = true ∧ (u.layoutPending step).getF d fLayoutStatusApplyStep = step % 2 ^ 40 := by
  constructor
  · rw [State.flag, State.getF_layoutPending, State.getF_setAll_of_apart (by decide), State.getF_setAll hd]
    rfl
  · rw [State.getF_layoutPending, State.getF_setAll hd]
    rfl

theorem execLayoutCommit_of_taken (h : Serves s 0x0406 c u) (hb : u.layoutBusy = false) (hl : u.ctl.layout ≠ none)
    (hs : (u.reg u.lead oStepIndex).toNat ≤ leAt c.body 0 8) :
    exec .layoutCommit s = .next ((u.layoutPending (leAt c.body 0 8)).progress c 2 .layoutCommit) := by
  refine congrArg Host.Outcome.next ((State.serve_of_serves h).trans ?_)
  simp only [hb, Option.isNone_eq_false_iff.mpr (Option.isSome_iff_ne_none.mpr hl), Nat.not_lt.mpr hs, decide_false, Bool.or_self, Bool.false_eq_true, if_false]
  rfl

/-! ### CKPT_CONFIG -/

/-- Checkpoints are configured, or turned off with a period of 0. -/
theorem execCkptConfig_of_taken (h : Serves s 0x0506 c u)
    (hp : leAt c.body 0 4 = 0 ∨ (leAt c.body 0 4 % u.getF u.lead fAgateDigCfgK = 0 ∧ ∃ n, u.conn (leAt c.body 4 4) = some n ∧ n.kind = 3)) :
    exec .ckptConfig s = .next ((u.modCtl (fun x => { x with ckptPeriod := leAt c.body 0 4, ckptConn := leAt c.body 4 4 })).replyOk c []) := by
  refine congrArg Host.Outcome.next ((State.serve_of_serves h).trans ?_)
  rcases hp with hp | ⟨hk, n, hn, hkind⟩
  · simp only [hp, ne_eq, not_true_eq_false, false_and, if_false]
  · simp only [hk, hn, hkind, ne_eq, not_true_eq_false, and_false, bne_self_eq_false, Bool.false_eq_true, if_false]

/-! ### Domains (R380) -/

/-- The state of a package that has joined a domain as package `id` with `tag`, its time from port `up` or from itself. -/
def State.joined (u : State) (id root up : Nat) (tag : BitVec 64) : State :=
  let s := (u.setF common fPkgIdId id).setF common fPkgIdIdValid 1
  let s := ((s.setUp fFiCfgTimeUp up).setUp fFiCfgTimeRoot root).modCtl (fun x => { x with tag := tag })
  if root = 1 then (s.setUp fFiTimeStatLocked 1).setUp fFiTimeStatDepth 0 else s

theorem State.joined_regsOnly (u : State) (id root up : Nat) (tag : BitVec 64) :
    RegsOnly (u.modCtl (fun x => { x with tag := tag })) (u.joined id root up tag) := by
  unfold State.joined
  extract_lets s1 s2
  have h1 : RegsOnly u s1 := (u.setF_regsOnly ..).trans (State.setF_regsOnly ..)
  have h2 : RegsOnly (u.modCtl (fun x => { x with tag := tag })) s2 := ((h1.trans (State.setUp_regsOnly ..)).trans (State.setUp_regsOnly ..)).modCtl _
  split
  · exact (h2.trans (State.setUp_regsOnly ..)).trans (State.setUp_regsOnly ..)
  · exact h2

/-- A field apart from those of the time keeps its value. -/
theorem State.getF_joined_of_apart {id root up d : Nat} {tag : BitVec 64} {f : Fld} (h1 : fFiCfgTimeUp.Apart f) (h2 : fFiCfgTimeRoot.Apart f)
    (h3 : fFiTimeStatLocked.Apart f) (h4 : fFiTimeStatDepth.Apart f) :
    (u.joined id root up tag).getF d f = ((u.setF common fPkgIdId id).setF common fPkgIdIdValid 1).getF d f := by
  unfold State.joined
  extract_lets s1 s2
  have hs2 : s2.getF d f = s1.getF d f := by
    rw [State.getF_modCtl, State.getF_setUp_of_apart h2, State.getF_setUp_of_apart h1]
  split
  · rw [State.getF_setUp_of_apart h4, State.getF_setUp_of_apart h3, hs2]
  · exact hs2

/-- The identifier shows. -/
theorem State.joined_identified (u : State) {id : Nat} (root up : Nat) (tag : BitVec 64) (h : id ≤ 4095) :
    (u.joined id root up tag).pkgId = id ∧ (u.joined id root up tag).idValid = true := by
  constructor
  · rw [State.pkgId, State.getF_joined_of_apart (by decide) (by decide) (by decide) (by decide), State.getF_setF_of_apart (by decide),
      State.getF_setF_same _ _ _ _ (by decide)]
    exact Nat.mod_eq_of_lt (Nat.lt_succ_of_le h)
  · rw [State.idValid, State.flag, State.getF_joined_of_apart (by decide) (by decide) (by decide) (by decide), State.getF_setF_same _ _ _ _ (by decide)]
    rfl

/-- Each running compute die shows where its time comes from; that of the root is locked. -/
theorem State.joined_time (u : State) (id : Nat) {root up d : Nat} (tag : BitVec 64) (hroot : root ≤ 1) (hup : up ≤ 11) (hd : d < 4) (hu : u.dieUp d = true) :
    (u.joined id root up tag).getF d fFiCfgTimeUp = up ∧ (u.joined id root up tag).getF d fFiCfgTimeRoot = root ∧
      (root = 1 → (u.joined id root up tag).flag d fFiTimeStatLocked = true) := by
  unfold State.joined
  extract_lets s1 s2
  have hu1 : s1.dieUp d = true := hu
  have hu2 : (s1.setUp fFiCfgTimeUp up).dieUp d = true := ((s1.setUp_regsOnly ..).dieUp d).trans hu
  have hu3 : s2.dieUp d = true := ((State.setUp_regsOnly ..).dieUp d).trans hu2
  have htime : s2.getF d fFiCfgTimeUp = up ∧ s2.getF d fFiCfgTimeRoot = root := by
    constructor
    · rw [State.getF_modCtl, State.getF_setUp_of_apart (by decide), State.getF_setUp hd hu1]
      exact Nat.mod_eq_of_lt (Nat.lt_of_le_of_lt hup (by decide))
    · rw [State.getF_modCtl, State.getF_setUp hd hu2]
      exact Nat.mod_eq_of_lt (Nat.lt_of_le_of_lt hroot (by decide))
  split
  · refine ⟨?_, ?_, fun _ => ?_⟩
    · rw [State.getF_setUp_of_apart (by decide), State.getF_setUp_of_apart (by decide), htime.1]
    · rw [State.getF_setUp_of_apart (by decide), State.getF_setUp_of_apart (by decide), htime.2]
    · rw [State.flag, State.getF_setUp_of_apart (by decide), State.getF_setUp hd hu3]
      rfl
  · next hr => exact ⟨htime.1, htime.2, fun h => absurd h hr⟩

theorem execDomainJoin_of_taken (h : Serves s 0x0A01 c u) (hid : leAt c.body 0 2 ≤ 4095) (hroot : leAt c.body 2 1 ≤ 1) (hup : leAt c.body 3 1 ≤ 11)
    (hv : u.idValid = false) (hrun : u.job.running = false) :
    exec .domainJoin s = .next ((u.joined (leAt c.body 0 2) (leAt c.body 2 1) (leAt c.body 3 1) (BitVec.ofNat 64 (leAt c.body 4 8))).replyOk c []) := by
  refine congrArg Host.Outcome.next ((State.serve_of_serves h).trans ?_)
  simp only [Nat.not_lt.mpr hid, Nat.not_lt.mpr hroot, Nat.not_lt.mpr hup, hv, hrun, Bool.or_self, Bool.false_eq_true, if_false]
  rfl

theorem execDomainLeave_of_no_job (h : Serves s 0x0A02 c u) (hrun : u.job.running = false) :
    exec .domainLeave s = .next ((u.setF common fPkgIdIdValid 0).replyOk c []) := by
  refine congrArg Host.Outcome.next ((State.serve_of_serves h).trans ?_)
  simp only [hrun, Bool.false_eq_true, if_false]

theorem execDomainLeave_of_running (h : Serves s 0x0A02 c u) (hrun : u.job.running = true) : exec .domainLeave s = .next (u.refuse c 0x105 0) := by
  refine congrArg Host.Outcome.next ((State.serve_of_serves h).trans ?_)
  simp only [hrun, if_true]

/-! ### RECONSTRUCT (R354) -/

theorem State.reconStart_regsOnly (r : State) : RegsOnly (r.modCtl (fun x => { x with recon := [], reconRun := [], reconAcc := [] })) r.reconStart :=
  ((r.setAll_regsOnly ..).trans (State.setAll_regsOnly ..)).modCtl _

theorem State.reconStart_leaves (r : State) :
    r.reconStart.mem = r.mem ∧ r.reconStart.ctl.progs = r.ctl.progs ∧ r.reconStart.ctl.recon = [] ∧ r.reconStart.ctl.reconRun = [] := by
  have h := r.reconStart_regsOnly
  exact ⟨h.mem, h.ofCtl Ctl.progs, h.ofCtl Ctl.recon, h.ofCtl Ctl.reconRun⟩

theorem State.getF_reconStart (r : State) (d : Nat) (f : Fld) :
    r.reconStart.getF d f = ((r.setAll fUpdStatusBusy 1).setAll fUpdStatusRecon 1).getF d f := State.getF_modCtl ..

theorem State.getF_reconStart_of_apart (r : State) {d : Nat} {f : Fld} (h1 : fUpdStatusBusy.Apart f) (h2 : fUpdStatusRecon.Apart f) :
    r.reconStart.getF d f = r.getF d f := by
  rw [State.getF_reconStart, State.getF_setAll_of_apart h2, State.getF_setAll_of_apart h1]

/-- The update units are busy with the reconstruction. -/
theorem State.reconStart_shows (r : State) {d : Nat} (hd : d < 4) : r.reconStart.flag d fUpdStatusBusy = true ∧ r.reconStart.flag d fUpdStatusRecon = true := by
  constructor
  · rw [State.flag, State.getF_reconStart, State.getF_setAll_of_apart (by decide), State.getF_setAll hd]
    rfl
  · rw [State.flag, State.getF_reconStart, State.getF_setAll hd]
    rfl

/-- The reconstruction as it starts, its command waiting. -/
def State.reconBegun (r : State) (c : Cmd) : State := r.reconStart.progress c 2 .reconstruct

theorem State.protRegions_reconBegun (r : State) (c : Cmd) : (r.reconBegun c).protRegions = r.protRegions := by
  have hf : ∀ d f, f = fDieInfoLead ∨ f = fParCfgNblk ∨ f = fParCfgG → (r.reconBegun c).getF d f = r.getF d f := by
    rintro d f (rfl | rfl | rfl) <;> exact (State.getF_progress ..).trans (State.getF_reconStart_of_apart _ (by decide) (by decide))
  have hl : (r.reconBegun c).lead = r.lead := State.lead_of_flag (fun d => congrArg (· == 1) (hf d _ (.inl rfl)))
  rw [State.protRegions, hl, hf _ _ (.inr (.inl rfl)), hf _ _ (.inr (.inr rfl)), State.protRegions]

/-- With no region under way and some to do, there is nothing to note. -/
theorem State.reconNext_of_none (hr : s.ctl.reconRun = []) (hn : s.ctl.recon = []) (hp : s.protRegions ≠ 0) :
    s.reconNext = s.modCtl (fun y => { y with recon := [], reconRun := [] }) := by
  have hctl : ∀ x, State.protRegions { s with ctl := x } = s.protRegions := fun _ => rfl
  simp only [State.reconNext, State.modCtl, hr, hn, hctl, hp, List.filter_nil, List.map_nil, List.append_nil, List.length_nil, Nat.le_zero_eq, decide_false,
    Bool.and_false, Bool.false_eq_true, if_false]

theorem State.reconNext_leaves (hr : s.ctl.reconRun = []) (hn : s.ctl.recon = []) (hp : s.protRegions ≠ 0) :
    s.reconNext.mem = s.mem ∧ s.reconNext.ctl.recon = [] ∧ s.reconNext.ctl.reconRun = [] ∧ s.reconNext.ctl.progs = s.ctl.progs ∧
      ∀ d f, s.reconNext.flag d f = s.flag d f := by
  rw [State.reconNext_of_none hr hn hp]
  exact ⟨rfl, rfl, rfl, rfl, fun _ _ => rfl⟩

theorem execReconstruct_of_taken {bs : List Byte} (h : Serves s 0x0A04 c u) (hrun : u.job.running = false) (himg : u.ctl.image = some bs) (hon : u.reconOn = false)
    (hup : ∀ d < 4, u.updUp d = true) (hg : leAt c.body 0 1 < (u.loadTables (Config.imageOf bs)).getF (u.loadTables (Config.imageOf bs)).lead fParCfgG) :
    exec .reconstruct s = .next ((u.loadTables (Config.imageOf bs)).reconBegun c).reconNext := by
  refine congrArg Host.Outcome.next ((State.serve_of_serves h).trans ?_)
  have ha : (span 0 4).all u.updUp = true := List.all_eq_true.mpr (fun d hd => hup d (by simpa using hd))
  simp only [hrun, himg, hon, ha, Nat.not_le.mpr hg, Option.isNone_some, Bool.or_self, Bool.not_true, Bool.false_eq_true, if_false]
  rfl

/-- The reconstruction has begun: no region is done or under way, and the units are busy. -/
theorem State.reconBegun_next (r : State) (c : Cmd) (hp : r.protRegions ≠ 0) :
    (r.reconBegun c).reconNext.mem = r.mem ∧ (r.reconBegun c).reconNext.ctl.recon = [] ∧ (r.reconBegun c).reconNext.ctl.reconRun = [] ∧
      (r.reconBegun c).reconNext.ctl.progs = r.ctl.progs ++ [⟨c, .reconstruct⟩] ∧
      ∀ d < 4, (r.reconBegun c).reconNext.flag d fUpdStatusBusy = true ∧ (r.reconBegun c).reconNext.flag d fUpdStatusRecon = true := by
  obtain ⟨hmem, hprogs, hdone, hrun⟩ := r.reconStart_leaves
  obtain ⟨nmem, nrecon, nrun, nprogs, nflag⟩ := State.reconNext_leaves (s := r.reconBegun c) ((State.reconRun_progress ..).trans hrun)
    ((State.recon_progress ..).trans hdone) (by rwa [State.protRegions_reconBegun])
  refine ⟨nmem.trans ((r.reconStart.mem_progress c 2 .reconstruct).trans hmem), nrecon, nrun,
    nprogs.trans ((r.reconStart.progs_progress c 2 .reconstruct).trans (congrArg (· ++ _) hprogs)), fun d hd => ?_⟩
  obtain ⟨hbusy, hrecon⟩ := r.reconStart_shows hd
  rw [nflag, nflag]
  exact ⟨(r.reconStart.flag_progress c 2 .reconstruct d fUpdStatusBusy).trans hbusy, (r.reconStart.flag_progress c 2 .reconstruct d fUpdStatusRecon).trans hrecon⟩

/-! ### The commands together -/

/-- Settles O54, a command at a time. -/
theorem jobCommandsAreServed : Obligations.JobCommandsAreServed := by
  intro c s u b
  refine ⟨?start, ?round, ?stop, ?status, ?layout, ?checkpoint, ?join, ?leave, ?domain, ?recon⟩
  case start =>
    intro bs h hpad hmode hparts
    refine ⟨execJobStart_of_running h hpad hmode hparts, fun hrun hid himg hsha hpar hup hshape => ?_⟩
    have he := execJobStart_of_admitted h hpad hmode hparts hrun hid himg hsha hpar hup hshape
    refine ⟨fun w hw => ?_, fun p hw => ⟨fun hf => ?_, fun hf => ⟨fun hm => ?_, fun hd w hm hr => ?_⟩⟩⟩
    · rw [he, State.startImage_of_write_fails hw]
    · rw [he, State.startImage_of_not_fits hw hf]
    · rw [he, State.startImage_of_mode0 hw hf hm]
    · refine ⟨_, he.trans (congrArg Host.Outcome.next (State.startImage_of_header hw hf hm hr)), State.mem_reloads .., fun d hd4 => ?_⟩
      rw [State.reg_stepIndex_reloads, if_pos (mem_span.mpr ⟨Nat.zero_le d, by omega⟩)]
  case round =>
    exact ⟨u.job_startJob_of_children, u.job_startJob_of_child, u.job_startJob_of_root⟩
  case stop =>
    intro h
    refine ⟨fun hrun hm hs => ⟨_, execJobStop_of_step h hrun hm hs, u.mem_progress c 2 .jobStop, u.cores_progress c 2 .jobStop, ?_, u.progs_progress ..⟩,
      fun hrun hm => ⟨_, execJobStop_of_abort h hrun hm, ?_⟩, execJobStop_of_no_job h⟩
    · exact congrArg (fun j : Job => { j with stopAt := some (leAt b 0 8) }) (u.job_progress ..)
    · have hk := (u.progress c 2 .jobStop).keeps_abortJob ((Config.recordArg 0 5 []).toNat % 65536)
      have hj := (u.progress c 2 .jobStop).job_abortJob ((Config.recordArg 0 5 []).toNat % 65536)
      rw [State.job_progress, if_pos hrun] at hj
      exact ⟨hk.mem.trans (u.mem_progress ..), hk.cores.trans (u.cores_progress ..), congrArg Job.running hj, congrArg Job.fatal hj⟩
  case status =>
    intro h
    rw [← Job.code_eq]
    exact congrArg Host.Outcome.next (State.serve_of_serves h)
  case layout =>
    intro h hb hl hs
    obtain ⟨hmem, hjob, hprogs, hstep⟩ := u.layoutPending_leaves (leAt b 0 8)
    refine ⟨_, execLayoutCommit_of_taken h hb hl hs, (State.mem_progress ..).trans hmem, (State.job_progress ..).trans hjob,
      (State.progs_progress ..).trans (congrArg (· ++ _) hprogs), (State.applyStep_progress ..).trans hstep, fun d hd => ?_⟩
    obtain ⟨hpending, hshown⟩ := u.layoutPending_shows (leAt b 0 8) hd
    exact ⟨(State.flag_progress ..).trans hpending, (State.getF_progress ..).trans hshown⟩
  case checkpoint =>
    exact fun h hp => execCkptConfig_of_taken h hp
  case join =>
    intro h hid hroot hup hv hrun
    have hr := u.joined_regsOnly (leAt b 0 2) (leAt b 2 1) (leAt b 3 1) (BitVec.ofNat 64 (leAt b 4 8))
    obtain ⟨hpkg, hvalid⟩ := u.joined_identified (leAt b 2 1) (leAt b 3 1) (BitVec.ofNat 64 (leAt b 4 8)) hid
    exact ⟨_, execDomainJoin_of_taken h hid hroot hup hv hrun, hr.mem, hr.job, hpkg, hvalid, hr.ctl, fun d hd hu => u.joined_time _ _ hroot hup hd hu⟩
  case leave =>
    intro h
    refine ⟨fun hrun => ⟨_, execDomainLeave_of_no_job h hrun, rfl, rfl, ?_, ?_⟩, execDomainLeave_of_running h⟩
    · rw [State.idValid, State.flag, State.getF_setF_same _ _ _ _ (by decide)]
      rfl
    · exact State.getF_setF_of_apart (by decide)
  case domain =>
    exact fun h => congrArg Host.Outcome.next (State.serve_of_serves h)
  case recon =>
    intro bs h hrun himg hon hup r hg hp
    exact ⟨_, execReconstruct_of_taken h hrun himg hon hup hg, State.reconBegun_next _ c hp⟩

end Sys2Proof.Machine
end

section
/-! A core's streams, queues and tokens after one of them is replaced, what a signal that fits changes, and what a halt changes (R66, R85). -/

namespace Sys2Proof.Machine

/-! ### Parts of a core -/

namespace Core

variable (c : Core)

@[simp] theorem stream_setStream_same (st : Stream) (v : StreamCtl) : (c.setStream st v).stream st = v := by cases st <;> rfl

@[simp] theorem stream_setStream_other (st : Stream) (v : StreamCtl) : (c.setStream st v).stream (otherStream st) = c.stream (otherStream st) := by
  cases st <;> rfl

@[simp] theorem token_setStream (st : Stream) (v : StreamCtl) (k : Nat) : (c.setStream st v).token k = c.token k := by cases st <;> rfl

@[simp] theorem queue_setStream (st : Stream) (v : StreamCtl) (eng : Engine) (st' : Stream) : (c.setStream st v).queue eng st' = c.queue eng st' := by
  cases st <;> rfl

@[simp] theorem haltInfo_setStream (st : Stream) (v : StreamCtl) : (c.setStream st v).haltInfo = c.haltInfo := by cases st <;> rfl

@[simp] theorem queue_setQueue_same (eng : Engine) (st : Stream) (q : List QEntry) : (c.setQueue eng st q).queue eng st = q :=
  mapGet_mapSet_same ..

theorem token_setToken (k v k' : Nat) : (c.setToken k v).token k' = if k' = k then v else c.token k' := mapGet_mapSet ..

@[simp] theorem token_setToken_same (k v : Nat) : (c.setToken k v).token k = v := mapGet_mapSet_same ..

/-- Only tokens are taken by a wait. -/
theorem takeToken_eq (w : InstrWord) : c.takeToken w = { c with tokens := (c.takeToken w).tokens } := by
  unfold takeToken
  dsimp only
  split <;> rfl

@[simp] theorem stream_takeToken (w : InstrWord) (st : Stream) : (c.takeToken w).stream st = c.stream st := by
  rw [takeToken_eq]
  cases st <;> rfl

/-- A wait adds to no token. -/
theorem token_takeToken_le (w : InstrWord) (k : Nat) : (c.takeToken w).token k ≤ c.token k := by
  unfold takeToken
  dsimp only
  split
  · rw [token_setToken]
    split
    · next h => exact h ▸ Nat.sub_le ..
    · exact le_rfl
  · exact le_rfl

theorem takeToken_setStream (st : Stream) (v : StreamCtl) (w : InstrWord) : (c.setStream st v).takeToken w = (c.takeToken w).setStream st v := by
  unfold takeToken
  dsimp only
  split
  · cases st <;> rfl
  · rfl

theorem waitMet_setStream (st : Stream) (v : StreamCtl) (w : InstrWord) : (c.setStream st v).waitMet w = c.waitMet w := by cases st <;> rfl

/-- The stream goes on at the word named. -/
theorem stream_advance (st : Stream) (n : Nat) :
    (c.advance st n).stream st = { c.stream st with st := .running, last := (c.stream st).cur, cur := n } := stream_setStream_same ..

@[simp] theorem token_advance (st : Stream) (n k : Nat) : (c.advance st n).token k = c.token k := token_setStream ..

@[simp] theorem queue_advance (st : Stream) (n : Nat) (eng : Engine) (st' : Stream) : (c.advance st n).queue eng st' = c.queue eng st' := queue_setStream ..

/-! What the engines select does not depend on the streams. -/

theorem selects_setStream (st : Stream) (v : StreamCtl) (eng : Engine) : (c.setStream st v).selects eng = c.selects eng := by
  cases st <;> rfl

theorem tokensFor_setStream (st : Stream) (v : StreamCtl) (eng : Engine) : (c.setStream st v).tokensFor eng = (c.tokensFor eng).setStream st v := by
  refine List.foldl_hom (fun (k : Core) => k.setStream st v) (fun k g => ?_)
  rw [selects_setStream]
  cases k.selects g with
  | none => rfl
  | some e => exact k.takeToken_setStream ..

theorem turnMet_setStream (st : Stream) (v : StreamCtl) (eng : Engine) (w : InstrWord) : (c.setStream st v).turnMet eng w = c.turnMet eng w := by
  rw [turnMet, tokensFor_setStream, waitMet_setStream, waitMet_setStream, turnMet]

end Core

/-! ### Signals (R57, R66) -/

/-- An increment that fits changes a token. -/
theorem State.addToken_of_fits {s : State} {pc k : Nat} (lc : Nat) (h : (s.core pc).token k < 65535) :
    s.addToken pc lc k 1 = s.modCore pc (fun c => c.setToken k ((s.core pc).token k + 1)) := if_neg (by omega)

/-- A signal that fits changes tokens of its core only. -/
theorem State.signal_of_fits {s : State} {pc mode : Nat} {w : InstrWord} (lc : Nat) (h : (toksOf w).smode = mode → (s.core pc).token (toksOf w).stok < 65535) :
    (s.signal pc lc w mode).mem = s.mem ∧ ∃ ts, (s.signal pc lc w mode).core pc = { s.core pc with tokens := ts } := by
  unfold signal
  dsimp only
  split
  · next hm =>
    rw [addToken_of_fits lc (h hm)]
    exact ⟨rfl, _, s.core_modCore_same ..⟩
  · exact ⟨rfl, (s.core pc).tokens, rfl⟩

/-! ### Halts (R73, R85) -/

/-- The core once a stream of it, or both, has halted. -/
def Core.halted (c : Core) (st : Stream) (h : Halt) : Core :=
  let c1 := if h.both then (c.stopStream .crit .halted).stopStream .defr .halted else c.stopStream st .halted
  if fld c.haltInfo 0 8 = 0 then { c1 with haltInfo := haltInfoOf st h } else c1

namespace Core

variable (c : Core) (st : Stream) (h : Halt)

/-- A halt reaches the streams, their queues and the halt information only. -/
theorem halted_eq : c.halted st h =
    { c with crit := (c.halted st h).crit, defr := (c.halted st h).defr, queues := (c.halted st h).queues, haltInfo := (c.halted st h).haltInfo } := by
  unfold halted
  dsimp only
  split <;> split <;> cases st <;> rfl

/-- The streams that a halt names stop, and no other does. -/
theorem stream_halted (st' : Stream) : (c.halted st h).stream st' =
    if h.both = true ∨ st' = st then { c.stream st' with st := .halted, cur := (c.stream st').last, buf := [] } else c.stream st' := by
  unfold halted
  dsimp only
  by_cases hb : h.both = true
  · simp only [hb, if_true, true_or]
    split <;> cases st' <;> rfl
  · simp only [hb]
    split <;> cases st <;> cases st' <;> rfl

theorem st_halted {st' : Stream} (hst : h.both = true ∨ st' = st) : ((c.halted st h).stream st').st = .halted := by
  rw [stream_halted, if_pos hst]

theorem stream_halted_other (hb : h.both = false) : (c.halted st h).stream (otherStream st) = c.stream (otherStream st) := by
  rw [stream_halted, if_neg (by simp only [hb]; cases st <;> decide)]

@[simp] theorem token_halted (k : Nat) : (c.halted st h).token k = c.token k := by
  rw [halted_eq]
  rfl

@[simp] theorem spad_halted : (c.halted st h).spad = c.spad := by rw [halted_eq]

@[simp] theorem vctx_halted (st' : Stream) : (c.halted st h).vctx st' = c.vctx st' := by
  rw [halted_eq]
  cases st' <;> rfl

/-- The first halt of a core is shown. -/
theorem haltInfo_halted (hi : fld c.haltInfo 0 8 = 0) : (c.halted st h).haltInfo = haltInfoOf st h := by
  simp only [halted, hi, if_true]

end Core

/-- SEQ_HALT_INFO begins with the cause. -/
theorem fld_haltInfoOf (st : Stream) (h : Halt) (hc : h.cause < 2 ^ 8) : fld (haltInfoOf st h) 0 8 = h.cause := by
  simp only [fld, haltInfoOf, natBits, BitVec.toNat_ofNat, Nat.shiftRight_zero]
  omega

namespace State

variable (s : State) (pc lc : Nat) (st : Stream) (h : Halt)

/-- Beside the core, a halt leads to records only. -/
theorem keeps_halt : Keeps .record (s.setCore pc ((s.core pc).halted st h)) (s.halt pc lc st h) :=
  (keeps_raise ..).trans (keeps_raise ..)

@[simp] theorem mem_halt : (s.halt pc lc st h).mem = s.mem := (s.keeps_halt pc lc st h).mem

@[simp] theorem core_halt : (s.halt pc lc st h).core pc = (s.core pc).halted st h := by
  rw [core, (s.keeps_halt pc lc st h).cores]
  exact s.core_setCore_same ..

end State

end Sys2Proof.Machine
end

section
/-! The words of a stream at dispatch: fetched, and then an SQ word acts (R74 to R76) or an engine word is queued (R53, R68). -/

namespace Sys2Proof.Machine

variable {s : State} {lc pc : Nat} {st : Stream} {w : InstrWord} {l : FetchLine}

/-! ### The fetched word (R68) -/

/-- The state once a stream has fetched its word from line `l`, which its fetch buffer keeps. -/
def State.withLine (s : State) (pc : Nat) (st : Stream) (l : FetchLine) : State := s.modCore pc (fun c => c.setStream st ((c.stream st).keepLine l))

theorem State.core_withLine (s : State) (pc : Nat) (st : Stream) (l : FetchLine) :
    (s.withLine pc st l).core pc = (s.core pc).setStream st (((s.core pc).stream st).keepLine l) := s.core_modCore_same ..

/-- Keeping a line changes a fetch buffer only. -/
theorem StreamCtl.keepLine_eq (x : StreamCtl) (l : FetchLine) : x.keepLine l = { x with buf := (x.keepLine l).buf } := by
  unfold keepLine
  split <;> rfl

@[simp] theorem StreamCtl.loops_keepLine (x : StreamCtl) (l : FetchLine) : (x.keepLine l).loops = x.loops := by rw [keepLine_eq]

@[simp] theorem StreamCtl.cur_keepLine (x : StreamCtl) (l : FetchLine) : (x.keepLine l).cur = x.cur := by rw [keepLine_eq]

@[simp] theorem StreamCtl.irloads_keepLine (x : StreamCtl) (l : FetchLine) : (x.keepLine l).irloads = x.irloads := by rw [keepLine_eq]

theorem StreamCtl.x_setX_keepLine (x : StreamCtl) (l : FetchLine) (i : Nat) (v : BitVec 32) : ((x.keepLine l).setX i v).x = (x.setX i v).x := by
  rw [keepLine_eq]
  unfold setX
  split <;> rfl

/-- A live stream that fetches the word named goes on with it. -/
theorem State.withFetched_of_word {k : State → Nat → QEntry → State} (hp : s.physOf lc = some pc) (hl : ((s.core pc).stream st).st.live = true)
    (hf : s.fetch pc st = .word w [] l) : s.withFetched lc st w k = k (s.withLine pc st l) pc (sqEntry s pc st w) := by
  simp only [withFetched, hp, hl, hf, Bool.not_true, Bool.false_eq_true, if_false, ne_eq, not_true_eq_false]
  rfl

theorem spadReads_setStream (pc : Nat) (c : Core) (v : StreamCtl) (ws : List Nat) : spadReads pc (c.setStream st v) ws = spadReads pc c ws := by
  have hd : spadDecode pc (c.setStream st v) = spadDecode pc c := by cases st <;> rfl
  induction ws with
  | nil => rfl
  | cons a ws ih => rw [spadReads, ih, hd, spadReads]

theorem badChks_setStream (pc : Nat) (c : Core) (v : StreamCtl) (ws : List Nat) : badChks pc (c.setStream st v) ws = badChks pc c ws := by
  cases st <;> rfl

/-- The line that the deferred stream keeps does not change what the critical stream fetches. -/
theorem State.fetch_withLine (s : State) (pc : Nat) (l : FetchLine) : (s.withLine pc .defr l).fetch pc .crit = s.fetch pc .crit := by
  unfold fetch
  dsimp only
  rw [core_withLine, spadReads_setStream, badChks_setStream]
  simp only [Core.setStream, Core.stream, StreamCtl.irloads_keepLine]
  rfl

theorem State.critSq_withLine (s : State) (pc : Nat) (l : FetchLine) : (s.withLine pc .defr l).critSq pc = s.critSq pc := by
  unfold critSq
  rw [fetch_withLine, core_withLine]
  rfl

/-- Whether a wait is met does not depend on the line kept. -/
theorem State.sqMet_withLine (s : State) (pc : Nat) (st : Stream) (l : FetchLine) (w : InstrWord) : (s.withLine pc st l).sqMet pc st w = s.sqMet pc st w := by
  unfold sqMet
  dsimp only
  rw [core_withLine, Core.turnMet_setStream]
  cases st with
  | crit => rfl
  | defr =>
    rw [critSq_withLine, Core.tokensFor_setStream]
    cases s.critSq pc with
    | none => rfl
    | some v =>
      dsimp only
      rw [Core.waitMet_setStream, Core.takeToken_setStream]
      split <;> rw [Core.waitMet_setStream]

/-! ### SQ words (R74, R75) -/

/-- A core is stored and a signal that fits is raised: the streams are the core's. -/
theorem State.signal_setCore {c : Core} {mode : Nat} (lc : Nat) (h : (toksOf w).smode = mode → c.token (toksOf w).stok < 65535) :
    ((s.setCore pc c).signal pc lc w mode).mem = s.mem ∧ ∀ st, (((s.setCore pc c).signal pc lc w mode).core pc).stream st = c.stream st := by
  obtain ⟨hm, ts, hc⟩ := signal_of_fits (s := s.setCore pc c) (pc := pc) lc (by rwa [core_setCore_same])
  refine ⟨hm, fun st => ?_⟩
  rw [hc, core_setCore_same]
  cases st <;> rfl

/-- The core on which a fetched word acts: its line is kept and its token taken. -/
def State.actCore (s : State) (pc : Nat) (st : Stream) (l : FetchLine) (w : InstrWord) : Core := ((s.withLine pc st l).core pc).takeToken w

theorem State.stream_actCore (s : State) (pc : Nat) (st : Stream) (l : FetchLine) (w : InstrWord) :
    (s.actCore pc st l w).stream st = ((s.core pc).stream st).keepLine l := by
  rw [actCore, Core.stream_takeToken, core_withLine, Core.stream_setStream_same]

theorem State.token_actCore_le (s : State) (pc : Nat) (st : Stream) (l : FetchLine) (w : InstrWord) (k : Nat) :
    (s.actCore pc st l w).token k ≤ (s.core pc).token k := by
  refine (Core.token_takeToken_le ..).trans (le_of_eq ?_)
  rw [core_withLine, Core.token_setStream]

/-- A ready SQ word that passes its checks acts on a core whose stream has kept the word's line, and the stream goes on: `P` holds of the stream where
it holds after the act. -/
theorem State.sqWord_of_ready {lc : Fin 64} {opc : Nat} {tok : BitVec 16} {ops : BitVec 96} {check : State → Nat → QEntry → Option Refuse}
    {act : Core → QEntry → Core × Nat} {P : StreamCtl → Prop} (h : SqReady lc st (mkWord 5 opc tok ops) pc s)
    (hc : ∀ l, check (s.withLine pc st l) pc (sqEntry s pc st (mkWord 5 opc tok ops)) = none) (ht : ∀ c e k, (act c e).1.token k = c.token k)
    (hP : ∀ c l, c.stream st = ((s.core pc).stream st).keepLine l →
      let a := act c (sqEntry s pc st (mkWord 5 opc tok ops)); P { a.1.stream st with st := .running, last := (a.1.stream st).cur, cur := a.2 }) :
    (s.sqWord lc st opc tok ops check act).mem = s.mem ∧ P (((s.sqWord lc st opc tok ops check act).core pc).stream st) := by
  obtain ⟨hp, hl, ⟨l, hf⟩, hm, hroom⟩ := h
  have hmet : (s.withLine pc st l).sqMet pc st (sqEntry s pc st (mkWord 5 opc tok ops)).word = true := (s.sqMet_withLine ..).trans hm
  unfold sqWord
  rw [withFetched_of_word hp hl hf]
  simp only [hmet, hc, Bool.not_true, Bool.false_eq_true, if_false]
  obtain ⟨hmem, hst⟩ := signal_setCore (s := s.withLine pc st l) (pc := pc) lc (w := mkWord 5 opc tok ops) (mode := 1)
    (c := let a := act (s.actCore pc st l (mkWord 5 opc tok ops)) (sqEntry s pc st (mkWord 5 opc tok ops)); a.1.advance st a.2)
    (fun hs => by
      rw [Core.token_advance, ht]
      exact (s.token_actCore_le ..).trans_lt (hroom hs))
  exact ⟨hmem, (congrArg P ((hst st).trans (Core.stream_advance ..))).mpr (hP _ l (s.stream_actCore ..))⟩

/-- SQ.END of a ready word that passes its checks ends its stream. -/
theorem execSqEnd_of_ready {lc : Fin 64} {tok : BitVec 16} {ops : BitVec 96} (h : SqReady lc st (mkWord 5 0x001 tok ops) pc s)
    (hc : sqCheck (sqEntry s pc st (mkWord 5 0x001 tok ops)) 0 = none) :
    ∃ t, exec (.sqEnd lc st tok ops) s = .next t ∧ t.mem = s.mem ∧ ((t.core pc).stream st).st = .ended := by
  obtain ⟨hp, hl, ⟨l, hf⟩, hm, hroom⟩ := h
  have hmet : (s.withLine pc st l).sqMet pc st (sqEntry s pc st (mkWord 5 0x001 tok ops)).word = true := (s.sqMet_withLine ..).trans hm
  let c := s.actCore pc st l (mkWord 5 0x001 tok ops)
  let e := sqEntry s pc st (mkWord 5 0x001 tok ops)
  obtain ⟨hmem, hst⟩ := State.signal_setCore (s := s.withLine pc st l) (pc := pc) lc (w := mkWord 5 0x001 tok ops) (mode := 1)
    (c := c.setStream st { c.stream st with st := .ended, last := e.pc, cur := e.pc, buf := [] })
    (fun hs => by
      rw [Core.token_setStream]
      exact (s.token_actCore_le ..).trans_lt (hroom hs))
  refine ⟨_, ?_, hmem, by rw [hst st, Core.stream_setStream_same]⟩
  change execSqEnd lc st tok ops s = _
  unfold execSqEnd
  rw [State.withFetched_of_word hp hl hf]
  simp only [hmet, hc, Bool.not_true, Bool.false_eq_true, if_false]
  rfl

/-- A loop stack that is not full takes an entry. -/
theorem loopCheck_of_room {e : QEntry} {loops : List LoopEntry} (hc : sqCheck e 0x1FFFFF = none) (h0 : loopCount e ≠ 0) (h4 : loops.length < 4) :
    firstRefuse [sqCheck e 0x1FFFFF, refuseIf (loopCount e == 0) 0x02, refuseIf (decide (loops.length ≥ 4)) 0x07] = none := by
  rw [hc, beq_eq_false_iff_ne.mpr h0, decide_eq_false (Nat.not_le.mpr h4)]
  rfl

/-- Settles O16, a word at a time. -/
theorem sequencerWordsAct : Obligations.SequencerWordsAct := by
  intro lc st tok ops pc s
  let x := (s.core pc).stream st
  refine ⟨?nop, execSqEnd_of_ready, ?jump, ?loop, ?endloop, ?xset, ?xadd⟩
  case nop =>
    exact fun h hc => ⟨_, rfl, State.sqWord_of_ready (P := fun y => y.cur = x.cur + 1 ∧ y.st = .running) h (fun _ => hc) (fun _ _ _ => rfl)
      (fun _ _ _ => ⟨rfl, rfl⟩)⟩
  case jump =>
    exact fun h hc => ⟨_, rfl, State.sqWord_of_ready (P := fun y => y.cur = _) h (fun _ => hc) (fun _ _ _ => rfl) (fun _ _ _ => rfl)⟩
  case loop =>
    intro e h hc h0 h4
    refine ⟨_, rfl, State.sqWord_of_ready (P := fun y => y.loops = ⟨e.pc + 1, loopCount e⟩ :: x.loops) h (fun l => loopCheck_of_room hc h0 ?_)
      (fun c e k => c.token_setStream ..) (fun c l hl => ?_)⟩
    · rwa [State.core_withLine, Core.stream_setStream_same, StreamCtl.loops_keepLine]
    · dsimp only
      rw [Core.stream_setStream_same, hl, StreamCtl.loops_keepLine]
  case endloop =>
    intro l r h hc hr
    refine ⟨_, rfl, State.sqWord_of_ready (P := fun y => y.loops = (if l.count ≤ 1 then r else { l with count := l.count - 1 } :: r) ∧
      y.cur = if l.count ≤ 1 then x.cur + 1 else l.body) h (fun k => ?_) (fun c e k => ?_) (fun c k hk => ?_)⟩
    · rw [State.core_withLine, Core.stream_setStream_same, StreamCtl.loops_keepLine, hr, hc]
      rfl
    · dsimp only
      split
      · rfl
      · split <;> exact c.token_setStream ..
    · dsimp only
      rw [hk, StreamCtl.loops_keepLine, hr]
      dsimp only
      split <;> exact ⟨by rw [Core.stream_setStream_same], rfl⟩
  case xset =>
    intro e h hc
    refine ⟨_, rfl, State.sqWord_of_ready (P := fun y => y.x = (x.setX (opf e 0 4) (BitVec.ofNat 32 (opf e 32 32))).x) h (fun _ => hc)
      (fun c e k => c.token_setStream ..) (fun c l hl => ?_)⟩
    dsimp only
    rw [Core.stream_setStream_same, hl, StreamCtl.x_setX_keepLine]
  case xadd =>
    intro e h hc
    refine ⟨_, rfl, State.sqWord_of_ready (P := fun y => y.x = (x.setX (opf e 0 4) (e.xreg (opf e 0 4) + BitVec.ofNat 32 (opf e 32 32))).x) h
      (fun _ => hc) (fun c e k => c.token_setStream ..) (fun c l hl => ?_)⟩
    dsimp only
    rw [Core.stream_setStream_same, hl, StreamCtl.x_setX_keepLine]

/-! ### Engine words (R53, R62, R68) -/

/-- An engine word is dispatched as its table gives it. -/
theorem exec_dispatch : ∀ x ∈ engineWords, ∀ (lc : Fin 64) (st : Stream) (tok : BitVec 16) (ops : BitVec 96) (s : State),
    exec (x.1 lc st .dispatch tok ops) s = .next (s.dispatchWord lc st x.2.1 x.2.2 tok ops) := by
  intro x hx
  fin_cases hx <;> exact fun _ _ _ _ _ => rfl

/-- A fetched engine word goes to the end of its queue if the queue has room, and its stream goes on. -/
theorem State.dispatchWord_of_room {eng : Engine} {opc : Nat} {tok : BitVec 16} {ops : BitVec 96} (hp : s.physOf lc = some pc)
    (hl : ((s.core pc).stream st).st.live = true) (hf : s.fetch pc st = .word (mkWord eng.code opc tok ops) [] l)
    (hroom : ((s.core pc).queue eng st).length < queueDepth eng st) :
    s.dispatchWord lc st eng opc tok ops = (s.withLine pc st l).setCore pc ((((s.withLine pc st l).core pc).setQueue eng st
      ((s.core pc).queue eng st ++ [sqEntry s pc st (mkWord eng.code opc tok ops)])).advance st (((s.core pc).stream st).cur + 1)) := by
  unfold dispatchWord
  rw [withFetched_of_word hp hl hf]
  have hq : ((s.withLine pc st l).core pc).queue eng st = (s.core pc).queue eng st := by rw [core_withLine, Core.queue_setStream]
  simp only [hq, hroom, if_true]
  rfl

/-- Settles O20: each word is dispatched alike, and the line its stream has kept changes no queue. -/
theorem engineWordsAreDispatched : Obligations.EngineWordsAreDispatched := by
  intro x hx lc st tok ops pc s hp hl ⟨l, hf⟩ hroom
  refine ⟨_, (exec_dispatch x hx lc st tok ops s).trans (congrArg Host.Outcome.next (State.dispatchWord_of_room hp hl hf hroom)), rfl, ?_, ?_, ?_⟩
  · rw [State.core_setCore_same, Core.queue_advance, Core.queue_setQueue_same]
  · rw [State.core_setCore_same, Core.stream_advance]
  · rw [State.core_setCore_same, Core.stream_advance]

/-! ### Reserved engine codes (R54) -/

/-- Neither an engine nor an opcode has a reserved engine code. -/
theorem engineOf_reserved {n : Nat} (opc : Nat) (h : n = 0 ∨ 6 ≤ n) : engineOf n = none ∧ knownOpcode n opc = false := by
  rcases h with rfl | h
  · exact ⟨rfl, rfl⟩
  · obtain ⟨m, rfl⟩ := Nat.exists_eq_add_of_le' h
    exact ⟨rfl, rfl⟩

/-- A fetched word with a reserved engine code is refused at dispatch. -/
theorem execReservedEngineCodeOrOpcode_of_fetched {lc : Fin 64} (ph : Phase) (hc : fld w 124 4 = 0 ∨ 6 ≤ fld w 124 4) (hp : s.physOf lc = some pc)
    (hl : ((s.core pc).stream st).st.live = true) (hf : s.fetch pc st = .word w [] l) :
    exec (.reservedEngineCodeOrOpcode lc st ph w) s = .next ((s.withLine pc st l).refuseSq pc lc st (sqEntry s pc st w) ⟨0x01, 0, false⟩) := by
  obtain ⟨he, hk⟩ := engineOf_reserved (opcodeOf w) hc
  change execReservedEngineCodeOrOpcode lc st ph w s = _
  simp only [execReservedEngineCodeOrOpcode, hk, he, State.withFetched_of_word hp hl hf, Bool.false_eq_true, if_false]

/-- A refused SQ word halts its stream, which shows it as the word dispatched last. -/
theorem State.core_refuseSq (s : State) (pc lc : Nat) (st : Stream) (e : QEntry) (r : Refuse) :
    (s.refuseSq pc lc st e r).core pc = ((s.core pc).setStream st { (s.core pc).stream st with last := e.pc }).halted st (haltBy r.cause e r.addr) := by
  rw [refuseSq, core_halt, core_modCore_same]

theorem State.mem_refuseSq (s : State) (pc lc : Nat) (st : Stream) (e : QEntry) (r : Refuse) : (s.refuseSq pc lc st e r).mem = s.mem := mem_halt ..

/-- Settles O21: the word is refused at dispatch, which halts its stream alone. -/
theorem reservedCodesHalt : Obligations.ReservedCodesHalt := by
  intro lc st ph w pc s hc hp hl ⟨l, hf⟩
  refine ⟨_, execReservedEngineCodeOrOpcode_of_fetched ph hc hp hl hf, ?_, fun hi => ?_, fun k => ?_, ?_, State.mem_refuseSq ..⟩
  all_goals rw [State.core_refuseSq, State.core_withLine]
  · exact Core.st_halted _ _ _ (.inr rfl)
  · rw [Core.haltInfo_halted _ _ _ (by rwa [Core.haltInfo_setStream, Core.haltInfo_setStream]), fld_haltInfoOf _ _ (show 0x01 < 2 ^ 8 by decide)]
    rfl
  · rw [Core.token_halted, Core.token_setStream, Core.token_setStream]
  · rw [Core.stream_halted_other _ _ _ rfl, Core.stream_setStream_other, Core.stream_setStream_other]

end Sys2Proof.Machine
end

section
/-! What is done to a core at once: tokens that arrive (R65, R66), GO, HALT and DONE (Table 2.10, R67, R85), and what its retirement leaves (R41, R112). -/

namespace Sys2Proof.Machine

/-! ### Tokens that arrive -/

/-- An element that is there is taken. -/
theorem takeFirst_of_mem {α : Type} {p : α → Bool} {x : α} {l : List α} (hx : x ∈ l) (hp : p x = true) : ∃ y, takeFirst p l = some y := by
  induction l with
  | nil => exact absurd hx List.not_mem_nil
  | cons a l ih =>
    unfold takeFirst
    split
    · exact ⟨_, rfl⟩
    · next ha =>
      rcases List.mem_cons.mp hx with rfl | hx
      · exact absurd hp ha
      · obtain ⟨y, hy⟩ := ih hx
        exact ⟨_, by rw [hy]; rfl⟩

/-- An increment that would pass the largest count leaves it, and halts both streams. -/
theorem State.addToken_of_full {s : State} {pc k : Nat} (lc : Nat) (h : (s.core pc).token k = 65535) :
    s.addToken pc lc k 1 = (s.modCore pc (fun c => c.setToken k 65535)).halt pc lc .crit ⟨0x06, true, 0, 0, 0, 0, 2 ^ 16 * k⟩ := if_pos (by omega)

/-- An increment on its way to a presented core reaches its token. -/
theorem execTokenArrival_of_mem {lc k : Fin 64} {pc : Nat} {s : State} (ha : (lc.val, k.val) ∈ s.arrivals) (hp : s.physOf lc = some pc) :
    ∃ r, exec (.tokenArrival lc k) s = .next (State.addToken { s with arrivals := r } pc lc k 1) := by
  obtain ⟨⟨x, r⟩, hr⟩ := takeFirst_of_mem (p := fun (a : Nat × Nat) => a.1 == lc.val && a.2 == k.val) ha (by simp)
  have hp' : State.physOf { s with arrivals := r } lc = some pc := hp
  refine ⟨r, ?_⟩
  change execTokenArrival lc k s = _
  simp only [execTokenArrival, hr, hp']

/-- Settles O18: the increment fits, or the token is full. -/
theorem tokensCountAndSaturate : Obligations.TokensCountAndSaturate := by
  intro lc k pc s ha hp hle
  obtain ⟨r, hr⟩ := execTokenArrival_of_mem ha hp
  let u : State := { s with arrivals := r }
  refine ⟨_, hr, ?_⟩
  have hu : u.core pc = s.core pc := rfl
  by_cases hlt : (s.core pc).token k < 65535
  · rw [State.addToken_of_fits (s := u) lc hlt, State.core_modCore_same, hu]
    refine ⟨rfl, fun j hj => ?_, ?_, fun h => by omega⟩
    · rw [Core.token_setToken, if_neg hj]
    · rw [Core.token_setToken_same]
      omega
  · have hfull : (s.core pc).token k = 65535 := by omega
    rw [State.addToken_of_full (s := u) lc hfull, State.core_halt, State.core_modCore_same, hu, State.mem_halt]
    refine ⟨rfl, fun j hj => ?_, ?_, fun _ => ⟨Core.st_halted _ _ _ (.inl rfl), Core.st_halted _ _ _ (.inl rfl)⟩⟩
    · rw [Core.token_halted, Core.token_setToken, if_neg hj]
    · rw [Core.token_halted, Core.token_setToken_same]
      omega

/-! ### HALT -/

/-- HALT stops every live stream and leaves the others. -/
theorem State.stream_haltLive (s : State) (pc lc : Nat) (st : Stream) :
    (((s.haltLive pc lc).core pc).stream st).st = if ((s.core pc).stream st).st.live = true then .halted else ((s.core pc).stream st).st := by
  unfold haltLive
  dsimp only
  cases hc : (s.core pc).crit.st.live <;> cases hd : (s.core pc).defr.st.live
  · cases st <;> simp [Core.stream, hc, hd]
  all_goals
    dsimp only
    rw [core_halt, Core.stream_halted]
    cases st <;> simp [Core.stream, hc, hd]

theorem State.mem_haltLive (s : State) (pc lc : Nat) : (s.haltLive pc lc).mem = s.mem := by
  unfold haltLive
  dsimp only
  split
  · exact mem_halt ..
  · exact mem_halt ..
  · exact mem_halt ..
  · rfl

/-! ### What a retirement leaves (R41, R112) -/

theorem Keeps.dies {s t : State} (h : Keeps .transport s t) : t.dies = s.dies := by rw [h.rest]; rfl

theorem RegsOnly.cores {s t : State} (h : RegsOnly s t) : t.cores = s.cores := by unfold RegsOnly at h; rw [h]

theorem RegsOnly.foldl {β : Type} {f : State → β → State} (h : ∀ s b, RegsOnly s (f s b)) (l : List β) : ∀ s, RegsOnly s (l.foldl f s) := by
  induction l with
  | nil => exact .refl
  | cons b l ih => exact fun s => (h s b).trans (ih _)

theorem RegsOnly.ite {s t u : State} {c : Prop} [Decidable c] (h : RegsOnly s t) (h' : RegsOnly s u) : RegsOnly s (if c then t else u) := by
  split
  · exact h
  · exact h'

/-- Each die counts the same cores good in `t` as in `s`. -/
structure SameGood (s t : State) : Prop where
  good : ∀ d, (t.die d).good = (s.die d).good

namespace SameGood

variable {s t u : State}

theorem of_dies (h : t.dies = s.dies) : SameGood s t := ⟨fun d => by rw [State.die, h, State.die]⟩

theorem refl (s : State) : SameGood s s := ⟨fun _ => rfl⟩

theorem trans (h : SameGood s t) (h' : SameGood t u) : SameGood s u := ⟨fun d => (h'.good d).trans (h.good d)⟩

theorem ite {c : Prop} [Decidable c] (h : SameGood s t) (h' : SameGood s u) : SameGood s (if c then t else u) := by
  split
  · exact h
  · exact h'

theorem setDie {d : Nat} {v : Die} (h : v.good = (s.die d).good) : SameGood s (s.setDie d v) where
  good d' := by
    rw [State.die_setDie]
    split
    · next hd => rw [h, hd]
    · rfl

end SameGood

namespace State

variable (s : State)

theorem dies_stopRules : s.stopRules.dies = s.dies := by
  refine List.foldlRecOn (motive := fun u : State => u.dies = s.dies) _ _ rfl (fun u hu d _ => Eq.trans ?_ hu)
  dsimp only
  split <;> rfl

theorem dies_sendBound (ports : List Nat) (kind step phase status : Nat) : (s.sendBound ports kind step phase status).dies = s.dies :=
  List.foldlRecOn (motive := fun u : State => u.dies = s.dies) ports _ rfl (fun _ hu _ _ => hu)

theorem dies_finish (p : Waits → Bool) (status detail : Nat) : (s.finish p status detail).dies = s.dies := (s.keeps_finish ..).dies

theorem dies_abortJob (cause : Nat) : (s.abortJob cause).dies = s.dies := by
  have sent : (if s.treeRoot then s.boundDown 1 s.boundStep s.job.phase 2 else s.boundUp 0 s.boundStep s.job.phase 2).dies = s.dies := by
    split <;> exact dies_sendBound ..
  unfold abortJob
  split
  · unfold endFatal
    dsimp only
    rw [dies_finish, dies_finish, dies_stopRules]
    exact sent
  · rfl

theorem sameGood_classEffect (h cause : Nat) (cls : ErrClass) : SameGood s (s.classEffect h cause cls) := by
  cases cls with
  | tainted => exact .setDie rfl
  | jobFatal => exact .of_dies (s.dies_abortJob _)
  | packageFatal => exact .ite (.of_dies rfl) (.of_dies (s.dies_abortJob _))
  | info => exact .refl s
  | corrected => exact .refl s
  | contained => exact .refl s

theorem sameGood_fileRec (h : Nat) (r : ErrRec) (cls : ErrClass) : SameGood s (s.fileRec h r cls) := by
  unfold fileRec
  extract_lets b s1 s2 s3 s4 s5
  have h3 : SameGood s s3 := SameGood.trans (t := s2) (.of_dies (dies_bump ..)) (.setDie rfl)
  have h4 : SameGood s s4 := .ite (h3.trans (.of_dies (dies_bump ..))) h3
  have h5 : SameGood s s5 := .ite (h4.trans (.of_dies rfl)) h4
  exact h5.trans (sameGood_classEffect ..)

/-- A record leaves the good cores of every die. -/
theorem sameGood_raise (d : Nat) (i : ErrInfo) : SameGood s (s.raise d i) := by
  unfold raise
  dsimp only
  split
  · exact .ite (.setDie rfl) (.setDie rfl)
  · exact s.sameGood_fileRec ..

theorem showShape_regsOnly : RegsOnly s s.showShape :=
  RegsOnly.trans (RegsOnly.foldl (f := fun (s : State) d => s.showCores d) (fun _ _ => rfl) _ s) rfl

end State

/-- Taking a set bit away clears it. -/
theorem natBits_sub_pow {n p : Nat} (h : natBits n p 1 = 1) : natBits (n - 2 ^ p) p 1 = 0 := by
  rw [natBits, Nat.shiftRight_eq_div_pow, pow_one] at h ⊢
  have hd : (n - 2 ^ p) / 2 ^ p = n / 2 ^ p - 1 := by
    have := Nat.sub_mul_div n (2 ^ p) 1
    rwa [Nat.mul_one] at this
  rw [hd]
  omega

/-- A core that is retired is held in reset, and its die counts it good no more. -/
theorem State.retireCore_leaves (s : State) (d p why : Nat) (save : Bool) :
    (s.retireCore d p why save).core (18 * d + p) = (s.core (18 * d + p)).retired ∧
      ((s.die d).isGood p = true → ((s.retireCore d p why save).die d).isGood p = false) := by
  unfold retireCore
  extract_lets x held good spare map s1 s2 s3 flash s4 s5
  let s0 := (s.setDie d { x with good := good, coreMap := map, retireWhy := mapErase x.retireWhy p }).setFunc (funcId 2 d p) 5
  have h01 : Keeps .transport s0 s1 := keeps_finish ..
  have c2 : s2.core (18 * d + p) = (s.core (18 * d + p)).retired := by
    refine (core_modCore_same ..).trans (congrArg Core.retired ?_)
    exact congrArg (fun m => mapGet (fun _ => Core.reset) m (18 * d + p)) h01.cores
  have g2 : (s2.die d).good = good := by
    have hd : s2.dies = s0.dies := h01.dies
    rw [die, hd]
    exact congrArg Die.good (s.die_setDie_same ..)
  have c3 : s3.cores = s2.cores := (keeps_raise ..).cores.trans s2.showShape_regsOnly.cores
  have g3 : SameGood s2 s3 := SameGood.trans (.of_dies s2.showShape_regsOnly.dies) (sameGood_raise ..)
  have c4 : s4.cores = s3.cores := by
    dsimp only [s4]
    split <;> rfl
  have g4 : SameGood s3 s4 := .ite (.of_dies rfl) (.refl s3)
  have c5 : s5.cores = s2.cores := (keeps_finish ..).cores.trans (c4.trans c3)
  have g5 : SameGood s2 s5 := (g3.trans g4).trans (.of_dies (dies_finish ..))
  have ended (u : State) (hc : u.cores = s2.cores) (hg : SameGood s2 u) :
      u.core (18 * d + p) = (s.core (18 * d + p)).retired ∧ (x.isGood p = true → (u.die d).isGood p = false) := by
    refine ⟨by rw [core, hc]; exact c2, fun hp => ?_⟩
    have hbit : natBits x.good p 1 = 1 := eq_of_beq hp
    have hgood : good = x.good - 2 ^ p := by
      dsimp only [good]
      rw [if_pos hp]
    rw [Die.isGood, hg.good d, g2, hgood, natBits_sub_pow hbit]
    rfl
  split
  · exact ended _ ((keeps_raise ..).cores.trans c5) (g5.trans (sameGood_raise ..))
  · exact ended _ c5 g5

/-! ### GO and DONE (R67, R87, R141, R146) -/

theorem State.coreBump_regsOnly (s : State) (pc : Nat) (f : Fld) (k : Nat) : RegsOnly s (s.coreBump pc f k) := .ite (.refl s) rfl

theorem State.coreSet_regsOnly (s : State) (pc : Nat) (f : Fld) (v : Nat) : RegsOnly s (s.coreSet pc f v) := rfl

/-- Closing a group changes its core and registers only. -/
theorem State.mem_closeGroup (s : State) (pc j gi : Nat) : (s.closeGroup pc j gi).mem = s.mem := by
  unfold closeGroup
  extract_lets c a g s1 s2 s3 s4
  have h2 : RegsOnly s1 s2 := coreBump_regsOnly ..
  have h3 : RegsOnly s1 s3 := .ite (h2.trans (coreSet_regsOnly ..)) h2
  have h4 : RegsOnly s1 s4 := .ite (h3.trans (coreSet_regsOnly ..)) h3
  exact (RegsOnly.ite (h4.trans (coreSet_regsOnly ..)) h4).mem

theorem State.mem_closeAll (s : State) (pc : Nat) : (s.closeAll pc).2.mem = s.mem := by
  unfold closeAll
  refine List.foldlRecOn (motive := fun r : Nat × State => r.2.mem = s.mem) _ _ rfl (fun r hr k _ => ?_)
  split
  · exact (mem_closeGroup ..).trans hr
  · exact hr

/-- Where no group is closed, nothing changes. -/
theorem State.closeAll_of_none {s : State} {pc : Nat} : (s.closeAll pc).1 = 0 → (s.closeAll pc).2 = s := by
  unfold closeAll
  refine List.foldlRecOn (motive := fun r : Nat × State => r.1 = 0 → r.2 = s) _ _ (fun _ => rfl) (fun r hr k _ => ?_)
  split
  · exact fun h => absurd h (by have := Nat.two_pow_pos k; omega)
  · exact hr

/-- What holds of every value listed and of the default holds of what a table reads. -/
theorem mapGet_of_forall {α : Type} {P : α → Prop} {d : Nat → α} {m : SMap α} (hd : ∀ k, P (d k)) (hm : ∀ e ∈ m, P e.2) (k : Nat) : P (mapGet d m k) := by
  induction m with
  | nil => exact hd k
  | cons e m ih =>
    unfold mapGet
    split
    · exact hm e List.mem_cons_self
    · exact ih (fun x hx => hm x (List.mem_cons_of_mem _ hx))

/-- GO leaves no slot valid. -/
theorem Core.valid_go (c : Core) (p q j k : Nat) : (((c.go p q).array j).slot k).valid = false := by
  refine mapGet_of_forall (P := fun a : ArrayState => (a.slot k).valid = false) (fun _ => rfl) (fun e he => ?_) j
  obtain ⟨⟨i, a⟩, -, rfl⟩ := List.mem_map.mp (List.mem_filter.mp he).1
  refine mapGet_of_forall (P := fun w : Slot => w.valid = false) (fun _ => rfl) (fun e he => ?_) k
  obtain ⟨⟨i, w⟩, -, rfl⟩ := List.mem_map.mp (List.mem_filter.mp he).1
  rfl

/-- Settles O19, an event at a time. -/
theorem goHaltAndDone : Obligations.GoHaltAndDone := by
  refine ⟨fun pc s hup hf hc hd hb => ⟨fun ha => ?retire, fun ha => ?start⟩, fun pc s hup => ?halt, fun lc pc s hp hdone hdr htok hopen => ?done⟩
  case retire =>
    have hgo : exec (.go pc) s = .next (s.retireCore (pcDie pc) (pc.val % 18) 1 true) := by
      change Host.Outcome.next (s.goCore pc) = _
      simp [State.goCore, hup, hf, hc, hd, hb, ha]
    obtain ⟨hcore, hgood⟩ := s.retireCore_leaves (pcDie pc) (pc.val % 18) 1 true
    rw [pcDie, Nat.div_add_mod] at hcore
    exact ⟨_, hgo, hgood, by rw [pcDie, hcore]; rfl, by rw [pcDie, hcore]; rfl⟩
  case start =>
    have hgo : exec (.go pc) s = .next ((s.closeAll pc).2.modCore pc (fun c => c.go (s.coreGet pc fSeqPcCritStart) (s.coreGet pc fSeqPcDefStart))) := by
      change Host.Outcome.next (s.goCore pc) = _
      simp [State.goCore, hup, hf, hc, hd, hb, ha]
    refine ⟨_, hgo, (State.mem_modCore ..).trans (s.mem_closeAll pc), ?_⟩
    rw [State.core_modCore_same]
    exact ⟨rfl, rfl, rfl, fun _ => rfl, rfl, rfl, Core.valid_go _ _ _⟩
  case halt =>
    refine ⟨_, congrArg Host.Outcome.next (if_pos hup), State.mem_haltLive .., fun st => ?_⟩
    rw [State.stream_haltLive]
    split
    · exact ⟨rfl, fun _ => rfl⟩
    · next h => exact ⟨Bool.not_eq_true _ ▸ h, fun h' => absurd h' h⟩
  case done =>
    have hnone := State.closeAll_of_none hopen
    refine ⟨s.modCore pc (fun c => { c with done := true }), ?_, by rw [State.core_modCore_same], rfl, rfl⟩
    change execStreamEndCheck lc s = _
    simp [execStreamEndCheck, hp, hdone, hdr, htok, hopen, hnone]

end Sys2Proof.Machine
end

section
/-! What writes to a scratchpad leave alone (R82, R83), and the page that an IRLOAD brings in (R76). -/

namespace Sys2Proof.Machine

/-! ### Scratchpad writes -/

/-- `c'` differs from `c` in its scratchpad and block checks only. -/
def SpadOnly (c c' : Core) : Prop := c' = { c with spad := c'.spad, spadChk := c'.spadChk, sideErrs := c'.sideErrs }

namespace SpadOnly

variable {c c' c'' : Core}

theorem refl (c : Core) : SpadOnly c c := rfl

theorem trans (h : SpadOnly c c') (h' : SpadOnly c' c'') : SpadOnly c c'' :=
  calc
    c'' = { c' with spad := c''.spad, spadChk := c''.spadChk, sideErrs := c''.sideErrs } := h'
    _ = { c with spad := c''.spad, spadChk := c''.spadChk, sideErrs := c''.sideErrs } :=
      congrArg (fun k : Core => { k with spad := c''.spad, spadChk := c''.spadChk, sideErrs := c''.sideErrs }) h

theorem foldl {β : Type} {f : Core → β → Core} (h : ∀ c b, SpadOnly c (f c b)) (l : List β) : ∀ c, SpadOnly c (l.foldl f c) := by
  induction l with
  | nil => exact refl
  | cons b l ih => exact fun c => (h c b).trans (ih _)

theorem token (h : SpadOnly c c') (k : Nat) : c'.token k = c.token k := by
  unfold SpadOnly at h
  rw [h]
  rfl

theorem vctx (h : SpadOnly c c') (st : Stream) : c'.vctx st = c.vctx st := by
  unfold SpadOnly at h
  rw [h]
  cases st <;> rfl

theorem inflight (h : SpadOnly c c') : c'.inflight = c.inflight := by
  unfold SpadOnly at h
  rw [h]

theorem putWord (c : Core) (w : Nat) (v : SpadBits) : SpadOnly c (c.putWord w v) := rfl

theorem putChk (pc : Nat) (c : Core) (g : Nat) (k : BitVec 16) : SpadOnly c (c.putChk pc g k) := by
  unfold Core.putChk
  extract_lets l c1
  have h1 : SpadOnly c c1 := by
    dsimp only [c1]
    split
    · exact refl c
    · exact foldl (f := fun (c : Core) i => { c with spadChk := mapSet (fun _ => none) c.spadChk i (some (sideFlip i (spadChkStored pc c i) l)) }) (fun _ _ => rfl) _ c
  exact h1.trans rfl

theorem spadWrite (pc : Nat) (c : Core) (ws : List (Nat × SpadBits)) : SpadOnly c (spadWrite pc c ws) :=
  (foldl (fun c e => putWord c e.1 e.2) ws c).trans (foldl (fun c _ => putChk pc c _ _) _ _)

theorem spadPutGran (pc : Nat) (c : Core) (g : Nat) (v : GranBits) (chk : BitVec 16) : SpadOnly c (spadPutGran pc c g v chk) :=
  ((putWord ..).trans (putWord ..)).trans (putChk ..)

/-- A merge that succeeds writes the scratchpad only. -/
theorem of_spadMerge {pc : Nat} {ws : List (Nat × SpadBits × SpadBits)} {corrs : List (Nat × Nat)} (h : spadMerge pc c ws = .ok (c', corrs)) : SpadOnly c c' := by
  unfold spadMerge at h
  dsimp only at h
  split at h
  · exact nomatch h
  · rw [← (Prod.mk.inj (Except.ok.inj h)).1]
    exact spadWrite ..

end SpadOnly

/-! ### The page of an IRLOAD -/

theorem State.keeps_memRead (s : State) (q : Requester) (g : Nat) : Keeps .access s (s.memRead q g).2 := by
  unfold memRead
  exact .ite_snd (.refl s) (.ite_snd (.refl s) (.ite_snd (.refl s) (.ite_snd (s.keeps_noteUncorr ..) ((s.keeps_flushGran g).trans (keeps_readStack ..)))))

/-- Copying a page writes the scratchpad of its core only. -/
theorem irloadCopy_spadOnly (pc lc src page n : Nat) : ∀ (i : Nat) (s : State), SpadOnly (s.core pc) ((irloadCopy pc lc src page n i s).2.2.core pc) := by
  induction n with
  | zero => exact fun _ s => .refl _
  | succ n ih =>
    intro i s
    have hread : (s.memRead (.core lc) ((src + 128 * i) / 128)).2.core pc = s.core pc := by rw [State.core, (s.keeps_memRead ..).cores, State.core]
    unfold irloadCopy
    dsimp only
    split
    · refine SpadOnly.trans ?_ (ih ..)
      rw [State.core_modCore_same, hread]
      exact .spadPutGran ..
    · exact hread ▸ ih ..

/-- A kept line changes no source of a page. -/
theorem State.irSource_withLine (s : State) (pc : Nat) (st : Stream) (l : FetchLine) (g : Nat) : (s.withLine pc st l).irSource g = s.irSource g := by
  rw [irSource, irSource]
  rfl

theorem State.coreGet_withLine (s : State) (pc : Nat) (st : Stream) (l : FetchLine) (f : Fld) : (s.withLine pc st l).coreGet pc f = s.coreGet pc f := by
  rw [coreGet, coreGet]
  rfl

/-- The stream of an IRLOAD as it goes on: the page is being loaded, and no line of it is kept. -/
def StreamCtl.loadPage (x : StreamCtl) (i : IrLoad) : StreamCtl := { x.dropPage i.page with irloads := x.irloads ++ [i] }

theorem StreamCtl.line_loadPage (x : StreamCtl) (i : IrLoad) : ∀ l ∈ (x.loadPage i).buf, l.line / 256 ≠ i.page := fun _ hl =>
  bne_iff_ne.mp (List.mem_filter.mp hl).2

/-- A page can be loaded that the region has, that the word itself does not lie in and whose source is an image. -/
theorem pageCheck_of_ok {e : QEntry} {page pages cur g a : Nat} {src : Option Nat} (hc : sqCheck e 0xFFFFFFFFFFFFFFFF0000001F = none) (hpage : page < pages)
    (hown : page ≠ cur) (hsrc : src = some a) :
    firstRefuse [sqCheck e 0xFFFFFFFFFFFFFFFF0000001F, if decide (page ≥ pages) || page == cur || src.isNone then some ⟨0x0B, g, false⟩ else none] = none := by
  rw [hc, hsrc, decide_eq_false (Nat.not_le.mpr hpage), beq_eq_false_iff_ne.mpr hown]
  rfl

/-- SQ.IRLOAD of a ready word that passes its checks is in progress, and its stream goes on. -/
theorem execSqIrload_of_ready {lc : Fin 64} {st : Stream} {tok : BitVec 16} {ops : BitVec 96} {pc a : Nat} {s : State} {e : QEntry}
    (h : SqReady lc st (mkWord 5 0x030 tok ops) pc s) (he : sqEntry s pc st (mkWord 5 0x030 tok ops) = e) (hc : sqCheck e 0xFFFFFFFFFFFFFFFF0000001F = none)
    (hpage : opf e 0 5 < s.coreGet pc fSeqIrCfgPages) (hown : opf e 0 5 ≠ e.pc / 4096) (hsrc : s.irSource (opf e 32 64) = some a)
    (hoth : ((s.core pc).stream (otherStream st)).holdsPage (opf e 0 5) = false) :
    ∃ l, exec (.sqIrload lc st tok ops) s = .next ((s.withLine pc st l).setCore pc
      (((s.actCore pc st l e.word).setStream st ((((s.core pc).stream st).keepLine l).loadPage ⟨opf e 0 5, a, e.word, e.pc⟩)).advance st (e.pc + 1))) := by
  obtain ⟨hp, hl, ⟨l, hf⟩, hm, -⟩ := h
  have hpc : e.pc = ((s.core pc).stream st).cur := congrArg QEntry.pc he.symm
  have hword : e.word = mkWord 5 0x030 tok ops := congrArg QEntry.word he.symm
  have hx : ((s.withLine pc st l).core pc).stream st = ((s.core pc).stream st).keepLine l := by rw [State.core_withLine, Core.stream_setStream_same]
  have hmet : (s.withLine pc st l).sqMet pc st e.word = true := by rw [hword, State.sqMet_withLine, hm]
  have hoth' : (((s.withLine pc st l).core pc).stream (otherStream st)).holdsPage (opf e 0 5) = false := by
    rwa [State.core_withLine, Core.stream_setStream_other]
  have hcheck := pageCheck_of_ok (g := opf e 32 64) hc hpage (hpc ▸ hown) hsrc
  refine ⟨l, (congrArg Host.Outcome.next (State.withFetched_of_word hp hl hf)).trans ?_⟩
  rw [he]
  simp only [hmet, hx, State.irSource_withLine, State.coreGet_withLine, StreamCtl.cur_keepLine, hcheck, hoth', Bool.not_true, Bool.false_eq_true, if_false]
  rw [hsrc, Core.stream_takeToken, hx]
  rfl

/-- Settles O17: what is loaded stands in the stream, and a copy writes the scratchpad only. -/
theorem instructionPageLoads : Obligations.InstructionPageLoads := by
  refine ⟨fun lc st tok ops pc a s => ?load, fun lc st pc i r s hp hi hbad hchk hroom => ?complete⟩
  case load =>
    intro e oth h hc hpage hown hsrc hoth
    obtain ⟨l, hl⟩ := execSqIrload_of_ready h rfl hc hpage hown hsrc hoth
    refine ⟨_, hl, rfl, ?_⟩
    rw [State.core_setCore_same, Core.stream_advance, Core.stream_setStream_same]
    exact ⟨congrArg (· ++ _) (StreamCtl.irloads_keepLine ..), rfl, StreamCtl.line_loadPage _ _⟩
  case complete =>
    let z := irloadCopy pc lc i.src i.page 512 0 s
    have hz : SpadOnly (s.core pc) (z.2.2.core pc) := irloadCopy_spadOnly ..
    let c := (z.2.2.core pc).setStream st { (z.2.2.core pc).stream st with irloads := r }
    obtain ⟨-, hst⟩ := State.signal_setCore (s := z.2.2) (pc := pc) lc (w := i.word) (mode := 1) (c := c)
      (fun hs => by rw [Core.token_setStream, hz.token]; exact hroom hs)
    refine ⟨_, ?_, by rw [hst st, Core.stream_setStream_same]⟩
    change execIrloadComplete lc st s = _
    simp only [execIrloadComplete, hp, hi, hbad, hchk]
    rfl

end Sys2Proof.Machine
end

section
/-! The completion of a vector word (R151, R178, R82), and what element writes change (R147, R150). -/

namespace Sys2Proof.Machine

/-! ### Completion -/

/-- A count of corrections reaches registers and records, and the time of the core's last record. -/
theorem State.noteSpad_changes (s : State) (pc lc : Nat) (corrs : List (Nat × Nat)) (nbad : Nat) :
    (s.noteSpad pc lc corrs nbad).mem = s.mem ∧ ∃ r, (s.noteSpad pc lc corrs nbad).core pc = { s.core pc with recAt := r } := by
  unfold noteSpad
  extract_lets s1 s2
  have h2 : RegsOnly s s2 := (coreBump_regsOnly ..).trans (coreBump_regsOnly ..)
  have hc : s2.core pc = s.core pc := by rw [core, h2.cores, core]
  split
  · exact ⟨h2.mem, (s.core pc).recAt, hc⟩
  · split
    · refine ⟨(keeps_raise ..).mem.trans h2.mem, some (s2.reg (pcDie pc) oDieTimebase).toNat, ?_⟩
      rw [core, (keeps_raise ..).cores]
      refine (s2.core_modCore_same ..).trans ?_
      rw [hc]
    · exact ⟨h2.mem, (s.core pc).recAt, hc⟩

/-- A store that can be merged is made. -/
theorem State.vxStore_of_merged {s : State} {pc : Nat} {ws : List (Nat × SpadBits × SpadBits)} {k : Core} {corrs : List (Nat × Nat)} (lc : Nat)
    (h : spadMerge pc (s.core pc) ws = .ok (k, corrs)) :
    ∃ u, s.vxStore pc lc ws = (none, u) ∧ u.mem = s.mem ∧ ∃ r, u.core pc = { k with recAt := r } := by
  unfold vxStore
  split
  · next he =>
    rw [List.isEmpty_iff] at he
    subst he
    obtain ⟨rfl, -⟩ := Prod.mk.inj (Except.ok.inj h)
    exact ⟨s, rfl, rfl, (s.core pc).recAt, rfl⟩
  · rw [h]
    obtain ⟨hm, r, hr⟩ := (s.setCore pc k).noteSpad_changes pc lc corrs 0
    exact ⟨_, rfl, hm, r, by rw [hr, core_setCore_same]⟩

theorem State.vxFlags_regsOnly (s : State) (pc : Nat) (w : VxWrites) : RegsOnly s (s.vxFlags pc w) := by
  unfold vxFlags
  extract_lets s1 s2
  have h1 : RegsOnly s s1 := .ite (coreSet_regsOnly ..) (.refl s)
  have h2 : RegsOnly s s2 := .ite (h1.trans (coreSet_regsOnly ..)) h1
  exact .ite h2 ((h2.trans (coreBump_regsOnly ..)).trans (coreSet_regsOnly ..))

theorem State.signal_of_ne {s : State} {w : InstrWord} {mode : Nat} (pc lc : Nat) (h : (toksOf w).smode ≠ mode) : s.signal pc lc w mode = s := if_neg h

/-- A word whose signals fit completes: it leaves, and tokens change. -/
theorem State.complete_of_fits {s : State} {pc i : Nat} {f : InFlight} (lc : Nat)
    (h : (toksOf f.ent.word).smode ≠ 0 → (s.core pc).token (toksOf f.ent.word).stok < 65535) :
    (s.complete pc lc i f).mem = s.mem ∧ ∃ ts, (s.complete pc lc i f).core pc = { (s.core pc).landed i with tokens := ts } := by
  let u := s.modCore pc (fun c => c.landed i)
  have hu : u.core pc = (s.core pc).landed i := s.core_modCore_same ..
  have fits (mode : Nat) (hm : mode ≠ 0) : (u.signal pc lc f.ent.word mode).mem = s.mem ∧
      ∃ ts, (u.signal pc lc f.ent.word mode).core pc = { (s.core pc).landed i with tokens := ts } := by
    obtain ⟨hmem, ts, hc⟩ := signal_of_fits (s := u) (pc := pc) (w := f.ent.word) (mode := mode) lc (fun he => by
      rw [hu]
      exact h (he ▸ hm))
    exact ⟨hmem, ts, by rw [hc, hu]⟩
  have ends : s.complete pc lc i f = u.signal pc lc f.ent.word 1 ∨ s.complete pc lc i f = u.signal pc lc f.ent.word 2 := by
    unfold complete
    dsimp only
    split
    · exact .inl rfl
    · by_cases h1 : (toksOf f.ent.word).smode = 1
      · exact .inl (signal_of_ne pc lc (by omega))
      · exact .inr (by rw [signal_of_ne (s := u) pc lc h1])
  rcases ends with he | he
  · exact he ▸ fits 1 (by decide)
  · exact he ▸ fits 2 (by decide)

@[simp] theorem Core.token_setVctx (c : Core) (st : Stream) (v : VCtx) (k : Nat) : (c.setVctx st v).token k = c.token k := by cases st <;> rfl

/-- The only word in flight is the oldest. -/
theorem Core.oldest_of_only {c : Core} {f : InFlight} {eng : Engine} {st : Stream} (h : c.inflight = [f]) (he : f.eng = eng) (hs : f.strm = st) :
    c.oldest eng st = some (0, f) := by
  rw [oldest, h, ← he, ← hs]
  simp [span]

/-- Completing the only word in flight without a fault: it writes its context and the scratchpad, and leaves. -/
theorem vxWordComplete_of_merged {lc : Fin 64} {st : Stream} {pc : Nat} {f : InFlight} {s : State} {k : Core} {corrs : List (Nat × Nat)}
    (hp : s.physOf lc = some pc) (hf : (s.core pc).inflight = [f]) (he : f.eng = .vx) (hs : f.strm = st)
    (hroom : (toksOf f.ent.word).smode ≠ 0 → (s.core pc).token (toksOf f.ent.word).stok < 65535)
    (hk : spadMerge pc (s.core pc) f.vx.spad = .ok (k, corrs)) :
    ∃ t, exec (.vxWordComplete lc st .none) s = .next t ∧ t.mem = s.mem ∧
      ∃ r ts, t.core pc = { ({ k with recAt := r }.setVctx st ((k.vctx st).applyWrites f.vx)).landed 0 with tokens := ts } := by
  obtain ⟨u, hu, hmem, r, hr⟩ := State.vxStore_of_merged lc hk
  let v := (u.modCore pc (fun c => c.setVctx st ((c.vctx st).applyWrites f.vx))).vxFlags pc f.vx
  have hv : v.core pc = { k with recAt := r }.setVctx st ((k.vctx st).applyWrites f.vx) := by
    rw [State.core, (State.vxFlags_regsOnly ..).cores]
    refine (State.core_modCore_same ..).trans ?_
    rw [hr]
    cases st <;> rfl
  obtain ⟨hm, ts, hts⟩ := State.complete_of_fits (s := v) (pc := pc) (i := 0) (f := f) lc (fun h0 => by
    rw [hv]
    exact (Core.token_setVctx ..).trans_lt (((SpadOnly.of_spadMerge hk).token _).trans_lt (hroom h0)))
  refine ⟨v.complete pc lc 0 f, ?_, ?_, r, ts, by rw [hts, hv]⟩
  · change execVxWordComplete lc st .none s = _
    simp only [execVxWordComplete, hp, Core.oldest_of_only hf he hs, hu]
    rfl
  · exact hm.trans ((State.vxFlags_regsOnly ..).mem.trans hmem)

/-- A word refused late leaves contexts and scratchpad, halts its stream, and gives back the token that its wait took. -/
theorem State.refuseLate_leaves (s : State) (pc lc : Nat) (st : Stream) (i : Nat) (f : InFlight) {r : Refuse} (hr : r.own = false) :
    (s.refuseLate pc lc st i f r).mem = s.mem ∧ ((s.refuseLate pc lc st i f r).core pc).vctx st = (s.core pc).vctx st ∧
      ((s.refuseLate pc lc st i f r).core pc).spad = (s.core pc).spad ∧ (((s.refuseLate pc lc st i f r).core pc).stream st).st = .halted ∧
      ((toksOf f.ent.word).wmode = 1 →
        ((s.refuseLate pc lc st i f r).core pc).token (toksOf f.ent.word).wtok = min 65535 ((s.core pc).token (toksOf f.ent.word).wtok + 1)) := by
  unfold refuseLate refuseWord
  dsimp only
  rw [if_neg (by rw [hr]; exact Bool.false_ne_true), core_halt, core_modCore_same, mem_halt, Core.vctx_halted, Core.spad_halted, Core.token_halted]
  refine ⟨rfl, ?_, ?_, Core.st_halted _ _ _ (.inr rfl), fun hw => ?_⟩
  · split <;> cases st <;> rfl
  · split <;> rfl
  · rw [if_pos hw, Core.token_setToken_same]
    rfl

end Sys2Proof.Machine
end

section
/-! Elements of a register group, and the writes of listed elements (R147, R150, R151). -/

namespace Sys2Proof.Machine

/-- Writing a field that is zero adds its value. -/
theorem natPutBits_of_zero {n lo w : Nat} (v : Nat) (h : natBits n lo w = 0) : natPutBits n lo w v = n + v % 2 ^ w * 2 ^ lo := by
  rw [natPutBits, h, Nat.zero_mul, Nat.sub_zero]

/-- Adding a value in the place of an element that is zero sets that element. -/
theorem elemAt_add {n w k : Nat} (v i : Nat) (h : elemAt n w k = 0) : elemAt (n + v % 2 ^ w * 2 ^ (w * k)) w i = if i = k then v % 2 ^ w else elemAt n w i := by
  rw [← natPutBits_of_zero v h]
  split
  · next hi => rw [hi, elemAt, natBits_put_same]
  · next hi =>
    refine natBits_put_other ?_
    rcases Nat.lt_or_gt_of_ne hi with hlt | hgt
    · exact .inl (Nat.mul_le_mul_left w hlt)
    · exact .inr (Nat.mul_le_mul_left w hgt)

theorem testBit_natBits (n lo w j : Nat) : (natBits n lo w).testBit j = (decide (j < w) && n.testBit (lo + j)) := by
  rw [natBits, Nat.testBit_mod_two_pow, Nat.testBit_shiftRight]

/-- The mask and the value of a group after one more element. -/
def elemPut (w : Nat) (a e : Nat × Nat) : Nat × Nat := (a.1 + (2 ^ w - 1) * 2 ^ (w * e.1), a.2 + e.2 % 2 ^ w * 2 ^ (w * e.1))

theorem elemWrites_eq (r w : Nat) (l : List (Nat × Nat)) : elemWrites r w l = groupWrites r (l.foldl (elemPut w) (0, 0)).1 (l.foldl (elemPut w) (0, 0)).2 := rfl

/-- The mask covers the listed elements, and the value holds theirs. -/
theorem elemAt_foldl_elemPut {w : Nat} (i : Nat) {l : List (Nat × Nat)} (hn : (l.map Prod.fst).Nodup) : ∀ {a : Nat × Nat},
    (∀ x ∈ l, elemAt a.1 w x.1 = 0 ∧ elemAt a.2 w x.1 = 0) →
    elemAt (l.foldl (elemPut w) a).1 w i = ((l.find? (fun x => x.1 == i)).elim (elemAt a.1 w i) (fun _ => 2 ^ w - 1)) ∧
      elemAt (l.foldl (elemPut w) a).2 w i = ((l.find? (fun x => x.1 == i)).elim (elemAt a.2 w i) (fun x => x.2 % 2 ^ w)) := by
  induction l with
  | nil => exact fun _ => ⟨rfl, rfl⟩
  | cons x l ih =>
    intro a hz
    rw [List.map_cons, List.nodup_cons] at hn
    obtain ⟨hx, hn⟩ := hn
    obtain ⟨hm, hv⟩ := hz x List.mem_cons_self
    have hfull : (2 ^ w - 1) % 2 ^ w = 2 ^ w - 1 := Nat.mod_eq_of_lt (Nat.sub_lt (Nat.two_pow_pos w) Nat.one_pos)
    have put (j : Nat) : elemAt (elemPut w a x).1 w j = (if j = x.1 then 2 ^ w - 1 else elemAt a.1 w j) ∧
        elemAt (elemPut w a x).2 w j = if j = x.1 then x.2 % 2 ^ w else elemAt a.2 w j := by
      have h := elemAt_add (2 ^ w - 1) j hm
      rw [hfull] at h
      exact ⟨h, elemAt_add x.2 j hv⟩
    have hz' : ∀ y ∈ l, elemAt (elemPut w a x).1 w y.1 = 0 ∧ elemAt (elemPut w a x).2 w y.1 = 0 := by
      intro y hy
      have hne : y.1 ≠ x.1 := fun h => hx (h ▸ List.mem_map_of_mem hy)
      rw [(put y.1).1, (put y.1).2, if_neg hne, if_neg hne]
      exact hz y (List.mem_cons_of_mem _ hy)
    rw [List.foldl_cons, (ih hn hz').1, (ih hn hz').2, (put i).1, (put i).2]
    by_cases hi : x.1 = i
    · have hnone : l.find? (fun x => x.1 == i) = none :=
        List.find?_eq_none.mpr (fun y hy h => hx (hi ▸ (eq_of_beq h) ▸ List.mem_map_of_mem hy))
      rw [hnone, List.find?_cons_of_pos (by simpa using hi), if_pos hi.symm, if_pos hi.symm]
      exact ⟨rfl, rfl⟩
    · rw [List.find?_cons_of_neg (by simpa using hi), if_neg (Ne.symm hi), if_neg (Ne.symm hi)]
      exact ⟨rfl, rfl⟩

/-- The write of register `i` of the group at `r`, if it is written. -/
def groupWrite (r mask val i : Nat) : Option (RegWrite 2048) :=
  if natBits mask (2048 * i) 2048 = 0 ∨ r + i ≥ 32 then none
  else some ⟨r + i, BitVec.ofNat 2048 (natBits mask (2048 * i) 2048), BitVec.ofNat 2048 (natBits val (2048 * i) 2048)⟩

theorem groupWrites_eq (r mask val : Nat) : groupWrites r mask val = (span 0 8).filterMap (groupWrite r mask val) := rfl

theorem mapGet_applyReg {n : Nat} (m : SMap (BitVec n)) (x : RegWrite n) (k : Nat) :
    mapGet (fun _ => 0) (applyReg m x) k = if k = x.idx then mergeBits (mapGet (fun _ => 0) m k) x.val x.mask else mapGet (fun _ => 0) m k := by
  rw [applyReg, mapMod, mapGet_mapSet]
  split
  · next h => rw [h]
  · rfl

theorem getLsbD_mergeBits {n : Nat} (old new mask : BitVec n) {b : Nat} (hb : b < n) :
    (mergeBits old new mask).getLsbD b = if mask.getLsbD b then new.getLsbD b else old.getLsbD b := by
  simp only [mergeBits, BitVec.getLsbD_or, BitVec.getLsbD_and, BitVec.getLsbD_not, hb, decide_true, Bool.true_and]
  cases mask.getLsbD b <;> simp

/-- A register's part of a number, bit by bit. -/
theorem testBit_part (x i : Nat) {b : Nat} (hb : b < 2048) : (natBits x (2048 * i) 2048).testBit b = x.testBit (2048 * i + b) := by
  rw [testBit_natBits, decide_eq_true hb, Bool.true_and]

/-- One write: in its register, the bits of the mask take the bits of the value. -/
theorem getLsbD_groupWrite {r mask val k b : Nat} (hk : k < 32) (hb : b < 2048) (a : Nat) (m : SMap (BitVec 2048)) :
    (mapGet (fun _ => 0) ((groupWrite r mask val a).elim m (applyReg m)) k).getLsbD b =
      if k = r + a ∧ mask.testBit (2048 * a + b) then val.testBit (2048 * a + b) else (mapGet (fun _ => 0) m k).getLsbD b := by
  unfold groupWrite
  split
  · next h =>
    refine (if_neg fun ⟨hka, hm⟩ => ?_).symm
    have hz := h.resolve_right (by omega)
    rw [← testBit_part mask a hb, hz, Nat.zero_testBit] at hm
    exact Bool.false_ne_true hm
  · rw [Option.elim_some, mapGet_applyReg]
    by_cases hka : k = r + a
    · simp only [hka, if_true, true_and, getLsbD_mergeBits _ _ _ hb, BitVec.getLsbD_ofNat, hb, decide_true, Bool.true_and, testBit_part _ a hb]
    · rw [if_neg hka, if_neg (fun h => hka h.1)]

/-- The writes of a run of registers: the bits of the mask take the bits of the value. -/
theorem getLsbD_foldl_groupWrite {r mask val k b : Nat} (hk : k < 32) (hb : b < 2048) (n : Nat) : ∀ (a : Nat) (m : SMap (BitVec 2048)),
    (mapGet (fun _ => 0) (((span a n).filterMap (groupWrite r mask val)).foldl applyReg m) k).getLsbD b =
      if r + a ≤ k ∧ k < r + a + n ∧ mask.testBit (2048 * (k - r) + b) then val.testBit (2048 * (k - r) + b)
      else (mapGet (fun _ => 0) m k).getLsbD b := by
  induction n with
  | zero => exact fun a m => (if_neg (by omega)).symm
  | succ n ih =>
    intro a m
    have hfold : ((span a (n + 1)).filterMap (groupWrite r mask val)).foldl applyReg m =
        ((span (a + 1) n).filterMap (groupWrite r mask val)).foldl applyReg ((groupWrite r mask val a).elim m (applyReg m)) := by
      rw [span, List.filterMap_cons]
      cases groupWrite r mask val a <;> rfl
    rw [hfold, ih, getLsbD_groupWrite hk hb]
    by_cases hka : k = r + a
    · subst hka
      rw [Nat.add_sub_cancel_left, if_neg (by omega)]
      congr 1
      exact propext ⟨fun ⟨_, hm⟩ => ⟨by omega, by omega, hm⟩, fun ⟨_, _, hm⟩ => ⟨rfl, hm⟩⟩
    · simp only [hka, false_and, if_false]
      congr 1
      exact propext ⟨fun ⟨h1, h2, h3⟩ => ⟨by omega, by omega, h3⟩, fun ⟨h1, h2, h3⟩ => ⟨by omega, by omega, h3⟩⟩

/-- A group of registers, bit by bit. -/
theorem VCtx.testBit_group (c : VCtx) (n : Nat) : ∀ r j, (c.group r n).testBit j = (decide (j < 2048 * n) && (c.vreg (r + j / 2048)).getLsbD (j % 2048)) := by
  induction n with
  | zero => exact fun r j => by simp [group]
  | succ n ih =>
    intro r j
    rw [group, Nat.add_comm, Nat.testBit_two_pow_mul_add _ (c.vreg r).isLt]
    split
    · next hj =>
      rw [Nat.div_eq_of_lt hj, Nat.mod_eq_of_lt hj, decide_eq_true (by omega), Bool.true_and]
      rfl
    · next hj =>
      have hidx : r + 1 + (j - 2048) / 2048 = r + j / 2048 := by omega
      have hbit : (j - 2048) % 2048 = j % 2048 := by omega
      have hin : decide (j - 2048 < 2048 * n) = decide (j < 2048 * (n + 1)) := decide_eq_decide.mpr (by omega)
      rw [ih, hidx, hbit, hin]

/-- Element writes into a group of up to eight registers, bit by bit. -/
theorem VCtx.testBit_group_vxElems (c : VCtx) {r n w : Nat} (l : List (Nat × Nat)) (hn : n ≤ 8) (hr : r + n ≤ 32) {j : Nat} (hj : j < 2048 * n) :
    ((c.applyWrites (vxElems r w l)).group r n).testBit j =
      if (l.foldl (elemPut w) (0, 0)).1.testBit j then (l.foldl (elemPut w) (0, 0)).2.testBit j else (c.group r n).testBit j := by
  have hb : j % 2048 < 2048 := Nat.mod_lt _ (by decide)
  have hw : (c.applyWrites (vxElems r w l)).vreg (r + j / 2048) =
      mapGet (fun _ => 0) (((span 0 8).filterMap (groupWrite r (l.foldl (elemPut w) (0, 0)).1 (l.foldl (elemPut w) (0, 0)).2)).foldl applyReg c.v) (r + j / 2048) := by
    change mapGet (fun _ => 0) ((elemWrites r w l).foldl applyReg c.v) _ = _
    rw [elemWrites_eq, groupWrites_eq]
  rw [testBit_group, testBit_group, hw, getLsbD_foldl_groupWrite (by omega) hb, Nat.add_sub_cancel_left, Nat.div_add_mod, decide_eq_true hj, Bool.true_and, Bool.true_and]
  have hin : r + 0 ≤ r + j / 2048 ∧ r + j / 2048 < r + 0 + 8 := by omega
  simp only [hin.1, hin.2, true_and]
  rfl

/-- After a write of listed elements, each listed element reads its value and each other reads as before. -/
theorem VCtx.elemAt_group_vxElems (c : VCtx) {r n w : Nat} {l : List (Nat × Nat)} (hn : n ≤ 8) (hr : r + n ≤ 32) (hl : (l.map Prod.fst).Nodup) {i : Nat}
    (hi : w * (i + 1) ≤ 2048 * n) :
    elemAt ((c.applyWrites (vxElems r w l)).group r n) w i = (l.find? (fun x => x.1 == i)).elim (elemAt (c.group r n) w i) (fun x => x.2 % 2 ^ w) := by
  have hz : ∀ k, elemAt 0 w k = 0 := fun k => by simp [elemAt, natBits]
  obtain ⟨hmask, hval⟩ := elemAt_foldl_elemPut i hl (a := (0, 0)) (w := w) (fun x _ => ⟨hz _, hz _⟩)
  have bits (x b : Nat) (hb : b < w) : (elemAt x w i).testBit b = x.testBit (w * i + b) := by
    rw [elemAt, testBit_natBits, decide_eq_true hb, Bool.true_and]
  refine Nat.eq_of_testBit_eq (fun b => ?_)
  by_cases hb : b < w
  · have hj : w * i + b < 2048 * n := by
      rw [Nat.mul_succ] at hi
      omega
    rw [bits _ b hb, c.testBit_group_vxElems l hn hr hj, ← bits _ b hb, ← bits _ b hb, ← bits _ b hb, hmask, hval]
    cases l.find? (fun x => x.1 == i) with
    | none => simp [hz]
    | some x => simp [hb]
  · have hlt : ∀ y, (y % 2 ^ w).testBit b = false := fun y => by rw [Nat.testBit_mod_two_pow, decide_eq_false hb, Bool.false_and]
    have hlo : ∀ y, (elemAt y w i).testBit b = false := fun y => hlt _
    rw [hlo]
    cases l.find? (fun x => x.1 == i) with
    | none => exact (hlo _).symm
    | some x => exact (hlt _).symm

/-- Settles O32: the completion, and then the writes of elements. -/
theorem vectorWordsWriteAtCompletion : Obligations.VectorWordsWriteAtCompletion := by
  refine ⟨fun lc st pc f s hp hf he hs hroom => ⟨fun k corrs hk => ?complete, ?parity⟩, fun c r n w l _ hn hr hl _ i hi => ?elements⟩
  case complete =>
    obtain ⟨t, ht, hm, r, ts, hc⟩ := vxWordComplete_of_merged hp hf he hs hroom hk
    have hspad := SpadOnly.of_spadMerge hk
    refine ⟨t, ht, hm, ?_⟩
    rw [hc]
    refine ⟨?_, ?_, ?_, ?_, ?_⟩
    · have hin : k.inflight = [f] := hspad.inflight.trans hf
      cases st <;> simp [Core.landed, Core.setVctx, hin]
    · cases st <;> rfl
    · cases st <;> rfl
    · rw [← hspad.vctx st]
      cases st <;> rfl
    · rw [← hspad.vctx]
      cases st <;> rfl
  case parity =>
    have hexec : exec (.vxWordComplete lc st .parity) s = .next (s.refuseLate pc lc st 0 f ⟨0x04, 0, false⟩) := by
      change execVxWordComplete lc st .parity s = _
      simp only [execVxWordComplete, hp, Core.oldest_of_only hf he hs]
    exact ⟨_, hexec, s.refuseLate_leaves pc lc st 0 f rfl⟩
  case elements =>
    rw [c.elemAt_group_vxElems hn hr hl hi]
    cases l.find? (fun x => x.1 == i) <;> rfl

end Sys2Proof.Machine
end

section
/-! Work on one core that leaves its queues, its tokens and its words in flight, and the issue of the matrix words (R96 to R98, R131, R133). -/

namespace Sys2Proof.Machine

/-! ### What leaves a core's words as they are -/

/-- `c'` holds the queues, the tokens and the words in flight of `c`. -/
structure Core.SameWords (c c' : Core) : Prop where
  queues : c'.queues = c.queues
  tokens : c'.tokens = c.tokens
  inflight : c'.inflight = c.inflight

namespace Core.SameWords

variable {c c' c'' : Core}

theorem refl (c : Core) : SameWords c c := ⟨rfl, rfl, rfl⟩

theorem trans (h : SameWords c c') (h' : SameWords c' c'') : SameWords c c'' :=
  ⟨h'.queues.trans h.queues, h'.tokens.trans h.tokens, h'.inflight.trans h.inflight⟩

theorem foldl {β : Type} {f : Core → β → Core} (h : ∀ c b, SameWords c (f c b)) (l : List β) : ∀ c, SameWords c (l.foldl f c) := by
  induction l with
  | nil => exact refl
  | cons b l ih => exact fun c => (h c b).trans (ih _)

theorem setArray (c : Core) (j : Nat) (a : ArrayState) : SameWords c (c.setArray j a) := ⟨rfl, rfl, rfl⟩

theorem setStream (c : Core) (st : Stream) (x : StreamCtl) : SameWords c (c.setStream st x) := by cases st <;> exact ⟨rfl, rfl, rfl⟩

theorem of_spadOnly (h : SpadOnly c c') : SameWords c c' := by
  unfold SpadOnly at h
  rw [h]
  exact ⟨rfl, rfl, rfl⟩

theorem token (h : SameWords c c') (k : Nat) : c'.token k = c.token k := by rw [Core.token, h.tokens, Core.token]

end Core.SameWords

/-- `t` has the memory of `s`, and on core `pc` its queues, tokens and words in flight. -/
structure SameWords (pc : Nat) (s t : State) : Prop where
  mem : t.mem = s.mem
  core : (s.core pc).SameWords (t.core pc)

namespace SameWords

variable {pc : Nat} {s t u : State}

theorem refl (s : State) : SameWords pc s s := ⟨rfl, .refl _⟩

theorem trans (h : SameWords pc s t) (h' : SameWords pc t u) : SameWords pc s u := ⟨h'.mem.trans h.mem, h.core.trans h'.core⟩

theorem ite {c : Prop} [Decidable c] (h : SameWords pc s t) (h' : SameWords pc s u) : SameWords pc s (if c then t else u) := by
  split
  · exact h
  · exact h'

theorem foldl {β : Type} {f : State → β → State} (h : ∀ s b, SameWords pc s (f s b)) (l : List β) : ∀ s, SameWords pc s (l.foldl f s) := by
  induction l with
  | nil => exact refl
  | cons b l ih => exact fun s => (h s b).trans (ih _)

theorem of_keeps (h : Keeps .record s t) : SameWords pc s t := ⟨h.mem, h.core pc ▸ .refl _⟩

theorem of_regsOnly (h : RegsOnly s t) : SameWords pc s t := by
  have hc : t.core pc = s.core pc := by rw [State.core, h.cores, State.core]
  exact ⟨h.mem, hc ▸ .refl _⟩

theorem setCore {c : Core} (h : (s.core pc).SameWords c) : SameWords pc s (s.setCore pc c) := ⟨rfl, (s.core_setCore_same pc c).symm ▸ h⟩

theorem modCore {f : Core → Core} (h : (s.core pc).SameWords (f (s.core pc))) : SameWords pc s (s.modCore pc f) := setCore h

end SameWords

section

variable (s : State) (pc lc : Nat)

theorem State.sameWords_coreBump (f : Fld) (k : Nat) : SameWords pc s (s.coreBump pc f k) := .of_regsOnly (s.coreBump_regsOnly ..)

theorem State.sameWords_noteSpad (corrs : List (Nat × Nat)) (nbad : Nat) : SameWords pc s (s.noteSpad pc lc corrs nbad) := by
  obtain ⟨hm, r, hc⟩ := s.noteSpad_changes pc lc corrs nbad
  exact ⟨hm, hc ▸ ⟨rfl, rfl, rfl⟩⟩

theorem State.sameWords_checkRead (c : Core) (ws : List Nat) (w : InstrWord) : SameWords pc s (s.checkRead pc lc c ws w) := by
  unfold State.checkRead
  extract_lets s1
  have h : SameWords pc s s1 := .foldl (fun s _ => .of_keeps (s.keeps_raise ..)) _ _
  exact .ite h (h.trans (sameWords_coreBump ..))

theorem State.sameWords_selectSentinel (st : Stream) (e : QEntry) (acts scs : Nat) : SameWords pc s (s.selectSentinel pc lc st e acts scs) := by
  have counted (x : StreamCtl) : SameWords pc s (s.setCore pc ((s.core pc).setStream st x)) := .setCore (.setStream ..)
  unfold State.selectSentinel
  extract_lets d c x p sel c1 n
  refine .ite (counted _) ?_
  split
  · exact .ite ((counted _).trans (.of_keeps (State.keeps_bump ..))) (counted _)
  · exact .setCore ((Core.SameWords.setStream ..).trans ⟨rfl, rfl, rfl⟩)

end

theorem sameWords_fixSlots (c : Core) (e : QEntry) : c.SameWords (fixSlots c e).1 := by
  unfold fixSlots
  refine List.foldlRecOn (motive := fun r : Core × Nat => c.SameWords r.1) _ _ (.refl c) (fun r hr j _ => ?_)
  dsimp only
  split
  · exact hr
  · exact hr.trans (.setArray ..)

theorem sameWords_exWrite (pc : Nat) (e : QEntry) (l : List (Nat × Nat)) : ∀ (w : Nat) (c : Core), c.SameWords (exWrite pc e l w c) := by
  induction l with
  | nil => exact fun _ => .refl
  | cons p l ih =>
    intro w c
    unfold exWrite
    dsimp only
    refine Core.SameWords.trans ?_ ((Core.SameWords.of_spadOnly (.spadWrite ..)).trans (ih ..))
    split
    · exact .setArray ..
    · exact .refl c

/-! ### Effects at issue -/

/-- An effect at issue on core `pc`: memory and queues stay, and so do the words in flight but for what the word issued last holds. -/
structure ActsOnLast (pc : Nat) (s u : State) : Prop where
  mem : u.mem = s.mem
  queues : (u.core pc).queues = (s.core pc).queues
  last : ∀ l f, (s.core pc).inflight = l ++ [f] →
    ∃ g : InFlight, (u.core pc).inflight = l ++ [g] ∧ g.ent = f.ent ∧ g.eng = f.eng ∧ g.strm = f.strm ∧ (f.mma.done = 0 → g.mma.done = 0)

namespace ActsOnLast

variable {pc : Nat} {s t u : State}

theorem of_sameWords (h : SameWords pc s u) : ActsOnLast pc s u :=
  ⟨h.mem, h.core.queues, fun _ f hl => ⟨f, h.core.inflight.trans hl, rfl, rfl, rfl, id⟩⟩

theorem after (h : SameWords pc s t) (h' : ActsOnLast pc t u) : ActsOnLast pc s u :=
  ⟨h'.mem.trans h.mem, h'.queues.trans h.core.queues, fun l f hl => h'.last l f (h.core.inflight.trans hl)⟩

theorem setLast {c : Core} {g : InFlight → InFlight} (h : (s.core pc).SameWords c) (hg : ∀ f, (g f).ent = f.ent ∧ (g f).eng = f.eng ∧ (g f).strm = f.strm)
    (hd : ∀ f, f.mma.done = 0 → (g f).mma.done = 0) : ActsOnLast pc s (s.setCore pc (c.mapLast g)) where
  mem := rfl
  queues := by
    rw [State.core_setCore_same, ← h.queues]
    unfold Core.mapLast
    split <;> rfl
  last l f hl := by
    have hm : (c.mapLast g).inflight = l ++ [g f] := by simp [Core.mapLast, h.inflight, hl]
    obtain ⟨he, hn, hs⟩ := hg f
    exact ⟨g f, by rw [State.core_setCore_same, hm], he, hn, hs, hd f⟩

end ActsOnLast

theorem actsOnLast_wloadAct {lc pc : Nat} {e : QEntry} {s u : State} (h : wloadAct lc s pc e = .ok u) : ActsOnLast pc s u := by
  unfold wloadAct at h
  dsimp only at h
  split at h
  · exact nomatch h
  · rw [← Except.ok.inj h]
    refine .after ((s.sameWords_noteSpad ..).trans (State.sameWords_checkRead ..)) (.setLast ?_ (fun _ => ⟨rfl, rfl, rfl⟩) (fun _ => id))
    exact (Core.SameWords.foldl (fun _ _ => .setArray ..) _ _).trans ⟨rfl, rfl, rfl⟩

theorem actsOnLast_mmaAct {lc pc : Nat} {st : Stream} {e : QEntry} {s u : State} (h : mmaAct lc st s pc e = .ok u) : ActsOnLast pc s u := by
  unfold mmaAct at h
  dsimp only at h
  split at h
  · exact nomatch h
  · split at h
    · exact nomatch h
    · rw [← Except.ok.inj h]
      refine .after ((s.sameWords_noteSpad ..).trans ((SameWords.setCore (sameWords_fixSlots ..)).trans ((State.sameWords_coreBump ..).trans
        ((State.sameWords_checkRead ..).trans (State.sameWords_selectSentinel ..))))) (.setLast (.refl _) (fun _ => ⟨rfl, rfl, rfl⟩) (fun _ _ => rfl))

theorem actsOnLast_gexportAct {lc pc : Nat} {e : QEntry} {s u : State} (h : gexportAct lc s pc e = .ok u) : ActsOnLast pc s u := by
  unfold gexportAct at h
  dsimp only at h
  split at h
  · exact nomatch h
  · rw [← Except.ok.inj h]
    exact .of_sameWords ((s.sameWords_coreBump ..).trans ((State.sameWords_noteSpad ..).trans (.modCore (sameWords_exWrite ..))))

@[simp] theorem State.cores_countIssue (s : State) (pc : Nat) (st : Stream) : (s.countIssue pc st).cores = s.cores := by
  cases st with
  | crit => rfl
  | defr => exact (s.coreBump_regsOnly ..).cores

/-- A word that may issue and is not refused has left its queue and is in flight, the last of its core, if its effect keeps to the word issued last. -/
theorem State.issueWord_in_flight {lc : Fin 64} {st : Stream} {eng : Engine} {opc : Nat} {tok : BitVec 16} {ops : BitVec 96} {pc : Nat} {e : QEntry}
    {r : List QEntry} {s u : State} {check : State → Nat → QEntry → Option Refuse} {act : State → Nat → QEntry → Except (Refuse × State) State}
    (h : IssuesNext lc st eng (mkWord eng.code opc tok ops) pc e r s) (hc : check s pc e = none)
    (ha : act (s.setCore pc (issuedCore (s.core pc) eng st e r)) pc e = .ok u) (hu : ActsOnLast pc (s.setCore pc (issuedCore (s.core pc) eng st e r)) u) :
    let t := s.issueWord lc st eng opc tok ops check act
    t.cores = u.cores ∧ t.mem = s.mem ∧ (t.core pc).queue eng st = r ∧ ∃ f ∈ (t.core pc).inflight, f.ent = e ∧ f.eng = eng ∧ f.strm = st ∧ f.mma.done = 0 := by
  intro t
  have ht : t = u.countIssue pc st := State.issueWord_of_issuesNext h hc ha
  have hcore : (s.setCore pc (issuedCore (s.core pc) eng st e r)).core pc = (s.core pc).issueHead eng st e r := s.core_setCore_same ..
  obtain ⟨g, hg, hent, heng, hstrm, hdone⟩ := hu.last (s.core pc).inflight
    ⟨eng, st, e, false, false, (((s.core pc).setQueue eng st r).takeToken e.word).issued, .none, .none, .none⟩
    (by rw [hcore]; simp only [Core.issueHead, Core.inflight_takeToken]; rfl)
  rw [ht, State.mem_countIssue, State.core_countIssue]
  refine ⟨u.cores_countIssue .., hu.mem, ?_, g, by rw [hg]; simp, hent, heng, hstrm, hdone rfl⟩
  rw [Core.queue, hu.queues, hcore]
  exact Core.queue_issueHead ..

/-- Settles O23: each effect at issue changes, of the words in flight, only what the word issued last holds. -/
theorem matrixWordsIssue : Obligations.MatrixWordsIssue := by
  intro lc st tok ops pc e r s u
  refine ⟨fun h hc ha => ?wload, fun h hc ha => ⟨_, rfl, State.issueWord_in_flight h hc ha (actsOnLast_mmaAct ha)⟩, fun h hc ha => ?gexport⟩
  case wload =>
    obtain ⟨hcores, hmem, hq, f, hf, hent, heng, hstrm, -⟩ := State.issueWord_in_flight h hc ha (actsOnLast_wloadAct ha)
    exact ⟨_, rfl, hcores, hmem, hq, f, hf, hent, heng, hstrm⟩
  case gexport =>
    obtain ⟨hcores, hmem, hq, f, hf, hent, heng, hstrm, -⟩ := State.issueWord_in_flight h hc ha (actsOnLast_gexportAct ha)
    exact ⟨_, rfl, hcores, hmem, hq, f, hf, hent, heng, hstrm⟩

end Sys2Proof.Machine
end

section
/-! The completion of the matrix words, their second pass and the release of their sources (R59, R87, R96, R97, R111, R138). -/

namespace Sys2Proof.Machine

/-! ### Arrays, slots and groups after one of them is replaced -/

theorem Core.array_setArray (c : Core) (j j' : Nat) (a : ArrayState) : (c.setArray j a).array j' = if j' = j then a else c.array j' := mapGet_mapSet ..

@[simp] theorem Core.array_setArray_same (c : Core) (j : Nat) (a : ArrayState) : (c.setArray j a).array j = a := mapGet_mapSet_same ..

@[simp] theorem ArrayState.slot_setSlot_same (a : ArrayState) (k : Nat) (v : Slot) : (a.setSlot k v).slot k = v := mapGet_mapSet_same ..

theorem ArrayState.group_setGroup (a : ArrayState) (g g' : Nat) (v : Group) : (a.setGroup g v).group g' = if g' = g then v else a.group g' := mapGet_mapSet ..

/-- What each step of a fold gives of its own element, and no later step takes away, holds of every element at the end. -/
theorem foldl_establishes {σ β : Type} {f : σ → β → σ} {P : β → σ → Prop} (hgive : ∀ s b, P b (f s b)) (hkeep : ∀ s b b', P b s → P b (f s b')) (l : List β) :
    ∀ s, ∀ b ∈ l, P b (l.foldl f s) := by
  induction l with
  | nil => exact fun _ _ h => absurd h List.not_mem_nil
  | cons a l ih =>
    intro s b hb
    rcases List.mem_cons.mp hb with rfl | hb
    · exact List.foldlRecOn (motive := P b) l f (hgive s b) (fun s hs b' _ => hkeep s b b' hs)
    · exact ih _ b hb

/-- An array's slot has been loaded. -/
def Core.slotLoaded (c : Core) (k j : Nat) : Core :=
  c.setArray j ((c.array j).setSlot k { (c.array j).slot k with valid := true, loading := false })

theorem Core.valid_slotLoaded (c : Core) (k j : Nat) : (((c.slotLoaded k j).array j).slot k).valid = true := by
  simp [Core.slotLoaded]

/-- Loading one array's slot leaves a valid one valid. -/
theorem Core.valid_slotLoaded_of_valid {c : Core} {k j : Nat} (j' : Nat) (h : ((c.array j).slot k).valid = true) :
    (((c.slotLoaded k j').array j).slot k).valid = true := by
  by_cases hj : j = j'
  · rw [hj]
    exact c.valid_slotLoaded k j'
  · rwa [Core.slotLoaded, Core.array_setArray, if_neg hj]

theorem sameWords_mmaRowsOn (c : Core) (f : InFlight) (n : Nat) : c.SameWords (mmaRowsOn c f n) := by
  unfold mmaRowsOn
  refine .foldl (fun c p => ?_) _ c
  dsimp only
  split
  · split
    · exact .setArray ..
    · exact .refl c
  · exact .setArray ..

/-- Rows that reach their groups change no token, and the only word in flight only in its count of rows. -/
theorem Core.mmaTo_of_only {c : Core} {f : InFlight} (hf : c.inflight = [f]) (n : Nat) :
    (c.mmaTo 0 n).tokens = c.tokens ∧ ∃ g, (c.mmaTo 0 n).inflight = [g] := by
  unfold Core.mmaTo
  rw [hf]
  dsimp only [List.getElem?_cons_zero]
  split
  · exact ⟨rfl, f, hf⟩
  · exact ⟨(sameWords_mmaRowsOn c f (n - f.mma.done)).tokens, _, rfl⟩

/-! ### Completion of the only word in flight -/

section Only

variable {s : State} {lc : Fin 64} {st : Stream} {pc : Nat} {f : InFlight}

/-- With nothing in flight, no zero-latency word completes. -/
theorem State.drainMx_of_idle (lc : Nat) (st : Stream) (n : Nat) (h : (s.core pc).inflight = []) : State.drainMx lc st n s pc = s := by
  cases n with
  | zero => rfl
  | succ n =>
    have ho : (s.core pc).oldest .mx st = none := by simp [Core.oldest, h]
    simp only [State.drainMx, ho]

variable (hp : s.physOf lc = some pc) (hf : (s.core pc).inflight = [f]) (he : f.eng = .mx) (hs : f.strm = st) (h2 : f.pass2 = false)
  (hroom : (toksOf f.ent.word).smode ≠ 0 → (s.core pc).token (toksOf f.ent.word).stok < 65535)
include hp hf he hs h2 hroom

/-- The only word in flight completes: it leaves, memory stays, and the arrays are as its completion gives them. -/
theorem State.drainMx_completeWord {opc : Nat} {k : State → Nat → InFlight → State} (ho : opcodeOf f.ent.word = opc) (hm : (k s pc f).mem = s.mem)
    (ht : ((k s pc f).core pc).tokens = (s.core pc).tokens) {g : InFlight} (hg : ((k s pc f).core pc).inflight = [g]) :
    let t := State.drainMx lc st 64 (s.completeWord lc st .mx [opc] k) pc
    t.mem = s.mem ∧ (t.core pc).inflight = [] ∧ ∀ j, (t.core pc).array j = ((k s pc f).core pc).array j := by
  intro t
  have hc : s.completeWord lc st .mx [opc] k = (k s pc f).complete pc lc 0 f := by
    simp only [completeWord, hp, Core.oldest_of_only hf he hs, ho, h2, List.contains_cons, beq_self_eq_true, Bool.true_or, Bool.not_false, Bool.and_self, if_true]
  obtain ⟨hmem, ts, hts⟩ := State.complete_of_fits (s := k s pc f) (pc := pc) (i := 0) (f := f) lc (fun h0 => by
    rw [Core.token, ht]
    exact hroom h0)
  have hidle : (((k s pc f).complete pc lc 0 f).core pc).inflight = [] := by
    rw [hts]
    simp [Core.landed, hg]
  have htc : t = (k s pc f).complete pc lc 0 f := by
    dsimp only [t]
    rw [hc, drainMx_of_idle lc st 64 hidle]
  rw [htc]
  exact ⟨hmem.trans hm, hidle, fun j => by rw [hts]; rfl⟩

/-! MX.WLOAD and MX.MMA -/

theorem execMxWloadComplete_of_only (ho : opcodeOf f.ent.word = 0x001) :
    ∃ t, exec (.mxWloadComplete lc st) s = .next t ∧ t.mem = s.mem ∧ (t.core pc).inflight = [] ∧
      ∀ j ∈ maskBits (mxMask f.ent) 4, (((t.core pc).array j).slot (opf f.ent 24 2)).valid = true := by
  let k (s : State) (pc : Nat) (f : InFlight) : State :=
    s.modCore pc (fun c => (maskBits (mxMask f.ent) 4).foldl (fun c j => c.slotLoaded (opf f.ent 24 2) j) c)
  have hk : SameWords pc s (k s pc f) := .modCore (.foldl (fun _ _ => .setArray ..) _ _)
  obtain ⟨hmem, hidle, harr⟩ := State.drainMx_completeWord hp hf he hs h2 hroom (k := k) ho hk.mem hk.core.tokens (hk.core.inflight.trans hf)
  refine ⟨State.drainMx lc st 64 (s.completeWord lc st .mx [0x001] k) pc, ?_, hmem, hidle, fun j hj => ?_⟩
  · change execMxWloadComplete lc st s = _
    simp only [execMxWloadComplete, hp]
    rfl
  · rw [harr, State.core_modCore_same]
    exact foldl_establishes (P := fun j c => ((Core.array c j).slot (opf f.ent 24 2)).valid = true) (fun c j => c.valid_slotLoaded _ j)
      (fun _ _ j' h => Core.valid_slotLoaded_of_valid j' h) _ _ j hj

theorem execMxMmaComplete_of_only (ho : opcodeOf f.ent.word = 0x010) :
    ∃ t, exec (.mxMmaComplete lc st none) s = .next t ∧ t.mem = s.mem ∧ (t.core pc).inflight = [] ∧
      ∀ j, (t.core pc).array j = ((s.core pc).mmaTo 0 (mmaRows f.ent)).array j := by
  let k (s : State) (pc : Nat) (f : InFlight) : State := s.modCore pc (fun c => match c.oldest .mx st with
    | some (i, _) => c.mmaTo i (mmaRows f.ent)
    | none => c)
  have hcore : (k s pc f).core pc = (s.core pc).mmaTo 0 (mmaRows f.ent) := by
    refine (State.core_modCore_same ..).trans ?_
    rw [Core.oldest_of_only hf he hs]
  obtain ⟨ht, g, hg⟩ := Core.mmaTo_of_only hf (mmaRows f.ent)
  obtain ⟨hmem, hidle, harr⟩ := State.drainMx_completeWord hp hf he hs h2 hroom (k := k) ho rfl (by rw [hcore, ht]) (hcore ▸ hg)
  refine ⟨State.drainMx lc st 64 (s.completeWord lc st .mx [0x010] k) pc, ?_, hmem, hidle, fun j => by rw [harr, hcore]⟩
  change execMxMmaComplete lc st none s = _
  simp only [execMxMmaComplete, hp]
  rfl

end Only

/-! ### MX.GEXPORT -/

/-- A group once it is closed. -/
def Group.shut (g : Group) : Group := { g with isOpen := false, closing := false }

/-- Closing a group changes, of its core, that group only. -/
theorem State.core_closeGroup (s : State) (pc j g : Nat) :
    (s.closeGroup pc j g).core pc = (s.core pc).setArray j (((s.core pc).array j).setGroup g (((s.core pc).array j).group g).shut) := by
  have hregs : RegsOnly (s.setCore pc ((s.core pc).setArray j (((s.core pc).array j).setGroup g (((s.core pc).array j).group g).shut)))
      (s.closeGroup pc j g) := by
    unfold closeGroup
    extract_lets c a x s1 s2 s3 s4
    have h2 : RegsOnly s1 s2 := coreBump_regsOnly ..
    have h3 : RegsOnly s1 s3 := .ite (h2.trans (coreSet_regsOnly ..)) h2
    have h4 : RegsOnly s1 s4 := .ite (h3.trans (coreSet_regsOnly ..)) h3
    exact .ite (h4.trans (coreSet_regsOnly ..)) h4
  rw [core, hregs.cores]
  exact s.core_setCore_same ..

theorem State.sameWords_closeGroup (s : State) (pc j g : Nat) : SameWords pc s (s.closeGroup pc j g) :=
  ⟨s.mem_closeGroup .., s.core_closeGroup .. ▸ .setArray ..⟩

/-- Is a group of a core closed? -/
def State.groupShut (s : State) (pc j g : Nat) : Prop := (((s.core pc).array j).group g).isOpen = false

/-- A group of a core is closed if it is open. -/
def State.shutGroup (s : State) (pc j g : Nat) : State := if ((s.core pc).array j |>.group g).isOpen then s.closeGroup pc j g else s

theorem State.closeGroups_eq (s : State) (pc mask first n : Nat) :
    s.closeGroups pc mask first n = (maskBits mask 4).foldl (fun s j => (span first n).foldl (fun s g => s.shutGroup pc j g) s) s := rfl

theorem State.sameWords_closeGroups (s : State) (pc mask first n : Nat) : SameWords pc s (s.closeGroups pc mask first n) :=
  .foldl (fun _ _ => .foldl (fun s _ => .ite (s.sameWords_closeGroup ..) (.refl s)) _ _) _ s

theorem State.groupShut_closeGroup (s : State) (pc j g j' g' : Nat) (h : (j' = j ∧ g' = g) ∨ s.groupShut pc j' g') : (s.closeGroup pc j g).groupShut pc j' g' := by
  unfold groupShut at *
  rw [core_closeGroup, Core.array_setArray]
  by_cases hj : j' = j
  · subst hj
    rw [if_pos rfl, ArrayState.group_setGroup]
    by_cases hg : g' = g
    · rw [if_pos hg]
      rfl
    · rw [if_neg hg]
      exact h.resolve_left (fun e => hg e.2)
  · rw [if_neg hj]
    exact h.resolve_left (fun e => hj e.1)

theorem State.groupShut_shutGroup_same (s : State) (pc j g : Nat) : (s.shutGroup pc j g).groupShut pc j g := by
  unfold shutGroup
  split
  · exact s.groupShut_closeGroup pc j g j g (.inl ⟨rfl, rfl⟩)
  · next h => exact Bool.eq_false_iff.mpr h

theorem State.groupShut_shutGroup {s : State} {pc j' g' : Nat} (j g : Nat) (h : s.groupShut pc j' g') : (s.shutGroup pc j g).groupShut pc j' g' := by
  unfold shutGroup
  split
  · exact s.groupShut_closeGroup pc j g j' g' (.inr h)
  · exact h

/-- Every group of a run is closed in every array of the mask. -/
theorem State.groupShut_closeGroups (s : State) (pc mask first n : Nat) :
    ∀ j ∈ maskBits mask 4, ∀ g ∈ span first n, (s.closeGroups pc mask first n).groupShut pc j g := by
  rw [closeGroups_eq]
  refine foldl_establishes (P := fun j s => ∀ g ∈ span first n, State.groupShut s pc j g) (fun s j => ?_) (fun s j j' h g hg => ?_) _ s
  · exact foldl_establishes (P := fun g s => State.groupShut s pc j g) (fun s g => s.groupShut_shutGroup_same pc j g)
      (fun _ _ g' h => groupShut_shutGroup j g' h) _ s
  · exact List.foldlRecOn (motive := fun s => State.groupShut s pc j g) _ _ (h g hg) (fun _ hs g' _ => groupShut_shutGroup j' g' hs)

theorem execMxGexportComplete_of_only {s : State} {lc : Fin 64} {st : Stream} {pc : Nat} {f : InFlight} (hp : s.physOf lc = some pc)
    (hf : (s.core pc).inflight = [f]) (he : f.eng = .mx) (hs : f.strm = st) (h2 : f.pass2 = false)
    (hroom : (toksOf f.ent.word).smode ≠ 0 → (s.core pc).token (toksOf f.ent.word).stok < 65535) (ho : opcodeOf f.ent.word = 0x022) (hr : f.released = false) :
    ∃ t, exec (.mxGexportComplete lc st) s = .next t ∧ t.mem = s.mem ∧ (t.core pc).inflight = [] ∧
      (opf f.ent 45 1 = 1 → ∀ j ∈ maskBits (opf f.ent 24 4) 4, ∀ i < opf f.ent 33 6, (((t.core pc).array j).group (opf f.ent 28 5 + i)).isOpen = false) := by
  have hrel : s.releaseExport pc f = if opf f.ent 45 1 = 1 then s.closeGroups pc (opf f.ent 24 4) (opf f.ent 28 5) (opf f.ent 33 6) else s := by
    simp only [State.releaseExport, hr, Bool.false_eq_true, if_false]
  have hk : SameWords pc s (s.releaseExport pc f) := hrel ▸ .ite (s.sameWords_closeGroups ..) (.refl s)
  obtain ⟨hmem, hidle, harr⟩ := State.drainMx_completeWord hp hf he hs h2 hroom (k := State.releaseExport) ho hk.mem hk.core.tokens (hk.core.inflight.trans hf)
  refine ⟨State.drainMx lc st 64 (s.completeWord lc st .mx [0x022] State.releaseExport) pc, ?_, hmem, hidle, fun hc j hj i hi => ?_⟩
  · change execMxGexportComplete lc st s = _
    simp only [execMxGexportComplete, hp]
  · rw [harr, hrel, if_pos hc]
    exact s.groupShut_closeGroups pc _ _ _ j hj _ (mem_span.mpr ⟨Nat.le_add_right .., by omega⟩)

/-! ### Release of the sources (R59) -/

theorem execSourceRelease_of_wload {s : State} {lc : Fin 64} {st : Stream} {pc : Nat} {f : InFlight} (hp : s.physOf lc = some pc)
    (hf : (s.core pc).inflight = [f]) (he : f.eng = .mx) (hs : f.strm = st) (h2 : f.pass2 = false)
    (hroom : (toksOf f.ent.word).smode ≠ 0 → (s.core pc).token (toksOf f.ent.word).stok < 65535) (ho : opcodeOf f.ent.word = 0x001)
    (hw : fld f.ent.word 124 4 = 1) (hr : f.released = false) :
    ∃ t, exec (.sourceRelease lc st .mx 0) s = .next t ∧ t.mem = s.mem ∧ (t.core pc).inflight = [{ f with released := true }] := by
  let u := s.modCore pc (fun c => { c with inflight := c.inflight.set 0 { f with released := true } })
  have hu : u.core pc = { s.core pc with inflight := [{ f with released := true }] } := by
    refine (State.core_modCore_same ..).trans ?_
    rw [hf]
    rfl
  have hearly : releasesEarly f.ent.word = true := by
    simp only [releasesEarly, hw, ho]
  obtain ⟨hm, ts, hc⟩ := State.signal_of_fits (s := u) (pc := pc) (w := f.ent.word) (mode := 2) lc (fun h => by
    rw [hu]
    exact hroom (by omega))
  refine ⟨u.signal pc lc f.ent.word 2, ?_, hm, by rw [hc, hu]⟩
  change execSourceRelease lc st .mx 0 s = _
  have hnth : (((span 0 (s.core pc).inflight.length).zip (s.core pc).inflight).filter (fun p => p.2.eng == .mx && p.2.strm == st))[0]? = some (0, f) := by
    simp [hf, span, he, hs]
  simp only [execSourceRelease, hp, hnth, hr, h2, hearly, ho, u, Nat.reduceBEq, Bool.and_false, Bool.not_true, Bool.or_self, Bool.false_eq_true, if_false]

/-! ### The second pass (R111) -/

section Second

variable {u : State} {lc : Fin 64} {st : Stream} {pc : Nat} {g : InFlight} (hp : u.physOf lc = some pc) (hg : (u.core pc).inflight = [g])
  (he : g.eng = .mx) (hs : g.strm = st) (h2 : g.pass2 = true) (hturn : (u.core pc).issueTurn .mx st = true)
include hp hg he hs h2 hturn

/-- A load that owes its second pass owes it no more. -/
theorem execMxPass2_of_wload (ho : opcodeOf g.ent.word = 0x001) :
    ∃ t, exec (.mxPass2 lc st) u = .next t ∧ t.mem = u.mem ∧ (t.core pc).inflight = [{ g with pass2 := false }] := by
  refine ⟨u.modCore pc (fun c => { c with inflight := c.inflight.set 0 { g with pass2 := false } }), ?_, rfl, ?_⟩
  · change execMxPass2 lc st u = _
    simp [execMxPass2, hp, hg, span, he, hs, h2, hturn, ho]
  · rw [State.core_modCore_same, hg]
    rfl

/-- The second pass of an MX.MMA starts with its slots copied and its operands read again. -/
theorem execMxPass2_of_mma (ho : opcodeOf g.ent.word = 0x010) (hl : slotsLost ((u.core pc).mmaTo 0 (mmaRows g.ent)) g.ent = none)
    (hr : (mmaRead pc ((u.core pc).mmaTo 0 (mmaRows g.ent)) g.ent).2.2.1 = none) :
    ∃ t c, exec (.mxPass2 lc st) u = .next t ∧ t.mem = u.mem ∧ (t.core pc).inflight = [{ g with
      pass2 := false
      mma := mmaLatch c g.ent (mmaRead pc ((u.core pc).mmaTo 0 (mmaRows g.ent)) g.ent).1 (mmaRead pc ((u.core pc).mmaTo 0 (mmaRows g.ent)) g.ent).2.1 true }] := by
  let c := (u.core pc).mmaTo 0 (mmaRows g.ent)
  let r := mmaRead pc c g.ent
  let u1 := u.modCore pc (fun c => c.mmaTo 0 (mmaRows g.ent))
  have h1 : u1.core pc = c := u.core_modCore_same ..
  obtain ⟨-, x, hx⟩ := Core.mmaTo_of_only hg (mmaRows g.ent)
  let u2 := u1.noteSpad pc lc r.2.2.2 0
  let u3 := (u2.setCore pc (fixSlots (u2.core pc) g.ent).1).checkRead pc lc c (mmaRowWords g.ent ++ mmaScaleWords g.ent) g.ent.word
  let u4 := if (fixSlots (u2.core pc) g.ent).2 = 0 then u3 else u3.coreBump pc fSpadCorrCntCount (fixSlots (u2.core pc) g.ent).2
  have h3 : SameWords pc u1 u3 := (u1.sameWords_noteSpad ..).trans ((SameWords.setCore (sameWords_fixSlots ..)).trans (State.sameWords_checkRead ..))
  have h4 : SameWords pc u1 u4 := .ite h3 (h3.trans (State.sameWords_coreBump ..))
  have hfl : (u4.core pc).inflight = [x] := h4.core.inflight.trans (h1 ▸ hx)
  refine ⟨u4.modCore pc (fun k => { k with inflight := k.inflight.set 0 { g with pass2 := false, mma := mmaLatch k g.ent r.1 r.2.1 true } }), u4.core pc,
    ?_, h4.mem, ?_⟩
  · change execMxPass2 lc st u = _
    have hfirst : ((span 0 (u.core pc).inflight.length).zip (u.core pc).inflight).find? (fun p => p.2.eng == .mx && p.2.strm == st && p.2.pass2) = some (0, g) := by
      simp [hg, span, he, hs, h2]
    simp only [execMxPass2, hp, hfirst, hturn, ho, Bool.not_true, Bool.and_false, Bool.false_eq_true, if_false, if_true]
    rw [State.core_modCore_same, hl]
    dsimp only
    rw [hr]
    rfl
  · rw [State.core_modCore_same, hfl]
    rfl

end Second

/-- Settles O24, a command at a time. -/
theorem matrixWordsComplete : Obligations.MatrixWordsComplete := by
  intro lc st pc f s hp hf he hs h2 hroom
  refine ⟨execMxWloadComplete_of_only hp hf he hs h2 hroom, execMxMmaComplete_of_only hp hf he hs h2 hroom,
    execMxGexportComplete_of_only hp hf he hs h2 hroom, execSourceRelease_of_wload hp hf he hs h2 hroom, fun u hp hg hturn => ⟨fun ho => ?load, fun ho hl hr => ?mma⟩⟩
  case load =>
    obtain ⟨t, ht, hm, hfl⟩ := execMxPass2_of_wload hp hg he hs rfl hturn ho
    exact ⟨t, ht, hm, by rw [hfl, ← h2]⟩
  case mma =>
    obtain ⟨t, c, ht, hm, hfl⟩ := execMxPass2_of_mma hp hg he hs rfl hturn ho hl hr
    exact ⟨t, _, ht, hm, hfl, rfl, rfl, rfl, rfl, rfl⟩

end Sys2Proof.Machine
end

section
/-! What marking a core for retirement leaves (R112, R361), and the control of its arrays (R108, R109, Table 3.12). -/

namespace Sys2Proof.Machine

/-! ### What a retirement leaves of memory and of the arrays -/

theorem State.mem_finish (s : State) (p : Waits → Bool) (status detail : Nat) : (s.finish p status detail).mem = s.mem :=
  ((s.keeps_finish ..).of_transport (k := .record)).mem

theorem State.mem_retireCore (s : State) (d p why : Nat) (save : Bool) : (s.retireCore d p why save).mem = s.mem := by
  unfold retireCore
  extract_lets x held good spare map s1 s2 s3 flash s4 s5
  have h1 : s1.mem = s.mem := mem_finish ..
  have h3 : s3.mem = s1.mem := (keeps_raise ..).mem.trans s2.showShape_regsOnly.mem
  have h4 : s4.mem = s3.mem := by
    dsimp only [s4]
    split <;> rfl
  have h5 : s5.mem = s.mem := (mem_finish ..).trans (h4.trans (h3.trans h1))
  split
  · exact (keeps_raise ..).mem.trans h5
  · exact h5

/-- A table whose values are changed, those that come to be the default left out, reads the changed value. -/
theorem mapGet_changed {α : Type} [DecidableEq α] {z : α} {g : α → α} {m : SMap α} {k : Nat} (hz : g z = z) (h : g (mapGet (fun _ => z) m k) ≠ z) :
    mapGet (fun _ => z) ((m.map (fun (e : Nat × α) => (e.1, g e.2))).filter (fun (e : Nat × α) => e.2 != z)) k = g (mapGet (fun _ => z) m k) := by
  induction m with
  | nil => exact absurd hz h
  | cons e m ih =>
    obtain ⟨i, v⟩ := e
    by_cases hi : i = k
    · subst hi
      have hv : g v ≠ z := by simpa [mapGet] using h
      simp [mapGet, hv]
    · have hm : mapGet (fun _ => z) ((i, v) :: m) k = mapGet (fun _ => z) m k := if_neg hi
      rw [hm] at h ⊢
      rw [← ih h]
      by_cases hv : g v = z <;> simp [mapGet, hi, hv]

/-- A retired core shows a DISABLED array's state and columns as they were. -/
theorem Core.array_retired {c : Core} {j : Nat} (h : (c.array j).st = .disabled) : c.retired.array j = (c.array j).retired :=
  mapGet_changed (g := ArrayState.retired) rfl (fun hr => by
    have hst : (c.array j).retired.st = ArrayState.reset.st := congrArg ArrayState.st hr
    exact absurd (h.symm.trans hst) (by decide))

/-- A bit that is set in a field reads as set. -/
theorem natBits_or_pow (n : Nat) {p w : Nat} (h : p < w) : natBits ((n ||| 2 ^ p) % 2 ^ w) p 1 = 1 := by
  have hb : (natBits ((n ||| 2 ^ p) % 2 ^ w) p 1).testBit 0 = true := by
    rw [testBit_natBits, Nat.add_zero, Nat.testBit_mod_two_pow, Nat.testBit_or, Nat.testBit_two_pow_self]
    simp [h]
  have hlt := natBits_lt ((n ||| 2 ^ p) % 2 ^ w) p 1
  rw [Nat.testBit_zero, decide_eq_true_eq] at hb
  omega

/-- What marking a core for retirement leaves: memory; a DISABLED array's state and columns; without a job the core is good no more, and with one it
is to be retired. -/
structure MarkedRetire (pc : Nat) (s t : State) : Prop where
  mem : t.mem = s.mem
  array : ∀ j, ((s.core pc).array j).st = .disabled →
    ((t.core pc).array j).st = .disabled ∧ ((t.core pc).array j).bad = ((s.core pc).array j).bad ∧ ((t.core pc).array j).pend = ((s.core pc).array j).pend
  retired : (s.die (pcDie pc)).isGood (pc % 18) = true → s.job.running = false → (t.die (pcDie pc)).isGood (pc % 18) = false
  marked : (s.die (pcDie pc)).isGood (pc % 18) = true → s.job.running = true →
    t.job = s.job ∧ natBits (t.getF (pcDie pc) fRetirePendCores) (pc % 18) 1 = 1

theorem State.markRetire_marked (s : State) (pc why : Nat) : MarkedRetire pc s (s.markRetire pc why) := by
  have hpc : 18 * pcDie pc + pc % 18 = pc := Nat.div_add_mod pc 18
  unfold markRetire
  dsimp only
  split
  · next hbad =>
    have hbad : (s.die (pcDie pc)).isGood (pc % 18) = false := by simpa using hbad
    exact ⟨rfl, fun _ h => ⟨h, rfl, rfl⟩, fun h => absurd (hbad.symm.trans h) (by decide), fun h => absurd (hbad.symm.trans h) (by decide)⟩
  · split
    · next hrun =>
      have hrun : s.job.running = false := by simpa using hrun
      obtain ⟨hcore, hgood⟩ := s.retireCore_leaves (pcDie pc) (pc % 18) why true
      rw [hpc] at hcore
      refine ⟨s.mem_retireCore .., fun j h => ?_, fun h _ => hgood h, fun _ h => absurd (hrun.symm.trans h) (by decide)⟩
      rw [hcore, Core.array_retired h]
      exact ⟨h, rfl, rfl⟩
    · next hrun =>
      refine ⟨rfl, fun _ h => ⟨h, rfl, rfl⟩, fun _ h => absurd h (by simpa using hrun), fun _ _ => ⟨rfl, ?_⟩⟩
      have hf : ∀ (u : State) (f : Die → Die), (u.modDie (pcDie pc) f).getF (pcDie pc) fRetirePendCores = u.getF (pcDie pc) fRetirePendCores := fun _ _ => rfl
      rw [hf, getF_setF_same _ _ _ _ (by decide)]
      exact natBits_or_pow _ (Nat.mod_lt pc (by decide))

/-! ### Array control -/

section Quiet

variable {s : State} {pc j : Nat} {idle : Bool} {f : ArrayState → ArrayState}

/-- A command to an array of a quiet core acts on the array. -/
theorem State.arrayCtl_of_quiet (hup : s.dieUp (pcDie pc) = true) (hq : (s.core pc).quiet = true) (hi : idle = true → ((s.core pc).array j).ctRunning = false) :
    s.arrayCtl pc j idle f = s.setCore pc ((s.core pc).setArray j (f ((s.core pc).array j))) := by
  have h : (s.dieUp (pcDie pc) && (s.core pc).quiet && !(idle && ((s.core pc).array j).ctRunning)) = true := by
    cases idle <;> simp_all
  exact if_pos h

/-- Where a stream is live, it changes nothing. -/
theorem State.arrayCtl_of_live (hq : (s.core pc).quiet = false) : s.arrayCtl pc j idle f = s := by
  unfold arrayCtl
  simp only [hq, Bool.and_false, Bool.false_and, Bool.false_eq_true, if_false]

end Quiet

@[simp] theorem bad_remap (a : ArrayState) : (remap a).bad = a.bad := by unfold remap; split <;> rfl

@[simp] theorem pend_remap (a : ArrayState) : (remap a).pend = a.pend := by unfold remap; split <;> rfl

/-- An array once ARR_PEND is merged into ARR_BAD. -/
def ArrayState.applied (a : ArrayState) : ArrayState := remap { a with bad := a.bad ||| a.pend, pend := 0 }

/-- The merge stands whatever is reported and whether or not the core is retired for it. -/
theorem State.applyCols_of_quiet {s : State} {pc j : Nat} (hup : s.dieUp (pcDie pc) = true) (hq : (s.core pc).quiet = true)
    (hi : ((s.core pc).array j).ctRunning = false) :
    (s.applyCols pc j).mem = s.mem ∧ (((s.applyCols pc j).core pc).array j).bad = ((s.core pc).array j).bad ||| ((s.core pc).array j).pend ∧
      (((s.applyCols pc j).core pc).array j).pend = 0 := by
  let u := s.setCore pc ((s.core pc).setArray j ((s.core pc).array j).applied)
  have hu : s.arrayCtl pc j true (fun a => remap { a with bad := a.bad ||| a.pend, pend := 0 }) = u := State.arrayCtl_of_quiet hup hq (fun _ => hi)
  have ha : (u.core pc).array j = ((s.core pc).array j).applied := by
    rw [core_setCore_same, Core.array_setArray_same]
  have merged (t : State) (hm : t.mem = u.mem) (hc : ((t.core pc).array j).bad = ((u.core pc).array j).bad ∧ ((t.core pc).array j).pend = ((u.core pc).array j).pend) :
      t.mem = s.mem ∧ ((t.core pc).array j).bad = ((s.core pc).array j).bad ||| ((s.core pc).array j).pend ∧ ((t.core pc).array j).pend = 0 := by
    rw [ha] at hc
    exact ⟨hm, hc.1.trans (bad_remap _), hc.2.trans (pend_remap _)⟩
  unfold applyCols
  rw [hu]
  extract_lets old s1 a d g s2 s3
  have h2 : s2.cores = u.cores ∧ s2.mem = u.mem := by
    dsimp only [s2]
    split <;> exact ⟨rfl, rfl⟩
  have h3 : s3.core pc = u.core pc := by
    rw [core, (keeps_raise ..).cores, h2.1, core]
  have hm3 : s3.mem = u.mem := (keeps_raise ..).mem.trans h2.2
  split
  · exact merged u rfl ⟨rfl, rfl⟩
  · split
    · next hst =>
      have hr := s3.markRetire_marked pc 1
      obtain ⟨-, hbad, hpend⟩ := hr.array j (by rw [h3]; exact hst)
      exact merged _ (hr.mem.trans hm3) (by rw [hbad, hpend, h3]; exact ⟨rfl, rfl⟩)
    · exact merged s3 hm3 (by rw [h3]; exact ⟨rfl, rfl⟩)

theorem State.applyCols_of_live {s : State} {pc j : Nat} (hq : (s.core pc).quiet = false) : s.applyCols pc j = s := by
  simp only [applyCols, arrayCtl_of_live hq, if_true]

theorem execDisable_of_quiet {s : State} {pc : Fin 72} (j : Fin 4) (hup : s.dieUp (pcDie pc) = true) (hq : (s.core pc).quiet = true) :
    exec (.disable pc j) s =
      .next ((s.setCore pc ((s.core pc).setArray j { (s.core pc).array j with st := .disabled })).markRetire pc 1) := by
  change execDisable pc j s = _
  simp only [execDisable, hup, hq, Bool.and_self, if_true, State.arrayCtl_of_quiet hup hq (fun h => absurd h Bool.false_ne_true)]

/-- A test that ends without a failing column, where no limit of quarantines is set, reports so and ends quarantine. -/
theorem State.ctestDone_of_clean {s : State} {pc j : Nat} (hrun : ((s.core pc).array j).ctRunning = true) (hlim : s.getF (pcDie pc) fRetireCfgQuarLimit = 0) :
    let a := ((s.ctestDone pc j 0 false).core pc).array j
    a.ctRunning = false ∧ a.ctDone = true ∧ a.quar = false ∧ a.ctest = 0 := by
  have h0 : ((0 : BitVec 66) = 0 ∧ (!false) = true) := ⟨rfl, rfl⟩
  unfold ctestDone
  simp only [hrun, hlim, h0, Bool.not_true, Bool.false_eq_true, if_false, if_true, and_self, bne_self_eq_false, Bool.and_false, Bool.false_and]
  rw [core_setCore_same, Core.array_setArray_same]
  exact ⟨rfl, rfl, rfl, rfl⟩

theorem State.cores_columnTestsEnd (s : State) : s.columnTestsEnd.cores = s.cores := (s.keeps_finish ..).cores

/-- Settles O25, a command at a time. -/
theorem arrayControl : Obligations.ArrayControl := by
  refine ⟨fun pc j s hup hq => ⟨?disable, fun hi => ⟨?ctest, ?apply⟩⟩, fun pc j s hq => ?live, fun pc j s hrun hlim => ?complete⟩
  case disable =>
    let u := s.setCore pc ((s.core pc).setArray j { (s.core pc).array j with st := .disabled })
    have hst : ((u.core pc).array j).st = .disabled := by
      rw [State.core_setCore_same, Core.array_setArray_same]
    have hm := u.markRetire_marked pc 1
    exact ⟨_, execDisable_of_quiet j hup hq, (hm.array j hst).1, hm.mem, fun hg => ⟨fun hr => hm.retired hg hr, fun hr => (hm.marked hg hr).2⟩⟩
  case ctest =>
    refine ⟨_, congrArg Host.Outcome.next (State.arrayCtl_of_quiet hup hq (fun _ => hi)), ?_, ?_, rfl⟩ <;>
      rw [State.core_setCore_same, Core.array_setArray_same]
  case apply =>
    obtain ⟨hmem, hbad, hpend⟩ := State.applyCols_of_quiet hup hq hi
    exact ⟨_, rfl, hbad, hpend, hmem⟩
  case live =>
    refine ⟨?_, congrArg Host.Outcome.next (State.arrayCtl_of_live hq), congrArg Host.Outcome.next (State.applyCols_of_live hq)⟩
    change execDisable pc j s = _
    simp only [execDisable, hq, Bool.and_false, Bool.false_eq_true, if_false]
  case complete =>
    refine ⟨_, rfl, ?_⟩
    rw [State.core, State.cores_columnTestsEnd]
    exact State.ctestDone_of_clean hrun hlim

end Sys2Proof.Machine
end

section
/-! What the final replies of waiting commands leave alone (R397, R406), and the commands of streams and memory (R420, R439, R444, R446, R218). -/

namespace Sys2Proof.Machine

variable {s t u : State} {c : Cmd}

/-! ### What answers leave alone -/

theorem Answers.foldl {β : Type} {f : State → β → State} (h : ∀ s b, Answers s (f s b)) (l : List β) : ∀ s, Answers s (l.foldl f s) := by
  induction l with
  | nil => exact .refl
  | cons b l ih => exact fun s => (h s b).trans (ih (f s b))

theorem Answers.bulks (h : Answers s t) : t.ctl.bulks = s.ctl.bulks := by rw [h.rest]

theorem Answers.dies (h : Answers s t) : t.dies = s.dies := by rw [h.rest]

theorem Answers.func (h : Answers s t) (id : Nat) : t.func id = s.func id := by rw [h.rest]; rfl

/-- The commands that a final reply is due to wait no more, and are answered. -/
theorem State.answers_finish (s : State) (p : Waits → Bool) (status detail : Nat) :
    Answers (s.modCtl (fun x => { x with progs := x.progs.filter (fun (g : Prog) => !p g.waits) })) (s.finish p status detail) :=
  .foldl (fun s _ => s.answers_reply ..) _ _

theorem State.progs_finish (s : State) (p : Waits → Bool) (status detail : Nat) :
    (s.finish p status detail).ctl.progs = s.ctl.progs.filter (fun g => !p g.waits) := (s.answers_finish ..).progs

theorem State.bulks_finish (s : State) (p : Waits → Bool) (status detail : Nat) : (s.finish p status detail).ctl.bulks = s.ctl.bulks := (s.answers_finish ..).bulks

theorem State.func_finish (s : State) (p : Waits → Bool) (status detail id : Nat) : (s.finish p status detail).func id = s.func id := (s.answers_finish ..).func id

theorem State.bulks_progress (s : State) (c : Cmd) (status : Nat) (w : Waits) : (s.progress c status w).ctl.bulks = s.ctl.bulks :=
  (s.answers_progress c status w).bulks

theorem State.func_progress (s : State) (c : Cmd) (status : Nat) (w : Waits) (id : Nat) : (s.progress c status w).func id = s.func id :=
  (s.answers_progress c status w).func id

theorem State.die_progress (s : State) (c : Cmd) (status : Nat) (w : Waits) (d : Nat) : (s.progress c status w).die d = s.die d := by
  rw [State.die, (s.answers_progress c status w).dies]; rfl

theorem State.dieUp_progress (s : State) (c : Cmd) (status : Nat) (w : Waits) (d : Nat) : (s.progress c status w).dieUp d = s.dieUp d := by
  rw [State.dieUp, State.die_progress, State.dieUp]

/-! ### Loads (R420, R439) -/

/-- Writing no bytes changes nothing. -/
theorem State.writeRun_nil (s : State) (r : Requester) (a : Nat) : s.writeRun r a [] = (true, s) := rfl

theorem Bulk.contents_zero (b : Bulk) : b.contents 0 = [] := rfl

/-- The completion of a load that carried no bytes forgets its stream, whatever becomes of the load. -/
theorem State.bulks_bulkDone_of_empty (s : State) {b : Bulk} (hu : b.use ∈ [.image, .layout, .firmware, .calibration]) (hl : b.length = 0) :
    (s.bulkDone b).ctl.bulks = s.ctl.bulks.filter (fun y => y.handle != b.handle) := by
  rw [bulkDone, hl, Bulk.contents_zero]
  simp only [List.mem_cons, List.not_mem_nil, or_false] at hu
  rcases hu with hu | hu | hu | hu <;> simp only [hu]
  · simp only [imageDone, writeRun_nil]
    split <;> exact bulks_finish ..
  · simp only [layoutDone]
    split
    · exact bulks_finish ..
    · split
      · exact bulks_finish ..
      · exact (bulks_finish ..).trans (((setAll_regsOnly ..).trans (setAll_regsOnly ..)).ofCtl (·.bulks))
  · rfl
  · simp only [calDone]
    split
    · exact bulks_finish ..
    · rfl

/-- The stream that a load binds. -/
def State.loadBulk (u : State) (c : Cmd) (use : StreamUse) : Bulk := ⟨u.ctl.nextBulk, leAt c.body 0 4, true, use, 0, leAt c.body 4 8, 0, 0, [], 0, 0⟩

/-- A load's stream is bound, and its command waits for it. -/
def State.loadBegun (u : State) (c : Cmd) (use : StreamUse) : State :=
  (u.bind (leAt c.body 0 4) true use 0 (leAt c.body 4 8) 0 0).2.progress c 2 (.stream u.ctl.nextBulk)

theorem State.bulks_loadBegun (u : State) (c : Cmd) (use : StreamUse) : (u.loadBegun c use).ctl.bulks = u.ctl.bulks ++ [u.loadBulk c use] := bulks_progress ..

/-- A load that meets no refusal is taken. -/
theorem State.loadTaken_startLoad (u : State) (c : Cmd) {use : StreamUse} (most : Nat) (hu : use ∈ [.image, .layout, .firmware, .calibration]) :
    LoadTaken c use most u (.next (u.startLoad c c.body use most)) := by
  intro n hn hk hmost hfree hnew
  have hstart : u.startLoad c c.body use most = if leAt c.body 4 8 = 0
      then (match (u.loadBegun c use).bulk u.ctl.nextBulk with | some x => (u.loadBegun c use).bulkDone x | none => u.loadBegun c use)
      else u.loadBegun c use := by
    simp only [startLoad, hn, hk, hfree, Nat.not_lt.mpr hmost, bne_self_eq_false, Bool.not_true, Bool.false_eq_true, if_false]
    rfl
  refine ⟨_, rfl, fun h0 y hy => ?_, fun h0 => ?_⟩
  · have hfind : (u.loadBegun c use).bulk u.ctl.nextBulk = some (u.loadBulk c use) := by
      rw [bulk, bulks_loadBegun, List.find?_append, List.find?_eq_none.mpr (fun y hy => by simpa using hnew y hy)]
      simp [loadBulk]
    rw [hstart, if_pos h0, hfind] at hy
    rw [bulks_bulkDone_of_empty _ hu h0] at hy
    simpa [loadBulk] using (List.mem_filter.mp hy).2
  · rw [hstart, if_neg h0]
    exact ⟨mem_progress .., job_progress .., progs_progress .., bulks_loadBegun ..⟩

theorem execLoadImage_taken (h : Serves s 0x0401 c u) (hrun : u.job.running = false) : LoadTaken c .image stackBytes u (exec .loadImage s) := by
  have he : exec .loadImage s = .next (u.startLoad c c.body .image stackBytes) :=
    congrArg Host.Outcome.next ((State.serve_of_serves h).trans (by simp only [hrun, Bool.false_eq_true, if_false]))
  exact he ▸ u.loadTaken_startLoad c _ (by decide)

theorem execLoadLayout_taken (h : Serves s 0x0405 c u) (hb : u.layoutBusy = false) : LoadTaken c .layout stackBytes u (exec .loadLayout s) := by
  have he : exec .loadLayout s = .next (u.startLoad c c.body .layout stackBytes) :=
    congrArg Host.Outcome.next ((State.serve_of_serves h).trans (by simp only [hb, Bool.false_eq_true, if_false]))
  exact he ▸ u.loadTaken_startLoad c _ (by decide)

theorem execFwStage_taken (h : Serves s 0x0801 c u) (hon : u.getF common fFwUpdStatusOnB = 0) (hc : u.flag common fFwUpdStatusCommitting = false)
    (hp : u.flash.present[1]? = some true) : LoadTaken c .firmware (2 ^ 25) u (exec .fwStage s) := by
  have he : exec .fwStage s = .next (u.startLoad c c.body .firmware (2 ^ 25)) :=
    congrArg Host.Outcome.next ((State.serve_of_serves h).trans (by
      simp only [hon, hc, hp, Option.getD_some, ne_eq, not_true_eq_false, Bool.false_eq_true, Bool.true_eq_false, or_self, if_false]))
  exact he ▸ u.loadTaken_startLoad c _ (by decide)

theorem execCalWrite_taken (h : Serves s 0x0804 c u) : LoadTaken c .calibration 262144 u (exec .calWrite s) := by
  have he : exec .calWrite s = .next (u.startLoad c c.body .calibration 262144) := congrArg Host.Outcome.next (State.serve_of_serves h)
  exact he ▸ u.loadTaken_startLoad c _ (by decide)

/-! ### Streams (R420) -/

/-- The state in which STREAM_OPEN has bound its stream and answered. -/
def State.streamOpened (u : State) (c : Cmd) (n : Conn) : State :=
  (u.bind (leAt c.body 0 4) (n.kind == 2) .user (leAt c.body 8 8) (leAt c.body 16 8) (leAt c.body 4 4) (leAt c.body 24 4)).2.replyOk c (leBytes u.ctl.nextBulk 4)

/-- STREAM_OPEN with operands in range binds the stream and answers its handle; an EGRESS stream is read and queued at once. -/
theorem execStreamOpen_of_taken {n : Conn} (h : Serves s 0x0501 c u) (hn : u.conn (leAt c.body 0 4) = some n) (hk : 2 ≤ n.kind) (hz : leAt c.body 28 4 = 0)
    (hctr : leAt c.body 4 4 < 2 ^ 18) (hl : leAt c.body 16 8 % 128 = 0) (hl0 : leAt c.body 16 8 ≠ 0) (ha : leAt c.body 8 8 % 128 = 0)
    (hrun : u.userRun (leAt c.body 8 8) (leAt c.body 16 8) false = true) (hfree : ∀ x ∈ u.ctl.bulks, x.conn ≠ leAt c.body 0 4) :
    exec .streamOpen s = .next (
      if n.kind = 2 then u.streamOpened c n
      else match (u.streamOpened c n).egressSegs (leAt c.body 8 8) (leAt c.body 16 8) with
        | (none, s) => s.resetConn n 4
        | (some l, s) => s.queueSegs (leAt c.body 0 4) l) := by
  refine congrArg Host.Outcome.next ((State.serve_of_serves h).trans ?_)
  have hany : u.ctl.bulks.any (fun x => x.conn == leAt c.body 0 4) = false := by
    simpa using hfree
  simp only [hn, hz, hl, hl0, ha, hrun, hany, Nat.not_lt.mpr hk, Nat.not_le.mpr hctr, ne_eq, not_true_eq_false, Bool.true_eq_false, Bool.false_eq_true,
    or_self, if_false]
  rfl

/-- Closing an INGEST stream answers the bytes it took and their CRC. -/
theorem execStreamClose_of_ingest {x : Bulk} (h : Serves s 0x0502 c u) (hx : u.bulk (leAt c.body 0 4) = some x) (hu : x.use = .user) (hi : x.ingest = true) :
    exec .streamClose s = .next ((u.dropBulk x.handle).replyOk c
      (leBytes x.sent 8 ++ leBytes (crc32c ((x.parts.mergeSort (fun p q => decide (p.1 ≤ q.1))).flatMap Prod.snd)).toNat 4)) := by
  refine congrArg Host.Outcome.next ((State.serve_of_serves h).trans ?_)
  simp only [hx, hu, hi, ne_eq, not_true_eq_false, if_false, if_true]

/-- Closing an EGRESS stream answers the bytes that have left its queue and their CRC. -/
theorem execStreamClose_of_egress {x : Bulk} {n : Conn} {bs : List Byte} {w : State} (h : Serves s 0x0502 c u) (hx : u.bulk (leAt c.body 0 4) = some x)
    (hu : x.use = .user) (hi : x.ingest = false) (hn : u.conn x.conn = some n)
    (hr : u.readRun u.jas x.addr (x.length - (n.queue.map (fun g => g.data.length)).foldl (· + ·) 0) = (some bs, w)) :
    exec .streamClose s = .next ((w.dropBulk x.handle).replyOk c
      (leBytes (x.length - (n.queue.map (fun g => g.data.length)).foldl (· + ·) 0) 8 ++ leBytes (crc32c bs).toNat 4)) := by
  refine congrArg Host.Outcome.next ((State.serve_of_serves h).trans ?_)
  simp only [hx, hu, hi, hn, hr, ne_eq, not_true_eq_false, Bool.false_eq_true, if_false]

/-- STREAM_NOTIFY sends one INC to the stream's counter. -/
theorem execStreamNotify_of_due {handle : BitVec 32} {b : Bulk} (hb : s.bulk handle.toNat = some b) (hg : b.ngr ≠ 0) (hi : b.ingest = true)
    (hd : b.notified < b.prefixBytes / 128 / b.ngr) :
    exec (.streamNotify handle) s = .next ((s.setBulk { b with notified := b.notified + 1 }).berylSend (b.nctr / 65536)
      ⟨if b.nctr / 65536 = s.lead then 23 else diePort (b.nctr / 65536) s.lead, .inc, b.nctr % 65536, 1, .unit s.lead⟩) := by
  refine congrArg Host.Outcome.next ?_
  simp only [hb, hg, hi, Nat.not_le.mpr hd, Bool.true_eq_false, or_self, if_false]

/-! ### Memory by command (R218) -/

theorem execMemRead_of_read {bs : List Byte} {w : State} (h : Serves s 0x0503 c u) (ha : leAt c.body 0 8 % 128 = 0) (hs : leAt c.body 0 8 + leAt c.body 8 4 ≤ stackBytes)
    (hn : leAt c.body 8 4 % 128 = 0) (hn0 : leAt c.body 8 4 ≠ 0) (hmost : leAt c.body 8 4 ≤ 32768)
    (hr : u.readRun u.jas (leAt c.body 0 8) (leAt c.body 8 4) = (some bs, w)) : exec .memRead s = .next (w.replyOk c bs) := by
  refine congrArg Host.Outcome.next ((State.serve_of_serves h).trans ?_)
  simp only [ha, hn, hn0, hr, Nat.not_lt.mpr hs, Nat.not_lt.mpr hmost, ne_eq, not_true_eq_false, or_self, if_false]

/-- USER granules lie within the stacks. -/
theorem State.le_stackBytes_of_userRun {a n : Nat} {lost : Bool} (h : u.userRun a n lost = true) : a + n ≤ stackBytes := by
  rw [userRun, Bool.and_eq_true] at h
  exact of_decide_eq_true h.1

theorem execMemWrite_of_written {w : State} (h : Serves s 0x0504 c u) (ha : leAt c.body 0 8 % 128 = 0)
    (hrun : u.userRun (leAt c.body 0 8) (c.body.length - 8) true = true) (hw : u.writeRun u.jas (leAt c.body 0 8) (c.body.drop 8) = (true, w)) :
    exec .memWrite s = .next (w.replyOk c []) := by
  refine congrArg Host.Outcome.next ((State.serve_of_serves h).trans ?_)
  simp only [ha, hw, hrun, List.length_drop, Nat.not_lt.mpr (State.le_stackBytes_of_userRun hrun), ne_eq, not_true_eq_false, or_self, Bool.not_true,
    Bool.false_eq_true, if_false]

theorem execRegionCmd_of_taken (h : Serves s 0x0505 c u) (ho : leAt c.body 4 1 ≤ 3) (hc : leAt c.body 5 1 ≤ 3)
    (hbad : u.regionBad (leAt c.body 4 1) (leAt c.body 0 2) (leAt c.body 2 2) = false) :
    exec .regionCmd s = .next ((u.regionStart .command (leAt c.body 4 1) (leAt c.body 0 2) (leAt c.body 2 2) (leAt c.body 5 1)).progress c 2
      (.region (leAt c.body 4 1) (leAt c.body 0 2) (leAt c.body 2 2) (leAt c.body 5 1))) := by
  refine congrArg Host.Outcome.next ((State.serve_of_serves h).trans ?_)
  simp only [hbad, Nat.not_lt.mpr ho, Nat.not_lt.mpr hc, Bool.false_eq_true, if_false]

end Sys2Proof.Machine
end

section
/-! RUN_SELFTEST (R109, R212) and the activation of firmware (R447). -/

namespace Sys2Proof.Machine

variable {s t u : State} {c : Cmd}

/-! ### Self-tests -/

/-- Among the dies, cores and arrays, `t` differs from `s` in column tests that have begun. -/
structure TestsBegun (s t : State) : Prop where
  mem : t.mem = s.mem
  dies : t.dies = s.dies
  quiet : ∀ pc, (t.core pc).quiet = (s.core pc).quiet
  st : ∀ pc j, ((t.core pc).array j).st = ((s.core pc).array j).st
  running : ∀ pc j, ((s.core pc).array j).ctRunning = true → ((t.core pc).array j).ctRunning = true

namespace TestsBegun

theorem refl (s : State) : TestsBegun s s := ⟨rfl, rfl, fun _ => rfl, fun _ _ => rfl, fun _ _ h => h⟩

theorem trans (h : TestsBegun s t) (h' : TestsBegun t u) : TestsBegun s u where
  mem := h'.mem.trans h.mem
  dies := h'.dies.trans h.dies
  quiet pc := (h'.quiet pc).trans (h.quiet pc)
  st pc j := (h'.st pc j).trans (h.st pc j)
  running pc j hr := h'.running pc j (h.running pc j hr)

theorem foldl {β : Type} {f : State → β → State} (h : ∀ s b, TestsBegun s (f s b)) (l : List β) : ∀ s, TestsBegun s (l.foldl f s) := by
  induction l with
  | nil => exact refl
  | cons b l ih => exact fun s => (h s b).trans (ih (f s b))

theorem of_cores (hm : t.mem = s.mem) (hd : t.dies = s.dies) (hc : t.cores = s.cores) : TestsBegun s t := by
  have hcore : ∀ pc, t.core pc = s.core pc := fun pc => by rw [State.core, hc, State.core]
  exact ⟨hm, hd, fun pc => by rw [hcore], fun pc j => by rw [hcore], fun pc j h => by rwa [hcore]⟩

end TestsBegun

/-- An array whose column test runs. -/
def ArrayState.testing (a : ArrayState) : ArrayState := { a with ctRunning := true, ctDone := false }

/-- RUN_SELFTEST begins the column test of an array in service. -/
def State.testArray (pc : Nat) (s : State) (j : Nat) : State :=
  if ((s.core pc).array j).st = .disabled then s else s.arrayCtl pc j true ArrayState.testing

theorem State.testsBegun_setCore (s : State) (pc j : Nat) : TestsBegun s (s.setCore pc ((s.core pc).setArray j ((s.core pc).array j).testing)) where
  mem := rfl
  dies := rfl
  quiet pc' := by
    rw [core_setCore]
    split
    · next h => subst h; rfl
    · rfl
  st pc' j' := by
    rw [core_setCore]
    split
    · next h =>
      subst h
      rw [Core.array_setArray]
      split
      · next h => subst h; rfl
      · rfl
    · rfl
  running pc' j' hr := by
    rw [core_setCore]
    split
    · next h =>
      subst h
      rw [Core.array_setArray]
      split
      · rfl
      · exact hr
    · exact hr

theorem State.testsBegun_testArray (pc : Nat) (s : State) (j : Nat) : TestsBegun s (s.testArray pc j) := by
  unfold testArray arrayCtl
  dsimp only
  split
  · exact .refl s
  · split
    · exact s.testsBegun_setCore pc j
    · exact .refl s

/-- The column test of an array runs if the array is in service and its core quiet. -/
def State.TestRuns (pc : Nat) (j : Nat) (s : State) : Prop :=
  s.dieUp (pcDie pc) = true → (s.core pc).quiet = true → ((s.core pc).array j).st ≠ .disabled → ((s.core pc).array j).ctRunning = true

theorem State.TestRuns.testsBegun {pc j : Nat} (h : s.TestRuns pc j) (hb : TestsBegun s t) : t.TestRuns pc j := fun hup hq hst => by
  rw [dieUp, die, hb.dies] at hup
  exact hb.running pc j (h hup (hb.quiet pc ▸ hq) (hb.st pc j ▸ hst))

theorem State.testRuns_testArray (pc : Nat) (s : State) (j : Nat) : (s.testArray pc j).TestRuns pc j := by
  by_cases hst : ((s.core pc).array j).st = .disabled
  · exact fun _ _ h => absurd ((s.testsBegun_testArray pc j).st pc j ▸ hst) h
  · intro hup hq _
    have hb := s.testsBegun_testArray pc j
    rw [dieUp, die, hb.dies] at hup
    rw [hb.quiet] at hq
    cases hr : ((s.core pc).array j).ctRunning with
    | true => exact hb.running pc j hr
    | false =>
      rw [testArray, if_neg hst, arrayCtl_of_quiet hup hq (fun _ => hr), core_setCore_same, Core.array_setArray_same]
      rfl

/-- The column tests of all arrays of a list of cores. -/
def State.testCores (s : State) (pcs : List Nat) : State := pcs.foldl (fun (s : State) pc => (span 0 4).foldl (State.testArray pc) s) s

theorem State.testsBegun_testCores (s : State) (pcs : List Nat) : TestsBegun s (s.testCores pcs) :=
  .foldl (fun s pc => .foldl (fun s j => s.testsBegun_testArray pc j) _ s) pcs s

theorem State.testRuns_testCores (s : State) {pcs : List Nat} {pc j : Nat} (hpc : pc ∈ pcs) (hj : j < 4) : (s.testCores pcs).TestRuns pc j := by
  refine foldl_establishes (P := fun pc s => ∀ j ∈ span 0 4, State.TestRuns pc j s) (fun s pc => ?_) (fun s pc pc' h j hj => ?_) pcs s pc hpc j
    (mem_span.mpr ⟨Nat.zero_le j, by omega⟩)
  · exact foldl_establishes (P := State.TestRuns pc) (fun s j => s.testRuns_testArray pc j) (fun s _ j' h => h.testsBegun (s.testsBegun_testArray pc j')) _ s
  · exact (h j hj).testsBegun (.foldl (fun s j => s.testsBegun_testArray pc' j) _ s)

/-- The good cores of the dies of a mask. -/
def State.coresOf (s : State) (mask : Nat) : List Nat := (maskBits mask 4).flatMap (fun d => (s.die d).goodCores.map (fun p => 18 * d + p))

/-- The command once it has been answered. -/
def State.selftestBegun (u : State) (c : Cmd) (kind : Nat) : State := u.progress c 2 (.selftest (leAt c.body 0 1) kind)

section Selftest

variable (h : Serves s 0x0705 c u) (hm : leAt c.body 0 1 ≠ 0) (hm16 : leAt c.body 0 1 < 16) (hrun : u.job.running = false)
  (hup : ∀ d ∈ maskBits (leAt c.body 0 1) 4, u.dieUp d = true)

include h hm hm16 hrun hup

theorem execRunSelftest_of_patrol (hk : leAt c.body 1 1 = 1) :
    exec .runSelftest s = .next ((u.selftestBegun c 1).setIn (maskBits (leAt c.body 0 1) 4) fMcScrubStatusPosition 0) := by
  refine congrArg Host.Outcome.next ((State.serve_of_serves h).trans ?_)
  simp only [hm, Nat.not_le.mpr hm16, hk, hrun, List.all_eq_true.mpr hup, or_self, Nat.lt_irrefl, Bool.not_true, Bool.false_eq_true, if_false, if_true]
  rfl

theorem execRunSelftest_of_columns (hk : leAt c.body 1 1 = 0) :
    exec .runSelftest s = .next ((u.selftestBegun c 0).testCores ((u.selftestBegun c 0).coresOf (leAt c.body 0 1))).columnTestsEnd := by
  refine congrArg Host.Outcome.next ((State.serve_of_serves h).trans ?_)
  simp only [hm, Nat.not_le.mpr hm16, hk, hrun, List.all_eq_true.mpr hup, or_self, Nat.not_lt_zero, gt_iff_lt, Bool.not_true, Bool.false_eq_true, if_false,
    zero_ne_one]
  rfl

end Selftest

theorem State.mem_coresOf {mask d p : Nat} (hd : d ∈ maskBits mask 4) (hp : p ∈ (s.die d).goodCores) : 18 * d + p ∈ s.coresOf mask :=
  List.mem_flatMap.mpr ⟨d, hd, List.mem_map.mpr ⟨p, hp, rfl⟩⟩

/-- The column tests of the good cores of running dies run in every quiet core. -/
theorem State.running_testCores (hv : TestsBegun u s) {mask d p j : Nat} (hup : u.dieUp d = true) (hd : d ∈ maskBits mask 4) (hp : p ∈ (u.die d).goodCores) (hj : j < 4)
    (hq : (u.core (18 * d + p)).quiet = true) (hst : ((u.core (18 * d + p)).array j).st ≠ .disabled) :
    (((s.testCores (s.coresOf mask)).core (18 * d + p)).array j).ctRunning = true := by
  have hb : TestsBegun u (s.testCores (s.coresOf mask)) := hv.trans (s.testsBegun_testCores _)
  have hp18 : p < 18 := by simpa using (mem_span.mp (List.mem_filter.mp hp).1).2
  have hpc : pcDie (18 * d + p) = d := by unfold pcDie; omega
  have hmem : 18 * d + p ∈ s.coresOf mask := mem_coresOf hd (by rw [die, hv.dies]; exact hp)
  refine s.testRuns_testCores hmem hj ?_ (hb.quiet _ ▸ hq) (hb.st _ _ ▸ hst)
  rw [hpc, dieUp, die, hb.dies]
  exact hup

theorem State.testsBegun_selftestBegun (u : State) (c : Cmd) (kind : Nat) : TestsBegun u (u.selftestBegun c kind) :=
  .of_cores (mem_progress ..) (u.answers_progress ..).dies (cores_progress ..)

end Sys2Proof.Machine
end

section
/-! What the reset of a die leaves: how the die is away (R391, R217, R388), and for a port die the status of the firmware's activation (R447). -/

namespace Sys2Proof.Machine

variable {s t u : State} {c : Cmd}

/-! ### How a die that was reset is away -/

/-- A die is away as `x` says. -/
def State.DieIs (d : Nat) (x : DieSt) (s : State) : Prop := (s.die d).st = x

section DieIs

variable {d : Nat} {x : DieSt}

theorem State.DieIs.of_dies (h : s.DieIs d x) (hd : t.dies = s.dies) : t.DieIs d x := by
  rw [DieIs, die, hd]
  exact h

theorem State.DieIs.modDie (h : s.DieIs d x) (d' : Nat) {f : Die → Die} (hf : ∀ y, (f y).st = y.st) : (s.modDie d' f).DieIs d x := by
  rw [DieIs, State.modDie, die_setDie]
  split
  · next hd => subst hd; exact (hf _).trans h
  · exact h

theorem State.DieIs.foldl {β : Type} {f : State → β → State} (hf : ∀ s b, State.DieIs d x s → State.DieIs d x (f s b)) (h : s.DieIs d x) (l : List β) :
    (l.foldl f s).DieIs d x :=
  List.foldlRecOn (motive := State.DieIs d x) l f h (fun s hs b _ => hf s b hs)

/-- Whatever else a reset does, the die is away as it says. -/
theorem State.dieIs_clearDie (s : State) (d : Nat) (x : DieSt) : (s.clearDie d x).DieIs d x := by
  unfold clearDie
  extract_lets lead myCore myPort swept s1 reset s2 mem pwr s3 core s4 s5 s6 pwr'
  have h3 : s3.DieIs d x := congrArg Die.st (mapGet_mapSet_same ..)
  clear_value s3
  have h4 : s4.DieIs d x := by
    dsimp only [s4]
    split
    · exact h3.foldl (fun s pc h => h.of_dies (t := s.modCore pc _) rfl) _
    · exact h3
  clear_value s4
  have h5 : s5.DieIs d x := by
    dsimp only [s5]
    split
    · exact h4
    · refine h4.foldl (fun s e h => ?_) _
      split
      · exact (h.of_dies (t := s.setReg _ oD2dAdmit 0) rfl).modDie _ (fun _ => rfl)
      · exact h
  clear_value s5
  have h6 : s6.DieIs d x := h5.foldl (fun s k h => h.of_dies (t := (s.setF d _ 1).setF d _ 1) rfl) _
  clear_value s6
  split
  · exact h6.of_dies rfl
  · exact h6

end DieIs

theorem State.st_portReset {d : Nat} (h : s.dieUp d = true) : ((s.portReset d).die d).st = .lostWarm := by
  rw [portReset, if_pos h]
  exact s.dieIs_clearDie d .lostWarm

theorem State.st_warmReset {d : Nat} (h : s.dieUp d = true) : ((s.warmReset d).die d).st = .lostWarm := by
  simp only [warmReset, h, Bool.not_true, Bool.false_eq_true, if_false]
  exact dieIs_clearDie _ d .lostWarm

theorem State.st_of_dieUp {d : Nat} (h : s.dieUp d = true) : (s.die d).st = .up := by simpa [dieUp] using h

theorem State.st_coldLoss {d : Nat} (h : s.dieUp d = true) : ((s.coldLoss d).die d).st = .lostCold := by
  simp only [coldLoss, st_of_dieUp h, reduceCtorEq, or_self, if_false]
  exact (dieIs_clearDie _ d .lostCold).of_dies rfl

theorem execDieReset_of_taken (h : Serves s 0x0906 c u) (hd : leAt c.body 0 1 ≤ 5) (hl : leAt c.body 0 1 ≠ u.lead) (hup : u.dieUp (leAt c.body 0 1) = true)
    (hm : leAt c.body 1 1 ≤ 1) :
    exec .dieReset s = .next (
      let v := u.progress c 2 (.dieReset (leAt c.body 0 1))
      if leAt c.body 0 1 ≥ 4 then v.portReset (leAt c.body 0 1) else if leAt c.body 1 1 = 0 then v.warmReset (leAt c.body 0 1) else v.coldLoss (leAt c.body 0 1)) := by
  refine congrArg Host.Outcome.next ((State.serve_of_serves h).trans ?_)
  simp only [Nat.not_lt.mpr hd, Nat.not_lt.mpr hm, hl, State.st_of_dieUp hup, reduceCtorEq, if_false]

/-- DIE_RESET leaves a compute die lost cold where it asks for that, and any other die lost warm. -/
theorem execDieReset_resets (h : Serves s 0x0906 c u) (hd : leAt c.body 0 1 ≤ 5) (hl : leAt c.body 0 1 ≠ u.lead) (hup : u.dieUp (leAt c.body 0 1) = true)
    (hm : leAt c.body 1 1 ≤ 1) :
    ∃ t, exec .dieReset s = .next t ∧ (t.die (leAt c.body 0 1)).st = if leAt c.body 0 1 < 4 ∧ leAt c.body 1 1 = 1 then .lostCold else .lostWarm := by
  refine ⟨_, execDieReset_of_taken h hd hl hup hm, ?_⟩
  have hv : (u.progress c 2 (.dieReset (leAt c.body 0 1))).dieUp (leAt c.body 0 1) = true := (State.dieUp_progress ..).trans hup
  dsimp only
  split
  · next h4 =>
    rw [if_neg (fun hc => absurd hc.1 (Nat.not_lt.mpr h4))]
    exact State.st_portReset hv
  · split
    · next h0 =>
      rw [if_neg (fun hc => absurd hc.2 (by omega))]
      exact State.st_warmReset hv
    · rw [if_pos ⟨by omega, by omega⟩]
      exact State.st_coldLoss hv

/-! ### The status of the firmware's activation -/

/-- FW_UPD_STATUS stands. -/
def FwStands (s t : State) : Prop := t.reg common oFwUpdStatus = s.reg common oFwUpdStatus

namespace FwStands

theorem refl (s : State) : FwStands s s := rfl

theorem trans (h : FwStands s t) (h' : FwStands t u) : FwStands s u := Eq.trans h' h

theorem ite {p : Prop} [Decidable p] (h : FwStands s t) (h' : FwStands s u) : FwStands s (if p then t else u) := by
  split
  · exact h
  · exact h'

theorem foldl {β : Type} {f : State → β → State} (h : ∀ s b, FwStands s (f s b)) (l : List β) : ∀ s, FwStands s (l.foldl f s) := by
  induction l with
  | nil => exact refl
  | cons b l ih => exact fun s => (h s b).trans (ih (f s b))

theorem of_regs (h : t.regs = s.regs) : FwStands s t := by rw [FwStands, State.reg, h, State.reg]

theorem of_answers (h : Answers s t) : FwStands s t := h.reg common oFwUpdStatus (by decide) (by decide)

theorem getF (h : FwStands s t) (f : Fld) (hf : f.off = oFwUpdStatus := by rfl) : t.getF common f = s.getF common f := by
  rw [State.getF, hf, h, State.getF, hf]

end FwStands

namespace State

variable (s : State)

theorem fwStands_setReg (d off : Nat) (v : BitVec 64) (h : off < 0x1000000 ∧ off ≠ oFwUpdStatus := by decide) : FwStands s (s.setReg d off v) := by
  refine reg_setReg_other s v ?_
  obtain ⟨hlt, hne⟩ := h
  have : oFwUpdStatus < 0x1000000 := by decide
  unfold regKey
  omega

theorem fwStands_setF (d : Nat) (f : Fld) (v : Nat) (h : f.off < 0x1000000 ∧ f.off ≠ oFwUpdStatus := by decide) : FwStands s (s.setF d f v) :=
  s.fwStands_setReg d f.off _ h

theorem fwStands_bump (d : Nat) (f : Fld) (n : Nat) (h : f.off < 0x1000000 ∧ f.off ≠ oFwUpdStatus := by decide) : FwStands s (s.bump d f n) :=
  s.fwStands_setF d f _ h

theorem fwStands_modDie (d : Nat) (f : Die → Die) : FwStands s (s.modDie d f) := .of_regs rfl

theorem fwStands_send (m : OutMsg) : FwStands s (s.send m) := .of_regs rfl

theorem fwStands_respond (d : Nat) (x : Xfer) : FwStands s (s.respond d x) := .of_regs rfl

theorem fwStands_finish (p : Waits → Bool) (status detail : Nat) : FwStands s (s.finish p status detail) :=
  (s.answers_finish p status detail).reg common oFwUpdStatus (by decide) (by decide)

theorem fwStands_progress (w : Waits) (status : Nat) : FwStands s (s.progress c status w) :=
  (s.answers_progress c status w).reg common oFwUpdStatus (by decide) (by decide)

/-! Records of errors leave it alone (R364, R290). -/

theorem fwStands_sendBound (ports : List Nat) (kind step phase status : Nat) : FwStands s (s.sendBound ports kind step phase status) :=
  .foldl (fun s _ => s.fwStands_respond ..) _ _

theorem fwStands_stopRules : FwStands s s.stopRules := by
  refine .foldl (fun s d => ?_) _ _
  have h : FwStands s ((s.setUpd d { s.upd d with rule := .none, late := false }).setF d fParStatusGenRun 0) := fwStands_setF ..
  exact .ite h (h.trans (fwStands_setF ..))

theorem fwStands_endFatal (cause : Nat) : FwStands s (s.endFatal cause) := by
  unfold endFatal
  extract_lets j s1
  have h1 : FwStands s s1 := fwStands_stopRules { s with job := _, bounds := _ }
  exact (h1.trans (fwStands_finish ..)).trans (fwStands_finish ..)

theorem fwStands_abortJob (cause : Nat) : FwStands s (s.abortJob cause) :=
  .ite ((FwStands.ite (s.fwStands_sendBound ..) (s.fwStands_sendBound ..)).trans (fwStands_endFatal ..)) (.refl s)

theorem fwStands_classEffect (h cause : Nat) (cls : ErrClass) : FwStands s (s.classEffect h cause cls) := by
  cases cls with
  | tainted => exact .of_regs rfl
  | jobFatal => exact s.fwStands_abortJob _
  | packageFatal =>
    have hset : FwStands (s.abortJob cause) ((s.abortJob cause).setF common fPkgIdIdValid 0) := fwStands_setF ..
    exact .ite (.of_regs rfl) (((s.fwStands_abortJob cause).trans hset).trans (.of_regs rfl))
  | info => exact .refl s
  | corrected => exact .refl s
  | contained => exact .refl s

theorem errCnt_ne_fwUpdStatus (cls : ErrClass) : (fErrCntCount.at (8 * cls.code)).off < 0x1000000 ∧ (fErrCntCount.at (8 * cls.code)).off ≠ oFwUpdStatus := by
  cases cls <;> simp [fErrCntCount, Fld.at, ErrClass.code, oFwUpdStatus]

theorem fwStands_fileRec (h : Nat) (r : ErrRec) (cls : ErrClass) : FwStands s (s.fileRec h r cls) := by
  have alert : ∀ s : State, FwStands s { s with alert := true } := fun _ => .of_regs rfl
  unfold fileRec
  extract_lets b s1 s2 s3 s4 s5
  have h3 : FwStands s s3 := ((s.fwStands_setF ..).trans (fwStands_bump _ _ _ _ (errCnt_ne_fwUpdStatus cls))).trans (fwStands_modDie ..)
  have h4 : FwStands s s4 := .ite (h3.trans (fwStands_bump ..)) h3
  have h5 : FwStands s s5 := .ite (h4.trans (alert _)) h4
  exact h5.trans (fwStands_classEffect ..)

theorem fwStands_raise (d : Nat) (i : ErrInfo) : FwStands s (s.raise d i) := by
  unfold raise
  dsimp only
  split
  · exact .ite (.of_regs rfl) (.of_regs rfl)
  · exact s.fwStands_fileRec ..

/-! What was under way with a die that stops (R391, R50) -/

/-- A refused operation of another die's word is answered by a message. -/
theorem fwStands_answerSy_of_other {d lc : Nat} (st : Stream) (ans : SyAnswer) (h : lc / 16 ≠ d) : FwStands s (s.answerSy d lc st ans) := by
  rw [answerSy, if_neg h]
  exact .of_regs rfl

theorem fwStands_refuseCtr {d : Nat} {o : BerOp} (v : Nat) (ho : ∀ lc st, o.org = .sy lc st → lc / 16 ≠ d) : FwStands s (s.refuseCtr d o v false) := by
  unfold refuseCtr
  extract_lets s1
  have h1 : FwStands s s1 := .ite (s.fwStands_bump ..) (.refl s)
  split
  · next lc st hlc => exact h1.trans (fwStands_answerSy_of_other _ _ _ (ho lc st hlc))
  · exact h1.trans (fwStands_raise ..)
  · exact h1.trans (fwStands_raise ..)

theorem fwStands_failSent (d : Nat) : FwStands s (s.failSent d) := by
  unfold failSent
  extract_lets other s1
  have h1 : FwStands s s1 := by
    refine .foldl (fun s o => ?_) _ _
    split
    · next lc st hlc =>
      split
      · next hne => exact s.fwStands_refuseCtr 0 (fun lc' st' h => by rw [hlc] at h; cases h; simpa [other] using hne)
      · exact .refl s
    · next k hk => exact .ite (s.fwStands_refuseCtr 0 (fun _ _ h => by rw [hk] at h; cases h)) (.refl s)
    · next hf => exact s.fwStands_refuseCtr 0 (fun _ _ h => by rw [hf] at h; cases h)
  refine h1.trans (.foldl (fun s o => ?_) _ _)
  split
  · next lc st hlc =>
    split
    · next hne =>
      rw [refuseQOp, hlc]
      exact s.fwStands_answerSy_of_other _ _ (by simpa [other] using hne)
    · exact .refl s
  · exact .refl s

theorem fwStands_clusterFailed (addr : Nat) : FwStands s (s.clusterFailed addr) := s.fwStands_raise ..

theorem fwStands_failCfg (d : Nat) : FwStands s (s.failCfg d) :=
  .foldl (fun s _ => (s.fwStands_clusterFailed _).trans (fwStands_send ..)) _ _

/-- The registers of a port die do not hold it. -/
theorem fwStands_clearDie {d : Nat} (x : DieSt) (hd : 4 ≤ d) (hc : d ≠ common) : FwStands s (s.clearDie d x) := by
  have hd4 : ¬ d < 4 := Nat.not_lt.mpr hd
  unfold clearDie
  extract_lets lead myCore myPort swept s1 reset s2 mem pwr s3 core s4 s5 s6 pwr'
  have h1 : FwStands s s1 := ((s.fwStands_failSent d).trans (fwStands_failCfg _ d)).trans (fwStands_finish ..)
  have h3 : FwStands s1 s3 := by
    have hk : (regKey common oFwUpdStatus / 0x1000000 == d) = false := beq_eq_false_iff_ne.mpr (fun h => hc (Eq.trans h.symm (by decide)))
    exact (mapGet_mapDrop regReset (fun k => k / 0x1000000 == d) s1.regs (regKey common oFwUpdStatus)).trans (if_neg (by rw [hk]; exact Bool.false_ne_true))
  clear_value s3
  have h4 : FwStands s3 s4 := by
    dsimp only [s4]
    rw [if_neg hd4]
    exact .refl s3
  clear_value s4
  have h5 : FwStands s4 s5 := by
    dsimp only [s5]
    rw [if_neg hd4]
    refine .foldl (fun s e => ?_) _ _
    split
    · exact (s.fwStands_setReg ..).trans (fwStands_modDie ..)
    · exact .refl s
  clear_value s5
  have h6 : s6 = s5 := by
    have hnone : swept = [] := by simp [swept, hd4]
    dsimp only [s6]
    rw [hnone, List.foldl_nil]
  rw [if_neg (fun h => hd4 h.1), h6]
  exact ((h1.trans h3).trans h4).trans h5

end State
end Sys2Proof.Machine
end

section
/-! The commands of firmware, calibration, functions, retirement and retraining (R25, R256, R361, R375, R384, R443 to R447, R465, R466). -/

namespace Sys2Proof.Machine

variable {s t u : State} {c : Cmd}

/-! ### FW_ACTIVATE (R447) -/

theorem State.beginActivation_regsOnly (s : State) (d r : Nat) : RegsOnly s (s.beginActivation d r) := rfl

/-- An activation of die `d` is under way. -/
def State.Activating (d : Nat) (s : State) : Prop := s.flag common fFwUpdStatusActBusy = true ∧ s.getF common fFwUpdStatusActDie = d

theorem State.Activating.fwStands {d : Nat} (h : s.Activating d) (hf : FwStands s t) : t.Activating d :=
  ⟨(congrArg (· == 1) (hf.getF _)).trans h.1, (hf.getF _).trans h.2⟩

theorem State.activating_beginActivation (s : State) {d : Nat} (r : Nat) (hd : d ≤ 5) : (s.beginActivation d r).Activating d := by
  constructor
  · rw [flag, beginActivation, getF_setF_of_apart (by decide), getF_setF_of_apart (by decide), getF_setF_of_apart (by decide), getF_setF_same _ _ _ _ (by decide)]
    rfl
  · rw [beginActivation, getF_setF_of_apart (by decide), getF_setF_of_apart (by decide), getF_setF_same _ _ _ _ (by decide)]
    exact Nat.mod_eq_of_lt (Nat.lt_of_le_of_lt hd (by decide))

theorem State.actResult_beginActivation (s : State) (d r : Nat) : (s.beginActivation d r).getF common fFwUpdStatusActResult = r % 16 := by
  rw [beginActivation, getF_setF_of_apart (by decide), getF_setF_same _ _ _ _ (by decide)]
  rfl

/-- Showing the numbers of sessions and connections, after a change of the cluster's state that answers nothing. -/
theorem State.fwStands_modCtl_showCtl (s : State) (f : Ctl → Ctl) : FwStands s (s.modCtl f).showCtl :=
  (FwStands.of_regs (t := s.modCtl f) rfl).trans ((fwStands_setF ..).trans (fwStands_setF ..))

/-- Every session of a list of numbers is closed. -/
def State.closeSessions (s : State) (l : List Nat) : State := l.foldl (fun (s : State) x => s.closeSession x) s

/-- Every connection of a list of numbers is dropped. -/
def State.dropConns (s : State) (l : List Nat) : State := l.foldl (fun (s : State) x => s.dropConn x) s

theorem State.fwStands_closeSessions (s : State) (l : List Nat) : FwStands s (s.closeSessions l) := .foldl (fun s _ => s.fwStands_modCtl_showCtl _) l s

theorem State.fwStands_dropConns (s : State) (l : List Nat) : FwStands s (s.dropConns l) := .foldl (fun s _ => s.fwStands_modCtl_showCtl _) l s

theorem State.keeps_closeSessions (s : State) (l : List Nat) : Keeps .record s (s.closeSessions l) :=
  .foldl (fun s _ => (s.keeps_modCtl _).trans (keeps_showCtl _)) l s

theorem State.keeps_dropConns (s : State) (l : List Nat) : Keeps .record s (s.dropConns l) := .foldl (fun s _ => s.keeps_dropConn _) l s

theorem State.sessions_closeSessions (l : List Nat) : ∀ s : State, (s.closeSessions l).ctl.sessions = s.ctl.sessions.filter (fun y => !l.contains y.id) := by
  induction l with
  | nil => simp [closeSessions]
  | cons x l ih =>
    intro s
    refine (ih (s.closeSession x)).trans ?_
    have h1 : (s.closeSession x).ctl.sessions = s.ctl.sessions.filter (fun y => y.id != x) := rfl
    rw [h1, List.filter_filter]
    exact List.filter_congr (fun y _ => by rw [List.contains_cons, Bool.not_or, Bool.and_comm, bne])

theorem State.conns_dropConns (l : List Nat) : ∀ s : State, (s.dropConns l).ctl.conns = s.ctl.conns.filter (fun y => !l.contains y.id) := by
  induction l with
  | nil => simp [dropConns]
  | cons x l ih =>
    intro s
    refine (ih (s.dropConn x)).trans ?_
    have h1 : (s.dropConn x).ctl.conns = s.ctl.conns.filter (fun y => y.id != x) := rfl
    rw [h1, List.filter_filter]
    exact List.filter_congr (fun y _ => by rw [List.contains_cons, Bool.not_or, Bool.and_comm, bne])

theorem State.sessions_dropConns (l : List Nat) : ∀ s : State, (s.dropConns l).ctl.sessions = s.ctl.sessions := by
  induction l with
  | nil => exact fun _ => rfl
  | cons x l ih => exact fun s => ih (s.dropConn x)

theorem State.sessions_closeSessions_all (s : State) : (s.closeSessions (s.ctl.sessions.map Session.id)).ctl.sessions = [] := by
  rw [sessions_closeSessions, List.filter_eq_nil_iff]
  exact fun y hy => by simpa using ⟨y, hy, rfl⟩

theorem State.conns_dropConns_all (s : State) : (s.dropConns (s.ctl.conns.map Conn.id)).ctl.conns = [] := by
  rw [conns_dropConns, List.filter_eq_nil_iff]
  exact fun y hy => by simpa using ⟨y, hy, rfl⟩

section Activate

variable (h : Serves s 0x0802 c u) (hd : leAt c.body 0 1 ≤ 5) (hup : u.dieUp (leAt c.body 0 1) = true) (hb : u.flag common fFwUpdStatusActBusy = false)
  (hv : u.flag common fFwUpdStatusBValid = true) (hj : u.job.running = true → leAt c.body 0 1 ≠ u.lead ∧ leAt c.body 0 1 < 4)

include h hd hup hb hv hj

/-- The lead die answers first and then closes what it serves; any other die waits, or is reset if it is a port die. -/
theorem execFwActivate_of_taken :
    exec .fwActivate s = .next (
      if leAt c.body 0 1 = u.lead then
        let v := (u.replyOk c []).beginActivation (leAt c.body 0 1) 0
        let v := v.closeSessions (v.ctl.sessions.map Session.id)
        v.dropConns (v.ctl.conns.map Conn.id)
      else
        let v := (u.progress c 2 (.activate (leAt c.body 0 1))).beginActivation (leAt c.body 0 1) (if u.job.running then 2 else 0)
        if leAt c.body 0 1 < 4 then v else v.portReset (leAt c.body 0 1)) := by
  have hbusy : (u.job.running && (leAt c.body 0 1 == u.lead || decide (4 ≤ leAt c.body 0 1))) = false := by
    cases hr : u.job.running with
    | false => rfl
    | true => simp [hj hr]
  refine congrArg Host.Outcome.next ((State.serve_of_serves h).trans ?_)
  simp only [Nat.not_lt.mpr hd, hup, hb, hv, hbusy, Bool.not_true, Bool.or_self, Bool.false_eq_true, if_false]
  rfl

theorem execFwActivate_activates :
    ∃ t, exec .fwActivate s = .next t ∧ t.flag common fFwUpdStatusActBusy = true ∧ t.getF common fFwUpdStatusActDie = leAt c.body 0 1 ∧
      (leAt c.body 0 1 = u.lead → t.mem = u.mem ∧ t.ctl.sessions = [] ∧ t.ctl.conns = []) ∧
      (leAt c.body 0 1 ≠ u.lead → leAt c.body 0 1 < 4 → t.mem = u.mem ∧ t.ctl.progs = u.ctl.progs ++ [⟨c, .activate (leAt c.body 0 1)⟩] ∧
        t.getF common fFwUpdStatusActResult = if u.job.running = true then 2 else 0) ∧
      (4 ≤ leAt c.body 0 1 → (t.die (leAt c.body 0 1)).st = .lostWarm) := by
  have hlead := u.lead_lt
  refine ⟨_, execFwActivate_of_taken h hd hup hb hv hj, ?_⟩
  split
  · next hl =>
    extract_lets v w
    have hva : v.Activating (leAt c.body 0 1) := State.activating_beginActivation _ 0 hd
    have hwa := hva.fwStands (v.fwStands_closeSessions (v.ctl.sessions.map Session.id))
    obtain ⟨h1, h2⟩ := hwa.fwStands (w.fwStands_dropConns (w.ctl.conns.map Conn.id))
    have hvm : v.mem = u.mem := (State.beginActivation_regsOnly ..).mem.trans (u.answers_reply ..).mem
    refine ⟨h1, h2, fun _ => ⟨?_, ?_, w.conns_dropConns_all⟩, fun hn => absurd hl hn, fun h4 => by omega⟩
    · exact (w.keeps_dropConns _).mem.trans ((v.keeps_closeSessions _).mem.trans hvm)
    · exact (State.sessions_dropConns ..).trans v.sessions_closeSessions_all
  · next hl =>
    extract_lets v
    have hva : v.Activating (leAt c.body 0 1) := State.activating_beginActivation _ _ hd
    have hregs : RegsOnly (u.progress c 2 (.activate (leAt c.body 0 1))) v := State.beginActivation_regsOnly ..
    have hr : v.getF common fFwUpdStatusActResult = if u.job.running = true then 2 else 0 := by
      refine (State.actResult_beginActivation ..).trans ?_
      split <;> rfl
    split
    · next h4 =>
      refine ⟨hva.1, hva.2, fun he => absurd he hl, fun _ _ => ⟨?_, ?_, hr⟩, fun h4' => by omega⟩
      · exact hregs.mem.trans (State.mem_progress ..)
      · exact (hregs.ofCtl (·.progs)).trans (State.progs_progress ..)
    · next h4 =>
      have hvup : v.dieUp (leAt c.body 0 1) = true := (hregs.dieUp _).trans ((State.dieUp_progress ..).trans hup)
      have hne : leAt c.body 0 1 ≠ common := Nat.ne_of_lt (Nat.lt_of_le_of_lt hd (by decide))
      have hf : FwStands v (v.portReset (leAt c.body 0 1)) := .ite (v.fwStands_clearDie .lostWarm (Nat.not_lt.mp h4) hne) (.refl v)
      obtain ⟨h1, h2⟩ := hva.fwStands hf
      exact ⟨h1, h2, fun he => absurd he hl, fun _ h => absurd h h4, fun _ => State.st_portReset hvup⟩

end Activate

/-! ### CAL_READ (R443) -/

theorem span_eq_range' (n : Nat) : ∀ a, span a n = List.range' a n := by
  induction n with
  | zero => exact fun _ => rfl
  | succ n ih => exact fun a => congrArg (a :: ·) (ih (a + 1))

theorem execCalRead_reads (h : Serves s 0x0803 c u) (hn : leAt c.body 4 4 ≤ 32768) (ho : leAt c.body 0 4 + leAt c.body 4 4 ≤ 262144) :
    ∃ bs : List Byte, exec .calRead s = .next (u.replyOk c bs) ∧ bs.length = leAt c.body 4 4 ∧
      ∀ i < leAt c.body 4 4, leAt c.body 0 4 + i < u.flash.cal.length → bs[i]? = u.flash.cal[leAt c.body 0 4 + i]? := by
  refine ⟨(span (leAt c.body 0 4) (leAt c.body 4 4)).map (fun i => (u.flash.cal[i]?).getD (Config.flashByte (0x30000 + i))), ?_, ?_, fun i hi hl => ?_⟩
  · refine congrArg Host.Outcome.next ((State.serve_of_serves h).trans ?_)
    have h1 : ¬ leAt c.body 0 4 > 262144 := by omega
    simp only [h1, Nat.not_lt.mpr hn, Nat.not_lt.mpr ho, or_self, if_false]
  · rw [List.length_map, span_length]
  · simp [span_eq_range', hi, hl]

/-! ### Functions (R465, R466) -/

theorem State.startFunc_leaves (s : State) (f : Nat) : (s.startFunc f).mem = s.mem ∧ (s.startFunc f).ctl = s.ctl ∧ (s.startFunc f).func f = 1 := by
  unfold startFunc
  dsimp only
  split
  · exact ⟨rfl, rfl, s.func_setFunc_same f 1⟩
  · exact ⟨rfl, rfl, s.func_setFunc_same f 1⟩

/-- FUNC_ENABLE of a function that may be enabled, by the function's state. -/
def State.enableFunc (u : State) (c : Cmd) (f : Nat) : State :=
  match u.func f with
  | 0 => if u.dieUp (funcDie f) && u.getF (funcDie f) fBootStatusStage == 4 then (u.startFunc f).progress c 2 (.func f true) else u.refuse c 0x200 0x63
  | 1 => u.progress c 2 (.func f true)
  | 2 => u.replyOk c []
  | 3 => u.replyOk c []
  | 4 => u.progress c 1 (.func f true)
  | _ => u.refuse c 0x200 (failCause f)

section Enable

variable (h : Serves s 0x0901 c u) (hf : leAt c.body 0 2 ∈ allFuncs) (hr : u.restricted (leAt c.body 0 2) = false)

include h hf hr

theorem execFuncEnable_of_known : exec .funcEnable s = .next (u.enableFunc c (leAt c.body 0 2)) := by
  refine congrArg Host.Outcome.next ((State.serve_of_serves h).trans ?_)
  simp only [List.contains_iff_mem.mpr hf, hr, Bool.not_true, Bool.false_eq_true, if_false]
  rfl

theorem execFuncEnable_starts (h0 : u.func (leAt c.body 0 2) = 0) (hup : u.dieUp (funcDie (leAt c.body 0 2)) = true)
    (hst : u.getF (funcDie (leAt c.body 0 2)) fBootStatusStage = 4) :
    ∃ t, exec .funcEnable s = .next t ∧ t.mem = u.mem ∧ t.func (leAt c.body 0 2) = 1 ∧ t.ctl.progs = u.ctl.progs ++ [⟨c, .func (leAt c.body 0 2) true⟩] := by
  obtain ⟨hmem, hctl, hfunc⟩ := u.startFunc_leaves (leAt c.body 0 2)
  refine ⟨(u.startFunc (leAt c.body 0 2)).progress c 2 (.func (leAt c.body 0 2) true), (execFuncEnable_of_known h hf hr).trans ?_, (State.mem_progress ..).trans hmem,
    (State.func_progress ..).trans hfunc, (State.progs_progress ..).trans (by rw [hctl])⟩
  simp only [State.enableFunc, h0, hup, hst, beq_self_eq_true, Bool.and_self, if_true]

end Enable

/-- The commands that FUNC_DISABLE answers: enables of the function, and a retraining of its port. -/
def stopsWait (f : Nat) (w : Waits) : Bool := w == .func f true || (f / 4096 == 3 && w == .retrain 1 (funcDie f) (f % 256))

/-- FUNC_DISABLE has answered those commands and waits itself. -/
def State.disableBegun (u : State) (c : Cmd) (f : Nat) : State := (u.finish (stopsWait f) 0x105 0).progress c 2 (.func f false)

theorem State.progs_disableBegun (u : State) (c : Cmd) (f : Nat) :
    (u.disableBegun c f).ctl.progs = u.ctl.progs.filter (fun g => !stopsWait f g.waits) ++ [⟨c, .func f false⟩] := by
  rw [disableBegun, progs_progress, progs_finish]

/-- No enable of the function waits any more. -/
theorem State.not_enable_of_mem_disableBegun {f : Nat} {g : Prog} (hg : g ∈ (u.disableBegun c f).ctl.progs) : g.waits ≠ .func f true := by
  rw [progs_disableBegun, List.mem_append, List.mem_singleton] at hg
  rcases hg with hg | rfl
  · intro he
    simpa [stopsWait, he] using (List.mem_filter.mp hg).2
  · exact fun he => by cases he

theorem execFuncDisable_of_taken (h : Serves s 0x0902 c u) (hf : leAt c.body 0 2 ∈ allFuncs) (hr : u.restricted (leAt c.body 0 2) = false)
    (hj : u.jobUses (leAt c.body 0 2) = false) (hl : u.lastService (leAt c.body 0 2) = false) :
    exec .funcDisable s = .next (
      if u.func (leAt c.body 0 2) = 0 ∨ u.func (leAt c.body 0 2) = 5 then
        (u.disableBegun c (leAt c.body 0 2)).finish (fun w => w == .func (leAt c.body 0 2) false) 0 0
      else (u.disableBegun c (leAt c.body 0 2)).setFunc (leAt c.body 0 2) 4) := by
  refine congrArg Host.Outcome.next ((State.serve_of_serves h).trans ?_)
  simp only [List.contains_iff_mem.mpr hf, hr, hj, hl, Bool.not_true, Bool.or_self, Bool.false_eq_true, if_false]
  rfl

theorem execFuncDisable_stops (h : Serves s 0x0902 c u) (hf : leAt c.body 0 2 ∈ allFuncs) (hr : u.restricted (leAt c.body 0 2) = false)
    (hj : u.jobUses (leAt c.body 0 2) = false) (hl : u.lastService (leAt c.body 0 2) = false) :
    let f := leAt c.body 0 2
    ∃ t, exec .funcDisable s = .next t ∧ t.mem = u.mem ∧ t.job = u.job ∧ (∀ g ∈ t.ctl.progs, g.waits ≠ .func f true) ∧
      (u.func f = 0 ∨ u.func f = 5 → t.func f = u.func f ∧ ∀ g ∈ t.ctl.progs, g.waits ≠ .func f false) ∧
      (u.func f ≠ 0 → u.func f ≠ 5 → t.func f = 4 ∧ ⟨c, .func f false⟩ ∈ t.ctl.progs) := by
  intro f
  have hmem : (u.disableBegun c f).mem = u.mem := (State.mem_progress ..).trans (State.mem_finish ..)
  have hjob : (u.disableBegun c f).job = u.job := (State.job_progress ..).trans (State.job_finish ..)
  refine ⟨_, execFuncDisable_of_taken h hf hr hj hl, ?_⟩
  split
  · next h05 =>
    refine ⟨(State.mem_finish ..).trans hmem, (State.job_finish ..).trans hjob, fun g hg => ?_, fun _ => ⟨?_, fun g hg => ?_⟩,
      fun h0 h5 => absurd h05 (not_or.mpr ⟨h0, h5⟩)⟩
    · rw [State.progs_finish] at hg
      exact State.not_enable_of_mem_disableBegun (List.mem_filter.mp hg).1
    · exact (State.func_finish ..).trans ((State.func_progress ..).trans (State.func_finish ..))
    · rw [State.progs_finish] at hg
      simpa using (List.mem_filter.mp hg).2
  · next h05 =>
    refine ⟨hmem, hjob, fun g hg => State.not_enable_of_mem_disableBegun hg, fun h => absurd h h05, fun _ _ => ⟨State.func_setFunc_same .., ?_⟩⟩
    change _ ∈ (u.disableBegun c f).ctl.progs
    rw [State.progs_disableBegun]
    exact List.mem_append_right _ (List.mem_singleton.mpr rfl)

/-! ### RETIRE_CORE (R361, R25) -/

section Retire

variable (h : Serves s 0x0904 c u) (hd : leAt c.body 0 1 ≤ 3) (hp : leAt c.body 1 1 ≤ 17) (hup : u.dieUp (leAt c.body 0 1) = true)
  (hg : (u.die (leAt c.body 0 1)).isGood (leAt c.body 1 1) = true)

include h hd hp hup hg

theorem execRetireCore_of_good :
    exec .retireCore s = .next (
      if u.func (funcId 2 (leAt c.body 0 1) (leAt c.body 1 1)) < 2 then u.refuse c 0x104 0
      else (u.progress c 2 (.retire (leAt c.body 0 1) (leAt c.body 1 1))).markRetire (18 * leAt c.body 0 1 + leAt c.body 1 1) 0) := by
  refine congrArg Host.Outcome.next ((State.serve_of_serves h).trans ?_)
  simp only [Nat.not_lt.mpr hd, Nat.not_lt.mpr hp, hup, hg, Bool.not_true, Bool.false_eq_true, if_false]

theorem execRetireCore_retires (hf : 2 ≤ u.func (funcId 2 (leAt c.body 0 1) (leAt c.body 1 1))) :
    ∃ t, exec .retireCore s = .next t ∧ t.mem = u.mem ∧ (u.job.running = false → (t.die (leAt c.body 0 1)).isGood (leAt c.body 1 1) = false) ∧
      (u.job.running = true → t.job = u.job ∧ natBits (t.getF (leAt c.body 0 1) fRetirePendCores) (leAt c.body 1 1) 1 = 1) := by
  let v := u.progress c 2 (.retire (leAt c.body 0 1) (leAt c.body 1 1))
  let pc := 18 * leAt c.body 0 1 + leAt c.body 1 1
  have hpd : pcDie pc = leAt c.body 0 1 := by unfold pcDie; omega
  have hpm : pc % 18 = leAt c.body 1 1 := by omega
  have hvj : v.job = u.job := State.job_progress ..
  have hvg : (v.die (leAt c.body 0 1)).isGood (leAt c.body 1 1) = true := by rw [State.die_progress]; exact hg
  obtain ⟨hmem, -, hret, hmark⟩ := v.markRetire_marked pc 0
  rw [hpd, hpm] at hret hmark
  refine ⟨v.markRetire pc 0, (execRetireCore_of_good h hd hp hup hg).trans (by rw [if_neg (Nat.not_lt.mpr hf)]), hmem.trans (State.mem_progress ..),
    fun hr => hret hvg (hvj ▸ hr), fun hr => ?_⟩
  obtain ⟨h1, h2⟩ := hmark hvg (hvj ▸ hr)
  exact ⟨h1.trans hvj, h2⟩

end Retire

/-! ### RETRAIN (R256, R375) -/

/-- A function that is READY or DEGRADED, and not that of a port die not admitted, retrains. -/
theorem State.retrainIf_of_up {f : Nat} {k : State → State} (hr : u.restricted f = false) (hf : u.funcUp f = true) : u.retrainIf c f k = k u := by
  have h23 : u.func f = 2 ∨ u.func f = 3 := by simpa [funcUp] using hf
  rcases h23 with h | h <;> simp only [retrainIf, hr, h, Bool.false_eq_true, if_false]

theorem execRetrain_of_edge (h : Serves s 0x0905 c u) (hk : leAt c.body 0 1 = 0) (hd : leAt c.body 1 1 ≤ 5)
    (hpeer : (edgePeer (leAt c.body 1 1) (leAt c.body 2 1)).isSome = true) (hr : u.restricted (edgeFunc (leAt c.body 1 1) (leAt c.body 2 1)) = false)
    (hf : u.funcUp (edgeFunc (leAt c.body 1 1) (leAt c.body 2 1)) = true) :
    exec .retrain s = .next ((u.progress c 2 (.retrain 0 (leAt c.body 1 1) (leAt c.body 2 1))).retrainEdge (leAt c.body 1 1) (leAt c.body 2 1)) := by
  refine congrArg Host.Outcome.next ((State.serve_of_serves h).trans ?_)
  have hnone : (edgePeer (leAt c.body 1 1) (leAt c.body 2 1)).isNone = false := by rw [← Option.not_isSome, hpeer]; rfl
  simp only [hk, Nat.not_lt.mpr hd, hnone, State.retrainIf_of_up hr hf, Nat.not_lt_zero, gt_iff_lt, zero_ne_one, Bool.false_eq_true, and_false, false_and, or_self,
    if_false, if_true]

theorem portDie_bounds (n : Nat) (hn : n ≤ 11) : 4 ≤ portDie n ∧ portDie n ≤ 5 := by
  unfold portDie
  omega

theorem execRetrain_of_port (h : Serves s 0x0905 c u) (hk : leAt c.body 0 1 = 1) (hn : leAt c.body 2 1 ≤ 11) (hd : leAt c.body 1 1 = portDie (leAt c.body 2 1))
    (hr : u.restricted (portFunc (leAt c.body 2 1)) = false) (hf : u.funcUp (portFunc (leAt c.body 2 1)) = true) :
    exec .retrain s = .next ((u.progress c 2 (.retrain 1 (leAt c.body 1 1) (leAt c.body 2 1))).askRetrain (leAt c.body 2 1)) := by
  obtain ⟨h4, h5⟩ := portDie_bounds _ hn
  refine congrArg Host.Outcome.next ((State.serve_of_serves h).trans ?_)
  simp only [hk, hd, Nat.not_lt.mpr hn, Nat.not_lt.mpr h4, Nat.not_lt.mpr h5, State.retrainIf_of_up hr hf, Nat.lt_irrefl, gt_iff_lt, one_ne_zero, ne_eq,
    not_true_eq_false, and_false, false_and, or_self, if_false]

/-- A record of a class without an effect of its own leaves the cluster's state. -/
theorem State.ctl_raise {i : ErrInfo} (s : State) (d : Nat) (h : ∀ (u : State) hd cause, u.classEffect hd cause i.cls = u) : (s.raise d i).ctl = s.ctl := by
  unfold State.raise
  dsimp only
  split
  · split <;> rfl
  · unfold State.fileRec
    dsimp only
    rw [h]
    split <;> split <;> rfl

theorem Keeps.func (h : Keeps .record s t) (id : Nat) : t.func id = s.func id := by rw [h.rest]; rfl

theorem State.portRetrain_leaves (s : State) (p : Nat) :
    (s.portRetrain p).mem = s.mem ∧ (s.portRetrain p).ctl = s.ctl ∧ (s.portRetrain p).func (portFunc p) = 1 :=
  ⟨(keeps_raise ..).mem, ctl_raise _ _ (fun _ _ _ => rfl), ((keeps_raise ..).func _).trans (s.func_setFunc_same ..)⟩

/-- A flit sent outside the replay buffer changes its port and what is sent. -/
theorem State.sendFree_leaves (s : State) (p typ : Nat) (pay : BitVec 2048) : (s.sendFree p typ pay).mem = s.mem ∧ (s.sendFree p typ pay).ctl = s.ctl := by
  unfold sendFree sendLine
  exact ⟨rfl, rfl⟩

theorem State.askRetrain_leaves (s : State) (p : Nat) :
    (s.askRetrain p).mem = s.mem ∧ (s.askRetrain p).ctl = s.ctl ∧ (s.askRetrain p).func (portFunc p) = 1 := by
  unfold askRetrain
  split
  · obtain ⟨hm, hc, hf⟩ := (s.sendCtrl p .retrain).portRetrain_leaves p
    obtain ⟨hm', hc'⟩ := (s.send (.ewCtrl p .retrain)).sendFree_leaves p 3 ((Config.linkEntry .retrain).setWidth 2048)
    exact ⟨hm.trans hm', hc.trans hc', hf⟩
  · exact s.portRetrain_leaves p

end Sys2Proof.Machine
end

section
/-! O55 from the lemmas about its commands. -/

namespace Sys2Proof.Machine

/-- Settles O55, a command at a time. -/
theorem maintenanceCommandsAreServed : Obligations.MaintenanceCommandsAreServed := by
  refine ⟨fun c s u => ⟨execLoadImage_taken, execLoadLayout_taken, execFwStage_taken, execCalWrite_taken, ?streamOpen, ?ingestClose,
    fun x n bs w h hx hu hi hn hr => execStreamClose_of_egress h hx hu hi hn hr, fun bs w h ha hs hn hn0 hmost hr => execMemRead_of_read h ha hs hn hn0 hmost hr,
    fun w h ha hrun hw => execMemWrite_of_written h ha hrun hw, ?region, ?selftest, execFwActivate_activates, execCalRead_reads, ?funcEnable,
    execFuncDisable_stops, ?funcStatus, ?retireCore, ?retrain, execDieReset_resets⟩, fun handle b s hb hg hi hd => execStreamNotify_of_due hb hg hi hd⟩
  case streamOpen =>
    intro n h hn hz hctr hl hl0 ha hrun hfree
    refine ⟨fun hk => ?_, fun l w hk he => ?_⟩
    · rw [execStreamOpen_of_taken h hn (by omega) hz hctr hl hl0 ha hrun hfree, if_pos hk]
      rfl
    · have he : (u.streamOpened c n).egressSegs (leAt c.body 8 8) (leAt c.body 16 8) = (some l, w) := he
      rw [execStreamOpen_of_taken h hn (by omega) hz hctr hl hl0 ha hrun hfree, if_neg (by omega), he]
  case ingestClose =>
    exact fun x h hx hu hi => ⟨u.dropBulk x.handle, execStreamClose_of_ingest h hx hu hi, rfl, rfl⟩
  case region =>
    exact fun h ho hc hbad => ⟨_, execRegionCmd_of_taken h ho hc hbad, State.cores_progress .., State.mem_progress .., State.progs_progress ..⟩
  case selftest =>
    intro h hm hm16 hrun hup
    refine ⟨fun hk => ?_, fun hk => ?_⟩
    · have hregs := State.setIn_regsOnly (maskBits (leAt c.body 0 1) 4) fMcScrubStatusPosition 0 (u.selftestBegun c 1)
      refine ⟨_, execRunSelftest_of_patrol h hm hm16 hrun hup hk, hregs.mem.trans (State.mem_progress ..), hregs.cores.trans (State.cores_progress ..),
        (hregs.ofCtl (·.progs)).trans (State.progs_progress ..), fun d hd => ?_⟩
      rw [State.getF_setIn (by decide) (by decide), if_pos hd]
      exact Nat.zero_mod _
    · have hbegun := u.testsBegun_selftestBegun c 0
      refine ⟨_, execRunSelftest_of_columns h hm hm16 hrun hup hk, (State.mem_finish ..).trans (hbegun.trans (State.testsBegun_testCores ..)).mem,
        fun d hd p hp j hj hq hst => ?_⟩
      rw [State.core, State.cores_columnTestsEnd]
      exact State.running_testCores hbegun (hup d hd) hd hp hj hq hst
  case funcEnable =>
    intro f h hf hr
    refine ⟨execFuncEnable_starts h hf hr, fun h1 => ?_, fun h23 => ?_, fun h4 => ?_⟩
    · have h1 : u.func (leAt c.body 0 2) = 1 := h1
      simp only [execFuncEnable_of_known h hf hr, State.enableFunc, h1, f]
    · rcases h23 with h2 | h3
      · have h2 : u.func (leAt c.body 0 2) = 2 := h2
        simp only [execFuncEnable_of_known h hf hr, State.enableFunc, h2]
      · have h3 : u.func (leAt c.body 0 2) = 3 := h3
        simp only [execFuncEnable_of_known h hf hr, State.enableFunc, h3]
    · have h4 : u.func (leAt c.body 0 2) = 4 := h4
      simp only [execFuncEnable_of_known h hf hr, State.enableFunc, h4, f]
  case funcStatus => exact fun h => congrArg Host.Outcome.next (State.serve_of_serves h)
  case retireCore =>
    intro h hd hp hup hg
    refine ⟨fun hf => ?_, execRetireCore_retires h hd hp hup hg⟩
    rw [execRetireCore_of_good h hd hp hup hg, if_pos hf]
  case retrain =>
    refine fun h => ⟨execRetrain_of_edge h, fun hk hn hd hr hf => ?_⟩
    obtain ⟨hmem, hctl, hfunc⟩ := (u.progress c 2 (.retrain 1 (leAt c.body 1 1) (leAt c.body 2 1))).askRetrain_leaves (leAt c.body 2 1)
    exact ⟨_, execRetrain_of_port h hk hn hd hr hf, hmem.trans (State.mem_progress ..), hfunc, by rw [hctl]; exact State.progs_progress ..⟩

end Sys2Proof.Machine
end

section
/-! Zero-latency words of the matrix engine, which complete as they issue: MX.GOPEN and MX.GCLOSE (R55, R126, R128, R132). -/

namespace Sys2Proof.Machine

/-! ### A word issued behind words that are not of its engine and stream -/

/-- The word that has left the head of its queue is the last in flight. -/
theorem Core.last_issueHead (c : Core) (eng : Engine) (st : Stream) (e : QEntry) (r : List QEntry) :
    ∃ f, (c.issueHead eng st e r).inflight = c.inflight ++ [f] ∧ f.ent = e ∧ f.eng = eng ∧ f.strm = st :=
  ⟨⟨eng, st, e, false, false, ((c.setQueue eng st r).takeToken e.word).issued, .none, .none, .none⟩,
    by simp only [Core.issueHead, Core.inflight_takeToken]; rfl, rfl, rfl, rfl⟩

theorem Core.token_issueHead_le (c : Core) (eng : Engine) (st : Stream) (e : QEntry) (r : List QEntry) (k : Nat) :
    (c.issueHead eng st e r).token k ≤ c.token k := (c.setQueue eng st r).token_takeToken_le e.word k

/-- The opcode of a word from its parts (Table 2.2). -/
theorem opcodeOf_mkWord {eng opc : Nat} (tok : BitVec 16) (ops : BitVec 96) (ho : opc < 2 ^ 12) : opcodeOf (mkWord eng opc tok ops) = opc := by
  have htok := tok.isLt
  have hops := ops.isLt
  rw [opcodeOf, mkWord, fld, natBits, BitVec.toNat_ofNat, Nat.shiftRight_eq_div_pow]
  omega

section Oldest

variable {c : Core} {l : List InFlight} {f : InFlight} {eng : Engine} {st : Stream}

/-- Where no word of an engine and stream is in flight, none is its oldest. -/
theorem Core.oldest_of_absent (h : ∀ x ∈ c.inflight, ¬ (x.eng = eng ∧ x.strm = st)) : c.oldest eng st = none := by
  refine List.find?_eq_none.mpr (fun p hp => ?_)
  simpa using h p.2 (List.of_mem_zip hp).2

/-- A word behind words that are not of its engine and stream is the oldest of them. -/
theorem Core.oldest_of_last (hl : c.inflight = l ++ [f]) (h : ∀ x ∈ l, ¬ (x.eng = eng ∧ x.strm = st)) (he : f.eng = eng) (hs : f.strm = st) :
    c.oldest eng st = some (l.length, f) := by
  have hzip : (span 0 c.inflight.length).zip c.inflight = (span 0 l.length).zip l ++ [(l.length, f)] := by
    rw [hl, List.length_append, List.length_singleton, span_eq_range', List.range'_1_concat, ← span_eq_range', List.zip_append (span_length ..), Nat.zero_add]
    rfl
  have hnone : ((span 0 l.length).zip l).find? (fun p => p.2.eng == eng && p.2.strm == st) = none :=
    List.find?_eq_none.mpr (fun p hp => by simpa using h p.2 (List.of_mem_zip hp).2)
  rw [oldest, hzip, List.find?_append, hnone]
  simp [he, hs]

end Oldest

/-- With no word of the stream in flight, no zero-latency word completes. -/
theorem State.drainMx_of_absent {s : State} {pc : Nat} {st : Stream} (lc n : Nat) (h : ∀ x ∈ (s.core pc).inflight, ¬ (x.eng = .mx ∧ x.strm = st)) :
    State.drainMx lc st n s pc = s := by
  cases n with
  | zero => rfl
  | succ n => simp only [State.drainMx, Core.oldest_of_absent h]

/-! ### A zero-latency word in flight -/

section Last

variable {s : State} {pc : Nat} {st : Stream} {l : List InFlight} {f : InFlight} (lc n : Nat)

/-- Once the last word in flight has completed, with none of its stream before it, nothing more completes: the word is gone, memory, queues and
arrays stay. -/
theorem State.drainMx_complete_last (hl : (s.core pc).inflight = l ++ [f]) (h : ∀ x ∈ l, ¬ (x.eng = .mx ∧ x.strm = st))
    (hroom : (toksOf f.ent.word).smode ≠ 0 → (s.core pc).token (toksOf f.ent.word).stok < 65535) :
    let t := State.drainMx lc st n (s.complete pc lc l.length f) pc
    t.mem = s.mem ∧ (t.core pc).queues = (s.core pc).queues ∧ (t.core pc).inflight = l ∧ ∀ j, (t.core pc).array j = (s.core pc).array j := by
  intro t
  obtain ⟨hmem, ts, hc⟩ := State.complete_of_fits (i := l.length) lc hroom
  have hgone : ((s.complete pc lc l.length f).core pc).inflight = l := by
    rw [hc]
    simp [Core.landed, hl]
  have ht : t = s.complete pc lc l.length f := drainMx_of_absent lc n (by rwa [hgone])
  rw [ht]
  exact ⟨hmem, by rw [hc]; rfl, hgone, fun j => by rw [hc]; rfl⟩

variable (hl : (s.core pc).inflight = l ++ [f]) (h : ∀ x ∈ l, ¬ (x.eng = .mx ∧ x.strm = st)) (he : f.eng = .mx) (hs : f.strm = st)
include hl h he hs

theorem State.drainMx_gopen (ho : opcodeOf f.ent.word = 0x020) : State.drainMx lc st (n + 1) s pc = State.drainMx lc st n (s.complete pc lc l.length f) pc := by
  simp only [State.drainMx, Core.oldest_of_last hl h he hs, ho]

theorem State.drainMx_gclose (ho : opcodeOf f.ent.word = 0x021) : State.drainMx lc st (n + 1) s pc =
    State.drainMx lc st n ((s.closeGroups pc (opf f.ent 0 4) (opf f.ent 4 5) (opf f.ent 9 6)).complete pc lc l.length f) pc := by
  simp only [State.drainMx, Core.oldest_of_last hl h he hs, ho]

end Last

/-- A zero-latency word that may issue and is not refused leaves its queue, completes and is gone: it does `g` as it issues, and `v` is the state as it
completes. -/
theorem State.issueWord_completes {lc : Fin 64} {st : Stream} {opc : Nat} {tok : BitVec 16} {ops : BitVec 96} {pc : Nat} {e : QEntry} {r : List QEntry}
    {s u v : State} {check : State → Nat → QEntry → Option Refuse} {g : State → Nat → QEntry → State}
    (h : IssuesNext lc st .mx (mkWord 1 opc tok ops) pc e r s) (hc : check s pc e = none) (hopc : opc < 2 ^ 12)
    (hg : g (s.setCore pc ((s.core pc).issueHead .mx st e r)) pc e = u)
    (hu : SameWords pc (s.setCore pc ((s.core pc).issueHead .mx st e r)) u) (hv : SameWords pc u v)
    (hd : ∀ l f, (u.core pc).inflight = l ++ [f] → (∀ x ∈ l, ¬ (x.eng = .mx ∧ x.strm = st)) → f.eng = .mx → f.strm = st → f.ent = e →
      opcodeOf f.ent.word = opc → State.drainMx lc st 64 u pc = State.drainMx lc st 63 (v.complete pc lc l.length f) pc) :
    let t := s.issueWord lc st .mx opc tok ops check (fun s pc e => .ok (State.drainMx lc st 64 (g s pc e) pc))
    t.mem = s.mem ∧ (t.core pc).queue .mx st = r ∧ (t.core pc).inflight = (s.core pc).inflight ∧ ∀ j, (t.core pc).array j = (v.core pc).array j := by
  intro t
  have ht : t = (State.drainMx lc st 64 u pc).countIssue pc st := State.issueWord_of_issuesNext h hc (by rw [hg])
  obtain ⟨-, -, hw, -, -, -, -, hfree, hfits⟩ := h
  have hcore : (s.setCore pc ((s.core pc).issueHead .mx st e r)).core pc = (s.core pc).issueHead .mx st e r := s.core_setCore_same ..
  obtain ⟨f, hf, hent, heng, hstrm⟩ := (s.core pc).last_issueHead .mx st e r
  have hlu : (u.core pc).inflight = (s.core pc).inflight ++ [f] := by rw [hu.core.inflight, hcore, hf]
  have hlv : (v.core pc).inflight = (s.core pc).inflight ++ [f] := hv.core.inflight.trans hlu
  have hopcode : opcodeOf f.ent.word = opc := by rw [hent, hw, opcodeOf_mkWord tok ops hopc]
  have hroom : (toksOf f.ent.word).smode ≠ 0 → (v.core pc).token (toksOf f.ent.word).stok < 65535 := by
    rw [hent, hw, (hu.trans hv).core.token, hcore]
    exact fun h0 => (Core.token_issueHead_le ..).trans_lt (hfits h0)
  obtain ⟨hmem, hq, hin, harr⟩ := State.drainMx_complete_last lc 63 hlv hfree hroom
  rw [← hd _ f hlu hfree heng hstrm hent hopcode] at hmem hq hin harr
  rw [ht, mem_countIssue, core_countIssue]
  refine ⟨hmem.trans (hu.trans hv).mem, ?_, hin, harr⟩
  rw [Core.queue, hq, (hu.trans hv).core.queues, hcore]
  exact Core.queue_issueHead ..

/-! ### The groups that MX.GOPEN opens -/

/-- Group `i` of the run of an MX.GOPEN in one array is opened. -/
def Core.openGroup (st : Stream) (e : QEntry) (c : Core) (j i : Nat) : Core :=
  let a := (c.array j).setGroup (opf e 4 5 + i)
    ⟨gopenDesc e, opf e 15 10 + i * gBytes (gopenDesc e) / 256, true, st, BitVec.allOnes 64, BitVec.allOnes 64, 0, false, false, false, false⟩
  c.setArray j { a with groupErrs := mapErase a.groupErrs (opf e 4 5 + i) }

theorem gopenAct_eq (st : Stream) (c : Core) (e : QEntry) :
    gopenAct st c e = (maskBits (opf e 0 4) 4).foldl (fun c j => (span 0 (opf e 9 6)).foldl (fun c i => c.openGroup st e j i) c) c := rfl

theorem sameWords_gopenAct (st : Stream) (c : Core) (e : QEntry) : c.SameWords (gopenAct st c e) :=
  .foldl (fun _ _ => .foldl (fun _ _ => .setArray ..) _ _) _ c

/-- Is group `i` of the run open in an array, with the word's descriptor and owned by its stream? -/
def Core.GroupOpened (st : Stream) (e : QEntry) (c : Core) (j i : Nat) : Prop :=
  ((c.array j).group (opf e 4 5 + i)).isOpen = true ∧ ((c.array j).group (opf e 4 5 + i)).desc = gopenDesc e ∧
    ((c.array j).group (opf e 4 5 + i)).owner = st

/-- A group is opened by its own step and by no other step undone. -/
theorem Core.groupOpened_openGroup {st : Stream} {e : QEntry} {c : Core} {j i j' i' : Nat} (h : (j = j' ∧ i = i') ∨ c.GroupOpened st e j i) :
    (c.openGroup st e j' i').GroupOpened st e j i := by
  unfold GroupOpened openGroup
  dsimp only
  rw [array_setArray]
  by_cases hj : j = j'
  · subst hj
    rw [if_pos rfl]
    simp only [ArrayState.group, ArrayState.setGroup, mapGet_mapSet]
    split
    · exact ⟨rfl, rfl, rfl⟩
    · next hi => exact h.resolve_left (fun hij => hi (by rw [hij.2]))
  · rw [if_neg hj]
    exact h.resolve_left (fun hij => hj hij.1)

theorem Core.groupOpened_gopenAct (st : Stream) (e : QEntry) (c : Core) :
    ∀ j ∈ maskBits (opf e 0 4) 4, ∀ i ∈ span 0 (opf e 9 6), (gopenAct st c e).GroupOpened st e j i := by
  rw [gopenAct_eq]
  refine foldl_establishes (P := fun j c => ∀ i ∈ span 0 (opf e 9 6), Core.GroupOpened st e c j i) (fun c j => ?_) (fun c j j' h i hi => ?_) _ c
  · exact foldl_establishes (P := fun i c => Core.GroupOpened st e c j i) (fun _ _ => groupOpened_openGroup (.inl ⟨rfl, rfl⟩))
      (fun _ _ _ h => groupOpened_openGroup (.inr h)) _ c
  · exact List.foldlRecOn (motive := fun c => Core.GroupOpened st e c j i) _ _ (h i hi) (fun _ hc _ _ => groupOpened_openGroup (.inr hc))

theorem exec_mxGopen_issue (lc : Fin 64) (st : Stream) (tok : BitVec 16) (ops : BitVec 96) (s : State) : exec (.mxGopen lc st .issue tok ops) s =
    .next (s.issueWord lc st .mx 0x020 tok ops (gopenCheck st) (fun s pc e => .ok (State.drainMx lc st 64 (s.modCore pc (fun c => gopenAct st c e)) pc))) := rfl

/-! ### MX.GCLOSE -/

/-- Refusals of MX.GCLOSE (R132). -/
def gcloseCheck (st : Stream) (s : State) (pc : Nat) (e : QEntry) : Option Refuse :=
  firstRefuse [refuseIf (opf e 15 81 != 0 || groupRunBad (opf e 0 4) (opf e 4 5) (opf e 9 6)) 0x02,
    namedGroupFault st (s.core pc) (opf e 0 4) (opf e 4 5) (opf e 9 6)]

/-- The corrections that MX.GCLOSE counts as it reads the entries of its groups (R211). -/
def gcloseCount (s : State) (pc : Nat) (e : QEntry) : State :=
  s.coreBump pc fSpadCorrCntCount
    ((maskBits (opf e 0 4) 4).foldl (fun n j => n + ((s.core pc).array j).groupsFixed (span (opf e 4 5) (opf e 9 6))) 0)

theorem exec_mxGclose_issue (lc : Fin 64) (st : Stream) (tok : BitVec 16) (ops : BitVec 96) (s : State) : exec (.mxGclose lc st .issue tok ops) s =
    .next (s.issueWord lc st .mx 0x021 tok ops (gcloseCheck st) (fun s pc e => .ok (State.drainMx lc st 64 (gcloseCount s pc e) pc))) := rfl

/-- Settles O22: each word acts as it completes, which it does as it issues. -/
theorem groupsOpenAndClose : Obligations.GroupsOpenAndClose := by
  refine ⟨fun lc st tok ops pc e r s h hc => ?gopen, fun lc st tok ops pc e r s h hz hrun hnamed => ?gclose⟩
  case gopen =>
    obtain ⟨hmem, hq, hin, harr⟩ := State.issueWord_completes (g := fun s pc e => s.modCore pc (fun c => gopenAct st c e)) h hc (by decide) rfl
      (.modCore (sameWords_gopenAct ..)) (.refl _) (fun _ _ hl hn he hs _ ho => State.drainMx_gopen lc 63 hl hn he hs ho)
    refine ⟨_, exec_mxGopen_issue .., hmem, hq, hin, fun j hj i hi => ?_⟩
    dsimp only
    rw [harr, State.core_modCore_same]
    exact Core.groupOpened_gopenAct st e _ j hj i (mem_span.mpr ⟨Nat.zero_le i, by omega⟩)
  case gclose =>
    have hc : gcloseCheck st s pc e = none := by simp [gcloseCheck, hz, hrun, hnamed]
    obtain ⟨hmem, hq, hin, harr⟩ := State.issueWord_completes (g := gcloseCount) h hc (by decide) rfl (State.sameWords_coreBump ..)
      (State.sameWords_closeGroups ..) (fun _ _ hl hn he hs hent ho => hent ▸ State.drainMx_gclose lc 63 hl hn he hs ho)
    refine ⟨_, exec_mxGclose_issue .., hmem, hq, hin, fun j hj i hi => ?_⟩
    rw [harr]
    exact State.groupShut_closeGroups _ pc _ _ _ j hj _ (mem_span.mpr ⟨Nat.le_add_right .., by omega⟩)

end Sys2Proof.Machine
end

section
/-! The issue of VLD and VST (R162 to R164), and of VACC, which reads its group as the MX.MMAs in flight leave it (R140, R165). -/

namespace Sys2Proof.Machine

/-! ### Results at issue -/

/-- What a word changes of its core as it leaves the head of its queue. -/
theorem Core.issueHead_eq (c : Core) (eng : Engine) (st : Stream) (e : QEntry) (r : List QEntry) :
    c.issueHead eng st e r = { c with
      queues := (c.issueHead eng st e r).queues, tokens := (c.issueHead eng st e r).tokens
      inflight := (c.issueHead eng st e r).inflight, issued := (c.issueHead eng st e r).issued } := by
  unfold issueHead
  rw [takeToken_eq]
  rfl

@[simp] theorem Core.spad_setResults (c : Core) (w : VxWrites) : (c.setResults w).spad = c.spad := by
  unfold setResults mapLast
  split <;> rfl

/-- A word that may issue, is not refused and writes results to the word issued last: `u` is the state they are written in, and `g` its last word in
flight. -/
theorem exec_issue_setResults {i : Instr} {lc : Fin 64} {st : Stream} {eng : Engine} {opc : Nat} {tok : BitVec 16} {ops : BitVec 96} {pc : Nat} {e : QEntry}
    {r : List QEntry} {s u : State} {check : State → Nat → QEntry → Option Refuse} {act : State → Nat → QEntry → Except (Refuse × State) State}
    {w : VxWrites} {l : List InFlight} {g : InFlight} (hi : exec i s = .next (s.engineWord lc st .issue eng opc tok ops check act))
    (h : IssuesNext lc st eng (mkWord eng.code opc tok ops) pc e r s) (hc : check s pc e = none)
    (ha : act (s.setCore pc ((s.core pc).issueHead eng st e r)) pc e = .ok (u.modCore pc (fun k => k.setResults w))) (hm : u.mem = s.mem)
    (hq : (u.core pc).queues = ((s.core pc).issueHead eng st e r).queues) (hl : (u.core pc).inflight = l ++ [g]) :
    ∃ t, exec i s = .next t ∧ t.mem = s.mem ∧ (t.core pc).queue eng st = r ∧ (t.core pc).inflight = l ++ [{ g with vx := w }] ∧
      (t.core pc).spad = (u.core pc).spad := by
  refine ⟨_, hi, ?_⟩
  rw [State.engineWord, State.issueWord_of_issuesNext h hc ha, State.mem_countIssue, State.core_countIssue, State.core_modCore_same]
  refine ⟨hm, ?_, Core.inflight_setResults hl w, Core.spad_setResults ..⟩
  rw [Core.queue_setResults, Core.queue, hq]
  exact Core.queue_issueHead ..

/-! ### Scratchpad reads of a core whose word has issued -/

/-- What is read depends on how each word is decoded. -/
theorem spadReads_of_decode {pc : Nat} {c c' : Core} (h : spadDecode pc c' = spadDecode pc c) (ws : List Nat) : spadReads pc c' ws = spadReads pc c ws := by
  induction ws with
  | nil => rfl
  | cons a ws ih => rw [spadReads, ih, h, spadReads]

@[simp] theorem spadReads_issueHead (pc : Nat) (c : Core) (eng : Engine) (st : Stream) (e : QEntry) (r : List QEntry) (ws : List Nat) :
    spadReads pc (c.issueHead eng st e r) ws = spadReads pc c ws :=
  spadReads_of_decode (by rw [Core.issueHead_eq]; rfl) ws

@[simp] theorem Core.spad_issueHead (c : Core) (eng : Engine) (st : Stream) (e : QEntry) (r : List QEntry) : (c.issueHead eng st e r).spad = c.spad := by
  rw [issueHead_eq]

/-- A write can be merged where its partial words can be read. -/
theorem spadMerge_ok_iff {pc : Nat} {c : Core} {ws : List (Nat × SpadBits × SpadBits)} :
    (∃ z, spadMerge pc c ws = .ok z) ↔ (spadReads pc c ((ws.filter (fun e => e.2.2 != BitVec.allOnes 512)).map Prod.fst)).bad = none := by
  unfold spadMerge
  dsimp only
  split
  · next hb => exact iff_of_false (fun ⟨_, h⟩ => nomatch h) (fun h => nomatch hb.symm.trans h)
  · next hb => exact iff_of_true ⟨_, rfl⟩ hb

/-- A write that could be merged before its word issued can be merged then. -/
theorem spadMerge_issueHead {pc : Nat} {c : Core} {ws : List (Nat × SpadBits × SpadBits)} {z : Core × List (Nat × Nat)} (eng : Engine) (st : Stream)
    (e : QEntry) (r : List QEntry) (h : spadMerge pc c ws = .ok z) : ∃ z', spadMerge pc (c.issueHead eng st e r) ws = .ok z' := by
  rw [spadMerge_ok_iff, spadReads_issueHead]
  exact spadMerge_ok_iff.mp ⟨z, h⟩

/-! ### MX.MMAs in flight that get some way -/

/-- A word in flight but for the rows of its MX.MMA. -/
def InFlight.withoutRows (f : InFlight) : InFlight := { f with mma := .none }

/-- `c'` differs from `c` in its arrays, and in its words in flight only in the rows of their MX.MMAs. -/
structure Core.RowsOnly (c c' : Core) : Prop where
  rest : c' = { c with arrays := c'.arrays, inflight := c'.inflight }
  words : c'.inflight.map InFlight.withoutRows = c.inflight.map InFlight.withoutRows

namespace Core.RowsOnly

variable {c c' c'' : Core}

theorem refl (c : Core) : RowsOnly c c := ⟨rfl, rfl⟩

theorem trans (h : RowsOnly c c') (h' : RowsOnly c' c'') : RowsOnly c c'' where
  rest := calc
    c'' = { c' with arrays := c''.arrays, inflight := c''.inflight } := h'.rest
    _ = { c with arrays := c''.arrays, inflight := c''.inflight } := congrArg (fun k : Core => { k with arrays := c''.arrays, inflight := c''.inflight }) h.rest
  words := h'.words.trans h.words

theorem queues (h : RowsOnly c c') : c'.queues = c.queues := by rw [h.rest]

theorem vctx (h : RowsOnly c c') (st : Stream) : c'.vctx st = c.vctx st := by
  rw [h.rest]
  cases st <;> rfl

/-- The last word in flight is still the last, with another count of rows at most. -/
theorem last (h : RowsOnly c c') {l : List InFlight} {f : InFlight} (hl : c.inflight = l ++ [f]) :
    ∃ l' g, c'.inflight = l' ++ [g] ∧ g.withoutRows = f.withoutRows := by
  have hw := h.words
  rw [hl, List.map_append] at hw
  obtain ⟨l', m, hin, -, hm⟩ := List.map_eq_append_iff.mp hw
  obtain ⟨g, rfl, hg⟩ := List.map_eq_singleton_iff.mp hm
  exact ⟨l', g, hin, hg⟩

end Core.RowsOnly

/-- Rows reach arrays only. -/
theorem mmaRowsOn_eq (c : Core) (f : InFlight) (n : Nat) : mmaRowsOn c f n = { c with arrays := (mmaRowsOn c f n).arrays } := by
  unfold mmaRowsOn
  refine List.foldlRecOn (motive := fun k : Core => k = { c with arrays := k.arrays }) _ _ rfl (fun k hk p _ => ?_)
  dsimp only
  have set (a : ArrayState) : k.setArray p.2 a = { c with arrays := (k.setArray p.2 a).arrays } :=
    congrArg (fun x : Core => { x with arrays := (k.setArray p.2 a).arrays }) hk
  split
  · split
    · exact set _
    · exact hk
  · exact set _

theorem Core.rowsOnly_mmaTo (c : Core) (i k : Nat) : c.RowsOnly (c.mmaTo i k) := by
  unfold mmaTo
  split
  · exact .refl c
  · next f hf =>
    split
    · exact .refl c
    · refine ⟨congrArg (fun x : Core => { x with inflight := c.inflight.set i { f with mma := { f.mma with done := k } } }) (mmaRowsOn_eq c f _), ?_⟩
      obtain ⟨hi, rfl⟩ := List.getElem?_eq_some_iff.mp hf
      have hset := List.set_getElem_self (as := c.inflight.map InFlight.withoutRows) (i := i) (by rwa [List.length_map])
      rw [List.getElem_map] at hset
      rw [List.map_set]
      exact hset

/-- `t` has the memory and the registers of `s`, and on core `pc` only rows differ. -/
structure RowsOnly (pc : Nat) (s t : State) : Prop where
  mem : t.mem = s.mem
  regs : t.regs = s.regs
  core : (s.core pc).RowsOnly (t.core pc)

/-- However far the MX.MMAs of a stream get, only rows differ. -/
theorem State.rowsOnly_mmaDrift (s : State) (pc : Nat) (st : Stream) (j g : Nat) : RowsOnly pc s (s.mmaDrift pc st j g) := by
  have same : RowsOnly pc s s := ⟨rfl, rfl, .refl _⟩
  unfold mmaDrift
  dsimp only
  split
  · exact same
  · refine List.foldlRecOn (motive := fun r : Bool × State => RowsOnly pc s r.2) _ _ same (fun r hr p _ => ?_)
    split
    · exact hr
    · refine ⟨hr.mem, hr.regs, hr.core.trans ?_⟩
      rw [core_modCore_same]
      exact Core.rowsOnly_mmaTo ..

/-! ### The generator state of a core (R160) -/

theorem State.srEnv_of_regs {s t : State} (h : t.regs = s.regs) (pc : Nat) : t.srEnv pc = s.srEnv pc := by
  have hreg (d off : Nat) : t.reg d off = s.reg d off := by rw [reg, h, reg]
  simp only [srEnv, coreGet, getF, hreg]

/-- Counting in a register apart from seed and step leaves the generator state. -/
theorem State.srEnv_coreBump (s : State) (pc : Nat) {f : Fld} (k : Nat) (hseed : fVxSrSeedSeed.off ≠ f.off) (hstep : fVxSrStepStep.off ≠ f.off) :
    (s.coreBump pc f k).srEnv pc = s.srEnv pc := by
  have apart {x : Fld} (v : Nat) (hx : x.off ≠ f.off) : (s.setF (pcDie pc) (coreF pc f) v).reg (pcDie pc) (coreF pc x).off = s.reg (pcDie pc) (coreF pc x).off :=
    s.reg_setF_other v (regKey_ne_off (fun h => hx (Nat.add_right_cancel h)))
  unfold coreBump
  split
  · rfl
  · simp only [bump, srEnv, coreGet, getF, apart _ hseed, apart _ hstep]

/-- Settles O31, a word at a time: each writes its results to the word issued last. -/
theorem vectorLoadsAndStoresIssue : Obligations.VectorLoadsAndStoresIssue := by
  intro lc st tok ops pc e r s k c
  let u := s.setCore pc (k.issueHead .vx st e r)
  have hu : u.core pc = k.issueHead .vx st e r := s.core_setCore_same ..
  obtain ⟨f, hf, hent, heng, hstrm⟩ := k.last_issueHead .vx st e r
  refine ⟨fun h hc hbad => ?vld, fun z h hc hz => ?vst, fun h hc => ?vacc⟩
  case vld =>
    let rd := spadReads pc k (lmWords c e ++ lmTagWords c e)
    let v := (u.noteSpad pc lc rd.corrs 0).checkRead pc lc (k.issueHead .vx st e r) (lmWords c e ++ lmTagWords c e) e.word
    have hv : SameWords pc u v := (u.sameWords_noteSpad ..).trans (State.sameWords_checkRead ..)
    have hi : exec (.vld lc st .issue tok ops) s = .next (s.engineWord lc st .issue .vx 0x080 tok ops _ _) := rfl
    obtain ⟨t, ht, hm, hq, hin, -⟩ := exec_issue_setResults (u := v) hi h hc
      (by
        dsimp only
        rw [hu, Core.vctx_issueHead, spadReads_issueHead, hbad]
        rfl)
      hv.mem (hv.core.queues.trans (by rw [hu])) (hv.core.inflight.trans (by rw [hu]; exact hf))
    exact ⟨t, _, ht, hm, hq, hin, rfl⟩
  case vst =>
    obtain ⟨z', hz'⟩ := spadMerge_issueHead .vx st e r hz
    have hi : exec (.vst lc st .issue tok ops) s = .next (s.engineWord lc st .issue .vx 0x081 tok ops _ _) := rfl
    obtain ⟨t, ht, hm, hq, hin, hspad⟩ := exec_issue_setResults (u := u) hi h hc
      (by
        dsimp only
        rw [hu, Core.vctx_issueHead, hz'])
      rfl (by rw [hu]) (by rw [hu]; exact hf)
    exact ⟨t, _, ht, hm, hq, hin, by rw [hspad, hu, Core.spad_issueHead], rfl⟩
  case vacc =>
    intro a ha
    let d := u.mmaDrift pc st (accArray e) (accGroup e)
    let b := a.scanEls (accGroup e) (accStart (a.group (accGroup e)).desc e) c.vl
    let v := d.coreBump pc fSpadCorrCntCount (b.2 + a.groupsFixed [accGroup e])
    have hd : RowsOnly pc u d := u.rowsOnly_mmaDrift pc st _ _
    have hv : v.core pc = d.core pc := by rw [State.core, (d.coreBump_regsOnly ..).cores, State.core]
    have hctx : (d.core pc).vctx st = c := (hd.core.vctx st).trans (by rw [hu, Core.vctx_issueHead])
    have hsr : v.srEnv pc = s.srEnv pc := (d.srEnv_coreBump pc _ (by decide) (by decide)).trans (State.srEnv_of_regs hd.regs pc)
    obtain ⟨l, g, hl, hg⟩ := hd.core.last (by rw [hu]; exact hf)
    have hi : exec (.vacc lc st .issue tok ops) s = .next (s.engineWord lc st .issue .vx 0x090 tok ops _ _) := rfl
    obtain ⟨t, ht, hm, hq, hin, -⟩ := exec_issue_setResults (u := v) (w := vaccWrites (s.srEnv pc) c a e) hi h hc
      (by
        dsimp only
        rw [hctx]
        split
        · next hbad => exact nomatch hbad.symm.trans (congrArg (Option.map (storeRefuse (accArray e))) ha)
        · exact congrArg (fun x => Except.ok (v.modCore pc (fun k => k.setResults (vaccWrites x c a e)))) hsr)
      ((d.coreBump_regsOnly ..).mem.trans hd.mem) (by rw [hv, hd.core.queues, hu]) (by rw [hv]; exact hl)
    exact ⟨t, { g with vx := vaccWrites (s.srEnv pc) c a e }, ht, hm, hq, hin ▸ List.mem_concat_self, (congrArg InFlight.ent hg).trans hent,
      (congrArg InFlight.eng hg).trans heng, (congrArg InFlight.strm hg).trans hstrm, rfl⟩

end Sys2Proof.Machine
end

section
/-! The integer, predicate, scalar, conversion and movement words of the vector engine as they issue (R149, R153, R157 to R171, R177), and what VPERM and
VSLIDE move (R170). -/

namespace Sys2Proof.Machine

/-! ### Checks -/

theorem refuseIf_eq_none_iff {b : Bool} {cause : Nat} : refuseIf b cause = none ↔ b = false := by
  cases b <;> simp [refuseIf]

theorem firstRefuse_eq_none_iff {l : List (Option Refuse)} : firstRefuse l = none ↔ ∀ x ∈ l, x = none := by
  induction l with
  | nil => simp
  | cons x l ih => cases x <;> simp [firstRefuse, ih]

/-- The register operands of a word that the shared checks pass end at v31 or below (R148). -/
theorem vxCheck_extent {c : VCtx} {opc used r : Nat} {vregs : List Nat} {e : QEntry} (h : vxCheck c opc used vregs e = none) (hr : r ∈ vregs) :
    r + c.ngrp ≤ 32 := by
  simp only [vxCheck, firstRefuse_eq_none_iff, List.forall_mem_cons, refuseIf_eq_none_iff, List.any_eq_false] at h
  obtain ⟨-, -, -, hregs, -⟩ := h
  have hfit := hregs r hr
  simp only [Bool.or_eq_true, decide_eq_true_eq, not_or] at hfit
  omega

/-- A word without a check of its own computes on its context alone. -/
theorem vxGives_of_noCheck {mk : Fin 64 → Stream → Phase → BitVec 16 → BitVec 96 → Instr} {opc used : Nat} {regs : QEntry → List Nat}
    {own : VCtx → QEntry → Bool} {res : SrEnv → VCtx → QEntry → VxWrites}
    (hmk : ∀ lc st tok ops s, exec (mk lc st .issue tok ops) s = .next (s.vxWord lc st .issue opc tok ops used regs noCheck res)) :
    VxGives mk opc used regs own res :=
  vxGives_of_vxWord hmk (fun _ _ _ => rfl)

/-- A word with one check of its own, passed where its condition holds. -/
theorem vxGives_of_refuseIf {mk : Fin 64 → Stream → Phase → BitVec 16 → BitVec 96 → Instr} {opc used cause : Nat} {regs : QEntry → List Nat}
    {own bad : VCtx → QEntry → Bool} {res : SrEnv → VCtx → QEntry → VxWrites}
    (hmk : ∀ lc st tok ops s,
      exec (mk lc st .issue tok ops) s = .next (s.vxWord lc st .issue opc tok ops used regs (fun c e => refuseIf (bad c e) cause) res))
    (hown : ∀ c e, own c e = true → bad c e = false) : VxGives mk opc used regs own res :=
  vxGives_of_vxWord hmk (fun c e h => refuseIf_eq_none_iff.mpr (hown c e h))

/-! ### Integer, predicate and scalar words -/

/-- Settles O27: none of the words has a check of its own. -/
theorem vectorIntegerWordsIssue : Obligations.VectorIntegerWordsIssue := by
  refine ⟨?viadd, ?visub, ?vand, ?vor, ?vxor, ?vshl, ?vshr, ?vsra, ?vnot, ?vbcast, ?viota⟩ <;>
    exact vxGives_of_noCheck (fun _ _ _ _ _ => rfl)

/-- What VX.VSETVL writes: VL, ETYPE and GRP, and VL to s[SD] (R149). -/
def vsetvlWrites (c : VCtx) (e : QEntry) : VxWrites :=
  let vl := min (if fVA e = 0 then opf e 10 11 else c.sreg (fVA e)) (2048 * 2 ^ opf e 25 2 / typeWidth (opf e 21 4))
  { vxScalar (fVD e) vl with vtype := some (vl, opf e 21 4, opf e 25 2) }

@[simp] theorem Core.vctx_setResults (c : Core) (w : VxWrites) (st : Stream) : (c.setResults w).vctx st = c.vctx st := by
  unfold setResults mapLast
  split <;> cases st <;> rfl

/-- A VX.VSETVL that may issue and names a type and a grouping that exist is in flight with its writes. -/
theorem exec_vsetvl_issue {lc : Fin 64} {st : Stream} {tok : BitVec 16} {ops : BitVec 96} {pc : Nat} {e : QEntry} {r : List QEntry} {s : State}
    (h : IssuesNext lc st .vx (mkWord 2 0x001 tok ops) pc e r s) (hx : vxCheck ((s.core pc).vctx st) 0x001 0x7FFFFFF [] e = none)
    (hty : opf e 21 4 ∈ [0, 1, 2, 10, 11]) (hgrp : opf e 25 2 ≠ 3) :
    exec (.vsetvl lc st .issue tok ops) s = .next (((s.setCore pc ((s.core pc).issueHead .vx st e r)).setCore pc
      (((s.core pc).issueHead .vx st e r).setResults (vsetvlWrites ((s.core pc).vctx st) e))).countIssue pc st) := by
  change execVsetvl lc st .issue tok ops s = _
  have hown : (!([0, 1, 2, 10, 11] : List Nat).contains (opf e 21 4) || opf e 25 2 == 3) = false := by
    rw [List.contains_iff_mem.mpr hty, beq_false_of_ne hgrp]
    rfl
  have hc : firstRefuse [vxCheck ((s.core pc).vctx st) 0x001 0x7FFFFFF [] e,
      refuseIf (!([0, 1, 2, 10, 11] : List Nat).contains (opf e 21 4) || opf e 25 2 == 3) 0x02] = none := by
    rw [hx, hown]
    rfl
  unfold execVsetvl State.engineWord
  rw [State.issueWord_of_issuesNext h hc (by simp only [State.modCore, State.core_setCore_same, Core.vctx_issueHead]; rfl)]
  rfl

/-- Settles O29, a word at a time. -/
theorem vectorPredicateAndScalarWordsIssue : Obligations.VectorPredicateAndScalarWordsIssue := by
  refine ⟨?vcmp, ?plogic, ?pcount, ?vsel, ?sli, ?salu, ?smov, ?vsetvl⟩
  case pcount | sli | smov => exact vxGives_of_noCheck (fun _ _ _ _ _ => rfl)
  case vcmp | plogic | vsel | salu =>
    refine vxGives_of_refuseIf (fun _ _ _ _ _ => rfl) (fun _ e he => ?_)
    simp only [Bool.and_eq_true, decide_eq_true_eq, bne_iff_ne, Bool.or_eq_false_iff, decide_eq_false_iff_not, beq_eq_false_iff_ne] at he ⊢
    omega
  case vsetvl =>
    intro lc st tok ops pc e r s h hx hty hgrp
    obtain ⟨f, hf, he⟩ := (s.core pc).inflight_issueHead (eng := .vx) (st := st) (e := e) (r := r)
    exact ⟨_, { f with vx := vsetvlWrites ((s.core pc).vctx st) e }, exec_vsetvl_issue h hx hty hgrp, by simp, by simp, by simp,
      by simp [Core.inflight_setResults hf], he, rfl⟩

/-! ### Conversion and movement words -/

theorem vperm_gives {own : VCtx → QEntry → Bool} :
    VxGives .vperm 0x068 (mVD ||| mVA ||| mVB ||| mPM) (fun e => [fVD e, fVA e, fVB e]) own (fun _ => vxPerm) :=
  vxGives_of_noCheck (fun _ _ _ _ _ => rfl)

theorem vslide_gives {own : VCtx → QEntry → Bool} :
    VxGives .vslide 0x069 (mVD ||| mVA ||| mPM ||| mMOD 1 ||| mSA) (fun e => [fVD e, fVA e]) own (fun _ => vxSlide) :=
  vxGives_of_noCheck (fun _ _ _ _ _ => rfl)

/-- Settles O30, a word at a time: a word's condition denies each refusal of its own. -/
theorem vectorConversionAndMovementWordsIssue : Obligations.VectorConversionAndMovementWordsIssue := by
  refine ⟨vperm_gives, vslide_gives, vxGives_of_noCheck (fun _ _ _ _ _ => rfl), ?vred, ?vsmax, ?vsmerge, ?vmxpack, ?vxcvt, ?vxfold, ?vcvt⟩
  case vsmax | vsmerge | vxcvt => exact vxGives_of_refuseIf (fun _ _ _ _ _ => rfl) (fun c e he => by simpa using he)
  case vmxpack => exact vxGives_of_refuseIf (fun _ _ _ _ _ => rfl) (fun c e he => by simpa [or_iff_not_imp_left] using he)
  case vred | vxfold =>
    refine vxGives_of_vxWord (fun _ _ _ _ _ => rfl) (fun c e he => ?_)
    simp only [Bool.and_eq_true, Bool.or_eq_true, beq_iff_eq, decide_eq_true_eq] at he
    simp [firstRefuse_eq_none_iff, refuseIf_eq_none_iff]
    omega
  case vcvt =>
    refine vxGives_of_vxWord (fun _ _ _ _ _ => rfl) (fun c e he => ?_)
    simp only [Bool.and_eq_true, Bool.or_eq_true, beq_iff_eq, bne_iff_ne, decide_eq_true_eq, Bool.not_eq_true'] at he
    obtain ⟨⟨⟨hcodes, hsr⟩, hdir⟩, hfit⟩ := he
    have hnarrow : fMOD e 7 1 = 0 → fMOD e 0 4 ≠ c.etype ∧ fPM e = 0 := fun h0 => hdir.resolve_left (by omega)
    simpa [firstRefuse_eq_none_iff, refuseIf_eq_none_iff] using And.intro ⟨hcodes, hsr⟩ ⟨hnarrow, hfit⟩

/-! ### Moved elements (R170) -/

theorem nodup_span (a n : Nat) : (span a n).Nodup := by
  induction n generalizing a with
  | zero => exact List.nodup_nil
  | succ n ih => exact List.nodup_cons.mpr ⟨fun h => absurd (mem_span.mp h).1 (by omega), ih _⟩

theorem VCtx.mem_active {c : VCtx} {pm i : Nat} : i ∈ c.active pm ↔ i < c.vl ∧ bit (c.pred pm) i = true := by
  simp [active]

theorem VCtx.nodup_active (c : VCtx) (pm : Nat) : (c.active pm).Nodup := (nodup_span 0 c.vl).filter _

/-- Of results listed by element, the one of element `i`. -/
theorem find?_graph {l : List Nat} (g : Nat → Nat) (i : Nat) :
    (l.map (fun k => (k, g k))).find? (fun x => x.1 == i) = if i ∈ l then some (i, g i) else none := by
  induction l with
  | nil => rfl
  | cons k l ih =>
    rw [List.map_cons, List.find?_cons, ih]
    by_cases hk : k = i
    · simp [hk]
    · simp [beq_false_of_ne hk, Ne.symm hk]

/-- After a word has written a result to each active element, active elements hold their results and the others what they held (R150). -/
theorem VCtx.elemAt_group_active (c : VCtx) {r pm i : Nat} (g : Nat → Nat) (hn : c.grp ≤ 3) (hr : r + c.ngrp ≤ 32) (hi : c.width * (i + 1) ≤ 2048 * c.ngrp) :
    elemAt ((c.applyWrites (vxElems r c.width ((c.active pm).map (fun k => (k, g k))))).group r c.ngrp) c.width i =
      if i < c.vl ∧ bit (c.pred pm) i = true then g i % 2 ^ c.width else elemAt (c.group r c.ngrp) c.width i := by
  have h8 : c.ngrp ≤ 8 := Nat.pow_le_pow_right (by decide) hn
  have hl : (((c.active pm).map (fun k => (k, g k))).map Prod.fst).Nodup := by
    rw [List.map_map]
    exact (List.map_id _).symm ▸ c.nodup_active pm
  rw [c.elemAt_group_vxElems h8 hr hl hi, find?_graph]
  simp only [mem_active]
  split <;> rfl

/-- A group is read from the vector registers alone. -/
theorem VCtx.group_of_v {c c' : VCtx} (h : c'.v = c.v) (n : Nat) : ∀ r, c'.group r n = c.group r n := by
  induction n with
  | zero => exact fun _ => rfl
  | succ n ih => exact fun r => by rw [group, group, ih, vreg, h, vreg]

/-- Moved elements reach their group as any elements do, whether or not tags move with them. -/
theorem VCtx.group_moved (c : VCtx) (r n : Nat) (l : List (Nat × Elem)) :
    (c.applyWrites (c.moved r l)).group r n = (c.applyWrites (vxElems r c.width (l.map (fun x => (x.1, x.2.bits))))).group r n := by
  unfold moved
  split
  · refine group_of_v ?_ n r
    rfl
  · rfl

/-- What a gather takes from position `j` of a group: its element, zero outside 0 to VL − 1. -/
theorem VCtx.bits_gathered (c : VCtx) (r : Nat) (j : Int) :
    (c.gathered r j).bits % 2 ^ c.width = if 0 ≤ j ∧ j < (c.vl : Int) then elemAt (c.group r c.ngrp) c.width j.toNat else 0 := by
  unfold gathered
  split
  · exact Nat.mod_eq_of_lt (natBits_lt ..)
  · exact Nat.zero_mod _

/-- After a gather into the group at `d`, active elements are those of the group at `a` in the places that `src` names. -/
theorem VCtx.elemAt_group_gathered (c : VCtx) {d a pm i : Nat} (src : Nat → Int) (hn : c.grp ≤ 3) (hr : d + c.ngrp ≤ 32)
    (hi : c.width * (i + 1) ≤ 2048 * c.ngrp) :
    elemAt ((c.applyWrites (c.moved d ((c.active pm).map (fun k => (k, c.gathered a (src k)))))).group d c.ngrp) c.width i =
      if i < c.vl ∧ bit (c.pred pm) i = true then
        (if 0 ≤ src i ∧ src i < (c.vl : Int) then elemAt (c.group a c.ngrp) c.width (src i).toNat else 0)
      else elemAt (c.group d c.ngrp) c.width i := by
  rw [group_moved, List.map_map, ← c.bits_gathered a (src i)]
  exact c.elemAt_group_active (fun k => (c.gathered a (src k)).bits) hn hr hi

/-- Settles O33: both words are gathers into the active elements of VD. -/
theorem vectorPermutesMoveElements : Obligations.VectorPermutesMoveElements := by
  intro lc st tok ops pc e r s c w moves _ hn _
  refine ⟨fun h hx => ?vperm, fun h hx => ?vslide⟩
  case vperm =>
    obtain ⟨t, f, ht, -, -, hin, he, hvx⟩ := vperm_gives (own := fun _ _ => true) lc st tok ops pc e r s h hx rfl
    refine ⟨t, f, ht, hin, he, fun i hi => ?_⟩
    rw [hvx]
    exact c.elemAt_group_gathered _ hn (vxCheck_extent hx (by simp)) hi
  case vslide =>
    obtain ⟨t, f, ht, -, -, hin, he, hvx⟩ := vslide_gives (own := fun _ _ => true) lc st tok ops pc e r s h hx rfl
    refine ⟨t, f, ht, hin, he, fun i hi => ?_⟩
    have hmode : fMOD e 0 1 = 0 ↔ ¬ fMOD e 0 1 = 1 := by
      have : fMOD e 0 1 < 2 := fld_lt ..
      omega
    rw [hvx]
    simp only [hmode, ite_not]
    exact c.elemAt_group_gathered _ hn (vxCheck_extent hx (by simp)) hi

end Sys2Proof.Machine
end

section
/-!
Every step keeps the registers and stack memory in their canonical form (O60). Here: what the form rests on, and the updates that make up every command.

In the sections below each function of the machine that answers a state has one lemma, under the function's name, that it keeps the form, in the order of the
model's files; a command's lemma cites those of what it calls. A function that leaves registers and the five tables of stack memory as they are has none:
`State.Canon.of` sees that. The lemmas are elaborated one after another, as a thread for each takes too much memory.
-/

namespace Sys2Proof.Machine

namespace State.Canon

variable {s t : State}

/-- The form is one of registers, bytes, granule metadata, wrong symbols and regions alone. -/
theorem of (h : s.Canon) (hr : t.regs = s.regs := by rfl) (hd : t.mem.data = s.mem.data := by rfl) (hg : t.mem.gmeta = s.mem.gmeta := by rfl)
    (he : t.mem.errs = s.mem.errs := by rfl) (hm : t.mem.regions = s.mem.regions := by rfl) (hf : t.mem.regionRest = s.mem.regionRest := by rfl) :
    t.Canon := by
  have hregion : t.mem.region = s.mem.region := by
    funext r
    rw [MemState.region, MemState.region, hm, hf]
  have hrest : t.mem.metaRest = s.mem.metaRest := by
    unfold MemState.metaRest
    rw [hregion]
  unfold State.Canon MemState.wf
  rw [hr, hd, hg, he, hm, hf, hrest]
  exact h

/-- Memory takes another value in the form. -/
theorem withMem (h : s.Canon) (hm : t.mem.wf) (hr : t.regs = s.regs := by rfl) : t.Canon := by
  unfold State.Canon
  rw [hr]
  exact ⟨h.1, hm⟩

/-- The state that an operation answers beside a result. -/
theorem of_eq {α : Type} {p : α × State} {x : α} (h : p.2.Canon) (e : p = (x, t)) : t.Canon := by
  subst e
  exact h

theorem ite {c : Prop} [Decidable c] (h : s.Canon) (h' : t.Canon) : (if c then s else t).Canon := by
  split
  · exact h
  · exact h'

theorem iteSnd {α : Type} {c : Prop} [Decidable c] {p q : α × State} (h : p.2.Canon) (h' : q.2.Canon) : (if c then p else q).2.Canon := by
  split
  · exact h
  · exact h'

theorem foldl {α : Type} {f : State → α → State} (hf : ∀ u a, u.Canon → (f u a).Canon) {l : List α} (h : s.Canon) : (l.foldl f s).Canon := by
  induction l generalizing s with
  | nil => exact h
  | cons a l ih => exact ih (hf s a h)

/-- A fold that carries a result beside the state. -/
theorem foldlSnd {α β : Type} {f : β × State → α → β × State} (hf : ∀ p a, p.2.Canon → (f p a).2.Canon) {l : List α} {p : β × State} (h : p.2.Canon) :
    (l.foldl f p).2.Canon := by
  induction l generalizing p with
  | nil => exact h
  | cons a l ih => exact ih (hf p a h)

theorem setReg {d off v} (h : s.Canon) : (s.setReg d off v).Canon := ⟨mapWf_set _ _ h.1, h.2⟩

theorem setF {d f v} (h : s.Canon) : (s.setF d f v).Canon := h.setReg

theorem bump {d f k} (h : s.Canon) : (s.bump d f k).Canon := h.setF

theorem coreSet {pc f v} (h : s.Canon) : (s.coreSet pc f v).Canon := h.setF

theorem coreBump {pc f k} (h : s.Canon) : (s.coreBump pc f k).Canon := .ite h h.bump

theorem put {g v k} (h : s.Canon) : ({ s with mem := s.mem.put g v k } : State).Canon := h.withMem (MemState.wf_put h.2 ..)

theorem damage {g l} (h : s.Canon) : ({ s with mem := s.mem.damage g l } : State).Canon := h.withMem (MemState.wf_damage h.2 ..)

/-- Registers taken back to their reset values leave the form. -/
theorem dropRegs {p} (h : s.Canon) : ({ s with regs := mapDrop p s.regs } : State).Canon := ⟨mapWf_drop p h.1, h.2⟩

end State.Canon

/-- A command that goes on goes on to a state in the form. -/
def LandsCanon : Host.Outcome State Fault Refusal → Prop
  | .next t => t.Canon
  | .fault _ => True
  | .refused _ => True

/-- What a word does at issue leaves the form, whether it acts or refuses late. -/
def ActCanon : Except (Refuse × State) State → Prop
  | .ok t => t.Canon
  | .error r => r.2.Canon

/-- If an attempt answers a state, the state is in the form. -/
def GivesCanon (o : Option State) : Prop := ∀ t, o = some t → t.Canon

namespace GivesCanon

variable {s : State} {o o' : Option State}

theorem some (h : s.Canon) : GivesCanon (Option.some s) := by
  intro _ e
  cases e
  exact h

theorem none : GivesCanon Option.none := by
  intro _ e
  cases e

theorem ite {c : Prop} [Decidable c] (h : GivesCanon o) (h' : GivesCanon o') : GivesCanon (if c then o else o') := by
  split
  · exact h
  · exact h'

theorem dite {c : Prop} [Decidable c] {f : c → Option State} {g : ¬c → Option State} (h : ∀ e, GivesCanon (f e)) (h' : ∀ e, GivesCanon (g e)) :
    GivesCanon (if e : c then f e else g e) := by
  split
  · exact h _
  · exact h' _

end GivesCanon

/-- An attempt leaves the form: the state it goes on with, if it does, and the state it leaves. -/
structure TriesCanon (p : Option State × State) : Prop where
  fst : ∀ t, p.1 = some t → t.Canon
  snd : p.2.Canon

namespace TriesCanon

variable {s t : State} {o : Option State} {p q : Option State × State}

theorem some (h : s.Canon) (h' : t.Canon) : TriesCanon (some s, t) := ⟨fun _ e => Option.some.inj e ▸ h, h'⟩

theorem none (h : s.Canon) : TriesCanon (Option.none, s) := ⟨fun _ e => (nomatch e), h⟩

theorem of_some (h : TriesCanon p) (e : p = (Option.some s, t)) : s.Canon := h.fst s (congrArg Prod.fst e)

theorem of_eq (h : TriesCanon p) (e : p = (o, t)) : t.Canon := h.snd.of_eq e

end TriesCanon

end Sys2Proof.Machine
end

section
/-! The canonical form under what a command and a connection change (O60). -/

namespace Sys2Proof.Machine

set_option Elab.async false

variable {s t u : State}

theorem State.Canon.setDie {d v} (h : s.Canon) : (s.setDie d v).Canon := h.of

theorem State.Canon.modDie {d f} (h : s.Canon) : (s.modDie d f).Canon := h.of

theorem State.Canon.setCore {pc c} (h : s.Canon) : (s.setCore pc c).Canon := h.of

theorem State.Canon.modCore {pc f} (h : s.Canon) : (s.modCore pc f).Canon := h.of

theorem State.Canon.send {m} (h : s.Canon) : (s.send m).Canon := h.of

theorem State.Canon.setFunc {id v} (h : s.Canon) : (s.setFunc id v).Canon := h.of

theorem State.Canon.showIdle {v} (h : s.Canon) : (s.showIdle v).Canon := .foldl (fun _ _ h => h.setF) h

theorem State.Canon.ethOut {p dst etype payload} (h : s.Canon) : (s.ethOut p dst etype payload).Canon := .ite h.bump.send h

theorem State.Canon.ip6Out {p mac src dst next payload} (h : s.Canon) : (s.ip6Out p mac src dst next payload).Canon := h.ethOut

theorem State.Canon.icmp6Out {p mac src dst typ rest} (h : s.Canon) : (s.icmp6Out p mac src dst typ rest).Canon := h.ip6Out

theorem State.Canon.arpOut {p dmac op tmac tip} (h : s.Canon) : (s.arpOut p dmac op tmac tip).Canon := h.ethOut

theorem State.Canon.ip4Out {p mac src dst proto payload} (h : s.Canon) : (s.ip4Out p mac src dst proto payload).Canon := by
  unfold State.ip4Out
  split
  · exact h.ethOut
  · exact h.arpOut

theorem State.Canon.udpOut {e bs} (h : s.Canon) : (s.udpOut e bs).Canon := .ite h.ip6Out h.ip4Out

theorem State.Canon.modCtl {f} (h : s.Canon) : (s.modCtl f).Canon := h.of

theorem State.Canon.showCtl (h : s.Canon) : s.showCtl.Canon := h.setF.setF

theorem State.Canon.setConn {c} (h : s.Canon) : (s.setConn c).Canon := h.modCtl

theorem State.Canon.segOut {c g} (h : s.Canon) : (s.segOut c g).Canon := h.udpOut

theorem State.Canon.segPlain {c typ data} (h : s.Canon) : (s.segPlain c typ data).Canon := h.segOut

theorem State.Canon.sendAck {c} (h : s.Canon) : (s.sendAck c).Canon := h.setConn.segPlain

theorem State.Canon.rstTo {to_ id reason} (h : s.Canon) : (s.rstTo to_ id reason).Canon := h.bump.udpOut

theorem State.Canon.dropConn {id} (h : s.Canon) : (s.dropConn id).Canon := h.modCtl.showCtl

theorem State.Canon.resetConn {c reason} (h : s.Canon) : (s.resetConn c reason).Canon := h.rstTo.dropConn

theorem State.Canon.pumpConn {id a} (h : s.Canon) : (State.pumpConn id a s).Canon := by
  induction a generalizing s id with
  | zero => exact h
  | succ a ih =>
    unfold State.pumpConn
    split
    · exact h
    · split
      · exact h
      · exact .ite (ih h.setConn.segOut) h

theorem State.Canon.queueSegs {id l} (h : s.Canon) : (s.queueSegs id l).Canon := by
  unfold State.queueSegs
  split
  · exact h
  · exact h.setConn.pumpConn

theorem State.Canon.sendMsg {id bs} (h : s.Canon) : (s.sendMsg id bs).Canon := h.queueSegs

theorem State.Canon.takeAck {id ack window} (h : s.Canon) : (s.takeAck id ack window).Canon := by
  unfold State.takeAck
  split
  · exact h
  · exact h.setConn.pumpConn

theorem State.Canon.resendSeg {c g} (h : s.Canon) : (s.resendSeg c g).Canon := h.setConn.bump.segOut

theorem State.Canon.segArrive {from_ bs} (h : s.Canon) : (s.segArrive from_ bs).Canon := by
  unfold State.segArrive
  split
  · exact h.bump
  · split
    · exact .ite h.resetConn h
    · exact h.rstTo
  · split
    · exact h.modCtl
    · split
      · exact .ite h h.rstTo
      · exact .ite h.setConn.modCtl h

theorem State.Canon.withSeg {typ k} (h : s.Canon) (hk : ∀ c g u, u.Canon → (k c g u).Canon) : (s.withSeg typ k).Canon := by
  unfold State.withSeg
  split
  · exact h
  · dsimp only
    split
    · exact h.modCtl.takeAck
    · exact hk _ _ _ h.modCtl.takeAck

theorem State.Canon.modSession {id f} (h : s.Canon) : (s.modSession id f).Canon := h.modCtl

theorem State.Canon.countStatus {status} (h : s.Canon) : (s.countStatus status).Canon := by
  unfold State.countStatus
  split
  · exact h.bump
  · exact h.bump
  · exact h.bump
  · exact h.bump
  · exact h.bump
  · exact h

theorem State.Canon.refusePacket {conn c status orig detail body} (h : s.Canon) : (s.refusePacket conn c status orig detail body).Canon :=
  h.countStatus.sendMsg

theorem State.Canon.giveCredit {c} (h : s.Canon) : (s.giveCredit c).Canon := .ite h.modCtl h.modSession

theorem State.Canon.reply {c final status detail body} (h : s.Canon) : (s.reply c final status detail body).Canon :=
  .ite (.countStatus (.modSession (.ite h.giveCredit h))) (.sendMsg (.countStatus (.modSession (.ite h.giveCredit h))))

theorem State.Canon.replyOk {c body} (h : s.Canon) : (s.replyOk c body).Canon := h.reply

theorem State.Canon.refuse {c status detail} (h : s.Canon) : (s.refuse c status detail).Canon := h.reply

theorem State.Canon.progress {c status w} (h : s.Canon) : (s.progress c status w).Canon := h.reply.modCtl

theorem State.Canon.finish {p status detail} (h : s.Canon) : (s.finish p status detail).Canon := .foldl (fun _ _ h => h.reply) h.modCtl

theorem State.Canon.showDepth (h : s.Canon) : s.showDepth.Canon := h.setF.setF.setF

theorem State.Canon.accept {c cls} (h : s.Canon) : (s.accept c cls).Canon := .showDepth (.modCtl (.ite h.modCtl h.modSession))

theorem State.Canon.packet {conn bs} (h : s.Canon) : (s.packet conn bs).Canon := by
  unfold State.packet
  dsimp only
  split
  · exact h.refusePacket
  · split
    · exact h.refusePacket
    · split
      · exact h.refusePacket
      · split
        · split
          · exact h.refusePacket
          · split
            · split <;> exact h.modSession.refusePacket
            · exact .ite h.refusePacket (.ite h.refusePacket h.accept)
        · exact .ite h.refusePacket (.ite h.refusePacket h.accept)

theorem State.Canon.serve {code k} (h : s.Canon) (hk : ∀ c b u, u.Canon → (k c b u).Canon) : (s.serve code k).Canon := by
  unfold State.serve
  split
  · exact h
  · split
    · exact h
    · have h1 {f} := (State.Canon.modCtl (f := f) h).showDepth
      exact .ite h (.ite h1.refuse (.ite h1.refuse (hk _ _ _ h1)))

end Sys2Proof.Machine
end

section
/-! The canonical form under faults, scratchpads and stack memory (O60). -/

namespace Sys2Proof.Machine

set_option Elab.async false

variable {s t u : State}

theorem State.Canon.sendBound {ports kind step phase status} (h : s.Canon) : (s.sendBound ports kind step phase status).Canon :=
  .foldl (fun _ _ h => h.of) h

theorem State.Canon.boundUp {kind step phase status} (h : s.Canon) : (s.boundUp kind step phase status).Canon := h.sendBound

theorem State.Canon.boundDown {kind step phase status} (h : s.Canon) : (s.boundDown kind step phase status).Canon := h.sendBound

theorem State.Canon.setUpd {d u} (h : s.Canon) : (s.setUpd d u).Canon := h.of

theorem State.Canon.stopRules (h : s.Canon) : s.stopRules.Canon := .foldl (fun _ _ h => .ite h.of.setF h.of.setF.setF) h

theorem State.Canon.endFatal {cause} (h : s.Canon) : (s.endFatal cause).Canon := h.of.stopRules.finish.finish

theorem State.Canon.abortJob {cause} (h : s.Canon) : (s.abortJob cause).Canon := .ite (.endFatal (.ite h.boundDown h.boundUp)) h

theorem State.Canon.classEffect {h' cause a} (h : s.Canon) : (s.classEffect h' cause a).Canon := by
  unfold State.classEffect
  split
  · exact h.modDie
  · exact h.abortJob
  · exact .ite h.of h.abortJob.setF.of
  · exact h

theorem State.Canon.fileRec {h' r cls} (h : s.Canon) : (s.fileRec h' r cls).Canon := by
  unfold State.fileRec
  dsimp only
  split
  · split
    · exact h.setF.bump.modDie.bump.of.classEffect
    · exact h.setF.bump.of.classEffect
  · exact .classEffect (.ite h.setF.bump.modDie.bump h.setF.bump.modDie)

theorem State.Canon.raise {d i} (h : s.Canon) : (s.raise d i).Canon := by
  unfold State.raise
  dsimp only
  split
  · exact .ite h.setDie h.setDie
  · exact h.fileRec

theorem State.Canon.showCores {d} (h : s.Canon) : (s.showCores d).Canon := h.setF.setF.setF.setReg.setReg

theorem State.Canon.showShape (h : s.Canon) : s.showShape.Canon := .setReg (.setReg (.foldl (fun _ _ h => h.showCores) h))

theorem State.Canon.failFunc {id} (h : s.Canon) : (s.failFunc id).Canon := h.setFunc.finish

theorem State.Canon.retireCore {d p why save} (h : s.Canon) : (s.retireCore d p why save).Canon := by
  unfold State.retireCore
  extract_lets x held good spare map' failed pend shown _ asked done
  have hshown : shown.Canon := h.setDie.failFunc.setF.modCore.showShape.raise
  clear_value shown
  have hasked : asked.Canon := .ite hshown.of hshown
  have hdone : done.Canon := hasked.finish
  exact .ite hdone.raise hdone

theorem State.Canon.markRetire {pc why} (h : s.Canon) : (s.markRetire pc why).Canon := .ite h (.ite h.retireCore h.setF.modDie)

theorem State.Canon.evidence {pc kind once} (h : s.Canon) : (s.evidence pc kind once).2.Canon := h.modDie

theorem State.Canon.noteUncorrRead {pc} (h : s.Canon) : (s.noteUncorrRead pc).Canon := .ite h.evidence.markRetire h.evidence

theorem State.Canon.halt {pc lc st h'} (h : s.Canon) : (s.halt pc lc st h').Canon := h.setCore.raise.raise

theorem State.Canon.addToken {pc lc k n} (h : s.Canon) : (s.addToken pc lc k n).Canon := .ite h.modCore.halt h.modCore

theorem State.Canon.signal {pc lc w mode} (h : s.Canon) : (s.signal pc lc w mode).Canon := .ite h.addToken h

theorem State.Canon.noteSpad {pc lc corrs nbad} (h : s.Canon) : (s.noteSpad pc lc corrs nbad).Canon := by
  unfold State.noteSpad
  split
  · exact h.coreBump.coreBump
  · exact .ite h.coreBump.coreBump.modCore.raise h.coreBump.coreBump

theorem State.Canon.checkRead {pc lc c ws w} (h : s.Canon) : (s.checkRead pc lc c ws w).Canon :=
  .ite (.foldl (fun _ _ h => h.raise) h) (.coreBump (.foldl (fun _ _ h => h.raise) h))

theorem State.Canon.moveBack (h : s.Canon) : s.moveBack.Canon := h.of

theorem State.Canon.noteUncorr {g kind writer} (h : s.Canon) : (s.noteUncorr g kind writer).Canon := h.bump.setReg

theorem State.Canon.accessFailed {r g kind} (h : s.Canon) : (s.accessFailed r g kind).Canon := by
  unfold State.accessFailed
  split
  · exact .ite h.raise h
  · exact .ite h h.raise

theorem State.Canon.clusterFailed {addr} (h : s.Canon) : (s.clusterFailed addr).Canon := h.raise

theorem State.Canon.loseRegions (h : s.Canon) : s.loseRegions.Canon := by
  have hm : (s.mem.allRegions (fun r => { r with lost := true })).wf := MemState.wf_allRegions h.2 (fun _ => ⟨rfl, rfl⟩)
  exact .of (s := { s with mem := s.mem.allRegions (fun r => { r with lost := true }) }) (h.withMem hm)

theorem State.Canon.erasePin {ch sym} (h : s.Canon) : (s.erasePin ch sym).Canon := by
  unfold State.erasePin
  dsimp only
  split
  · exact h.of.setF.setF.raise.bump.setFunc
  · exact h.of.setF.setF.raise.setF.bump
  · exact h.of.setF.setF.raise.setFunc.loseRegions.raise

theorem State.Canon.countPin {ch sym} (h : s.Canon) : (s.countPin ch sym).Canon := .ite h.of.erasePin h.of

theorem State.Canon.noteCorr {g fixes} (h : s.Canon) : (s.noteCorr g fixes).Canon :=
  have counted {l : List SymErr} {ch k f} : (l.foldl (fun s e => s.countPin ch e.pos) (s.bump k f 1)).Canon := .foldl (fun _ _ h => h.countPin) h.bump
  .ite (.raise (.of counted)) counted

theorem State.Canon.restoreAsk {g} (h : s.Canon) : (s.restoreAsk g).Canon := h.of

theorem State.Canon.uncorrEffect {g kind writer} (h : s.Canon) : (s.uncorrEffect g kind writer).2.Canon := by
  unfold State.uncorrEffect
  dsimp only
  split
  · exact h.noteUncorr
  · exact h.noteUncorr.restoreAsk
  · exact h.noteUncorr.raise

theorem State.Canon.readStack {g} (h : s.Canon) : (s.readStack g).2.Canon := by
  unfold State.readStack
  split
  · exact .iteSnd h (.iteSnd h h.uncorrEffect)
  · exact .iteSnd (.ite h.noteCorr h.noteCorr.put) (.iteSnd (.ite h.noteCorr h.noteCorr.put) (.uncorrEffect (.ite h.noteCorr h.noteCorr.put)))
  · exact h.uncorrEffect

theorem State.Canon.answerWrites {e err} (h : s.Canon) : (s.answerWrites e err).Canon := .foldl (fun _ _ h => h.send) h

theorem State.Canon.flushEntry {e} (h : s.Canon) : (s.flushEntry e).2.Canon := by
  have gone {u : State} (hu : u.Canon) : ({ u with mem := u.mem.dropEntry e.gran } : State).Canon := hu.of
  have written {u : State} {v k} (hu : u.Canon) : ({ u with mem := u.mem.put e.gran v k }.answerWrites e none).Canon := hu.put.answerWrites
  unfold State.flushEntry
  refine .iteSnd (gone h).noteUncorr.answerWrites (.iteSnd (written (gone h).bump) ?_)
  split
  · next e => exact written (gone (h.readStack.of_eq e).bump)
  · next e => exact (gone (h.readStack.of_eq e).bump).answerWrites
  · next e => exact h.readStack.of_eq e

theorem State.Canon.failWrites {l g kind} (h : s.Canon) : (s.failWrites l g kind).Canon := .foldl (fun _ _ h => h.accessFailed) h

theorem State.Canon.flushGran {g} (h : s.Canon) : (s.flushGran g).Canon := by
  unfold State.flushGran
  split
  · exact h
  · split
    · next e => exact h.flushEntry.of_eq e
    · next e => exact (h.flushEntry.of_eq e).failWrites

theorem State.Canon.dropMerge {g} (h : s.Canon) : (s.dropMerge g).Canon := by
  unfold State.dropMerge
  split
  · exact h
  · exact h.of.answerWrites

theorem State.Canon.memRead {q g} (h : s.Canon) : (s.memRead q g).2.Canon :=
  .iteSnd h (.iteSnd h (.iteSnd h (.iteSnd h.noteUncorr h.flushGran.readStack)))

theorem State.Canon.memWrite {q g v chk} (h : s.Canon) : (s.memWrite q g v chk).2.Canon :=
  .iteSnd h (.iteSnd h (.iteSnd h (.iteSnd h.noteUncorr (.iteSnd h.noteUncorr h.dropMerge.put))))

theorem State.Canon.memPut {q g v} (h : s.Canon) : (s.memPut q g v).2.Canon := h.memWrite

/-- The entry that a narrow write opens or joins leaves the form. -/
theorem State.Canon.setMerge {ch l} (h : s.Canon) : ({ s with mem := s.mem.setMerge ch l } : State).Canon := h.of

theorem State.Canon.narrow {q g mask v crc flush own} (h : s.Canon) : (s.narrow q g mask v crc flush own).2.Canon := by
  have flushed {u : State} (hu : u.Canon) (g' : Nat) (b : Bool) : State.Canon (match u.mem.entryOf g' with
      | none => (none, u)
      | some e =>
        if flush || e.mask == BitVec.allOnes 128 then (match u.flushEntry e with
          | (none, u) => (none, u)
          | (some k, u) => (some k, u.failWrites e.writes.dropLast g' k))
        else (none, u)).2 := by
    split
    · exact hu
    · refine .iteSnd ?_ hu
      split
      · next e => exact hu.flushEntry.of_eq e
      · next e => exact (hu.flushEntry.of_eq e).failWrites
  unfold State.narrow
  refine .iteSnd h (.iteSnd h (.iteSnd h (.iteSnd h.noteUncorr (.iteSnd h.noteUncorr ?_))))
  refine flushed ?_ g own
  split
  · exact h.setMerge
  · refine State.Canon.setMerge (.ite ?_ h)
    split
    · exact h.flushGran
    · exact h

theorem State.Canon.narrowAt {q a bs flush} (h : s.Canon) : (s.narrowAt q a bs flush).2.Canon := h.narrow

theorem State.Canon.readBytes {q a n} (h : s.Canon) : (s.readBytes q a n).2.Canon := by
  unfold State.readBytes
  split
  · next e => exact h.memRead.of_eq e
  · next e => exact h.memRead.of_eq e

theorem State.Canon.regionNotes {op first count} (h : s.Canon) : (s.regionNotes op first count).Canon := by
  unfold State.regionNotes
  split
  · exact h
  · refine State.Canon.foldl (fun _ _ h => ?_) (.foldl (fun _ _ h => h.answerWrites) h)
    split
    · exact h
    · exact h.noteCorr
    · exact h.noteUncorr

theorem State.Canon.regionRun {op cls first count} (h : s.Canon) : (s.regionRun op cls first count).Canon :=
  h.regionNotes.withMem (MemState.wf_regionRun h.regionNotes.2 ..)

theorem State.Canon.fixIr {pc corrs} (h : s.Canon) : (s.fixIr pc corrs).Canon := .ite h h.modCore

theorem State.Canon.upsetCore {lc hits} (h : s.Canon) : (s.upsetCore lc hits).Canon := by
  unfold State.upsetCore
  split
  · exact h
  · exact h.modCore

theorem State.Canon.closeGroup {pc j gi} (h : s.Canon) : (s.closeGroup pc j gi).Canon := by
  unfold State.closeGroup
  extract_lets c a g closed counted ufr wrap
  have hcounted : counted.Canon := h.setCore.coreBump
  have hufr : ufr.Canon := .ite hcounted.coreSet hcounted
  have hwrap : wrap.Canon := .ite hufr.coreSet hufr
  exact .ite hwrap.coreSet hwrap

theorem State.Canon.closeGroups {pc mask first n} (h : s.Canon) : (s.closeGroups pc mask first n).Canon :=
  .foldl (fun _ _ h => .foldl (fun _ _ h1 => .ite h1.closeGroup h1) h) h

theorem State.Canon.closeAll {pc} (h : s.Canon) : (s.closeAll pc).2.Canon := by
  unfold State.closeAll
  exact .foldlSnd (fun _ _ h => .iteSnd h.closeGroup h) h

end Sys2Proof.Machine
end

section
/-! The canonical form under streams, matrix units and vector units (O60). -/

namespace Sys2Proof.Machine

set_option Elab.async false

variable {s t u : State}

theorem State.Canon.withFetched {lc st w k} (h : s.Canon) (hk : ∀ u pc e, u.Canon → (k u pc e).Canon) : (s.withFetched lc st w k).Canon := by
  unfold State.withFetched
  split
  · exact h
  · dsimp only
    split
    · exact h
    · split
      · exact h
      · exact .ite h.noteSpad.fixIr.halt h.noteSpad.fixIr.halt.noteUncorrRead
      · exact .ite h (hk _ _ _ (.modCore h.noteSpad.fixIr))

theorem State.Canon.refuseSq {pc lc st e r} (h : s.Canon) : (s.refuseSq pc lc st e r).Canon := h.modCore.halt

theorem State.Canon.sqWord {lc st opc tok ops check act} (h : s.Canon) : (s.sqWord lc st opc tok ops check act).Canon := by
  unfold State.sqWord
  refine h.withFetched (fun _ _ _ h => ?_)
  split
  · exact h.setCore
  · split
    · exact h.refuseSq
    · exact h.setCore.signal

theorem canon_execSqNop {lc st tok ops} (h : s.Canon) : LandsCanon (execSqNop lc st tok ops s) := h.sqWord

theorem canon_execSqEnd {lc st tok ops} (h : s.Canon) : LandsCanon (execSqEnd lc st tok ops s) := by
  unfold execSqEnd
  refine h.withFetched (fun _ _ _ h => ?_)
  split
  · exact h.setCore
  · split
    · exact h.refuseSq
    · exact h.setCore.signal

theorem canon_execSqJump {lc st tok ops} (h : s.Canon) : LandsCanon (execSqJump lc st tok ops s) := h.sqWord

theorem canon_execSqLoop {lc st tok ops} (h : s.Canon) : LandsCanon (execSqLoop lc st tok ops s) := h.sqWord

theorem canon_execSqEndloop {lc st tok ops} (h : s.Canon) : LandsCanon (execSqEndloop lc st tok ops s) := h.sqWord

theorem canon_execSqXset {lc st tok ops} (h : s.Canon) : LandsCanon (execSqXset lc st tok ops s) := h.sqWord

theorem canon_execSqXadd {lc st tok ops} (h : s.Canon) : LandsCanon (execSqXadd lc st tok ops s) := h.sqWord

theorem canon_execSqIrload {lc st tok ops} (h : s.Canon) : LandsCanon (execSqIrload lc st tok ops s) := by
  unfold execSqIrload
  dsimp only
  refine h.withFetched (fun _ _ _ h => ?_)
  split
  · exact h.setCore
  · split
    · exact h.refuseSq
    · exact .ite h.setCore h.setCore

theorem canon_irloadCopy {pc lc src page n i} (h : s.Canon) : (irloadCopy pc lc src page n i s).2.2.Canon := by
  induction n generalizing s i with
  | zero => exact h
  | succ n ih =>
    unfold irloadCopy
    dsimp only
    split
    · exact ih (.modCore h.memRead)
    · exact ih h.memRead

theorem canon_execIrloadComplete {lc st} (h : s.Canon) : LandsCanon (execIrloadComplete lc st s) := by
  unfold execIrloadComplete LandsCanon
  dsimp only
  split
  · exact h
  · split
    · exact h
    · split
      · exact (State.Canon.modCore (canon_irloadCopy h)).signal.halt
      · exact (State.Canon.modCore (canon_irloadCopy h)).signal.halt
      · exact (State.Canon.modCore (canon_irloadCopy h)).signal

theorem State.Canon.dispatchWord {lc st eng opc tok ops} (h : s.Canon) : (s.dispatchWord lc st eng opc tok ops).Canon :=
  h.withFetched (fun _ _ _ h => .ite h.setCore h)

theorem State.Canon.refuseWord {pc lc st e f} (h : s.Canon) : (s.refuseWord pc lc st e f).Canon := .ite h.coreBump.halt.noteUncorrRead h.halt

theorem State.Canon.issueWord {lc st eng opc tok ops check act} (h : s.Canon) (hact : ∀ u pc e, u.Canon → ActCanon (act u pc e)) :
    (s.issueWord lc st eng opc tok ops check act).Canon := by
  unfold State.issueWord
  split
  · exact h
  · dsimp only
    split
    · exact h
    · refine .ite h (.ite h ?_)
      split
      · exact h.refuseWord
      · split
        · next e =>
          have ha : State.Canon _ := (congrArg ActCanon e).mp (hact _ _ _ h.of)
          split
          · exact ha.coreBump
          · exact ha
        · next e =>
          have ha : State.Canon _ := (congrArg ActCanon e).mp (hact _ _ _ h.of)
          exact .refuseWord (.modCore ha.of)

theorem State.Canon.engineWord {lc st ph eng opc tok ops check act} (h : s.Canon) (hact : ∀ u pc e, u.Canon → ActCanon (act u pc e)) :
    (s.engineWord lc st ph eng opc tok ops check act).Canon := by
  unfold State.engineWord
  split
  · exact h.dispatchWord
  · exact h.issueWord hact
  · exact h.upsetCore.issueWord hact

theorem State.Canon.complete {pc lc i f} (h : s.Canon) : (s.complete pc lc i f).Canon := .ite h.modCore.signal h.modCore.signal.signal

theorem State.Canon.refuseLate {pc lc st i f r} (h : s.Canon) : (s.refuseLate pc lc st i f r).Canon := h.modCore.refuseWord

theorem State.Canon.completeWord {lc st eng opcs k} (h : s.Canon) (hk : ∀ u pc f, u.Canon → (k u pc f).Canon) : (s.completeWord lc st eng opcs k).Canon := by
  unfold State.completeWord
  split
  · exact h
  · split
    · exact h
    · exact .ite (hk _ _ _ h).complete h

theorem canon_execReservedEngineCodeOrOpcode {lc st ph word} (h : s.Canon) : LandsCanon (execReservedEngineCodeOrOpcode lc st ph word s) := by
  unfold execReservedEngineCodeOrOpcode
  dsimp only
  split
  · exact h
  · split
    · exact h.withFetched (fun _ _ _ h => h.refuseSq)
    · exact h.sqWord
    · exact h.engineWord (fun _ _ _ h => h)

theorem canon_wloadAct {lc pc e} (h : s.Canon) : ActCanon (wloadAct lc s pc e) := by
  unfold wloadAct
  dsimp only
  split
  · exact h.noteSpad
  · exact h.noteSpad.checkRead.modCore

theorem canon_execMxWload {lc st ph tok ops} (h : s.Canon) : LandsCanon (execMxWload lc st ph tok ops s) :=
  h.engineWord (fun _ _ _ h => (canon_wloadAct h))

theorem State.Canon.drainMx {lc st a a5} (h : s.Canon) : (State.drainMx lc st a s a5).Canon := by
  induction a generalizing s lc st a5 with
  | zero => exact h
  | succ a ih =>
    unfold State.drainMx
    split
    · exact h
    · split
      · exact ih h.complete
      · exact ih h.closeGroups.complete
      · exact h

theorem canon_execMxWloadComplete {lc st} (h : s.Canon) : LandsCanon (execMxWloadComplete lc st s) := by
  unfold execMxWloadComplete
  split
  · exact h
  · exact .drainMx (h.completeWord (fun _ _ _ h => h.modCore))

theorem State.Canon.mmaDrift {pc st j g} (h : s.Canon) : (s.mmaDrift pc st j g).Canon := by
  unfold State.mmaDrift
  exact .ite h (.foldlSnd (fun _ _ h => .iteSnd h h.of) h)

theorem State.Canon.selectSentinel {pc lc st e acts scs} (h : s.Canon) : (s.selectSentinel pc lc st e acts scs).Canon := by
  unfold State.selectSentinel
  dsimp only
  split
  · exact h.setCore
  · split
    · exact .ite h.setCore.bump h.setCore
    · exact h.setCore

theorem canon_mmaAct {lc st pc e} (h : s.Canon) : ActCanon (mmaAct lc st s pc e) := by
  unfold mmaAct
  dsimp only
  split
  · exact h.noteSpad
  · split
    · exact .ite h.noteSpad h.noteSpad.coreBump
    · exact h.noteSpad.setCore.coreBump.checkRead.selectSentinel.modCore

theorem canon_execMxMma {lc st ph tok ops} (h : s.Canon) : LandsCanon (execMxMma lc st ph tok ops s) := h.engineWord (fun _ _ _ h => (canon_mmaAct h))

theorem canon_execMxMmaComplete {lc st residue} (h : s.Canon) : LandsCanon (execMxMmaComplete lc st residue s) := by
  unfold execMxMmaComplete
  split
  · split
    · exact h
    · exact .drainMx (h.completeWord (fun _ _ _ h => h.modCore.raise))
  · split
    · exact h
    · exact .drainMx (h.completeWord (fun _ _ _ h => h.modCore))

theorem canon_execMxPass2 {lc st} (h : s.Canon) : LandsCanon (execMxPass2 lc st s) := by
  unfold execMxPass2
  dsimp only
  split
  · exact h
  · split
    · exact h
    · split
      · exact h
      · split
        · split
          · exact h.modCore.refuseLate
          · split
            · exact h.modCore.noteSpad.refuseLate
            · exact .modCore (.ite h.modCore.noteSpad.setCore.checkRead h.modCore.noteSpad.setCore.checkRead.coreBump)
        · exact h.modCore

theorem canon_execMxGopen {lc st ph tok ops} (h : s.Canon) : LandsCanon (execMxGopen lc st ph tok ops s) :=
  h.engineWord (fun _ _ _ h => h.modCore.drainMx)

theorem canon_execMxGclose {lc st ph tok ops} (h : s.Canon) : LandsCanon (execMxGclose lc st ph tok ops s) :=
  h.engineWord (fun _ _ _ h => h.coreBump.drainMx)

theorem canon_gexportAct {lc pc e} (h : s.Canon) : ActCanon (gexportAct lc s pc e) := by
  unfold gexportAct
  dsimp only
  split
  · exact .ite h h.coreBump
  · exact h.coreBump.noteSpad.modCore

theorem canon_execMxGexport {lc st ph tok ops} (h : s.Canon) : LandsCanon (execMxGexport lc st ph tok ops s) :=
  h.engineWord (fun _ _ _ h => (canon_gexportAct h))

theorem State.Canon.releaseExport {pc f} (h : s.Canon) : (s.releaseExport pc f).Canon := .ite h (.ite h.closeGroups h)

theorem canon_execMxGexportComplete {lc st} (h : s.Canon) : LandsCanon (execMxGexportComplete lc st s) := by
  unfold execMxGexportComplete
  split
  · exact h
  · exact .drainMx (h.completeWord (fun _ _ _ h => h.releaseExport))

theorem canon_execSentinelPass {lc} (h : s.Canon) : LandsCanon (execSentinelPass lc s) := by
  unfold execSentinelPass
  dsimp only
  split
  · exact h
  · split
    · exact h
    · split
      · exact h.modCore.refuseWord
      · split
        · exact h.noteSpad.modCore.halt
        · exact .bump (.modCore (.ite h.noteSpad.checkRead h.noteSpad.checkRead.coreBump))

theorem canon_execSentinelCompare {lc faultO faultS} (h : s.Canon) : LandsCanon (execSentinelCompare lc faultO faultS s) := by
  unfold execSentinelCompare
  dsimp only
  split
  · exact h
  · split
    · exact h
    · exact .ite h.setCore h.setCore.bump.raise

theorem State.Canon.arrayCtl {pc j idleTest f} (h : s.Canon) : (s.arrayCtl pc j idleTest f).Canon := .ite h.setCore h

theorem canon_execCtest {pc j} (h : s.Canon) : LandsCanon (execCtest pc j s) := h.arrayCtl

theorem State.Canon.applyCols {pc j} (h : s.Canon) : (s.applyCols pc j).Canon :=
  .ite h.arrayCtl (.ite (.markRetire (.raise (.ite h.arrayCtl.setFunc h.arrayCtl))) (.raise (.ite h.arrayCtl.setFunc h.arrayCtl)))

theorem canon_execApply {pc j} (h : s.Canon) : LandsCanon (execApply pc j s) := h.applyCols

theorem canon_execDisable {pc j} (h : s.Canon) : LandsCanon (execDisable pc j s) := .ite h.arrayCtl.markRetire h

theorem State.Canon.ctestDone {pc j failing unloc} (h : s.Canon) : (s.ctestDone pc j failing unloc).Canon :=
  .ite h (.ite (.ite (.markRetire (.setCore (.iteSnd h.evidence h))) (.setCore (.iteSnd h.evidence h))) (.ite h.setCore.markRetire h.setCore))

theorem State.Canon.columnTestsEnd (h : s.Canon) : s.columnTestsEnd.Canon := h.finish

theorem canon_execCtestComplete {pc j failing unloc} (h : s.Canon) : LandsCanon (execCtestComplete pc j failing unloc s) := h.ctestDone.columnTestsEnd

theorem canon_execTokenArrival {lc k} (h : s.Canon) : LandsCanon (execTokenArrival lc k s) := by
  unfold execTokenArrival
  dsimp only
  split
  · exact h
  · split
    · exact h.of
    · exact h.of.addToken

theorem canon_execSourceRelease {lc st eng nth} (h : s.Canon) : LandsCanon (execSourceRelease lc st eng nth s) := by
  unfold execSourceRelease
  dsimp only
  split
  · exact h
  · split
    · exact h
    · exact .ite h (.signal (.modCore (.ite h.releaseExport h)))

theorem canon_execStreamEndCheck {lc} (h : s.Canon) : LandsCanon (execStreamEndCheck lc s) := by
  unfold execStreamEndCheck
  split
  · exact h
  · exact .ite h (.ite h.closeAll.modCore h.closeAll.modCore.halt.raise)

theorem State.Canon.goCore {pc} (h : s.Canon) : (s.goCore pc).Canon := .ite h (.ite h.retireCore h.closeAll.modCore)

theorem canon_execGo {pc} (h : s.Canon) : LandsCanon (execGo pc s) := h.goCore

theorem State.Canon.haltLive {pc lc} (h : s.Canon) : (s.haltLive pc lc).Canon := by
  unfold State.haltLive
  dsimp only
  split
  · exact h.halt
  · exact h.halt
  · exact h.halt
  · exact h

theorem canon_execHalt {pc} (h : s.Canon) : LandsCanon (execHalt pc s) := .ite h.haltLive h

theorem State.Canon.vxWord {lc st ph opc tok ops used vregs check run} (h : s.Canon) : (s.vxWord lc st ph opc tok ops used vregs check run).Canon :=
  h.engineWord (fun _ _ _ h => h.modCore)

theorem State.Canon.vxFlags {pc w} (h : s.Canon) : (s.vxFlags pc w).Canon :=
  .ite (.ite (.coreSet (.ite h.coreSet h)) (.ite h.coreSet h)) (.coreSet (.coreBump (.ite (.coreSet (.ite h.coreSet h)) (.ite h.coreSet h))))

theorem State.Canon.vxStore {pc lc ws} (h : s.Canon) : (s.vxStore pc lc ws).2.Canon := by
  unfold State.vxStore
  split
  · exact h
  · split
    · exact h.noteSpad
    · exact h.setCore.noteSpad

theorem canon_execVxWordComplete {lc st fault} (h : s.Canon) : LandsCanon (execVxWordComplete lc st fault s) := by
  unfold execVxWordComplete
  split
  · exact h
  · split
    · exact h
    · split
      · exact h.refuseLate
      · next e => exact (h.vxStore.of_eq e).refuseLate
      · next e =>
        extract_lets flagged r lim marked noted
        have hflagged : flagged.Canon := (h.vxStore.of_eq e).modCore.vxFlags
        have hmarked : marked.Canon := .ite hflagged.evidence.markRetire hflagged.evidence
        have hnoted : noted.Canon := .ite hmarked.coreSet.coreBump.raise hflagged
        exact hnoted.complete

theorem canon_execVadd {lc st ph tok ops} (h : s.Canon) : LandsCanon (execVadd lc st ph tok ops s) := h.vxWord

theorem canon_execVsub {lc st ph tok ops} (h : s.Canon) : LandsCanon (execVsub lc st ph tok ops s) := h.vxWord

theorem canon_execVmul {lc st ph tok ops} (h : s.Canon) : LandsCanon (execVmul lc st ph tok ops s) := h.vxWord

theorem canon_execVmax {lc st ph tok ops} (h : s.Canon) : LandsCanon (execVmax lc st ph tok ops s) := h.vxWord

theorem canon_execVmin {lc st ph tok ops} (h : s.Canon) : LandsCanon (execVmin lc st ph tok ops s) := h.vxWord

theorem canon_execVfma {lc st ph tok ops} (h : s.Canon) : LandsCanon (execVfma lc st ph tok ops s) := h.vxWord

theorem canon_execVfnma {lc st ph tok ops} (h : s.Canon) : LandsCanon (execVfnma lc st ph tok ops s) := h.vxWord

theorem canon_execVbcast {lc st ph tok ops} (h : s.Canon) : LandsCanon (execVbcast lc st ph tok ops s) := h.vxWord

theorem canon_execViota {lc st ph tok ops} (h : s.Canon) : LandsCanon (execViota lc st ph tok ops s) := h.vxWord

theorem canon_execViadd {lc st ph tok ops} (h : s.Canon) : LandsCanon (execViadd lc st ph tok ops s) := h.vxWord

theorem canon_execVisub {lc st ph tok ops} (h : s.Canon) : LandsCanon (execVisub lc st ph tok ops s) := h.vxWord

theorem canon_execVand {lc st ph tok ops} (h : s.Canon) : LandsCanon (execVand lc st ph tok ops s) := h.vxWord

theorem canon_execVor {lc st ph tok ops} (h : s.Canon) : LandsCanon (execVor lc st ph tok ops s) := h.vxWord

theorem canon_execVxor {lc st ph tok ops} (h : s.Canon) : LandsCanon (execVxor lc st ph tok ops s) := h.vxWord

theorem canon_execVshl {lc st ph tok ops} (h : s.Canon) : LandsCanon (execVshl lc st ph tok ops s) := h.vxWord

theorem canon_execVshr {lc st ph tok ops} (h : s.Canon) : LandsCanon (execVshr lc st ph tok ops s) := h.vxWord

theorem canon_execVsra {lc st ph tok ops} (h : s.Canon) : LandsCanon (execVsra lc st ph tok ops s) := h.vxWord

theorem canon_execVnot {lc st ph tok ops} (h : s.Canon) : LandsCanon (execVnot lc st ph tok ops s) := h.vxWord

theorem canon_execVcmp {lc st ph tok ops} (h : s.Canon) : LandsCanon (execVcmp lc st ph tok ops s) := h.vxWord

theorem canon_execPlogic {lc st ph tok ops} (h : s.Canon) : LandsCanon (execPlogic lc st ph tok ops s) := h.vxWord

theorem canon_execPcount {lc st ph tok ops} (h : s.Canon) : LandsCanon (execPcount lc st ph tok ops s) := h.vxWord

theorem canon_execVsel {lc st ph tok ops} (h : s.Canon) : LandsCanon (execVsel lc st ph tok ops s) := h.vxWord

theorem canon_execSli {lc st ph tok ops} (h : s.Canon) : LandsCanon (execSli lc st ph tok ops s) := h.vxWord

theorem canon_execSalu {lc st ph tok ops} (h : s.Canon) : LandsCanon (execSalu lc st ph tok ops s) := h.vxWord

theorem canon_execSmov {lc st ph tok ops} (h : s.Canon) : LandsCanon (execSmov lc st ph tok ops s) := h.vxWord

theorem canon_execVsf {lc st ph tok ops} (h : s.Canon) : LandsCanon (execVsf lc st ph tok ops s) := h.vxWord

theorem canon_execVcvt {lc st ph tok ops} (h : s.Canon) : LandsCanon (execVcvt lc st ph tok ops s) := h.vxWord

theorem canon_execVmxpack {lc st ph tok ops} (h : s.Canon) : LandsCanon (execVmxpack lc st ph tok ops s) := h.vxWord

theorem canon_execVred {lc st ph tok ops} (h : s.Canon) : LandsCanon (execVred lc st ph tok ops s) := h.vxWord

theorem canon_execVperm {lc st ph tok ops} (h : s.Canon) : LandsCanon (execVperm lc st ph tok ops s) := h.vxWord

theorem canon_execVslide {lc st ph tok ops} (h : s.Canon) : LandsCanon (execVslide lc st ph tok ops s) := h.vxWord

theorem canon_execVsmax {lc st ph tok ops} (h : s.Canon) : LandsCanon (execVsmax lc st ph tok ops s) := h.vxWord

theorem canon_execVsmerge {lc st ph tok ops} (h : s.Canon) : LandsCanon (execVsmerge lc st ph tok ops s) := h.vxWord

theorem canon_execVxadd {lc st ph tok ops} (h : s.Canon) : LandsCanon (execVxadd lc st ph tok ops s) := h.vxWord

theorem canon_execVxfold {lc st ph tok ops} (h : s.Canon) : LandsCanon (execVxfold lc st ph tok ops s) := h.vxWord

theorem canon_execVxcvt {lc st ph tok ops} (h : s.Canon) : LandsCanon (execVxcvt lc st ph tok ops s) := h.vxWord

theorem canon_execVsetvl {lc st ph tok ops} (h : s.Canon) : LandsCanon (execVsetvl lc st ph tok ops s) := h.engineWord (fun _ _ _ h => h.modCore)

theorem canon_execVld {lc st ph tok ops} (h : s.Canon) : LandsCanon (execVld lc st ph tok ops s) := by
  unfold execVld
  dsimp only
  refine h.engineWord (fun _ _ _ h => ?_)
  split
  · exact h.noteSpad
  · exact h.noteSpad.checkRead.modCore

theorem canon_execVst {lc st ph tok ops} (h : s.Canon) : LandsCanon (execVst lc st ph tok ops s) := by
  unfold execVst
  dsimp only
  refine h.engineWord (fun _ _ _ h => ?_)
  split
  · exact h.noteSpad
  · exact h.modCore

theorem canon_execVacc {lc st ph tok ops} (h : s.Canon) : LandsCanon (execVacc lc st ph tok ops s) := by
  unfold execVacc
  dsimp only
  refine h.engineWord (fun _ _ _ h => ?_)
  split
  · exact .ite h.mmaDrift.coreBump h.mmaDrift.coreBump.coreBump
  · exact h.mmaDrift.coreBump.modCore

end Sys2Proof.Machine
end

section
/-! The canonical form under counters, queues and data movement (O60). -/

namespace Sys2Proof.Machine

set_option Elab.async false

variable {s t u : State}

theorem State.Canon.settleSy {lc st ans} (h : s.Canon) : (s.settleSy lc st ans).Canon := by
  unfold State.settleSy
  split
  · exact h
  · split
    · exact h
    · split
      · exact h.complete
      · exact h.modCore.complete
      · exact h.modCore.halt

theorem State.Canon.answerSy {d lc st ans} (h : s.Canon) : (s.answerSy d lc st ans).Canon := .ite h.settleSy h.of

theorem State.Canon.refuseCtr {d o v here} (h : s.Canon) : (s.refuseCtr d o v here).Canon := by
  unfold State.refuseCtr
  split
  · split
    · exact h.bump.answerSy
    · exact .ite h.bump.raise h.bump.raise
    · exact .ite h.bump.raise h.bump.raise
  · split
    · exact h.answerSy
    · exact .ite h.raise h.raise
    · exact .ite h.raise h.raise

theorem State.Canon.berylSend {d o} (h : s.Canon) : (s.berylSend d o).Canon := .ite h.of h.refuseCtr

theorem State.Canon.localInc {d port ctr n} (h : s.Canon) : (s.localInc d port ctr n).Canon := .ite h h.berylSend

/-- Writes are taken as any that keep the form: the kernel would compute with the address where it compares the definition with its text. -/
theorem State.Canon.qstWrite {d i v} (h : s.Canon) : (s.qstWrite d i v).Canon := by
  have writes {u : State} {q a bs fl} (hu : u.Canon) : (u.narrowAt q a bs fl).2.Canon := hu.narrowAt
  obtain ⟨f, e⟩ : ∃ f, f = State.qstWrite := ⟨_, rfl⟩
  rw [← e]
  delta State.qstWrite at e
  generalize State.narrowAt = write at e writes
  subst e
  dsimp only
  split
  · next e => exact (writes h).of_eq e
  · next e => exact ((writes h).of_eq e).accessFailed

theorem State.Canon.qEvict {d i} (h : s.Canon) : (s.qEvict d i).1.Canon := by
  unfold State.qEvict
  dsimp only
  split
  · exact h
  · split
    · exact h
    · exact .ite (.bump (.qstWrite (.of h))) h.of

/-- Reads are taken as any that keep the form: the kernel would compute with the address where it compares the definition with its text. -/
theorem State.Canon.qFill {d i} (h : s.Canon) : (s.qFill d i).2.Canon := by
  have reads {u : State} {q g} (hu : u.Canon) : (u.memRead q g).2.Canon := hu.memRead
  obtain ⟨f, e⟩ : ∃ f, f = State.qFill := ⟨_, rfl⟩
  rw [← e]
  generalize hp : f s d i = p
  delta State.qFill at e
  generalize State.memRead = read at e reads
  subst e
  beta_reduce at hp
  extract_lets a at hp
  split at hp
  · next e' =>
    subst hp
    exact .ite (.of ((reads h).of_eq e').qEvict) ((reads h).of_eq e').qEvict
  · next e' =>
    subst hp
    exact ((reads h).of_eq e').accessFailed
  · next e' =>
    subst hp
    exact (reads h).of_eq e'

theorem State.Canon.qPut {d i v} (h : s.Canon) : (s.qPut d i v).Canon := by
  unfold State.qPut
  split
  · exact h.of
  · exact h.qstWrite

theorem State.Canon.queueError {d i v entry reason} (h : s.Canon) : (s.queueError d i v entry reason).Canon := .ite h.qPut.raise.raise h.qPut.raise

theorem State.Canon.setView {d v} (h : s.Canon) : (s.setView d v).Canon := .foldl (fun _ _ h => h.setReg) h

theorem State.Canon.refuseQOp {d o v} (h : s.Canon) : (s.refuseQOp d o v).Canon := by
  unfold State.refuseQOp
  split
  · exact h.answerSy
  · exact h.queueError
  · exact h.setF
  · exact h

theorem State.Canon.qOpDone {d o} (h : s.Canon) : (s.qOpDone d o).Canon := by
  unfold State.qOpDone
  split
  · exact h.answerSy
  · exact h

theorem State.Canon.noteFreed {d i v n} (h : s.Canon) : (s.noteFreed d i v n).Canon := .ite h.of h

theorem State.Canon.qApply {d o v} (h : s.Canon) : (s.qApply d o v).Canon := by
  unfold State.qApply
  split
  · exact .ite h.qPut.qOpDone h.refuseQOp
  · exact .ite h.qPut.noteFreed.qOpDone h.refuseQOp
  · exact h.setView
  · exact .ite h.refuseQOp h.qPut
  · exact .ite h.refuseQOp h.qPut

theorem State.Canon.qLook {d i} (h : s.Canon) : (s.qLook d i).2.Canon := by
  unfold State.qLook
  split
  · exact h.of.bump
  · exact h.bump.qFill

/-- Fills are taken as any that keep the form: the kernel would compute with the address where it compares the definition with its text. -/
theorem State.Canon.qDrain {d i} (h : s.Canon) : (s.qDrain d i).Canon := by
  have fills {u : State} {d i} (hu : u.Canon) : (u.qFill d i).2.Canon := hu.qFill
  obtain ⟨f, e⟩ : ∃ f, f = State.qDrain := ⟨_, rfl⟩
  rw [← e]
  generalize hp : f s d i = p
  delta State.qDrain at e
  generalize State.qFill = fill at e fills
  subst e
  beta_reduce at hp
  extract_lets q mine t r at hp
  split at hp
  · subst hp
    exact h
  · have hr : r.2.Canon := fills (State.Canon.of h)
    split at hp
    · subst hp
      exact .foldl (fun _ _ h => h.refuseQOp) hr
    · subst hp
      refine .foldl (fun u o h => ?_) hr
      split
      · exact h.qApply
      · exact (fills h).qApply

theorem State.Canon.qSubmit {d o} (h : s.Canon) : (s.qSubmit d o).Canon := by
  unfold State.qSubmit
  dsimp only
  split
  · split
    · exact h
    · exact h.refuseQOp
  · split
    · exact h.of.bump.qApply
    · exact h.of.bump

theorem State.Canon.qGet {d i} (h : s.Canon) : (s.qGet d i).2.Canon := .iteSnd h h.qDrain.qLook

theorem State.Canon.toFlow {q v i} (h : s.Canon) : (s.toFlow q v i).Canon := .ite h.of (.ite h.of (.ite h.of.qPut h.of))

theorem State.Canon.sendQueue {q pkg} (h : s.Canon) : (s.sendQueue q pkg).2.Canon := by
  unfold State.sendQueue
  split
  · next e => exact h.qGet.of_eq e
  · next e => exact h.qGet.of_eq e

theorem State.Canon.flowWrite {q v addr data org} (h : s.Canon) : (s.flowWrite q v addr data org).Canon := .foldl (fun _ _ h => h.toFlow) h

theorem State.Canon.fire {d i w} (h : s.Canon) : (s.fire d i w).Canon := by
  unfold State.fire
  dsimp only
  split
  · exact h.of
  · exact h.of
  · split
    · next e => exact (h.sendQueue.of_eq e).toFlow
    · next e => exact (h.sendQueue.of_eq e).raise

theorem State.Canon.evaluate {d ctr} (h : s.Canon) : (s.evaluate d ctr).Canon := .foldl (fun _ _ h => h.fire) h.of

theorem State.Canon.applyCtr {d o} (h : s.Canon) : (s.applyCtr d o).Canon := by
  unfold State.applyCtr
  dsimp only
  split
  · split
    · exact h.refuseCtr
    · split
      · exact h.of.evaluate.answerSy
      · exact h.of.evaluate
  · split
    · exact h.refuseCtr
    · split
      · exact h.of.evaluate.answerSy
      · exact h.of.evaluate
  · split
    · exact h.evaluate.answerSy
    · exact h.evaluate

theorem canon_execBerylOperationApply {d port} (h : s.Canon) : LandsCanon (execBerylOperationApply d port s) := by
  unfold execBerylOperationApply
  dsimp only
  split
  · exact h
  · exact .ite h.of.applyCtr h

theorem State.Canon.armSlot {d i w} (h : s.Canon) : (s.armSlot d i w).Canon := h.of.evaluate

theorem canon_execArm {d} (h : s.Canon) : LandsCanon (execArm d s) := .ite h (.ite h.setF h.armSlot)

theorem canon_execRelease {d} (h : s.Canon) : LandsCanon (execRelease d s) := .ite h (.ite h.setF h.of)

theorem canon_execSet {d value} (h : s.Canon) : LandsCanon (execSet d value s) := .ite h (.ite h.bump.setF h.of.evaluate)

theorem canon_execWatchBoundExpiry {d slot} (h : s.Canon) : LandsCanon (execWatchBoundExpiry d slot s) := by
  unfold execWatchBoundExpiry
  dsimp only
  split
  · exact h
  · exact .ite h h.of.bump.raise

theorem canon_execWatchFatalExpiry {d slot} (h : s.Canon) : LandsCanon (execWatchFatalExpiry d slot s) := by
  unfold execWatchFatalExpiry
  dsimp only
  split
  · exact h
  · exact .ite h h.raise

theorem State.Canon.sySend {lc st e kind amount} (h : s.Canon) : (s.sySend lc st e kind amount).Canon := h.berylSend

theorem canon_flowRefused {q} (h : s.Canon) : ActCanon (flowRefused q s) := h

theorem canon_execSyInc {lc st ph tok ops} (h : s.Canon) : LandsCanon (execSyInc lc st ph tok ops s) := by
  unfold execSyInc
  refine h.engineWord (fun _ _ _ h => ?_)
  split
  · exact h.sySend
  · split
    · exact canon_flowRefused h
    · split
      · next e => exact canon_flowRefused (h.sendQueue.of_eq e)
      · next e => exact .settleSy ((h.sendQueue.of_eq e).toFlow)

theorem canon_execSyDec {lc st ph tok ops} (h : s.Canon) : LandsCanon (execSyDec lc st ph tok ops s) := h.engineWord (fun _ _ _ h => h.sySend)

theorem canon_execSyRead {lc st ph tok ops} (h : s.Canon) : LandsCanon (execSyRead lc st ph tok ops s) := h.engineWord (fun _ _ _ h => h.sySend)

theorem canon_execSyWatch {lc st ph tok ops} (h : s.Canon) : LandsCanon (execSyWatch lc st ph tok ops s) :=
  h.engineWord (fun _ _ _ h => h.armSlot.settleSy)

theorem canon_execSyUnwatch {lc st ph tok ops} (h : s.Canon) : LandsCanon (execSyUnwatch lc st ph tok ops s) :=
  h.engineWord (fun _ _ _ h => h.of.settleSy)

theorem canon_execSyFence {lc st ph tok ops} (h : s.Canon) : LandsCanon (execSyFence lc st ph tok ops s) := by
  refine h.engineWord (fun _ _ _ h => ?_)
  split
  · exact h
  · split
    · next e => exact h.sendQueue.of_eq e
    · next e => exact .of (h.sendQueue.of_eq e).toFlow

theorem State.Canon.syQueue {lc st e op} (h : s.Canon) : (s.syQueue lc st e op).Canon := h.qSubmit

theorem canon_execSyQring {lc st ph tok ops} (h : s.Canon) : LandsCanon (execSyQring lc st ph tok ops s) := h.engineWord (fun _ _ _ h => h.syQueue)

theorem canon_execSyQcons {lc st ph tok ops} (h : s.Canon) : LandsCanon (execSyQcons lc st ph tok ops s) := h.engineWord (fun _ _ _ h => h.syQueue)

theorem canon_execSyWordComplete {lc st} (h : s.Canon) : LandsCanon (execSyWordComplete lc st s) := by
  unfold execSyWordComplete
  split
  · exact h
  · exact h.of.settleSy

theorem State.Canon.snap {d} (h : s.Canon) : (s.snap d).Canon := by
  unfold State.snap
  split
  · exact h
  · refine State.Canon.foldl (fun _ _ h => ?_) h
    split
    · next e => exact h.memPut.of_eq e
    · next e => exact (h.memPut.of_eq e).accessFailed
    · next e => exact h.memPut.of_eq e

theorem canon_execSnap {d} (h : s.Canon) : LandsCanon (execSnap d s) := h.snap

theorem State.Canon.snapDiffs {d a} (h : s.Canon) : (State.snapDiffs d a s).2.Canon := by
  induction a generalizing s d with
  | nil => exact h
  | cons x l ih =>
    unfold State.snapDiffs
    dsimp only
    split
    · exact ih h.memRead.accessFailed
    · exact ih h.memRead

theorem State.Canon.berylCheck {d} (h : s.Canon) : (s.berylCheck d).2.Canon := h.snapDiffs.setReg

theorem canon_execCheck {d} (h : s.Canon) : LandsCanon (execCheck d s) := by
  unfold execCheck
  split
  · exact h
  · split
    · next e => exact h.berylCheck.of_eq e
    · next e => exact .ite ((h.berylCheck.of_eq e).raise) (h.berylCheck.of_eq e)

theorem State.Canon.notify {d v k} (h : s.Canon) : (s.notify d v k).Canon := .ite h.localInc h

theorem canon_execQueueProdAdvance {q} (h : s.Canon) : LandsCanon (execQueueProdAdvance q s) := by
  unfold execQueueProdAdvance
  dsimp only
  split
  · next e => exact h.qGet.of_eq e
  · next e => exact .ite (h.qGet.of_eq e) (.notify ((h.qGet.of_eq e).qPut))

theorem canon_execWatchDoorbellArrival {q} (h : s.Canon) : LandsCanon (execWatchDoorbellArrival q s) := by
  unfold execWatchDoorbellArrival
  split
  · exact h
  · exact h.of.qSubmit

theorem canon_execQeDoorbell {d queue amount} (h : s.Canon) : LandsCanon (execQeDoorbell d queue amount s) := .ite h h.qSubmit

theorem canon_execLoad {d} (h : s.Canon) : LandsCanon (execLoad d s) := .ite h.qSubmit h

theorem canon_execCommit {d} (h : s.Canon) : LandsCanon (execCommit d s) := .ite h.qSubmit h

theorem canon_execClearErr {d} (h : s.Canon) : LandsCanon (execClearErr d s) := .ite h.qSubmit h

theorem canon_execQstateMissFill {q} (h : s.Canon) : LandsCanon (execQstateMissFill q s) := .ite h.qDrain h

theorem State.Canon.localRead {r a} (h : s.Canon) : (s.localRead r a).2.Canon := by
  unfold State.localRead
  dsimp only
  split
  · split
    · next e => exact h.memRead.of_eq e
    · next e => exact h.memRead.of_eq e
  · split
    · exact h
    · split <;> exact h.noteSpad
  · exact h

theorem State.Canon.localWrite {r a x} (h : s.Canon) : (s.localWrite r a x).2.Canon := by
  unfold State.localWrite
  split
  · split
    · next e => exact h.memWrite.of_eq e
    · next e => exact h.memWrite.of_eq e
  · split
    · exact h
    · exact h.modCore
  · exact h

theorem State.Canon.copyLocal {r src dst a a5} (h : s.Canon) : (State.copyLocal r src dst a a5 s).2.Canon := by
  induction a generalizing s r src dst a5 with
  | zero => exact h
  | succ a ih =>
    unfold State.copyLocal
    split
    · next e => exact h.localRead.of_eq e
    · next e =>
        split
        · next e2 => exact ((h.localRead.of_eq e).localWrite).of_eq e2
        · next e2 => exact ih (((h.localRead.of_eq e).localWrite).of_eq e2)

theorem State.Canon.readLocal {r a a3} (h : s.Canon) : (State.readLocal r a a3 s).2.Canon := by
  induction a3 generalizing s r a with
  | zero => exact h
  | succ a3 ih =>
    unfold State.readLocal
    split
    · next e => exact h.localRead.of_eq e
    · next e =>
        split
        · next e2 => exact (ih (h.localRead.of_eq e)).of_eq e2
        · next e2 => exact (ih (h.localRead.of_eq e)).of_eq e2

theorem State.Canon.sendDesc {d q x a a5} (h : s.Canon) : (State.sendDesc d q x a a5 s).2.Canon := by
  induction a generalizing s d q x a5 with
  | nil => exact h
  | cons x l ih =>
    unfold State.sendDesc
    split
    · next e => exact h.readLocal.of_eq e
    · next e =>
        split
        · next e2 => exact ((h.readLocal.of_eq e).qGet).of_eq e2
        · next e2 => exact ih ((((h.readLocal.of_eq e).qGet).of_eq e2).toFlow)

theorem canon_execDescriptorStart {q} (h : s.Canon) : LandsCanon (execDescriptorStart q s) := by
  unfold execDescriptorStart
  dsimp only
  split
  · next e => exact h.qGet.of_eq e
  · next e =>
    have got := h.qGet.of_eq e
    refine .ite got ?_
    split
    · next e => exact (got.readBytes.of_eq e).queueError
    · next e =>
      have taken := got.readBytes.of_eq e
      refine .ite taken.queueError (.ite taken.queueError (.ite taken.of ?_))
      split
      · next e =>
        have sent := State.Canon.of_eq (.sendDesc (.of taken)) e
        split
        · next e => exact State.Canon.queueError (.of_eq (.qGet (.of sent)) e)
        · next e => exact State.Canon.of_eq (.qGet (.of sent)) e
      · next e =>
        have sent := State.Canon.of_eq (.sendDesc (.of taken)) e
        refine .ite sent ?_
        split
        · next e => exact (sent.qGet.of_eq e).toFlow
        · next e => exact sent.qGet.of_eq e

theorem canon_execDescriptorComplete {q} (h : s.Canon) : LandsCanon (execDescriptorComplete q s) := by
  unfold execDescriptorComplete
  dsimp only
  split
  · next e => exact h.qGet.of_eq e
  · next e =>
    have got := h.qGet.of_eq e
    split
    · exact got
    · refine .ite got ?_
      split
      · next e => exact State.Canon.queueError (.of_eq (.iteSnd (.of got) (.copyLocal (.of got))) e)
      · next e => exact .localInc (.qPut (.of_eq (.iteSnd (.of got) (.copyLocal (.of got))) e))

theorem State.Canon.placeHeld {q a} (h : s.Canon) : (State.placeHeld q a s).Canon := by
  induction a generalizing s q with
  | nil => exact h
  | cons x l ih =>
    unfold State.placeHeld
    split
    · next e => exact h.qGet.of_eq e
    · next e => exact .ite (ih (.ite ((h.qGet.of_eq e).of) (.qPut ((h.qGet.of_eq e).of)))) (h.qGet.of_eq e)

theorem canon_execLandPlace {q} (h : s.Canon) : LandsCanon (execLandPlace q s) := h.placeHeld

theorem State.Canon.addCredit {q n} (h : s.Canon) : (s.addCredit q n).Canon := by
  unfold State.addCredit
  split
  · next e => exact .ite ((h.qGet.of_eq e).qPut) (h.qGet.of_eq e)
  · next e => exact h.qGet.of_eq e

theorem canon_execCreditReturn {q} (h : s.Canon) : LandsCanon (execCreditReturn q s) := by
  unfold execCreditReturn
  dsimp only
  split
  · exact h
  · split
    · next e => exact h.qGet.of_eq e
    · next e => exact .ite (.addCredit ((h.qGet.of_eq e).of)) ((h.qGet.of_eq e).of)

theorem State.Canon.setDm {pc x} (h : s.Canon) : (s.setDm pc x).Canon := h.modCore

theorem State.Canon.coreFlow {lc pkg} (h : s.Canon) : (s.coreFlow lc pkg).2.Canon := by
  unfold State.coreFlow
  split
  · exact h
  · split
    · next e => exact h.sendQueue.of_eq e
    · next e => exact h.sendQueue.of_eq e

theorem State.Canon.sendReads {q v who a n} (h : s.Canon) : (s.sendReads q v who a n).Canon := .foldl (fun _ _ h => h.of.toFlow) h

theorem canon_execDmLoad {lc st ph tok ops} (h : s.Canon) : LandsCanon (execDmLoad lc st ph tok ops s) := by
  unfold execDmLoad
  refine h.engineWord (fun _ _ _ h => ?_)
  split
  · split
    · next e => exact h.coreFlow.of_eq e
    · next e => exact .sendReads ((h.coreFlow.of_eq e).setDm)
  · exact h

theorem State.Canon.loadLocal {pc lc a a4 a5} (h : s.Canon) : (State.loadLocal pc lc a a4 a5 s).2.Canon := by
  induction a generalizing s pc lc a4 a5 with
  | zero => exact h
  | succ a ih =>
    unfold State.loadLocal
    split
    · next e => exact ih ((h.memRead.of_eq e).modCore)
    · next e => exact ih (h.memRead.of_eq e)

theorem State.Canon.storeLocal {lc a a3} (h : s.Canon) : (State.storeLocal lc a a3 s).2.Canon := by
  induction a generalizing s lc a3 with
  | nil => exact h
  | cons x l ih =>
    unfold State.storeLocal
    split
    · next e => exact ih (h.memWrite.of_eq e)
    · next e => exact ih (h.memWrite.of_eq e)

theorem State.Canon.dmComplete {lc st opc k} (h : s.Canon) (hk : ∀ u pc f, u.Canon → (k u pc f).2.Canon) : (s.dmComplete lc st opc k).Canon := by
  unfold State.dmComplete
  split
  · exact h
  · split
    · exact h
    · refine .ite h ?_
      dsimp only
      split
      · exact (hk _ _ _ h).complete
      · exact (hk _ _ _ h).complete.halt

theorem canon_execDmLoadComplete {lc st} (h : s.Canon) : LandsCanon (execDmLoadComplete lc st s) := by
  unfold execDmLoadComplete
  refine h.dmComplete (fun _ _ _ h => ?_)
  split
  · exact h.loadLocal
  · exact h

theorem canon_execDmStore {lc st ph tok ops} (h : s.Canon) : LandsCanon (execDmStore lc st ph tok ops s) := by
  unfold execDmStore
  dsimp only
  refine h.engineWord (fun _ _ _ h => ?_)
  split
  · exact h.noteSpad
  · split
    · split
      · next e => exact State.Canon.of_eq (.coreFlow (.ite h.noteSpad h.noteSpad.coreBump)) e
      · next e => exact .flowWrite (.setDm (.of_eq (.coreFlow (.ite h.noteSpad h.noteSpad.coreBump)) e))
    · exact .setDm (.ite h.noteSpad h.noteSpad.coreBump)

theorem canon_execDmStoreComplete {lc st} (h : s.Canon) : LandsCanon (execDmStoreComplete lc st s) := by
  unfold execDmStoreComplete
  refine h.dmComplete (fun _ _ _ h => ?_)
  split
  · exact h.storeLocal
  · exact h

theorem canon_execDmFill {lc st ph tok ops} (h : s.Canon) : LandsCanon (execDmFill lc st ph tok ops s) := h.engineWord (fun _ _ _ h => h.modCore)

theorem canon_execDmFillComplete {lc st} (h : s.Canon) : LandsCanon (execDmFillComplete lc st s) := h.dmComplete (fun _ _ _ h => h)

theorem canon_execDmRclear {lc st ph tok ops} (h : s.Canon) : LandsCanon (execDmRclear lc st ph tok ops s) := h.engineWord (fun _ _ _ h => h.of)

end Sys2Proof.Machine
end

section
/-! The canonical form under commands on stack memory (O60). -/

namespace Sys2Proof.Machine

set_option Elab.async false

variable {s t u : State}

theorem State.Canon.answerMem {r g x} (h : s.Canon) : (s.answerMem r g x).Canon := by
  unfold State.answerMem
  split
  · exact h.send
  · exact h.send.accessFailed
  · exact h.of

theorem canon_execStackRead {r gran errs} (h : s.Canon) : LandsCanon (execStackRead r gran errs s) :=
  .answerMem (.memRead (.ite (h.withMem (MemState.wf_damage h.2 ..)) h))

theorem canon_execStackWrite {r gran data chk} (h : s.Canon) : LandsCanon (execStackWrite r gran data chk s) := h.memWrite.answerMem

theorem canon_execNarrowWrite {r gran mask data crc flush} (h : s.Canon) : LandsCanon (execNarrowWrite r gran mask data crc flush s) := by
  unfold execNarrowWrite
  dsimp only
  split
  · exact h
  · split
    · exact h.narrow
    · exact h.narrow.answerMem

theorem canon_execMergeTimeout {gran} (h : s.Canon) : LandsCanon (execMergeTimeout gran s) := h.flushGran

theorem canon_execAccDiagnosticRead {lc word} (h : s.Canon) : LandsCanon (execAccDiagnosticRead lc word s) := by
  unfold execAccDiagnosticRead
  dsimp only
  split
  · exact h.clusterFailed.send
  · split
    · exact h.coreBump.clusterFailed.send
    · exact h.coreBump.send

theorem State.Canon.patrolUncorr {g kind writer} (h : s.Canon) : (s.patrolUncorr g kind writer).Canon := by
  unfold State.patrolUncorr
  dsimp only
  split
  · exact h.noteUncorr.raise
  · exact h.noteUncorr.restoreAsk
  · exact h.noteUncorr.raise

theorem State.Canon.patrolGran {g} (h : s.Canon) : (s.patrolGran g).Canon := by
  unfold State.patrolGran
  split
  · exact .ite h.patrolUncorr h
  · exact .ite (.patrolUncorr (.ite h.noteCorr.put h.noteCorr)) (.ite h.noteCorr.put h.noteCorr)
  · exact h.patrolUncorr

theorem State.Canon.patrolEnds {d} (h : s.Canon) : (s.patrolEnds d).Canon := h.modCtl.finish

theorem canon_execStackPatrolScrub {d errs} (h : s.Canon) : LandsCanon (execStackPatrolScrub d errs s) :=
  .ite h (.ite (.patrolEnds (.bump (.setF (.ite (.patrolGran h.damage) h)))) (.setF (.ite (.patrolGran h.damage) h)))

theorem canon_execSpadPatrolScrub {pc word errs} (h : s.Canon) : LandsCanon (execSpadPatrolScrub pc word errs s) := by
  unfold execSpadPatrolScrub
  dsimp only
  split
  · exact h
  · split
    · exact h.setCore.noteSpad
    · exact h.setCore
    · exact .ite h.setCore.noteSpad.modCore h.setCore.noteSpad

theorem wf_sweepStack {m : MemState} (h : m.wf) (k : Nat) : (m.sweepStack k).wf := by
  obtain ⟨hd, hg, he, -⟩ := MemState.wf_dropStack h k
  refine ⟨hd, ⟨hg.1, fun e hmem => ?_⟩, he, ⟨?_, fun e hmem => ?_⟩⟩
  · obtain ⟨hold, hk⟩ := List.mem_filter.1 hmem
    rw [MemState.metaRest_sweepStack h, if_neg (by simpa using hk)]
    exact h.2.1.2 e hold
  · exact .filter _ (List.pairwise_map.2 h.2.2.2.1)
  · exact bne_iff_ne.1 (List.mem_filter.1 hmem).2

theorem canon_execInitSweep {k} (h : s.Canon) : LandsCanon (execInitSweep k s) :=
  .ite h (.setF (.withMem (t := { s with mem := s.mem.sweepStack k }) h (wf_sweepStack h.2 k)))

theorem State.Canon.regionStart {src op first count cls} (h : s.Canon) : (s.regionStart src op first count cls).Canon := h.of

theorem State.Canon.regionWrite {d op first count cls} (h : s.Canon) : (s.regionWrite d op first count cls).Canon :=
  .ite h (.ite h.setF h.regionStart)

theorem canon_execIncEpoch {d region count} (h : s.Canon) : LandsCanon (execIncEpoch d region count s) := h.regionWrite

theorem canon_execSetClass {d region count cls} (h : s.Canon) : LandsCanon (execSetClass d region count cls s) := h.regionWrite

theorem canon_execSetLost {d region count} (h : s.Canon) : LandsCanon (execSetLost d region count s) := h.regionWrite

theorem canon_execClearLost {d region count} (h : s.Canon) : LandsCanon (execClearLost d region count s) := h.regionWrite

theorem State.Canon.restoreServe {r reads} (h : s.Canon) : (s.restoreServe r reads).Canon :=
  .foldl (fun _ _ h => h.memRead.answerMem) (.foldl (fun _ _ h => h.flushGran) h)

theorem State.Canon.restoreFails {bad reads} (h : s.Canon) : (s.restoreFails bad reads).Canon := by
  unfold State.restoreFails
  refine .foldl (fun _ _ h => h.answerMem) (.foldl (fun u g h => ?_) h)
  split
  · exact h
  · exact .failWrites (.answerWrites (.of h))

theorem canon_execFirmwareRegionRestore {region image verified} (h : s.Canon) : LandsCanon (execFirmwareRegionRestore region image verified s) := by
  unfold execFirmwareRegionRestore
  extract_lets r mine _ asked bad reads _ m d
  have hm : m.wf := h.2
  have restored : ({ asked with mem := m.restoreRegion (0x50 + d) r image } : State).Canon := ⟨h.1, MemState.wf_restoreRegion hm ..⟩
  have waiting : ({ asked with mem := m } : State).Canon := ⟨h.1, hm⟩
  exact .ite h (.ite restored.raise.restoreServe waiting.raise.restoreFails)

end Sys2Proof.Machine
end

section
/-! The canonical form under links and the fabric (O60). -/

namespace Sys2Proof.Machine

set_option Elab.async false

variable {s t u : State}

theorem State.Canon.sendLine {p f} (h : s.Canon) : (s.sendLine p f).Canon := h.of.send

theorem State.Canon.sendFree {p typ pay} (h : s.Canon) : (s.sendFree p typ pay).Canon := h.of.sendLine

theorem State.Canon.sendCtrl {p e} (h : s.Canon) : (s.sendCtrl p e).Canon := h.send.sendFree

theorem State.Canon.sendFlit {p cls turn} (h : s.Canon) : (s.sendFlit p cls turn).Canon := by
  unfold State.sendFlit
  dsimp only
  split
  · exact h
  · exact h.of.sendLine

theorem State.Canon.pump {p a} (h : s.Canon) : (State.pump p a s).Canon := by
  induction a generalizing s p with
  | zero => exact h
  | succ a ih =>
    unfold State.pump
    dsimp only
    split
    · exact h
    · split
      · exact h
      · exact ih h.sendFlit

theorem State.Canon.portFlits {p buf l} (h : s.Canon) : (s.portFlits p buf l).Canon := h.of.pump

theorem State.Canon.portSend {p x} (h : s.Canon) : (s.portSend p x).Canon := h.portFlits

theorem State.Canon.refuseFlit {p kind b} (h : s.Canon) : (s.refuseFlit p kind b).Canon := by
  unfold State.refuseFlit
  split
  · exact h.of.bump.bump.sendCtrl
  · exact h.of.bump.sendCtrl
  · exact h.of.bump.bump.sendCtrl

theorem State.Canon.takeLine {p o} (h : s.Canon) : (s.takeLine p o).Canon := h.bump.bump.of

theorem State.Canon.acceptFlit {p f} (h : s.Canon) : (s.acceptFlit p f).Canon := .ite h.of h.of

theorem State.Canon.resend {p} (h : s.Canon) : (s.resend p).Canon := .foldl (fun _ _ h => h.sendLine) h

theorem State.Canon.takeNak {p seq} (h : s.Canon) : (s.takeNak p seq).Canon := .ite h h.of.resend

theorem canon_execEwNak {p seq} (h : s.Canon) : LandsCanon (execEwNak p seq s) := h.takeNak

theorem canon_execLinkIdleTimer {p} (h : s.Canon) : LandsCanon (execLinkIdleTimer p s) := .ite h h.sendFree

theorem State.Canon.portRetrain {p} (h : s.Canon) : (s.portRetrain p).Canon := h.setFunc.bump.raise

theorem State.Canon.askRetrain {p} (h : s.Canon) : (s.askRetrain p).Canon := .portRetrain (.ite h.sendCtrl h)

theorem canon_execPortRetrain {p} (h : s.Canon) : LandsCanon (execPortRetrain p s) := .ite h.askRetrain h

theorem State.Canon.setWidth {p w} (h : s.Canon) : (s.setWidth p w).Canon := h.setF.setF

theorem canon_execPortRetrainDone {p width} (h : s.Canon) : LandsCanon (execPortRetrainDone p width s) :=
  .ite h (.ite (.ite h.of.portRetrain h.of.failFunc.finish.raise) h.of.setWidth.setFunc.finish.resend.pump)

theorem State.Canon.edgeFree {d e typ body} (h : s.Canon) : (s.edgeFree d e typ body).Canon := h.of.send

theorem State.Canon.edgeNak {d e seq} (h : s.Canon) : (s.edgeNak d e seq).Canon := h.send.edgeFree

theorem State.Canon.edgeBytes {d e bs} (h : s.Canon) : (State.edgeBytes d e bs s).Canon := .foldl (fun _ _ h => h.of.send) h

theorem State.Canon.edgeFlush {d e a} (h : s.Canon) : (State.edgeFlush d e a s).Canon := by
  induction a generalizing s d e with
  | zero => exact h
  | succ a ih =>
    unfold State.edgeFlush
    split
    · exact h
    · exact ih h.of.edgeBytes

theorem State.Canon.flushEdge {d e} (h : s.Canon) : (s.flushEdge d e).Canon := h.edgeFlush

theorem State.Canon.edgeSend {d e src dst b} (h : s.Canon) : (s.edgeSend d e src dst b).Canon := h.of.flushEdge

theorem State.Canon.refusePkgFlit {d e m f crc} (h : s.Canon) : (s.refusePkgFlit d e m f crc).Canon := h.bump.of.bump.edgeNak

theorem State.Canon.edgeResend {d e seq} (h : s.Canon) : (s.edgeResend d e seq).Canon := by
  unfold State.edgeResend
  dsimp only
  split
  · exact h
  · exact .ite h (.foldl (fun _ _ h => h.send) h.of)

theorem State.Canon.edgeEntries {d e f} (h : s.Canon) : (s.edgeEntries d e f).Canon := by
  unfold State.edgeEntries
  dsimp only
  refine State.Canon.foldl (fun _ _ h => ?_) h
  split
  · exact h
  · split
    · exact h.edgeResend
    · exact h.of
    · exact h

theorem State.Canon.arrive {d e p pe b} (h : s.Canon) : (s.arrive d e p pe b).Canon := by
  unfold State.arrive
  dsimp only
  split
  · exact h.of
  · split <;> exact h.of

theorem State.Canon.acceptPkgFlit {d e p pe m f} (h : s.Canon) : (s.acceptPkgFlit d e p pe m f).Canon := by
  unfold State.acceptPkgFlit
  dsimp only
  split
  · exact h.of.flushEdge
  · split
    · exact h.of.edgeEntries.flushEdge
    · split
      · exact h.refusePkgFlit
      · exact .ite h.refusePkgFlit (.flushEdge (.foldl (fun _ _ h => h.arrive) h.of))

theorem canon_execPackageFlitReceive {d e m sent flips} (h : s.Canon) : LandsCanon (execPackageFlitReceive d e m sent flips s) := by
  unfold execPackageFlitReceive
  dsimp only
  split
  · exact h
  · split
    · exact h
    · split
      · exact h
      · split
        · exact .ite h.of h.of.refusePkgFlit
        · exact h.of.refusePkgFlit
        · exact h.of.acceptPkgFlit

theorem canon_execD2dNak {d e seq} (h : s.Canon) : LandsCanon (execD2dNak d e seq s) := h.edgeResend

theorem canon_execD2dIdleTimer {d e} (h : s.Canon) : LandsCanon (execD2dIdleTimer d e s) := .ite h (.ite h.flushEdge h.edgeFree)

theorem State.Canon.misroute {d unit inst h'} (h : s.Canon) : (s.misroute d unit inst h').Canon := h.raise

theorem State.Canon.standIn {d x} (h : s.Canon) : (s.standIn d x).Canon := by
  unfold State.standIn
  split
  · exact h.of
  · exact h.of
  · exact h.raise
  · exact h.of
  · exact h.of
  · exact h

theorem State.Canon.deliver {d x} (h : s.Canon) : (s.deliver d x).Canon := .ite h.raise (.ite h.raise (.ite h.standIn h.of))

theorem State.Canon.fiNext {d src} (h : s.Canon) : ∀ x ∈ s.fiNext d src, x.2.Canon := by
  unfold State.fiNext
  intro x hx
  split at hx
  · dsimp only at hx
    split at hx
    · simp at hx
    · cases hx
      exact h.of
  · split at hx
    · simp at hx
    · cases hx
      exact h.of

theorem canon_execTransferOriginate {d src} (h : s.Canon) : LandsCanon (execTransferOriginate d src s) := by
  refine State.Canon.ite h ?_
  split
  · exact h
  · next x t e =>
    have taken : t.Canon := h.fiNext _ e
    refine .ite h ?_
    split
    · exact .misroute (.bump (.of taken))
    · exact .ite (.misroute (.bump (.of taken))) (.ite (State.Canon.deliver (.of taken)) (.ite (.deliver (.of taken)) h))
    · refine .ite (.misroute (.bump (.of taken))) ?_
      split
      · exact State.Canon.edgeSend (.of taken)
      · exact h

theorem canon_execFabOut {pd} (h : s.Canon) : LandsCanon (execFabOut pd s) := by
  unfold execFabOut
  dsimp only
  split
  · exact h
  · split
    · split
      · exact h.of.portSend
      · exact h
    · exact h

theorem canon_execFabIn {d} (h : s.Canon) : LandsCanon (execFabIn d s) := by
  unfold execFabIn
  dsimp only
  split
  · exact h
  · split
    · split
      · split
        · split
          · exact h.of.edgeSend
          · exact h
        · exact .ite h h.of.deliver
      · exact h
    · exact h

theorem State.Canon.hopRefused {p buf h'} (h : s.Canon) : (s.hopRefused p buf h').Canon := h.raise.of

theorem State.Canon.hopDeliver {p r cls n cross} (h : s.Canon) : (s.hopDeliver p r cls n cross).Canon := h.edgeSend

theorem State.Canon.hopStep {p buf r} (h : s.Canon) : (s.hopStep p buf r).Canon := by
  unfold State.hopStep
  extract_lets ended freed
  have hended : ended.Canon := h.of
  have hfreed : freed.Canon := by
    unfold freed
    split
    · exact hended.of
    · exact hended
  clear_value freed
  refine .ite h.of ?_
  split
  · exact .ite hfreed.raise hfreed.hopDeliver
  · exact hfreed

theorem State.Canon.hopStart {p buf f} (h : s.Canon) : (s.hopStart p buf f).Canon := by
  have freed : (s.freeRx p buf).Canon := h.of
  unfold State.hopStart
  refine .ite freed.hopRefused (.ite freed.hopRefused ?_)
  extract_lets
  split
  · exact h
  · split
    · exact freed.bump.misroute.hopStep
    · refine .ite h ?_
      split
      · exact .ite (.hopStep (.portFlits (.of freed))) h
      · exact .hopStep (.of freed)

theorem State.Canon.hopNext {p buf f r} (h : s.Canon) : (s.hopNext p buf f r).Canon := by
  unfold State.hopNext
  split
  · exact h.hopStep
  · split
    · exact .ite h.of.portFlits.hopStep h
    · exact h.of.hopStep
    · exact h.of.hopStep

theorem canon_execTransferHop {p buf} (h : s.Canon) : LandsCanon (execTransferHop p buf s) := by
  unfold execTransferHop
  split
  · exact h
  · split
    · exact h
    · exact h.hopStart
    · exact h.hopNext

theorem State.Canon.retire {d x failed} (h : s.Canon) : (s.retire d x failed).Canon := .ite h.of h.of

theorem State.Canon.fabricRefused {d a x} (h : s.Canon) : (s.fabricRefused d a x).Canon := h.raise

theorem State.Canon.fabricWrite {d x a a4} (h : s.Canon) : (State.fabricWrite d x a a4 s).2.Canon := by
  induction a generalizing s d x a4 with
  | nil => exact h
  | cons x l ih =>
    unfold State.fabricWrite
    dsimp only
    split
    · exact ih h.memWrite
    · exact ih (.ite h.memWrite.fabricRefused h.memWrite)
    · exact ih h.memWrite

theorem canon_execWrite {d} (h : s.Canon) : LandsCanon (execWrite d s) := by
  unfold execWrite
  split
  · exact h
  · exact h.of.fabricWrite.retire

theorem State.Canon.landWrite {d x v k data} (h : s.Canon) : (State.landWrite d x v k data s).2.Canon := by
  refine .iteSnd (List.foldlRecOn (motive := fun r : Bool × Nat × State => r.2.2.Canon) _ _ h (fun r h g _ => .foldlSnd (fun q j h => ?_) h))
    (.foldlSnd (fun q i h => ?_) h)
  · dsimp only
    split
    · next e => exact h.narrowAt.of_eq e
    · next e => exact .ite (h.narrowAt.of_eq e).fabricRefused (h.narrowAt.of_eq e)
  · dsimp only
    split
    · next e => exact h.memWrite.of_eq e
    · next e => exact .ite (h.memWrite.of_eq e).fabricRefused (h.memWrite.of_eq e)
    · next e => exact h.memWrite.of_eq e

theorem State.Canon.landRefused {d x} (h : s.Canon) : (s.landRefused d x).Canon := h.raise.retire

theorem canon_execLand {d} (h : s.Canon) : LandsCanon (execLand d s) := by
  unfold execLand
  dsimp only
  split
  · exact h
  · next x r e =>
    have taken : (s.setFi d r).Canon := h.of
    split
    · next e => exact (taken.qGet.of_eq e).landRefused
    · next e =>
      have got := taken.qGet.of_eq e
      exact .ite got.landRefused (.retire (.notify (.qPut (.of got.landWrite))))

theorem State.Canon.passSignal {d x} (h : s.Canon) : (s.passSignal d x).Canon := .ite h h.berylSend

theorem canon_execSignal {d} (h : s.Canon) : LandsCanon (execSignal d s) := by
  unfold execSignal
  split
  · exact h
  · exact h.of

theorem canon_execFence {d} (h : s.Canon) : LandsCanon (execFence d s) := by
  unfold execFence
  split
  · exact h
  · exact h.of

theorem canon_execSignalRelease {d} (h : s.Canon) : LandsCanon (execSignalRelease d s) := by
  unfold execSignalRelease
  split
  · exact h
  · exact h.of.passSignal

theorem canon_execFenceRelease {d} (h : s.Canon) : LandsCanon (execFenceRelease d s) := by
  unfold execFenceRelease
  split
  · exact h
  · exact h.of

theorem canon_execFenceAck {d} (h : s.Canon) : LandsCanon (execFenceAck d s) := by
  unfold execFenceAck
  dsimp only
  split
  · exact h
  · split
    · exact h.of
    · exact h.of.settleSy

theorem canon_execCredit {d} (h : s.Canon) : LandsCanon (execCredit d s) := by
  unfold execCredit
  split
  · exact h
  · exact h.of.addCredit

theorem State.Canon.dmAnswered {pc id done bad} (h : s.Canon) : (s.dmAnswered pc id done bad).Canon := h.modCore

theorem State.Canon.retired {q o failed} (h : s.Canon) : (s.retired q o failed).Canon := by
  unfold State.retired
  split
  · exact h
  · exact h.dmAnswered
  · split
    · split
      · next e => exact (h.qGet.of_eq e).queueError
      · next e => exact h.qGet.of_eq e
    · exact h
  · exact h.of

theorem canon_execCompletion {d} (h : s.Canon) : LandsCanon (execCompletion d s) := by
  unfold execCompletion
  split
  · exact h
  · exact .foldl (fun _ _ h => h.retired) h.of

theorem canon_execCompletionTimer {d src flow} (h : s.Canon) : LandsCanon (execCompletionTimer d src flow s) := .ite h h.of

theorem State.Canon.fabricRead {d x a a4} (h : s.Canon) : (State.fabricRead d x a a4 s).2.Canon := by
  induction a generalizing s d x a4 with
  | zero => exact h
  | succ a ih =>
    unfold State.fabricRead
    dsimp only
    split
    · exact ih h.memRead
    · exact ih (.ite h.memRead.fabricRefused h.memRead)
    · exact ih h.memRead

theorem canon_execRead {d} (h : s.Canon) : LandsCanon (execRead d s) := by
  unfold execRead
  split
  · exact h
  · exact .foldl (fun _ _ h => h.of) h.of.fabricRead

theorem State.Canon.loadGrans {pc w data} (h : s.Canon) : (s.loadGrans pc w data).Canon := .foldl (fun _ _ h => h.modCore) h

end Sys2Proof.Machine
end

section
/-! The canonical form under runs, collectives and time (O60). -/

namespace Sys2Proof.Machine

set_option Elab.async false

variable {s t u : State}

theorem State.Canon.dataRead {r g} (h : s.Canon) : (s.dataRead r g).2.Canon := .iteSnd h h.memRead

theorem State.Canon.dataGrans {r g a} (h : s.Canon) : (State.dataGrans r g a s).2.Canon := by
  induction a generalizing s r g with
  | zero => exact h
  | succ a ih =>
    unfold State.dataGrans
    split
    · next e =>
        split
        · next e2 => exact (ih (h.dataRead.of_eq e)).of_eq e2
        · next e2 => exact (ih (h.dataRead.of_eq e)).of_eq e2
    · next e => exact (h.dataRead.of_eq e).accessFailed
    · next e => exact h.dataRead.of_eq e

theorem State.Canon.dataRun {r a n} (h : s.Canon) : (s.dataRun r a n).2.Canon := h.dataGrans

theorem State.Canon.readGrans {r g a} (h : s.Canon) : (State.readGrans r g a s).2.Canon := by
  induction a generalizing s r g with
  | zero => exact h
  | succ a ih =>
    unfold State.readGrans
    split
    · next e =>
        split
        · next e2 => exact (ih (h.memRead.of_eq e)).of_eq e2
        · next e2 => exact (ih (h.memRead.of_eq e)).of_eq e2
    · next e => exact (h.memRead.of_eq e).accessFailed
    · next e => exact h.memRead.of_eq e

theorem State.Canon.readRun {r a n} (h : s.Canon) : (s.readRun r a n).2.Canon := h.readGrans

theorem State.Canon.writeRunFuel {r a a3 a4} (h : s.Canon) : (State.writeRunFuel r a a3 a4 s).2.Canon := by
  induction a generalizing s r a3 a4 with
  | zero => exact h
  | succ a ih =>
    unfold State.writeRunFuel
    dsimp only
    split
    · exact h
    · split
      · split
        · split
          · next e => exact (h.memPut.of_eq e).accessFailed
          · next e => exact (h.memPut.of_eq e).accessFailed
          · next e => exact (h.memPut.of_eq e).accessFailed
        · exact h.narrowAt.accessFailed
      · split
        · split
          · next e => exact ih (h.memPut.of_eq e)
          · next e => exact ih (h.memPut.of_eq e)
          · next e => exact ih (h.memPut.of_eq e)
        · exact ih h.narrowAt

theorem State.Canon.writeRun {r a bs} (h : s.Canon) : (s.writeRun r a bs).2.Canon := h.writeRunFuel

theorem State.Canon.srcElems {d x i n} (h : s.Canon) : (s.srcElems d x i n).2.Canon := by
  unfold State.srcElems
  dsimp only
  split
  · next e => exact h.dataRun.of_eq e
  · next e =>
      split
      · split
        · next e2 => exact ((h.dataRun.of_eq e).dataRun).of_eq e2
        · next e2 => exact ((h.dataRun.of_eq e).dataRun).of_eq e2
      · exact h.dataRun.of_eq e

theorem State.Canon.putElems {d x i l} (h : s.Canon) : (s.putElems d x i l).2.Canon := by
  unfold State.putElems
  dsimp only
  split
  · next e => exact h.writeRun.of_eq e
  · next e => exact .iteSnd ((h.writeRun.of_eq e).writeRun) (h.writeRun.of_eq e)

theorem State.Canon.setRuns {d l} (h : s.Canon) : (s.setRuns d l).Canon := h.of.setF

theorem State.Canon.setRun {d r} (h : s.Canon) : (s.setRun d r).Canon := h.setRuns

theorem State.Canon.ceHalt {d ix why} (h : s.Canon) : (s.ceHalt d ix why).Canon := h.setF.raise

theorem State.Canon.ceSend {d r p land num data} (h : s.Canon) : TriesCanon (s.ceSend d r p land num data) := by
  unfold State.ceSend
  split
  · next e => exact .none (h.sendQueue.of_eq e).ceHalt
  · next e =>
    extract_lets sizes z
    have hz : z.2.Canon := by
      refine .foldlSnd (fun a g h => ?_) (h.sendQueue.of_eq e)
      split
      · next e => exact h.qGet.of_eq e
      · next e => exact .toFlow (.of (h.qGet.of_eq e))
    exact .some hz hz

theorem canon_ceAll {α : Type} {f : α → State → Option State × State} {l : List α} (h : s.Canon) (hf : ∀ a u, u.Canon → TriesCanon (f a u)) :
    TriesCanon (ceAll f l s) := by
  induction l generalizing s with
  | nil => exact .some h h
  | cons a l ih =>
    unfold ceAll
    split
    · next e => exact ih ((hf a _ h).of_some e)
    · next e => exact .none ((hf a _ h).of_eq e)

theorem State.Canon.ceWrite {d r i l} (h : s.Canon) : TriesCanon (s.ceWrite d r i l) := by
  unfold State.ceWrite
  split
  · next e => exact .some (h.putElems.of_eq e) (h.putElems.of_eq e)
  · next e => exact .none ((h.putElems.of_eq e).ceHalt)

theorem State.Canon.ceOwn {d r sh c k} (h : s.Canon) (hk : ∀ l i u, u.Canon → TriesCanon (k l i u)) : TriesCanon (s.ceOwn d r sh c k) := by
  unfold State.ceOwn
  dsimp only
  split
  · next e => exact .none (h.srcElems.of_eq e).ceHalt
  · next e => exact hk _ _ _ (h.srcElems.of_eq e)

theorem State.Canon.ceCopy {d r sh at_} (h : s.Canon) : TriesCanon (State.ceCopy d r sh at_ s) :=
  (canon_ceAll h (fun _ _ h => h.ceOwn (fun _ _ _ h1 => h1.ceWrite)))

theorem State.Canon.ceSendOwn {d r p land sh tensorSh num} (h : s.Canon) : TriesCanon (State.ceSendOwn d r p land sh tensorSh num s) :=
  (canon_ceAll h (fun _ _ h => h.ceOwn (fun _ _ _ h1 => h1.ceSend)))

theorem State.Canon.ceVerdict {d a b} (h : s.Canon) : (s.ceVerdict d a b).2.Canon := .ite h h.bump

theorem State.Canon.verdictLand {d r rec} (h : s.Canon) : TriesCanon (s.verdictLand d r rec) := by
  unfold State.verdictLand
  split
  · exact .none h.setF.raise
  · split
    · next e => exact .some (h.writeRun.of_eq e) (h.writeRun.of_eq e)
    · next e => exact .none ((h.writeRun.of_eq e).ceHalt)

theorem State.Canon.ownVerdict {d r} (h : s.Canon) : (s.ownVerdict d r).2.Canon := by
  unfold State.ownVerdict
  split
  · next e => exact h.dataRun.of_eq e
  · next e => exact (h.dataRun.of_eq e).ceHalt

theorem State.Canon.ceResidue {d ix res} (h : s.Canon) : (s.ceResidue d ix res).Canon := .ite h h.raise

theorem State.Canon.startVerdict {d r} (h : s.Canon) : TriesCanon (s.startVerdict d r) := by
  unfold State.startVerdict
  split
  · next e => exact .none (h.ownVerdict.of_eq e)
  · next e =>
      split
      · split
        · exact .some (h.ownVerdict.of_eq e) (h.ownVerdict.of_eq e)
        · split
          · exact (h.ownVerdict.of_eq e).verdictLand
          · exact (h.ownVerdict.of_eq e).ceSend
      · split
        · exact (h.ownVerdict.of_eq e).verdictLand
        · exact State.Canon.ceSend ((h.ownVerdict.of_eq e).setRun)

theorem State.Canon.ceBegin {d r} (h : s.Canon) : TriesCanon (s.ceBegin d r) := by
  unfold State.ceBegin
  dsimp only
  split
  · exact h.startVerdict
  · split
    · next e => exact .none (h.ceCopy.of_eq e)
    · next e => exact canon_ceAll (h.ceCopy.of_some e) (fun _ _ h => h.ceSendOwn)
  · split
    · split
      · exact .some h h
      · split
        · next e => exact .none (h.ceCopy.of_eq e)
        · next e => exact canon_ceAll (h.ceCopy.of_some e) (fun _ _ h => h.ceSendOwn)
    · split
      · exact .some h h
      · split
        · next e => exact .none (h.ceCopy.of_eq e)
        · next e =>
            split
            · exact .some (h.ceCopy.of_some e) (h.ceCopy.of_some e)
            · exact (h.ceCopy.of_some e).ceSendOwn
  · split
    · next e => exact .none (h.ceCopy.of_eq e)
    · next e =>
        split
        · exact .some (h.ceCopy.of_some e) (h.ceCopy.of_some e)
        · exact (h.ceCopy.of_some e).ceSendOwn
  · split
    · split
      · exact .some h h
      · split
        · exact h.ceCopy
        · exact h.ceSendOwn
    · split
      · exact h.ceCopy
      · exact h.ceSendOwn

theorem canon_execCeDescriptorStart {d residue} (h : s.Canon) : LandsCanon (execCeDescriptorStart d residue s) := by
  refine State.Canon.ite h ?_
  extract_lets q
  split
  · next e => exact h.qGet.of_eq e
  · next e =>
    have hgot := h.qGet.of_eq e
    refine .ite hgot ?_
    extract_lets taken ix
    have htaken : taken.Canon := hgot.qPut.noteFreed
    clear_value taken
    split
    · next e => exact (htaken.readRun.of_eq e).ceHalt
    · next e =>
      have hread := htaken.readRun.of_eq e
      extract_lets x
      refine .ite hread.ceHalt ?_
      split
      · next e => exact (hread.dataRun.of_eq e).ceHalt
      · next e =>
        have hpeers := hread.dataRun.of_eq e
        exact .ite hpeers.ceHalt hpeers.setF.setRuns.ceResidue.ceBegin.snd

theorem State.Canon.ceComb {d x inc own} (h : s.Canon) : (s.ceComb d x inc own).2.Canon := .ite h h.bump

theorem State.Canon.treeResult {d r c l} (h : s.Canon) : TriesCanon (s.treeResult d r c l) := by
  unfold State.treeResult
  dsimp only
  split
  · exact h.ceSend
  · split
    · next e => exact .none (h.ceWrite.of_eq e)
    · next e => exact canon_ceAll (h.ceWrite.of_some e) (fun _ _ h => h.ceSend)

theorem State.Canon.takeChild {d r i c inc} (h : s.Canon) : TriesCanon (s.takeChild d r i c inc) := by
  unfold State.takeChild
  dsimp only
  split
  · split
    · refine h.ceOwn (fun _ _ _ h => ?_)
      split
      · exact .some (.setRun (.ite h h.bump)) (.setRun (.ite h h.bump))
      · exact State.Canon.treeResult (.setRun (.ite h h.bump))
    · split
      · exact .some h.setRun h.setRun
      · exact h.ceOwn (fun _ _ _ h => State.Canon.treeResult (.setRun (.ite h h.bump)))
  · split
    · exact .some (.setRun (.ite h h.bump)) (.setRun (.ite h h.bump))
    · split
      · exact State.Canon.treeResult (.setRun (.ite h h.bump))
      · exact State.Canon.ceOwn (.ite h h.bump) (fun _ _ _ h => State.Canon.treeResult (.setRun (.ite h h.bump)))

theorem State.Canon.takeVerdict {d r i m rec} (h : s.Canon) : TriesCanon (s.takeVerdict d r i m rec) := by
  unfold State.takeVerdict
  split
  · extract_lets z t
    have ht : t.Canon := h.ceVerdict.setRun
    split
    · exact ht.verdictLand
    · exact ht.ceSend
  · split
    · split
      · next e => exact .none (h.verdictLand.of_eq e)
      · next e => exact canon_ceAll (h.verdictLand.of_some e) (fun _ _ h => h.ceSend)
    · extract_lets z
      have hz : z.2.Canon := by
        unfold z
        split
        · exact h.ceVerdict
        · exact h
      split
      · exact .some hz.setRun hz.setRun
      · split
        · next e => exact .none (hz.ownVerdict.of_eq e)
        · next e =>
          extract_lets all
          have hall : all.2.Canon := (hz.ownVerdict.of_eq e).ceVerdict
          split
          · exact hall.ceSend
          · split
            · next e => exact .none (hall.verdictLand.of_eq e)
            · next e => exact canon_ceAll (hall.verdictLand.of_some e) (fun _ _ h => h.ceSend)

theorem State.Canon.takeChunk {d r i m data} (h : s.Canon) : TriesCanon (s.takeChunk d r i m data) := by
  unfold State.takeChunk
  dsimp only
  split
  · exact h.takeVerdict
  · exact h.ceWrite
  · split
    · split
      · next e => exact canon_ceAll (h.ceWrite.of_some e) (fun _ _ h => h.ceSend)
      · exact h.ceWrite
    · split
      · next e =>
          split
          · exact .some (h.ceWrite.of_some e) (h.ceWrite.of_some e)
          · exact (h.ceWrite.of_some e).ceSend
      · exact h.ceWrite
  · split
    · next e =>
        split
        · split
          · exact (h.ceWrite.of_some e).ceSend
          · exact .some (h.ceWrite.of_some e) (h.ceWrite.of_some e)
        · split
          · exact (h.ceWrite.of_some e).ceSend
          · exact .some (h.ceWrite.of_some e) (h.ceWrite.of_some e)
    · exact h.ceWrite
  · split
    · split
      · split
        · next e => exact canon_ceAll (h.ceWrite.of_some e) (fun _ _ h => h.ceSend)
        · exact h.ceWrite
      · exact h.takeChild
    · split
      · split
        · refine h.ceOwn (fun _ _ _ h => ?_)
          split
          · exact h.ceComb.ceSend
          · split
            · exact h.ceComb.ceWrite
            · split
              · next e => exact (h.ceComb.ceWrite.of_some e).ceSend
              · exact h.ceComb.ceWrite
        · split
          · next e =>
              split
              · exact (h.ceWrite.of_some e).ceSend
              · exact .some (h.ceWrite.of_some e) (h.ceWrite.of_some e)
          · exact h.ceWrite
      · split
        · refine h.ceOwn (fun _ _ _ h => ?_)
          split
          · exact h.ceComb.ceSend
          · split
            · exact h.ceComb.ceWrite
            · split
              · next e => exact (h.ceComb.ceWrite.of_some e).ceSend
              · exact h.ceComb.ceWrite
        · split
          · next e =>
              split
              · exact (h.ceWrite.of_some e).ceSend
              · exact .some (h.ceWrite.of_some e) (h.ceWrite.of_some e)
          · exact h.ceWrite

theorem State.Canon.chunkData {d r i data res} (h : s.Canon) : (s.chunkData d r i data res).Canon :=
  .ite h.setRun (.ite h.ceHalt h.setRun.ceResidue.takeChunk.snd)

theorem State.Canon.staleChunk {d h'} (h : s.Canon) : (s.staleChunk d h').Canon := h.bump.raise

theorem State.Canon.readLanded {d v g} (h : s.Canon) : (State.readLanded d v g s).2.Canon := by
  refine .foldlSnd (fun a j h => ?_) h
  split
  · exact h
  · exact h.dataRun

theorem State.Canon.chunkLanded {d q res} (h : s.Canon) : (s.chunkLanded d q res).Canon := by
  unfold State.chunkLanded
  dsimp only
  split
  · next e => exact h.qGet.of_eq e
  · next e =>
      split
      · exact h.qGet.of_eq e
      · split
        · exact h.qGet.of_eq e
        · split
          · exact h.qGet.of_eq e
          · exact .staleChunk (.noteFreed ((h.qGet.of_eq e).qPut))
          · exact .ceHalt (.noteFreed ((h.qGet.of_eq e).qPut))
          · split
            · next e2 => exact .ceHalt (.noteFreed ((((h.qGet.of_eq e).readLanded).of_eq e2).qPut))
            · next e2 => exact .chunkData (.noteFreed ((((h.qGet.of_eq e).readLanded).of_eq e2).qPut))

theorem State.Canon.chunkArrived {d x rest res} (h : s.Canon) : (s.chunkArrived d x rest res).Canon := by
  unfold State.chunkArrived
  split
  · exact h
  · exact h.of.staleChunk.retire
  · exact h.of.ceHalt.retire
  · exact .ite h.of.retire h.of.chunkData.retire

theorem canon_execChunk {d rq residue} (h : s.Canon) : LandsCanon (execChunk d rq residue s) := by
  unfold execChunk
  split
  · exact h
  · split
    · exact h.chunkLanded
    · split
      · exact h
      · exact h.chunkArrived

theorem canon_execCeDescriptorComplete {d} (h : s.Canon) : LandsCanon (execCeDescriptorComplete d s) := by
  unfold execCeDescriptorComplete
  split
  · exact h
  · split
    · exact h
    · exact h.setRuns.localInc

theorem State.Canon.tick (h : s.Canon) : s.tick.Canon := .foldl (fun _ _ h => .ite h (.ite h.setReg h.setReg.setReg.setDie)) h

theorem State.Canon.syncTime {d target depth} (h : s.Canon) : (s.syncTime d target depth).Canon :=
  .setF (.setF (.setF (.ite h.setDie h.setReg.setDie)))

theorem State.Canon.takeTime {p stamp depth} (h : s.Canon) : (s.takeTime p stamp depth).Canon := .ite h (.foldl (fun _ _ h => .ite h.syncTime h) h)

theorem canon_execTimeSyncEntry {p stamp depth} (h : s.Canon) : LandsCanon (execTimeSyncEntry p stamp depth s) := h.takeTime

theorem State.Canon.takeEntry {p e} (h : s.Canon) : (s.takeEntry p e).Canon := by
  unfold State.takeEntry
  split
  · exact h.takeNak
  · exact .ite h.portRetrain h
  · exact h
  · exact h.takeTime

theorem State.Canon.takeEntries {p pay} (h : s.Canon) : (s.takeEntries p pay).Canon := by
  unfold State.takeEntries
  dsimp only
  refine State.Canon.foldl (fun _ _ h => ?_) h
  split
  · exact h
  · split
    · exact h.takeEntry
    · exact h

theorem canon_execEwFlitReceive {p flit hits} (h : s.Canon) : LandsCanon (execEwFlitReceive p flit hits s) := by
  unfold execEwFlitReceive
  dsimp only
  split
  · exact h
  · split
    · exact .ite h.takeLine.of h.takeLine.refuseFlit
    · exact h.takeLine.refuseFlit
    · exact .pump (.ite h.takeLine.acceptFlit.takeEntries h.takeLine.acceptFlit)

theorem canon_execDelayMeasurement {p rtt} (h : s.Canon) : LandsCanon (execDelayMeasurement p rtt s) := .ite h h.of.setF

theorem canon_execFabricTimeUnlock {d} (h : s.Canon) : LandsCanon (execFabricTimeUnlock d s) := .ite h h.setF.modDie.raise

theorem canon_execTimeSyncSend {ports} (h : s.Canon) : LandsCanon (execTimeSyncSend ports s) := .ite h.of (.foldl (fun _ _ h => h.sendCtrl) h.of)

theorem canon_execJasper {d} (h : s.Canon) : LandsCanon (execJasper d s) := by
  unfold execJasper
  split
  · exact h
  · split <;> exact h.of

end Sys2Proof.Machine
end

section
/-! The canonical form under loads, training steps and updates (O60). -/

namespace Sys2Proof.Machine

set_option Elab.async false

variable {s t u : State}

theorem State.Canon.setBulk {b} (h : s.Canon) : (s.setBulk b).Canon := h.modCtl

theorem State.Canon.bind {conn ingest use addr len nctr ngr} (h : s.Canon) : (s.bind conn ingest use addr len nctr ngr).2.Canon := h.modCtl

theorem State.Canon.setAll {f v} (h : s.Canon) : (s.setAll f v).Canon := .foldl (fun _ _ h => h.setF) h

theorem State.Canon.flashAsk {o} (h : s.Canon) : (s.flashAsk o).Canon := h.of

theorem State.Canon.imageDone {b bs} (h : s.Canon) : (s.imageDone b bs).Canon := by
  unfold State.imageDone
  dsimp only
  split
  · exact h.of.finish
  · split
    · next e => exact .finish ((h.of.writeRun.of_eq e).modCtl)
    · next e => exact (h.of.writeRun.of_eq e).finish

theorem State.Canon.layoutDone {b bs} (h : s.Canon) : (s.layoutDone b bs).Canon :=
  .ite h.of.finish (.ite h.of.finish h.of.modCtl.setAll.setAll.finish)

theorem State.Canon.finishFlash {code status detail} (h : s.Canon) : (s.finishFlash code status detail).Canon := by
  unfold State.finishFlash
  split
  · exact h.modCtl.reply
  · exact h

theorem State.Canon.stageDone {b bs} (h : s.Canon) : (s.stageDone b bs).Canon := h.of.flashAsk

theorem State.Canon.calDone {b bs} (h : s.Canon) : (s.calDone b bs).Canon := .ite h.of.finish h.of

theorem State.Canon.bulkDone {b} (h : s.Canon) : (s.bulkDone b).Canon := by
  unfold State.bulkDone
  split
  · exact h.imageDone
  · exact h.layoutDone
  · exact h.stageDone
  · exact h.calDone
  · exact h

theorem State.Canon.ingest {c off data} (h : s.Canon) : (s.ingest c off data).Canon := by
  unfold State.ingest
  split
  · exact h.resetConn
  · split
    · split
      · next e => exact .ite h.resetConn ((h.writeRun.of_eq e).setBulk)
      · next e => exact .ite h.resetConn ((h.writeRun.of_eq e).resetConn)
    · exact .ite h.resetConn (.ite h.setBulk.bulkDone h.setBulk)

theorem State.Canon.egressSegs {a n} (h : s.Canon) : (s.egressSegs a n).2.Canon := by
  unfold State.egressSegs
  split
  · next e => exact h.readRun.of_eq e
  · next e => exact h.readRun.of_eq e

theorem canon_execCstSyn (h : s.Canon) : LandsCanon (execCstSyn s) := by
  unfold execCstSyn
  dsimp only
  split
  · exact h
  · split
    · exact h.modCtl.segOut
    · exact .ite h.modCtl.rstTo h.of.modCtl.showCtl.segOut

theorem State.Canon.deliverSeg {id g} (h : s.Canon) : (s.deliverSeg id g).Canon := by
  unfold State.deliverSeg
  split
  · exact h
  · exact .ite h.ingest (.ite h.resetConn (.ite (.ite h.setConn.packet h.setConn) h.setConn))

theorem State.Canon.drainSegs {id a} (h : s.Canon) : (State.drainSegs id a s).Canon := by
  induction a generalizing s id with
  | zero => exact h
  | succ a ih =>
    unfold State.drainSegs
    split
    · exact h
    · split
      · exact h
      · exact .ite h.setConn.sendAck.dropConn (ih h.setConn.deliverSeg)

theorem State.Canon.takePsn {c g} (h : s.Canon) : (s.takePsn c g).Canon := by
  unfold State.takePsn
  dsimp only
  split
  · exact h.sendAck
  · split
    · exact h.bump.sendAck
    · split
      · exact h.sendAck
      · split
        · exact h.setConn.drainSegs
        · exact .ite h.setConn.drainSegs.sendAck h.setConn.drainSegs

theorem canon_execCstData (h : s.Canon) : LandsCanon (execCstData s) := h.withSeg (fun _ _ _ h => h.takePsn)

theorem canon_execCstFin (h : s.Canon) : LandsCanon (execCstFin s) := h.withSeg (fun _ _ _ h => h.takePsn)

theorem canon_execCstAck (h : s.Canon) : LandsCanon (execCstAck s) := by
  refine h.withSeg (fun c g u h => .pumpConn (.foldl (fun v x h => ?_) h.setConn))
  split
  · exact h.resendSeg
  · exact h

theorem canon_execCstRst (h : s.Canon) : LandsCanon (execCstRst s) := h.withSeg (fun _ _ _ h => h.dropConn)

theorem canon_execCstPing (h : s.Canon) : LandsCanon (execCstPing s) := h.withSeg (fun _ _ _ h => h.segPlain)

theorem canon_execCstPong (h : s.Canon) : LandsCanon (execCstPong s) := h.withSeg (fun _ _ _ h => h)

theorem canon_execCstAckTimer {conn} (h : s.Canon) : LandsCanon (execCstAckTimer conn s) := by
  unfold execCstAckTimer
  split
  · exact .ite h h.sendAck
  · exact h

theorem canon_execCstRetxTimer {conn} (h : s.Canon) : LandsCanon (execCstRetxTimer conn s) := by
  unfold execCstRetxTimer
  split
  · exact h
  · split
    · exact h
    · exact .ite h.resetConn h.resendSeg

theorem canon_execCstPingTimer {conn} (h : s.Canon) : LandsCanon (execCstPingTimer conn s) := by
  unfold execCstPingTimer
  split
  · exact h.segPlain
  · exact h

theorem canon_execCstIdleClose {conn} (h : s.Canon) : LandsCanon (execCstIdleClose conn s) := by
  unfold execCstIdleClose
  split
  · exact h.resetConn
  · exact h

theorem canon_execStreamOpen (h : s.Canon) : LandsCanon (execStreamOpen s) := by
  refine h.serve (fun c b u h => ?_)
  extract_lets id ctr addr len
  split
  · exact h.refuse
  · refine .ite h.refuse (.ite h.refuse (.ite h.refuse (.ite h.refuse (.ite h.refuse ?_))))
    extract_lets r bound
    have hbound : bound.Canon := h.bind.replyOk
    refine .ite hbound ?_
    split
    · next e => exact (hbound.egressSegs.of_eq e).resetConn
    · next e => exact (hbound.egressSegs.of_eq e).queueSegs

theorem canon_execStreamNotify {handle} (h : s.Canon) : LandsCanon (execStreamNotify handle s) := by
  unfold execStreamNotify
  split
  · exact h
  · exact .ite h h.setBulk.berylSend

theorem canon_execStreamClose (h : s.Canon) : LandsCanon (execStreamClose s) := by
  unfold execStreamClose
  dsimp only
  refine h.serve (fun _ _ _ h => ?_)
  split
  · exact h.refuse
  · split
    · exact h.refuse
    · split
      · exact h.of.replyOk
      · split
        · next e => exact .replyOk ((h.readRun.of_eq e).of)
        · next e => exact .refuse ((h.readRun.of_eq e).of)

theorem canon_execMemRead (h : s.Canon) : LandsCanon (execMemRead s) := by
  unfold execMemRead
  dsimp only
  refine h.serve (fun _ _ _ h => ?_)
  split
  · exact h.refuse
  · split
    · exact h.refuse
    · split
      · next e => exact (h.readRun.of_eq e).replyOk
      · next e => exact (h.readRun.of_eq e).refuse

theorem canon_execMemWrite (h : s.Canon) : LandsCanon (execMemWrite s) := by
  unfold execMemWrite
  dsimp only
  refine h.serve (fun _ _ _ h => ?_)
  split
  · exact h.refuse
  · split
    · exact h.refuse
    · split
      · next e => exact (h.writeRun.of_eq e).replyOk
      · next e => exact (h.writeRun.of_eq e).refuse

theorem canon_execRegionCmd (h : s.Canon) : LandsCanon (execRegionCmd s) :=
  h.serve (fun _ _ _ h => .ite h.refuse (.ite h.refuse (.ite h.refuse h.regionStart.progress)))

theorem canon_execRegionCmdComplete {nth} (h : s.Canon) : LandsCanon (execRegionCmdComplete nth s) := by
  unfold execRegionCmdComplete
  split
  · exact h
  · split
    · split
      · exact h.of.regionRun
      · split
        · exact .ite h.of.regionRun.complete h
        · exact h.of.regionRun
    · exact h.of.regionRun
    · exact h.of.regionRun.finish

theorem canon_execEventSubscribe (h : s.Canon) : LandsCanon (execEventSubscribe s) := by
  unfold execEventSubscribe
  dsimp only
  refine h.serve (fun _ _ _ h => ?_)
  split
  · exact h.refuse
  · split
    · exact h.refuse
    · split
      · exact .ite h.modCtl.replyOk h.refuse
      · exact h.refuse

theorem canon_execCommandStatus (h : s.Canon) : LandsCanon (execCommandStatus s) := by
  unfold execCommandStatus
  refine h.serve (fun _ _ _ h => ?_)
  split <;> exact h.giveCredit.modSession.countStatus.sendMsg

theorem State.Canon.parked {d q} (h : s.Canon) : (s.parked d q).2.Canon := by
  unfold State.parked
  split
  · next e => exact h.qGet.of_eq e
  · next e => exact h.qGet.of_eq e

theorem State.Canon.updResidue {d addr res} (h : s.Canon) : (s.updResidue d addr res).Canon := .ite h h.raise

theorem canon_execNormPass {d ix residue} (h : s.Canon) : LandsCanon (execNormPass d ix residue s) := by
  unfold execNormPass
  split
  · exact h
  · split
    · next e => exact .ite h (h.parked.of_eq e)
    · next e =>
        split
        · next e2 => exact .ite h (((h.parked.of_eq e).readRun).of_eq e2)
        · next e2 => exact .ite h (.setUpd ((((h.parked.of_eq e).readRun).of_eq e2).updResidue))

theorem State.Canon.clearFindings {d} (h : s.Canon) : (s.clearFindings d).Canon :=
  .modDie (.setF (.foldl (fun _ _ h => .foldl (fun _ _ h1 => h1.setReg) h) h))

theorem State.Canon.fileWindow {p d} (h : s.Canon) : (s.fileWindow p d).Canon := by
  unfold State.fileWindow
  exact .of (s := s.clearFindings d) h.clearFindings

theorem State.Canon.showPost (h : s.Canon) : s.showPost.Canon := .foldl (fun _ _ h => h.setReg) h

theorem State.Canon.putParam {r unscale clip decision} (h : s.Canon) : (s.putParam r unscale clip decision).Canon := h.writeRun

theorem State.Canon.setStep {d v} (h : s.Canon) : (s.setStep d v).Canon := h.setReg.setReg.setReg.setReg

theorem State.Canon.putHeader (h : s.Canon) : s.putHeader.Canon := .ite h h.writeRun

theorem State.Canon.putCode {pc bs} (h : s.Canon) : (s.putCode pc bs).Canon := h.modCore

theorem State.Canon.startCores {p} (h : s.Canon) : (s.startCores p).Canon := by
  unfold State.startCores
  dsimp only
  refine State.Canon.foldl (fun _ _ h => ?_) h
  refine State.Canon.foldl (fun _ _ h => ?_) h
  split
  · split
    · exact h.putCode.coreSet.coreSet.goCore
    · exact h.coreSet.coreSet.goCore
  · split
    · exact h.putCode.goCore
    · exact h.goCore

theorem State.Canon.updPhase {p owed} (h : s.Canon) : (s.updPhase p owed).Canon :=
  .foldl (fun _ _ h => .ite h.snap.of.setF h.snap.of) (.ite h.stopRules h)

theorem State.Canon.beginPhase {p} (h : s.Canon) : (s.beginPhase p).Canon := by
  unfold State.beginPhase
  dsimp only
  split
  · split
    · exact h.moveBack.putHeader.updPhase.of
    · exact h.moveBack.updPhase.of
  · split
    · exact h.moveBack.putHeader.updPhase.of.startCores
    · exact h.moveBack.updPhase.of.startCores

theorem State.Canon.actGo {status} (h : s.Canon) : (s.actGo status).Canon := by
  unfold State.actGo
  split
  · exact .ite h.beginPhase.finish (.ite h.of (.ite h.of h.beginPhase))
  · exact .ite h.setF.endFatal h.of
  · exact h.endFatal

theorem State.Canon.goDown {status} (h : s.Canon) : (s.goDown status).Canon := h.boundDown.actGo

theorem State.Canon.tryPass (h : s.Canon) : s.tryPass.Canon := .ite h (.ite h.of.goDown h.of.boundUp)

theorem State.Canon.allChecks {l} (h : s.Canon) : (State.allChecks l s).2.Canon := by
  induction l generalizing s with
  | nil => exact h
  | cons d l ih =>
    obtain ⟨o, e⟩ : ∃ o, State.allChecks (d :: l) s = (o, (State.allChecks l (s.berylCheck d).2).2) := ⟨_, rfl⟩
    rw [e]
    exact ih h.berylCheck

theorem State.Canon.closePhase (h : s.Canon) : s.closePhase.Canon := by
  have filed {p} : ((span 0 4).foldl (fun u d => u.fileWindow p d) s).Canon := .foldl (fun _ _ h => h.fileWindow) h
  exact .tryPass (.of (.ite filed.showPost filed))

theorem canon_execPhaseEndDetect (h : s.Canon) : LandsCanon (execPhaseEndDetect s) := by
  unfold execPhaseEndDetect
  split
  · next e => exact .ite h (.ite h.closePhase ((h.allChecks.of_eq e).closePhase))
  · next e => exact .ite h (.ite h.closePhase ((h.allChecks.of_eq e).raise))

theorem State.Canon.boundMismatch {m} (h : s.Canon) : (s.boundMismatch m).Canon := h.raise

theorem canon_execPhaseEnd (h : s.Canon) : LandsCanon (execPhaseEnd s) := by
  unfold execPhaseEnd
  split
  · exact h
  · exact .ite (.ite h.of h) (.ite h (.ite h.of.boundMismatch (.ite h.of.abortJob h.of.tryPass)))

theorem canon_execPhaseGo (h : s.Canon) : LandsCanon (execPhaseGo s) := by
  unfold execPhaseGo
  split
  · exact h
  · exact .ite (.ite h.of.boundDown h.of) (.ite h (.ite h.of.boundMismatch h.of.goDown))

theorem State.Canon.contribs {d a a3} (h : s.Canon) : (State.contribs d a a3 s).2.Canon := by
  induction a generalizing s d a3 with
  | nil => exact h
  | cons x l ih =>
    unfold State.contribs
    split
    · next e => exact ih (h.readRun.of_eq e)
    · next e => exact ih (h.readRun.of_eq e)

theorem State.Canon.dieRecord {d} (h : s.Canon) : (s.dieRecord d).2.Canon := h.contribs

theorem State.Canon.dieRecords {a a2} (h : s.Canon) : (State.dieRecords a a2 s).2.Canon := by
  induction a generalizing s a2 with
  | nil => exact h
  | cons x l ih => exact ih h.dieRecord.writeRun

theorem canon_execDieRecordBuild {residue} (h : s.Canon) : LandsCanon (execDieRecordBuild residue s) := by
  unfold execDieRecordBuild
  extract_lets z counted sums step gen rec_ written _ recorded
  have hz : z.2.Canon := h.dieRecords
  have hcounted : counted.Canon := by
    unfold counted
    split
    · exact hz.updResidue
    · exact hz
  have hwritten : written.Canon := hcounted.writeRun
  have hrecorded : recorded.Canon := hwritten.of
  exact .ite h hrecorded.qSubmit

theorem State.Canon.putVerdict {d v} (h : s.Canon) : (s.putVerdict d v).Canon := h.setReg.setReg.setReg

theorem State.Canon.parkQueues {d l} (h : s.Canon) : (State.parkQueues d l s).2.Canon := by
  induction l generalizing s with
  | nil => exact h
  | cons k l ih =>
    have hread := h.readRun (r := .update d) (a := s.getF d fUpdProgAddr * 65536 + 128 * k) (n := 16)
    rw [State.parkQueues]
    generalize s.readRun (.update d) (s.getF d fUpdProgAddr * 65536 + 128 * k) 16 = r at hread ⊢
    obtain ⟨_ | bs, u⟩ := r
    · exact ih hread
    · exact ih hread

theorem State.Canon.skipBuckets {d} (h : s.Canon) : (s.skipBuckets d).Canon := by
  unfold State.skipBuckets
  refine State.Canon.foldl (fun _ _ h => ?_) h.parkQueues
  split
  · next e => exact .ite (h.qGet.of_eq e) ((h.qGet.of_eq e).qPut)
  · next e => exact h.qGet.of_eq e

theorem canon_execDecisionDerive {d} (h : s.Canon) : LandsCanon (execDecisionDerive d s) := by
  unfold execDecisionDerive
  split
  · next e => exact .ite h (h.readRun.of_eq e)
  · next e => exact .ite h (.ite (.ite (.putParam ((h.readRun.of_eq e).putVerdict)) ((h.readRun.of_eq e).putVerdict)) (.skipBuckets (.ite (.putParam
                ((h.readRun.of_eq e).putVerdict)) ((h.readRun.of_eq e).putVerdict))))

theorem State.Canon.boundaryActions (h : s.Canon) : s.boundaryActions.Canon := by
  unfold State.boundaryActions
  extract_lets shown param run
  have hshown : shown.Canon := .foldl (fun _ _ h => h.setReg) h
  have hparam : param.Canon := hshown.putParam
  have hran : (param.regionRun 0 0 (param.getF 0 fStepVrecAddrRegion) 1).Canon := hparam.regionRun
  have hrun : run.Canon := hran.of
  clear_value run
  exact .foldl (fun _ _ h => h.setF.setReg.setF) hrun

theorem State.Canon.endStopped (h : s.Canon) : s.endStopped.Canon := h.of.finish

theorem State.Canon.nextCompute (h : s.Canon) : s.nextCompute.Canon := .ite h.endStopped h.beginPhase

theorem GivesCanon.skipLimit (h : s.Canon) : GivesCanon s.skipLimit := .ite (.some h.raise) .none

theorem State.Canon.reload {bs taint d} (h : s.Canon) : (s.reload bs taint d).Canon := h.setStep

theorem canon_execCheckpointRestore (h : s.Canon) : LandsCanon (execCheckpointRestore s) := by
  unfold execCheckpointRestore
  extract_lets _ t fail
  have ht : t.Canon := h.of
  refine State.Canon.ite h (.ite ht.raise ?_)
  split
  · next e => exact (ht.readRun.of_eq e).raise
  · next bs u e =>
    extract_lets taint v
    have hv : v.Canon := .foldl (fun _ _ h => h.reload) (ht.readRun.of_eq e)
    split
    · next e =>
      split at e
      · exact GivesCanon.skipLimit hv _ e
      · cases e
    · exact hv.boundaryActions.beginPhase

theorem State.Canon.readProg {d base a a4} (h : s.Canon) : (State.readProg d base a a4 s).2.Canon := by
  induction a generalizing s d base a4 with
  | zero => exact h
  | succ a ih =>
    unfold State.readProg
    split
    · next e => exact ih (h.readRun.of_eq e)
    · next e => exact h.readRun.of_eq e

theorem State.Canon.endRule {d x} (h : s.Canon) : (s.endRule d x).Canon := by
  unfold State.endRule
  dsimp only
  split
  · split
    · next e => exact (h.of.setF.qGet.of_eq e).qPut
    · next e => exact h.of.setF.qGet.of_eq e
  · exact h.of.setF

theorem canon_execRuleStart {d} (h : s.Canon) : LandsCanon (execRuleStart d s) := by
  unfold execRuleStart
  split
  · exact h
  · refine .ite h ?_
    split
    · next e => exact h.readRun.of_eq e
    · next e =>
      have hread := h.readRun.of_eq e
      refine .ite hread.setF ?_
      split
      · next e => exact hread.parked.of_eq e
      · next e =>
        extract_lets _ busy shown
        have hbusy : busy.Canon := (hread.parked.of_eq e).setUpd.setF.setF
        clear_value busy
        have hshown : shown.Canon := .ite (.foldl (fun _ _ h => h.setF) hbusy) hbusy
        clear_value shown
        exact .ite hshown.endRule hshown

theorem State.Canon.ruleScalars {d x} (h : s.Canon) : (s.ruleScalars d x).2.Canon := by
  unfold State.ruleScalars
  dsimp only
  split
  · exact h
  · split
    · next e => exact h.readRun.of_eq e
    · next e => exact h.readRun.of_eq e

theorem State.Canon.stageItem {d r} (h : s.Canon) : (s.stageItem d r).2.Canon := by
  unfold State.stageItem
  dsimp only
  split
  · exact h
  · split
    · exact h
    · split
      · next e => exact .notify ((h.qGet.of_eq e).qPut)
      · next e => exact h.qGet.of_eq e

theorem canon_execItemRelease {d} (h : s.Canon) : LandsCanon (execItemRelease d s) := by
  unfold execItemRelease
  split
  · refine .ite h ?_
    split
    · next e => exact h.ruleScalars.of_eq e
    · next e =>
      have hscalars := h.ruleScalars.of_eq e
      split
      · next e => exact hscalars.stageItem.of_eq e
      · next e =>
        have hstaged := hscalars.stageItem.of_eq e
        extract_lets n u k items
        split
        · next e => exact (hstaged.writeRun.of_eq e).setUpd
        · next e =>
          have hwritten := hstaged.writeRun.of_eq e
          extract_lets valid released counted
          have hvalid : valid.Canon := .ite (.foldl (fun _ _ h => h.setF) hwritten) hwritten
          have hcounted : counted.Canon := hvalid.setUpd.localInc
          exact .ite hcounted.endRule hcounted
  · exact h

theorem State.Canon.tierFailed {d addr} (h : s.Canon) : (s.tierFailed d addr).Canon := by
  unfold State.tierFailed
  dsimp only
  split
  · exact h.of.raise
  · exact h.of

theorem State.Canon.fetchArrays {d q item v n a} (h : s.Canon) : (State.fetchArrays d q item v n a s).2.Canon := by
  induction a generalizing s d q item v n with
  | nil => exact h
  | cons x l ih =>
    unfold State.fetchArrays
    split
    · exact ih h.sendReads
    · exact ih h

theorem canon_execRemoteTierFetch {d} (h : s.Canon) : LandsCanon (execRemoteTierFetch d s) := by
  unfold execRemoteTierFetch
  dsimp only
  split
  · split
    · exact h
    · split
      · next e => exact h.qGet.of_eq e
      · next e =>
          split
          · exact h.qGet.of_eq e
          · split
            · next e2 => exact (((h.qGet.of_eq e).sendQueue).of_eq e2).tierFailed
            · next e2 => exact .setUpd ((((h.qGet.of_eq e).sendQueue).of_eq e2).fetchArrays)
  · exact h

theorem State.Canon.stageWrite {d a a3} (h : s.Canon) : (State.stageWrite d a a3 s).2.Canon := by
  induction a generalizing s d a3 with
  | nil => exact h
  | cons x l ih =>
    unfold State.stageWrite
    split
    · next e => exact ih (h.memWrite.of_eq e)
    · next e => exact (h.memWrite.of_eq e).accessFailed
    · next e => exact h.memWrite.of_eq e

theorem State.Canon.itemData {d item gran o x left} (h : s.Canon) : (s.itemData d item gran o x left).Canon := by
  unfold State.itemData
  extract_lets reads z u
  have hreads : reads.Canon := h.of
  have hz : z.2.Canon := hreads.bump.stageWrite
  refine .ite hreads.tierFailed (.ite hz.of (.ite hz ?_))
  split
  · exact hz.of
  · exact hz

theorem State.Canon.xorGran {d a a3} (h : s.Canon) : (State.xorGran d a a3 s).2.Canon := by
  induction a generalizing s d a3 with
  | nil => exact h
  | cons x l ih =>
    unfold State.xorGran
    split
    · next e => exact ih (h.memRead.of_eq e)
    · next e => exact (h.memRead.of_eq e).accessFailed
    · next e => exact h.memRead.of_eq e

theorem State.Canon.xorRegion {d dst srcs faults a a6} (h : s.Canon) : (State.xorRegion d dst srcs faults a a6 s).2.Canon := by
  induction a generalizing s d dst srcs faults a6 with
  | zero => exact h
  | succ a ih =>
    unfold State.xorRegion
    dsimp only
    split
    · next e => exact h.xorGran.of_eq e
    · next e =>
        split
        · next e2 => exact ih (((h.xorGran.of_eq e).memWrite).of_eq e2)
        · next e2 => exact (((h.xorGran.of_eq e).memWrite).of_eq e2).accessFailed
        · next e2 => exact ((h.xorGran.of_eq e).memWrite).of_eq e2

theorem canon_execPxor {d faults} (h : s.Canon) : LandsCanon (execPxor d faults s) := by
  unfold execPxor
  dsimp only
  split
  · split
    · exact h
    · split
      · next e => exact (h.xorRegion.of_eq e).endRule
      · next e => exact (h.xorRegion.of_eq e).of
  · exact h

theorem State.Canon.parityMade {step} (h : s.Canon) : (s.parityMade step).Canon := .foldl (fun _ _ h => h.of.setF.setF.setF) h.of

theorem canon_execParityValidSet (h : s.Canon) : LandsCanon (execParityValidSet s) := .ite h h.parityMade

theorem State.Canon.sendEvent {conn kind first entries} (h : s.Canon) : (s.sendEvent conn kind first entries).Canon := .ite h h.sendMsg

theorem canon_execStoredCheckpointReadout (h : s.Canon) : LandsCanon (execStoredCheckpointReadout s) := by
  unfold execStoredCheckpointReadout
  dsimp only
  split
  · exact h
  · split
    · exact h
    · split
      · split
        · exact h
        · split
          · next e => exact (h.bind.egressSegs.of_eq e).resetConn
          · next e => exact (h.bind.egressSegs.of_eq e).queueSegs
      · split
        · exact h
        · split
          · next e => exact h.readRun.of_eq e
          · next e =>
              split
              · exact .ite (.beginPhase (.sendEvent (.modCtl ((h.readRun.of_eq e).of)))) (.sendEvent (.modCtl ((h.readRun.of_eq e).of)))
              · exact .ite (.beginPhase (.modCtl ((h.readRun.of_eq e).of))) (.modCtl ((h.readRun.of_eq e).of))

theorem State.Canon.setClasses {x} (h : s.Canon) : (s.setClasses x).Canon := by
  refine h.withMem ?_
  unfold State.setClasses
  refine List.foldlRecOn _ _ (motive := MemState.wf) h.2 (fun m hm e _ => ?_)
  split
  · exact MemState.wf_setRegion hm ⟨rfl, rfl⟩
  · exact hm

theorem State.Canon.loadTables {t} (h : s.Canon) : (s.loadTables t).Canon := by
  unfold State.loadTables
  extract_lets classes regs tables
  have hregs : regs.Canon := .foldl (fun _ _ h => h.setReg) h.setClasses
  have htables : tables.Canon := hregs.of
  exact .foldl (fun _ _ h => .qstWrite (.of h)) htables

theorem State.Canon.layoutTask {p install} (h : s.Canon) : (s.layoutTask p install).Canon := h.updPhase.of.startCores

theorem canon_execLayoutInstall (h : s.Canon) : LandsCanon (execLayoutInstall s) := by
  unfold execLayoutInstall
  refine State.Canon.ite h ?_
  split
  · refine .ite h ?_
    extract_lets t migrating written loaded
    have hmigrating : migrating.Canon := h.setAll.setAll
    have hwritten : written.Canon := hmigrating.writeRun
    have hloaded : loaded.Canon := hwritten.loadTables.setAll.modCtl
    clear_value loaded
    exact hloaded.setAll.layoutTask
  · refine .ite h ?_
    extract_lets v written
    have hwritten : written.Canon := .ite h h.writeRun
    clear_value written
    exact hwritten.setAll.layoutTask
  · refine .ite h ?_
    extract_lets made cleared opened _ ended
    have hmade : made.Canon := .ite h h.parityMade
    have hcleared : cleared.Canon := hmade.setAll.setAll.setAll
    have hopened : opened.Canon := hcleared.modCtl
    have hended : ended.Canon := hopened.of
    clear_value ended
    exact hended.finish.nextCompute
  · exact h

theorem State.Canon.reconStart (h : s.Canon) : s.reconStart.Canon := h.setAll.setAll.modCtl

theorem State.Canon.reconEnd {status detail} (h : s.Canon) : (s.reconEnd status detail).Canon := h.setAll.setAll.modCtl.finish

theorem GivesCanon.reconReads {d slot addr l} (h : s.Canon) : GivesCanon (State.reconReads d slot addr l s) := by
  induction l generalizing s with
  | nil => exact .some h
  | cons x l ih =>
    unfold State.reconReads
    split
    · exact .none
    · split
      · next e => exact ih (h.qGet.of_eq e).sendReads
      · exact .none

theorem State.Canon.reconDone (h : s.Canon) : s.reconDone.Canon := by
  unfold State.reconDone
  split
  · next e => exact (h.readRun.of_eq e).reconEnd
  · next e => exact .reconEnd (.parityMade (.foldl (fun _ _ h => h.reload) (h.readRun.of_eq e)))

theorem State.Canon.reconGran {d slot gran x} (h : s.Canon) : (s.reconGran d slot gran x).Canon := by
  unfold State.reconGran
  dsimp only
  split
  · exact h.modCtl
  · split
    · next e => exact (h.memWrite.of_eq e).modCtl
    · next e => exact .reconEnd ((h.memWrite.of_eq e).accessFailed)
    · next e => exact h.memWrite.of_eq e

theorem State.Canon.reconNext (h : s.Canon) : s.reconNext.Canon := .ite h.modCtl.reconDone h.modCtl

theorem State.Canon.reconData {d slot gran o x} (h : s.Canon) : (s.reconData d slot gran o x).Canon :=
  .ite h.of (.ite h.of.reconEnd (.reconNext (.foldl (fun _ _ h => .ite h.reconGran h) h.of)))

theorem canon_execReconstruction {d slot par} (h : s.Canon) : LandsCanon (execReconstruction d slot par s) := by
  refine State.Canon.ite h (.ite h.raise.reconEnd ?_)
  split
  · exact h.reconEnd
  · next e => exact (GivesCanon.reconReads h _ e).modCtl

theorem canon_execReadData {d} (h : s.Canon) : LandsCanon (execReadData d s) := by
  unfold execReadData
  split
  · exact h
  · next x r e =>
    extract_lets t
    have retired : t.Canon := .retire (.of h)
    split
    · exact retired
    · extract_lets _ _ u
      have hu : u.Canon := retired.of
      split
      · extract_lets loaded bad answered
        have hloaded : loaded.Canon := .ite hu.loadGrans hu
        have hanswered : answered.Canon := hloaded.dmAnswered
        exact hanswered.of
      · exact hu.itemData
      · exact hu.reconData

end Sys2Proof.Machine
end

section
/-! The canonical form under digests and commits (O60). -/

namespace Sys2Proof.Machine

set_option Elab.async false

variable {s t u : State}

theorem State.Canon.digGrans {d a a3 a4} (h : s.Canon) : (State.digGrans d a a3 a4 s).2.Canon := by
  induction a generalizing s d a3 a4 with
  | zero => exact h
  | succ a ih =>
    unfold State.digGrans
    split
    · next e => exact ih (h.dataRead.of_eq e)
    · next e => exact (h.dataRead.of_eq e).accessFailed
    · next e => exact h.dataRead.of_eq e

theorem State.Canon.digAll {d a a3} (h : s.Canon) : (State.digAll d a a3 s).2.Canon := by
  induction a generalizing s d a3 with
  | nil => exact h
  | cons x l ih =>
    unfold State.digAll
    split
    · next e => exact h.digGrans.of_eq e
    · next e => exact ih (h.digGrans.of_eq e)

theorem canon_execDigestRun {d} (h : s.Canon) : LandsCanon (execDigestRun d s) := by
  refine State.Canon.ite h ?_
  extract_lets n
  split
  · next e => exact h.readRun.of_eq e
  · next e =>
    split
    · next e' => exact (h.readRun.of_eq e).digAll.of_eq e'
    · next e' =>
      extract_lets shown
      have hshown : shown.Canon := ((h.readRun.of_eq e).digAll.of_eq e').setReg.setReg
      clear_value shown
      exact hshown.of

theorem canon_execDigestBlockWrite (h : s.Canon) : LandsCanon (execDigestBlockWrite s) := by
  unfold execDigestBlockWrite
  dsimp only
  split
  · exact h
  · split
    · next e => exact h.writeRun.of_eq e
    · next e => exact .localInc ((h.writeRun.of_eq e).of)

theorem State.Canon.gathered {c a a3} (h : s.Canon) : (State.gathered c a a3 s).2.Canon := by
  induction a generalizing s c a3 with
  | zero => exact h
  | succ a ih =>
    unfold State.gathered
    split
    · next e => exact h.readRun.of_eq e
    · next e => exact ih (h.readRun.of_eq e)

theorem State.Canon.digRecord {outcome votes status} (h : s.Canon) : (s.digRecord outcome votes status).Canon := by
  unfold State.digRecord
  extract_lets v shown
  have hshown : shown.Canon := .foldl (fun _ _ h => h.setReg) h
  clear_value shown
  exact hshown.of

theorem canon_execDigestCompare (h : s.Canon) : LandsCanon (execDigestCompare s) := by
  unfold execDigestCompare
  dsimp only
  split
  · exact h
  · split
    · exact h.digRecord
    · split
      · next e => exact h.gathered.of_eq e
      · next e =>
          split
          · exact (h.gathered.of_eq e).raise
          · exact .ite ((h.gathered.of_eq e).digRecord) (.ite ((h.gathered.of_eq e).digRecord) (.ite (.raise ((h.gathered.of_eq e).digRecord))
              (.raise (.modCtl ((h.gathered.of_eq e).digRecord)))))

theorem canon_execErrorRingWrite {d} (h : s.Canon) : LandsCanon (execErrorRingWrite d s) := by
  unfold execErrorRingWrite
  dsimp only
  split
  · exact h
  · split
    · exact h
    · split
      · next e => exact h.qGet.of_eq e
      · next e =>
          split
          · exact h.qGet.of_eq e
          · split
            · next e2 => exact (((h.qGet.of_eq e).narrowAt).of_eq e2).accessFailed
            · next e2 => exact .notify (.qPut ((((h.qGet.of_eq e).narrowAt).of_eq e2).modDie))

theorem canon_execPortRecordForward {pd} (h : s.Canon) : LandsCanon (execPortRecordForward pd s) := by
  unfold execPortRecordForward
  dsimp only
  split
  · exact h.setDie.fileRec
  · exact h

theorem State.Canon.recordEvent {index bs} (h : s.Canon) : (s.recordEvent index bs).Canon := by
  unfold State.recordEvent
  split
  · exact .ite h.sendEvent h
  · exact h

theorem State.Canon.drainRing {d q a} (h : s.Canon) : (State.drainRing d q a s).Canon := by
  induction a generalizing s d q with
  | zero => exact h
  | succ a ih =>
    unfold State.drainRing
    split
    · next e => exact h.qGet.of_eq e
    · next e =>
        split
        · exact h.qGet.of_eq e
        · split
          · next e2 => exact ((h.qGet.of_eq e).readRun).of_eq e2
          · next e2 => exact ih (.recordEvent (.modCtl ((((h.qGet.of_eq e).readRun).of_eq e2).qPut)))

theorem canon_execErrorForward (h : s.Canon) : LandsCanon (execErrorForward s) := by
  unfold execErrorForward
  dsimp only
  split
  · exact h
  · refine State.Canon.foldl (fun _ _ h => ?_) h
    split
    · exact h
    · split
      · next e => exact (h.qGet.of_eq e).drainRing
      · next e => exact h.qGet.of_eq e

theorem State.Canon.runTests {tests} (h : s.Canon) : (s.runTests tests).Canon := .foldl (fun _ _ h => .ite h.arrayCtl.ctestDone h) h

theorem State.Canon.applyAll (h : s.Canon) : s.applyAll.Canon := .foldl (fun _ _ h => .ite h h.applyCols) h

theorem State.Canon.retireMarked (h : s.Canon) : s.retireMarked.Canon := .foldl (fun _ _ h => .ite h.retireCore h) h

theorem State.Canon.repairs {tests} (h : s.Canon) : (s.repairs tests).Canon := h.runTests.applyAll.modCtl.retireMarked

theorem canon_execCommitBoundaryActions {tests} (h : s.Canon) : LandsCanon (execCommitBoundaryActions tests s) := by
  unfold execCommitBoundaryActions
  extract_lets i skip u acted read
  have hu : u.Canon := .foldl (fun _ _ h => h.setStep) h
  have hacted : acted.Canon := hu.boundaryActions.repairs
  have hread : read.Canon := .ite hacted.modCtl hacted
  refine State.Canon.ite h (.ite h.setF ?_)
  split
  · next e =>
    split at e
    · exact GivesCanon.skipLimit hu _ e
    · cases e
  · exact .ite hacted (.ite hread.of (.nextCompute (.of hread)))

end Sys2Proof.Machine
end

section
/-! The canonical form under reset, discovery, boot, flash and power (O60). -/

namespace Sys2Proof.Machine

set_option Elab.async false

variable {s t u : State}

theorem State.Canon.edgeWaits {d e} (h : s.Canon) : (s.edgeWaits d e).Canon := by
  unfold State.edgeWaits
  split <;> exact h.of

theorem State.Canon.failSent {d} (h : s.Canon) : (s.failSent d).Canon := by
  unfold State.failSent
  refine .foldl (fun _ _ h => ?_) (.foldl (fun _ _ h => ?_) h)
  · split
    · exact .ite h.refuseQOp h
    · exact h
  · split
    · exact .ite h.refuseCtr h
    · exact .ite h.refuseCtr h
    · exact h.refuseCtr

theorem State.Canon.failCfg {d} (h : s.Canon) : (s.failCfg d).Canon := .foldl (fun _ _ h => h.clusterFailed.send) h

theorem State.Canon.failWaits {d} (h : s.Canon) : (s.failWaits d).Canon := h.finish

theorem State.Canon.clearDie {d st} (h : s.Canon) : (s.clearDie d st).Canon := by
  unfold State.clearDie
  extract_lets _ _ _ _ failed _ cleared _ _ emptied _ cores edges swept
  have hfailed : failed.Canon := h.failSent.failCfg.failWaits
  have hemptied : emptied.Canon := (hfailed.dropRegs (p := fun k => k / 0x1000000 == d)).of
  have hcores : cores.Canon := .ite (.foldl (fun _ _ h => h.modCore) hemptied) hemptied
  have hedges : edges.Canon := by
    refine .ite hcores (.foldl (fun _ _ h => ?_) hcores)
    split
    · exact h.setReg.modDie
    · exact h
  have hswept : swept.Canon := .foldl (fun _ _ h => h.setF.setF) hedges
  exact .ite hswept.dropRegs.of hswept

theorem canon_loseAll {b} : (s.loseAll b).Canon := ⟨mapWf_nil _, MemState.wf_reset⟩

theorem State.Canon.disc {d e kind pos index data} (h : s.Canon) : (s.disc d e kind pos index data).Canon := .ite h.send h

theorem State.Canon.warmReset {d} (h : s.Canon) : (s.warmReset d).Canon :=
  .ite h (.clearDie (.foldl (fun _ _ h => h.flushGran) (.foldl (fun _ _ h => h.disc) h)))

theorem State.Canon.coldLoss {d} (h : s.Canon) : (s.coldLoss d).Canon := .ite h h.abortJob.clearDie.loseRegions

theorem State.Canon.portReset {d} (h : s.Canon) : (s.portReset d).Canon := .ite h.clearDie h

theorem canon_execWarmReset {d} (h : s.Canon) : LandsCanon (execWarmReset d s) := h.warmReset

theorem canon_execColdDieLoss {d} (h : s.Canon) : LandsCanon (execColdDieLoss d s) := h.coldLoss

theorem canon_execPkgResetNAssert : LandsCanon (execPkgResetNAssert s) := canon_loseAll

theorem canon_execRefclk100Loss : LandsCanon (execRefclk100Loss s) := canon_loseAll

theorem canon_execThermtrip : LandsCanon (execThermtrip s) := canon_loseAll

theorem State.Canon.stackRailLoss (h : s.Canon) : s.stackRailLoss.Canon :=
  .foldl (fun _ _ h => .ite (.ite h.setF.setF.setFunc h.setF.setF) h.setF) h.abortJob.loseRegions

theorem canon_execRailFailure {rail} (h : s.Canon) : LandsCanon (execRailFailure rail s) :=
  State.Canon.ite h.coldLoss (.ite h.portReset.portReset (.ite h.stackRailLoss canon_loseAll))

theorem State.Canon.idleLoss {d f} (h : s.Canon) : (s.idleLoss d f).Canon := h.setF.of

theorem canon_execPllLoss {d pll} (h : s.Canon) : LandsCanon (execPllLoss d pll s) := by
  unfold execPllLoss
  split
  · exact h
  · split
    · exact .ite h.portReset h
    · split
      · exact .ite h.coldLoss h.idleLoss
      · exact .ite h.coldLoss h.idleLoss
      · exact h.warmReset
      · exact h.coldLoss
      · exact h.warmReset
      · exact h

theorem State.Canon.showEdge {d e} (h : s.Canon) : (s.showEdge d e).Canon := .ite h.setF (.ite h.setF.failFunc.raise h.setF.setFunc)

theorem State.Canon.bothEnds {d e f} (h : s.Canon) (hf : ∀ u d e, u.Canon → (f u d e).Canon) : (s.bothEnds d e f).Canon := by
  unfold State.bothEnds
  split
  · exact hf _ _ _ (hf _ _ _ h)
  · exact h

theorem State.Canon.startRetrain {d e m} (h : s.Canon) : (s.startRetrain d e m).Canon :=
  .bothEnds (.raise (.bump (h.bothEnds (fun _ _ _ h => h.of)))) (fun _ _ _ h => h.showEdge)

theorem canon_execModuleRetrain {d e m rate} (h : s.Canon) : LandsCanon (execModuleRetrain d e m rate s) := .ite h h.startRetrain

theorem State.Canon.answerRetrain {d e} (h : s.Canon) : (s.answerRetrain d e).Canon := .ite h h.finish

theorem State.Canon.nextTurn {d e} (h : s.Canon) : (s.nextTurn d e).Canon := by
  unfold State.nextTurn
  dsimp only
  split
  · exact .ite h.of.startRetrain h
  · exact h.answerRetrain

theorem canon_execModuleRetrainDone {d e m ok repaired beyond lanes} (h : s.Canon) : LandsCanon (execModuleRetrainDone d e m ok repaired beyond lanes s) := by
  unfold execModuleRetrainDone
  extract_lets x n back put shown
  have hback : (s.bothEnds d e back).Canon := h.bothEnds fun _ _ _ h => h.of
  have hput {f v} : ((s.bothEnds d e back).bothEnds d e (put f v)).Canon := hback.bothEnds fun _ _ _ h => h.setF
  exact .ite h (.ite (.nextTurn (hput.bothEnds fun _ _ _ h => h.setF.showEdge)) (.ite (.nextTurn (hput.bothEnds fun _ _ _ h => h.showEdge))
    (.startRetrain (h.bothEnds fun _ _ _ h => h.of))))

theorem State.Canon.retrainEdge {d e} (h : s.Canon) : (s.retrainEdge d e).Canon := .ite h h.of.nextTurn

theorem canon_execD2dCtrlRetrain {d e} (h : s.Canon) : LandsCanon (execD2dCtrlRetrain d e s) := h.retrainEdge

theorem State.Canon.showDisc (h : s.Canon) : s.showDisc.Canon :=
  .foldl (fun _ _ h => .ite h.setF.setF.setF.setF.setF.setF (.ite h.setF.setF.setF h.setF.setF)) h

theorem State.Canon.spread {d} (h : s.Canon) : (s.spread d).Canon :=
  .ite h (.ite (.disc (.foldl (fun _ _ h => h.disc) h)) (.foldl (fun _ _ h => h.disc) h))

theorem State.Canon.takePos {d pos} (h : s.Canon) : (s.takePos d pos).Canon := h.setF.setF.setF.spread

theorem State.Canon.lookAround {d} (h : s.Canon) : (s.lookAround d).Canon := .showDisc (.ite h.takePos h)

theorem canon_execHello {d e m} (h : s.Canon) : LandsCanon (execHello d e m s) := by
  unfold execHello
  split
  · exact h
  · split
    · split
      · exact .lookAround (.ite h.modDie.setF.setF.setF.spread (.ite h.modDie.setF.setF.setF (.ite h.modDie.setF.setF.setF.disc.disc
          h.modDie.setF.setF.setF.disc)))
      · exact .lookAround (.ite h.modDie.setF.setF.setF.spread (.ite h.modDie.setF.setF.setF (.ite h.modDie.setF.setF.setF.disc
          h.modDie.setF.setF.setF)))
    · exact .lookAround (.ite h.modDie.setF.setF.setF.spread (.ite h.modDie.setF.setF.setF (.ite h.modDie.setF.setF.setF.disc
        h.modDie.setF.setF.setF)))

theorem canon_execHelloTimer {d} (h : s.Canon) : LandsCanon (execHelloTimer d s) := .ite h (.foldl (fun _ _ h => .ite h h.disc.modDie) h)

theorem canon_execEdgeSilentTimeout {d e} (h : s.Canon) : LandsCanon (execEdgeSilentTimeout d e s) := .ite h h.modDie.lookAround

theorem canon_execPosition {d e m} (h : s.Canon) : LandsCanon (execPosition d e m s) :=
  .ite h (.ite h.modDie.setF.showDisc (.ite h.modDie.takePos.showDisc h.modDie))

theorem canon_execQrecReq {pd e} (h : s.Canon) : LandsCanon (execQrecReq pd e s) := .ite h (.foldl (fun _ _ h => h.disc) h)

theorem canon_execQrec {d m} (h : s.Canon) : LandsCanon (execQrec d m s) := .ite h h.setReg.modDie

theorem canon_execPortAdmission {d at32 at16} (h : s.Canon) : LandsCanon (execPortAdmission d at32 at16 s) := by
  unfold execPortAdmission
  split
  · exact h
  · exact .ite h (.ite (.disc (.ite (h.setReg.bothEnds (fun _ _ _ h => h.setF.setF.setF)) h.setReg)) (.raise (.disc (.ite (h.setReg.bothEnds
      (fun _ _ _ h => h.setF.setF.setF)) h.setReg))))

theorem canon_execAdmitResult {pd e m} (h : s.Canon) : LandsCanon (execAdmitResult pd e m s) :=
  .ite h (.ite h.modDie (.ite h.modDie.setReg.setF h.modDie.setReg))

theorem State.Canon.partnerLost {d e p cold} (h : s.Canon) : (s.partnerLost d e p cold).Canon := h.edgeWaits.raise

theorem canon_execResetNotice {d e} (h : s.Canon) : LandsCanon (execResetNotice d e s) := by
  unfold execResetNotice
  split
  · exact h
  · exact .ite h h.partnerLost

theorem canon_execHeartbeat {d e m} (h : s.Canon) : LandsCanon (execHeartbeat d e m s) := .ite h h.setF.disc

theorem canon_execDieLossTimeout {d e} (h : s.Canon) : LandsCanon (execDieLossTimeout d e s) := by
  unfold execDieLossTimeout
  split
  · exact h
  · exact .ite h (.partnerLost (.ite h.coldLoss h.portReset))

theorem State.Canon.startFunc {id} (h : s.Canon) : (s.startFunc id).Canon := .ite h.setFunc.modDie h.setFunc

theorem State.Canon.setWide {d off n v} (h : s.Canon) : (s.setWide d off n v).Canon := .foldl (fun _ _ h => h.setReg) h

theorem canon_execDieResetRelease {d xspi found fuse cert record smb} (h : s.Canon) : LandsCanon (execDieResetRelease d xspi found fuse cert record smb s) := by
  refine State.Canon.ite h ?_
  extract_lets compute f _ fused x n up addressed named known counted clocked plls gated edges listed
  have hup : up.Canon := State.Canon.setDie (.of h)
  clear_value up
  have haddressed : addressed.Canon := .ite hup.of hup
  have hclocked : clocked.Canon := haddressed.setReg.setReg.setWide.setF.setF.setF.setF
  have hplls : plls.Canon := .ite hclocked.setF.setF.setF.setF hclocked.setF
  have hgated : gated.Canon := .ite hplls.setF.setF hplls
  have hedges : edges.Canon := .foldl (fun _ _ h => .ite h.setFunc h) hgated
  have hlisted : listed.Canon := .ite (.foldl (fun _ _ h => .ite h h.failFunc) hedges) hedges
  exact hlisted.setF

theorem State.Canon.clusterInfo {k} (h : s.Canon) : (s.clusterInfo k).Canon := h.raise

theorem State.Canon.takeKeys (h : s.Canon) : s.takeKeys.Canon := .foldl (fun _ _ h => h.clusterInfo) h.of

theorem State.Canon.showKeys (h : s.Canon) : s.showKeys.Canon := h.setF.setF

theorem State.Canon.startFuncs {d} (h : s.Canon) : (s.startFuncs d).Canon :=
  .ite (.foldl (fun _ _ h => h.setFunc) (.foldl (fun _ _ h => .ite h.failFunc h.setFunc) (.foldl (fun _ _ h => .ite h h.setFunc) h))) (.startFunc
    (.foldl (fun _ _ h => h.setFunc) h))

theorem State.Canon.startFirmware {d img slotB} (h : s.Canon) : (s.startFirmware d img slotB).Canon := by
  unfold State.startFirmware
  extract_lets staged version measured cal ok calibrated started bad good shaped limited stated mac
  have hstarted : started.Canon := h.setF.setF.setF.setF.setF.setWide.setF.modDie.startFuncs
  clear_value started
  have hlimited : limited.Canon := hstarted.modDie.showShape.setF
  exact .ite (.ite hlimited hlimited.setF.setF.setF) hstarted.setReg.setF

theorem State.Canon.showSlots (h : s.Canon) : s.showSlots.Canon := h.setF.setF

theorem State.Canon.showBudget (h : s.Canon) : s.showBudget.Canon := h.setF

theorem State.Canon.startLead {pins} (h : s.Canon) : (s.startLead pins).Canon :=
  .showBudget (.setF (.showSlots (.showKeys (.takeKeys (.foldl (fun _ _ h => h.clusterInfo) h)))))

theorem canon_execFirmwareVerify {fl aOk bOk slow pins} (h : s.Canon) : LandsCanon (execFirmwareVerify fl aOk bOk slow pins s) :=
  .ite h (.ite (.startLead (.startFirmware (.modCtl (.setF (.ite h.of h))))) (.ite (.startLead (.startFirmware (.modCtl (.setF (.setF (.setF (.ite
    h.of h))))))) (.setF (.setF (.setF (.setF (.ite h.of h)))))))

theorem State.Canon.giveFirmware {d} (h : s.Canon) : (s.giveFirmware d).Canon :=
  .ite h (.ite (.ite h.of.setF h.startFirmware.showSlots) (.ite h.startFirmware.showSlots h))

theorem canon_execFirmwareDistribute (h : s.Canon) : LandsCanon (execFirmwareDistribute s) := .foldl (fun _ _ h => h.giveFirmware) h

theorem State.Canon.endActivation {d reason} (h : s.Canon) : (s.endActivation d reason).Canon := h.setF.setF.setF.finish

theorem canon_execDieRejoin {d} (h : s.Canon) : LandsCanon (execDieRejoin d s) :=
  .ite h (.ite h (.ite h.giveFirmware.finish.endActivation h.giveFirmware.finish))

theorem canon_execAssemblyCertCheck (h : s.Canon) : LandsCanon (execAssemblyCertCheck s) := .ite h (.ite h.setF h.setF.clusterInfo)

theorem State.Canon.becomes {id st} (h : s.Canon) : (s.becomes id st).Canon := h.setFunc.finish

theorem State.Canon.copyFirmware (h : s.Canon) : s.copyFirmware.Canon := by
  have cls {m : MemState} (hm : m.wf) (r : Nat) : (m.setRegion r { m.region r with cls := 3 }).wf := MemState.wf_setRegion hm ⟨rfl, rfl⟩
  unfold State.copyFirmware
  refine .ite h (.modCtl (h.withMem ?_))
  exact MemState.wf_restoreRegion (MemState.wf_restoreRegion (cls (cls h.2 _) _) _ _ _) _ _ _

/-- The operations on regions are taken as any that keep the form: the kernel would run them over all regions. -/
theorem canon_execSelfRebuild (h : s.Canon) : LandsCanon (execSelfRebuild s) := by
  have runs {m : MemState} {op cls r n} (hm : m.wf) : (m.regionRun op cls r n).wf := MemState.wf_regionRun hm ..
  have restores {m : MemState} {w r bs} (hm : m.wf) : (m.restoreRegion w r bs).wf := MemState.wf_restoreRegion hm ..
  obtain ⟨f, e⟩ : ∃ f, f = execSelfRebuild := ⟨_, rfl⟩
  rw [← e]
  delta execSelfRebuild at e
  generalize MemState.regionRun = run at e runs
  generalize MemState.restoreRegion = restore at e restores
  subst e
  obtain ⟨copy, hcopy⟩ : ∃ copy : MemState → Nat → List Byte → MemState, copy = fun m r bs => if (m.region r).cls = 3 then restore m
    (0x50 + s.lead) r bs else m :=
    ⟨_, rfl⟩
  have copied {m r bs} (hm : MemState.wf m) : (copy m r bs).wf := by
    rw [hcopy]
    dsimp only
    split
    · exact restores hm
    · exact hm
  have rebuilt {m : MemState} (hm : m.wf) : ({ s with mem := { m with coldLost := false } } : State).Canon := ⟨h.1, hm⟩
  refine State.Canon.ite h (.modCtl (rebuilt ?_))
  rw [← hcopy]
  exact copied (copied (runs h.2))

theorem State.Canon.coreTested {d p cols unloc} (h : s.Canon) : (s.coreTested d p cols unloc).Canon :=
  .ite (.becomes (.foldl (fun _ _ h => h.modCore) h)) (.ite (.showShape (.modDie (.retireCore (.foldl (fun _ _ h => h.modCore) h)))) (.retireCore
    (.foldl (fun _ _ h => h.modCore) h)))

theorem canon_execFunctionReady {id cols unloc enabled repaired fast nb} (h : s.Canon) : LandsCanon (execFunctionReady id cols unloc enabled repaired fast nb s) := by
  have edgeShown {u : State} {d e ed en rep rate rtt lanes} (hu : u.Canon) : State.Canon
      ((((((((u.setEdge d e ed).setF d (edgeF e fD2dModulesEnabled) en).setF d (edgeF e fD2dModulesRepaired) rep).setF d
        (edgeF e fD2dEdgeStatusRate) rate).setF
        d (edgeF e fD2dEdgeStatusRtt) rtt).setF d (edgeF e fD2dEdgeStatusLanesRepaired) lanes).setFunc (edgeFunc d e) 2).showEdge d e) :=
    .showEdge (.setFunc (.setF (.setF (.setF (.setF (.setF (.of hu)))))))
  refine State.Canon.ite h (.ite ?_ (.ite h ?_))
  · split
    · exact h
    · refine .ite h ?_
      extract_lets admitted en rate lanes both moved
      have hboth : both.Canon := h.bothEnds fun _ _ _ h => .ite (edgeShown h) h
      clear_value both
      have hmoved : moved.Canon := .ite hboth hboth.moveBack
      clear_value moved
      exact hmoved.bothEnds fun _ _ _ h => .ite h.flushEdge.finish h
  · split
    · exact .ite h h.setF.becomes.copyFirmware
    · exact h.coreTested
    · exact .ite h (.becomes (.setF (.setF (.setF (.setWidth (.of h))))))
    · exact .ite h.becomes h
    · exact .becomes (.of h)
    · exact .becomes (.of h)
    · exact h.setRuns.becomes
    · exact h.setUpd.becomes
    · exact h

theorem State.Canon.resetConnsOn {p reason} (h : s.Canon) : (s.resetConnsOn p reason).Canon := .foldl (fun _ _ h => h.resetConn) h

theorem GivesCanon.drained {id} (h : s.Canon) : GivesCanon (s.drained id) := by
  unfold State.drained
  dsimp only
  split
  · exact .some (.setF (.foldl (fun _ _ h => h.flushGran) h))
  · exact .some h.of.setF
  · exact .ite .none (.some h)
  · exact .ite (.some h) .none
  · exact .some h.resetConnsOn.setF
  · exact .some h.of
  · exact .some h.of
  · exact .some h.setRuns.setF.setF
  · exact .some h.of
  · exact .some h

theorem canon_execFunctionStopped {id} (h : s.Canon) : LandsCanon (execFunctionStopped id s) := by
  refine State.Canon.ite h ?_
  split
  · exact h
  · next t e => exact .finish (.ite (GivesCanon.drained h t e).startFunc (.setFunc (GivesCanon.drained h t e)))

theorem canon_execServiceLinkUp {p form} (h : s.Canon) : LandsCanon (execServiceLinkUp p form s) := .ite h h.setF.setF.setF

theorem canon_execServiceLinkDown {p} (h : s.Canon) : LandsCanon (execServiceLinkDown p s) :=
  .ite h (.ite h.setF.setF.setF.startFunc h.setF.setF.setF)

theorem State.Canon.beginWrite {o off bs} (h : s.Canon) : (s.beginWrite o off bs).Canon := h.of.send

theorem canon_execKeyStoreWrite (h : s.Canon) : LandsCanon (execKeyStoreWrite s) := by
  unfold execKeyStoreWrite
  split
  · exact h.beginWrite
  · exact h

theorem State.Canon.enrol (h : s.Canon) : s.enrol.Canon := .ite h (.ite h.setF (.ite h.setF (.ite h.setF h.of.setF)))

theorem State.Canon.closeSession {id} (h : s.Canon) : (s.closeSession id).Canon := h.modCtl.showCtl

theorem State.Canon.revoke (h : s.Canon) : s.revoke.Canon := .ite h (.ite h.setF (.setF (.flashAsk (.foldl (fun _ _ h => h.closeSession) h))))

theorem canon_execEnrol (h : s.Canon) : LandsCanon (execEnrol s) := h.enrol

theorem canon_execRevoke (h : s.Canon) : LandsCanon (execRevoke s) := h.revoke

theorem canon_execEnrolNChange {low} (h : s.Canon) : LandsCanon (execEnrolNChange low s) := .ite h.of.setF h.of

theorem canon_execRetirementRecordWrite (h : s.Canon) : LandsCanon (execRetirementRecordWrite s) := by
  unfold execRetirementRecordWrite
  split
  · exact .ite h.of h.beginWrite
  · exact h

theorem State.Canon.raiseSvn {svn} (h : s.Canon) : (s.raiseSvn svn).Canon := .foldl (fun _ _ h => .ite h.setF.of h) h

theorem State.Canon.commitDone {ok} (h : s.Canon) : (s.commitDone ok).Canon :=
  .ite h.setF.of (.modCtl (.setF (.foldl (fun _ _ h => .ite h.setF h) (.ite (.raiseSvn (.ite h.setF.of.send h.setF.of)) (.ite h.setF.of.send
    h.setF.of)))))

theorem State.Canon.stageWritten {img ok} (h : s.Canon) : (s.stageWritten img ok).Canon := .finishFlash (.ite h.of.setF.send h.of.setF)

theorem canon_execFlashWriteComplete {ok} (h : s.Canon) : LandsCanon (execFlashWriteComplete ok s) := by
  unfold execFlashWriteComplete
  split
  · exact .finishFlash (.ite h.of.send h.of)
  · exact h.of.stageWritten
  · exact h.of.commitDone
  · exact .showKeys (.setF (.setF (.ite h.of h.of)))
  · exact .ite h.of h.of
  · exact h

theorem canon_execFirmwareCommit (h : s.Canon) : LandsCanon (execFirmwareCommit s) := .ite h (.ite h h.setF.of)

theorem canon_execFwActivationDone (h : s.Canon) : LandsCanon (execFwActivationDone s) :=
  .ite h (.ite h.endActivation (.endActivation (.ite h.setF.setF.setF.setF.setWide.setF.modCtl h.setF.setF.setF.setF.setWide.setF)))

theorem State.Canon.setUp {f v} (h : s.Canon) : (s.setUp f v).Canon := .foldl (fun _ _ h => h.setF) h

theorem State.Canon.bumpUp {f k} (h : s.Canon) : (s.bumpUp f k).Canon := .foldl (fun _ _ h => h.bump) h

theorem State.Canon.setLimits (h : s.Canon) : s.setLimits.Canon := h.showBudget.setUp

theorem State.Canon.showSource {v} (h : s.Canon) : (s.showSource v).Canon := .setUp (.ite h.of h)

theorem State.Canon.commandVf {k} (h : s.Canon) : (s.commandVf k).Canon := .foldl (fun _ _ h => h.send) h

theorem State.Canon.endChange (h : s.Canon) : s.endChange.Canon := h.of.setUp

theorem State.Canon.switchClock {c} (h : s.Canon) : (s.switchClock c).Canon :=
  .ite (.endChange (.bumpUp (.setUp (.foldl (fun _ _ h => h.setF) h)))) (.commandVf (.endChange (.bumpUp (.setUp (.foldl (fun _ _ h => h.setF) h)))))

theorem State.Canon.beginChange {goal} (h : s.Canon) : (s.beginChange goal).Canon := by
  unfold State.beginChange
  split
  · exact .ite h (.ite (.ite h.of.setUp.showIdle.commandVf h.of.setUp.showIdle) (.ite h.endChange h))
  · exact .ite h (.ite (.ite h.of.setUp.showIdle.commandVf h.of.setUp.showIdle) (.ite (.ite h.of.setUp.showIdle.commandVf h.of.setUp.showIdle) h))

theorem State.Canon.manage {gated idle est} (h : s.Canon) : (s.manage gated idle est).Canon := h.setLimits.setUp.showSource.of.beginChange

theorem State.Canon.manageNow (h : s.Canon) : s.manageNow.Canon := .ite h.manage h

theorem canon_execPowerManagerTick {gated idle est} (h : s.Canon) : LandsCanon (execPowerManagerTick gated idle est s) :=
  .ite h (.manage (.foldl (fun _ _ h => h.setF.setF) h))

theorem canon_execCpllLock (h : s.Canon) : LandsCanon (execCpllLock s) := by
  unfold execCpllLock
  dsimp only
  split
  · exact h.showIdle
  · exact .ite h.showIdle.switchClock h.showIdle.of

theorem canon_execVoutSettle {ok} (h : s.Canon) : LandsCanon (execVoutSettle ok s) := by
  unfold execVoutSettle
  split
  · exact h
  · exact .ite h (.ite h.endChange (.ite h.switchClock h.of))

theorem canon_execGovernorTick {d mw icc} (h : s.Canon) : LandsCanon (execGovernorTick d mw icc s) := .ite h (.setF (.ite h.bump h))

theorem canon_execPwrBudgetSample {code} (h : s.Canon) : LandsCanon (execPwrBudgetSample code s) := .ite h (.ite h.of.setF.manageNow h.of)

theorem canon_execBrownoutNFall (h : s.Canon) : LandsCanon (execBrownoutNFall s) := by
  unfold execBrownoutNFall
  dsimp only
  split
  · exact h
  · split
    · exact .manageNow (.ite h.of.setUp.setUp.bumpUp.endChange h.of.setUp.setUp.bumpUp)
    · exact h.of.setUp.setUp.bumpUp.manageNow

theorem canon_execBrownoutNRise (h : s.Canon) : LandsCanon (execBrownoutNRise s) := .ite h.of h

theorem canon_execBrownoutHoldExpiry {est} (h : s.Canon) : LandsCanon (execBrownoutHoldExpiry est s) := .ite h (.ite h.of.setUp.manage h.of.setUp)

theorem State.Canon.setHot {d v} (h : s.Canon) : (s.setHot d v).Canon := h.setF.setF

theorem State.Canon.setCrit {d v} (h : s.Canon) : (s.setCrit d v).Canon := h.setF.setF

theorem canon_execThermalSample {d own sensor port portSensor} (h : s.Canon) : LandsCanon (execThermalSample d own sensor port portSensor s) := by
  refine State.Canon.ite h ?_
  extract_lets p t hot crit fromPort noted shown wasHot wasCrit isHot isCrit flagged capped gated
  have capAt {u : State} {a n} (hu : u.Canon) : (State.setCap { u with alert := a } d n).Canon := hu.of
  have hnoted : noted.Canon := h.of
  clear_value noted
  have hshown : shown.Canon := hnoted.setF.setF.setF
  clear_value shown
  have hflagged : flagged.Canon := hshown.setHot.setCrit
  clear_value flagged isCrit wasCrit isHot wasHot
  have hcapped : capped.Canon := .ite (capAt hflagged) hflagged
  clear_value capped
  have hgated : gated.Canon := .ite (capAt hcapped).setF hcapped
  clear_value gated
  exact .ite hgated.manageNow hgated

theorem canon_execHotCapTimer {d} (h : s.Canon) : LandsCanon (execHotCapTimer d s) := .ite h (.ite h.of.bump.manageNow (.ite h h.of.bump.manageNow))

theorem canon_execPmbusPoll {reads} (h : s.Canon) : LandsCanon (execPmbusPoll reads s) := .ite (.foldl (fun _ _ h => h.of) h) h

theorem canon_execPmbAlert (h : s.Canon) : LandsCanon (execPmbAlert s) := h

theorem canon_execVrmTelemetryLoss {rail} (h : s.Canon) : LandsCanon (execVrmTelemetryLoss rail s) := .ite h.of.manageNow h

end Sys2Proof.Machine
end

section
/-! The canonical form under registers, sessions and jobs (O60). -/

namespace Sys2Proof.Machine

set_option Elab.async false

variable {s t u : State}

theorem State.Canon.clearRc {d off} (h : s.Canon) : (s.clearRc d off).Canon := by
  unfold State.clearRc
  split
  · exact h
  · exact .ite h (.ite h.modCore h.setReg)

theorem State.Canon.readReg {d off} (h : s.Canon) : (s.readReg d off).2.Canon := h.clearRc

theorem State.Canon.readRegs {d a} (h : s.Canon) : (State.readRegs d a s).2.Canon := by
  induction a generalizing s d with
  | nil => exact h
  | cons x l ih => exact ih h.readReg

theorem canon_nextOr {o} (h : s.Canon) (ho : LandsCanon o) : (nextOr s o).Canon := by
  unfold nextOr
  split
  · exact ho
  · exact h

theorem canon_actIf {v i f} (h : s.Canon) (hf : ∀ u, u.Canon → LandsCanon (f u)) : (actIf v i f s).Canon := .ite (canon_nextOr h (hf _ h)) h

theorem GivesCanon.writeAct {d off base v} (h : s.Canon) : GivesCanon (s.writeAct d off base v) := by
  unfold State.writeAct
  refine .ite (.ite (.some (.ite h.enrol (.ite h.revoke h))) .none) (.ite (.some (.foldl (fun _ _ h => h.retrainEdge) h))
    (.dite (fun _ => ?compute) fun _ => .ite (.some h.of) .none))
  refine .ite (.some ?seq) (.ite (.some ?array) (.ite (.some h.modCore) (.ite (.some h.modCore) (.ite (.some h.regionWrite) (.ite (.some ?task)
    (.ite (.some (canon_nextOr h (canon_execSet h))) (.ite (.some ?watch) (.ite (.ite .none (.some h.of)) (.ite (.some ?queue)
    (.ite (.some (canon_nextOr h (canon_execQeDoorbell h))) (.ite (.some h.of) (.ite (.some h.of) .none))))))))))))
  case seq =>
    have started := State.Canon.ite (c := bit v 0 = true) (h.goCore (pc := blockCore d off)) h
    exact .ite started.haltLive started
  case array => exact .ite (.arrayCtl (.ite (.applyCols (.ite h.arrayCtl h)) (.ite h.arrayCtl h))) (.ite (.applyCols (.ite h.arrayCtl h)) (.ite
    h.arrayCtl h))
  case task => exact canon_actIf (canon_actIf h fun _ => canon_execSnap) fun _ => canon_execCheck
  case watch => exact canon_actIf (canon_actIf h fun _ => canon_execArm) fun _ => canon_execRelease
  case queue => exact canon_actIf (canon_actIf (canon_actIf h fun _ => canon_execLoad) fun _ => canon_execCommit) fun _ => canon_execClearErr

theorem GivesCanon.writeReg {d off v} (h : s.Canon) : GivesCanon (s.writeReg? d off v) := by
  unfold State.writeReg?
  split
  · exact .none
  · refine .ite .none ?_
    split
    · next e => exact .some (GivesCanon.writeAct h _ e)
    · exact .ite .none (.ite .none (.ite .none (.ite .none (.some (.ite h.setReg.manageNow h.setReg)))))

theorem State.Canon.writeReg {d off v} (h : s.Canon) : (s.writeReg d off v).Canon := by
  unfold State.writeReg
  cases e : s.writeReg? d off v with
  | none => exact h
  | some t => exact GivesCanon.writeReg h t e

theorem State.Canon.cfgSend {pd a b} (h : s.Canon) : (s.cfgSend pd a b).Canon := by
  unfold State.cfgSend
  split
  · exact h.of.edgeSend
  · exact h.clusterFailed.send

theorem canon_execRcRead {space off} (h : s.Canon) : LandsCanon (execRcRead space off s) :=
  .ite h.cfgSend (.send (.ite h.readReg.clusterFailed h.readReg))

theorem canon_execRegisterWrite {space off v} (h : s.Canon) : LandsCanon (execRegisterWrite space off v s) :=
  .ite h.cfgSend (.ite h.clusterFailed.send h.writeReg)

theorem State.Canon.cfgAnswer {m tag v} (h : s.Canon) : (s.cfgAnswer m tag v).Canon := h.edgeSend

theorem canon_execCfgRd {pd} (h : s.Canon) : LandsCanon (execCfgRd pd s) := by
  unfold execCfgRd
  dsimp only
  split
  · split
    · exact .ite h (.cfgAnswer (.iteSnd h.of.readReg h.of))
    · exact h
  · exact h

theorem canon_execCfgWr {pd} (h : s.Canon) : LandsCanon (execCfgWr pd s) := by
  unfold execCfgWr
  dsimp only
  split
  · split
    · exact .ite h (.ite h.of.cfgAnswer h.of.writeReg.cfgAnswer)
    · exact h
  · exact h

theorem canon_execCfgRsp {d} (h : s.Canon) : LandsCanon (execCfgRsp d s) := by
  unfold execCfgRsp
  dsimp only
  split
  · split
    · split
      · exact h
      · split
        · exact .send (.ite h.of.clusterFailed h.of)
        · exact h.of
    · exact h
  · exact h

theorem canon_execGetIdentity (h : s.Canon) : LandsCanon (execGetIdentity s) := h.serve (fun _ _ _ h => h.replyOk)

theorem canon_execGetCerts (h : s.Canon) : LandsCanon (execGetCerts s) := h.serve (fun _ _ _ h => h.replyOk)

theorem canon_execAttest (h : s.Canon) : LandsCanon (execAttest s) := h.serve (fun _ _ _ h => h.replyOk)

theorem canon_execGetKeys (h : s.Canon) : LandsCanon (execGetKeys s) := h.serve (fun _ _ _ h => h.replyOk)

theorem canon_execSessionChallenge (h : s.Canon) : LandsCanon (execSessionChallenge s) := h.serve (fun _ _ _ h => h.of.modCtl.replyOk)

theorem canon_execChallengeExpiry {id} (h : s.Canon) : LandsCanon (execChallengeExpiry id s) := h.modCtl

theorem State.Canon.openSession {c key} (h : s.Canon) : (s.openSession c key).Canon := h.of.modCtl.showCtl.giveCredit.modSession.sendMsg

theorem canon_execSessionOpen (h : s.Canon) : LandsCanon (execSessionOpen s) := by
  unfold execSessionOpen
  dsimp only
  refine h.serve (fun _ _ _ h => ?_)
  split
  · exact h.refuse
  · split
    · exact h.refuse
    · split
      · exact h.refuse
      · exact .ite h.modCtl.refuse (.ite h.modCtl.refuse h.modCtl.openSession)

theorem canon_execSessionClose (h : s.Canon) : LandsCanon (execSessionClose s) := h.serve (fun _ _ _ h => h.replyOk.closeSession)

theorem canon_execSessionIdleTimeout {id} (h : s.Canon) : LandsCanon (execSessionIdleTimeout id s) := h.closeSession

theorem canon_execSessionInfo (h : s.Canon) : LandsCanon (execSessionInfo s) := h.serve (fun _ _ _ h => h.replyOk)

theorem canon_execConfigRead (h : s.Canon) : LandsCanon (execConfigRead s) := by
  unfold execConfigRead
  dsimp only
  refine h.serve (fun _ _ _ h => ?_)
  split
  · exact h.refuse
  · split
    · exact h.refuse
    · split
      · exact h.refuse
      · split
        · exact h.refuse
        · split
          · exact h.clusterFailed.refuse
          · exact h.readRegs.replyOk

theorem canon_execConfigWrite (h : s.Canon) : LandsCanon (execConfigWrite s) := by
  refine h.serve (fun c b u h => ?_)
  extract_lets a v mask
  split
  · exact h.refuse
  · refine .ite h.refuse (.ite h.refuse (.ite h.refuse (.ite h.refuse ?_)))
    split
    · refine .ite h.refuse ?_
      split
      · next e => exact (GivesCanon.writeReg h _ e).replyOk
      · exact h.refuse
    · exact h.raise.refuse

theorem State.Canon.dad {p ip} (h : s.Canon) : (s.dad p ip).Canon := .ite h h.icmp6Out

theorem canon_execSetNetwork (h : s.Canon) : LandsCanon (execSetNetwork s) :=
  h.serve (fun _ _ _ h => .ite h.refuse (.ite h.refuse (.ite h.refuse (.ite h.refuse (.ite h.refuse h.replyOk.setF.modCtl.resetConnsOn.dad)))))

theorem canon_execSetTelemetry (h : s.Canon) : LandsCanon (execSetTelemetry s) :=
  h.serve (fun _ _ _ h => .ite h.refuse (.ite h.refuse h.modCtl.replyOk))

theorem State.Canon.startLoad {c b use most} (h : s.Canon) : (s.startLoad c b use most).Canon := by
  unfold State.startLoad
  dsimp only
  split
  · split
    · exact h.refuse
    · split
      · exact h.refuse
      · split
        · exact h.refuse
        · split
          · split
            · exact h.bind.progress.bulkDone
            · exact h.bind.progress
          · exact h.bind.progress
  · split
    · exact h.refuse
    · split
      · exact h.refuse
      · split
        · exact h.refuse
        · split
          · split
            · exact h.bind.progress.bulkDone
            · exact h.bind.progress
          · exact h.bind.progress

theorem canon_execLoadImage (h : s.Canon) : LandsCanon (execLoadImage s) := h.serve (fun _ _ _ h => .ite h.refuse h.startLoad)

theorem canon_execLoadLayout (h : s.Canon) : LandsCanon (execLoadLayout s) := h.serve (fun _ _ _ h => .ite h.refuse h.startLoad)

theorem State.Canon.clearQueueErrs {d} (h : s.Canon) : (s.clearQueueErrs d).Canon := .foldl (fun _ _ h => h.qPut) h

theorem State.Canon.loadJob {t} (h : s.Canon) : (s.loadJob t).Canon := by
  unfold State.loadJob
  extract_lets loaded opened started
  have hcleared : ((span 0 4).foldl (fun (s : State) d => (s.clearQueueErrs d).setReg d oStepSkip 0) s.stopRules).Canon :=
    .foldl (fun _ _ h => h.clearQueueErrs.setReg) h.stopRules
  have hopened : opened.Canon := hcleared.loadTables.setAll.setAll.modCtl
  have hstarted : started.Canon := .foldl (fun _ _ h => h.setReg.setReg.setRuns) hopened
  clear_value started
  exact hstarted.of

theorem State.Canon.startJob {c} (h : s.Canon) : (s.startJob c).Canon := h.of.progress.tryPass

theorem canon_execJobStart (h : s.Canon) : LandsCanon (execJobStart s) := by
  refine h.serve (fun c b u h => ?_)
  extract_lets mode
  refine .ite h.refuse (.ite h.refuse (.ite h.refuse (.ite h.refuse ?_)))
  split
  · exact h.refuse
  · refine .ite h.refuse (.ite h.refuse (.ite h.refuse (.ite h.refuse ?_)))
    split
    · next e => exact (h.setClasses.writeRun.of_eq e).refuse
    · next e =>
      refine .ite h.refuse ?_
      extract_lets loaded
      have hloaded : loaded.Canon := (h.setClasses.writeRun.of_eq e).loadJob
      refine .ite hloaded.startJob ?_
      split
      · next e => exact (hloaded.readRun.of_eq e).refuse
      · next e =>
        have hread := hloaded.readRun.of_eq e
        exact .startJob (.foldl (fun _ _ h => h.reload) hread)

theorem canon_execJobStop (h : s.Canon) : LandsCanon (execJobStop s) :=
  h.serve (fun c _ u h =>
    have started : (u.progress c 2 .jobStop).Canon := h.progress
    .ite h.refuse (.ite h.refuse (.ite h.refuse (.ite started.of started.abortJob))))

theorem canon_execJobStatus (h : s.Canon) : LandsCanon (execJobStatus s) := h.serve (fun _ _ _ h => h.replyOk)

theorem canon_execLayoutCommit (h : s.Canon) : LandsCanon (execLayoutCommit s) :=
  h.serve (fun _ _ _ h => .ite h.refuse h.setAll.setAll.modCtl.progress)

theorem canon_execCkptConfig (h : s.Canon) : LandsCanon (execCkptConfig s) := h.serve (fun _ _ _ h => .ite h.refuse (.ite h.refuse h.modCtl.replyOk))

theorem canon_execDomainJoin (h : s.Canon) : LandsCanon (execDomainJoin s) :=
  h.serve (fun _ _ _ h => .ite h.refuse (.ite h.refuse (.ite h.refuse (.ite h.refuse (.replyOk (.ite h.setF.setF.setUp.setUp.modCtl.setUp.setUp
    h.setF.setF.setUp.setUp.modCtl))))))

theorem canon_execDomainLeave (h : s.Canon) : LandsCanon (execDomainLeave s) := h.serve (fun _ _ _ h => .ite h.refuse h.setF.replyOk)

theorem canon_execDomainStatus (h : s.Canon) : LandsCanon (execDomainStatus s) := h.serve (fun _ _ _ h => h.replyOk)

theorem canon_execReconstruct (h : s.Canon) : LandsCanon (execReconstruct s) :=
  h.serve (fun _ _ _ h => .ite h.refuse (.ite h.refuse (.ite h.refuse h.loadTables.reconStart.progress.reconNext)))

end Sys2Proof.Machine
end

section
/-! The canonical form under commands in service, frames and pins (O60). -/

namespace Sys2Proof.Machine

set_option Elab.async false

variable {s t u : State}

theorem canon_execSetPowerBudget (h : s.Canon) : LandsCanon (execSetPowerBudget s) := h.serve (fun _ _ _ h => .ite h.refuse h.setF.manageNow.replyOk)

theorem canon_execGetPower (h : s.Canon) : LandsCanon (execGetPower s) := h.serve (fun _ _ _ h => h.replyOk)

theorem canon_execSetThermal (h : s.Canon) : LandsCanon (execSetThermal s) :=
  h.serve (fun _ _ _ h => .ite h.refuse (.ite h.refuse (.ite h.refuse (.ite h.refuse (.replyOk (.foldl (fun _ _ h1 => h1.setF.setF) h))))))

theorem canon_execGetErrors (h : s.Canon) : LandsCanon (execGetErrors s) := h.serve (fun _ _ _ h => .ite h.refuse h.replyOk)

theorem canon_execGetCounters (h : s.Canon) : LandsCanon (execGetCounters s) := by
  unfold execGetCounters
  refine h.serve (fun _ _ _ h => ?_)
  split
  · exact h.replyOk
  · exact h.replyOk
  · exact h.replyOk
  · exact h.replyOk
  · exact h.replyOk
  · exact h.refuse

theorem canon_execRunSelftest (h : s.Canon) : LandsCanon (execRunSelftest s) :=
  h.serve (fun _ _ _ h => .ite h.refuse (.ite h.refuse (.ite h.refuse (.ite h.refuse (.ite (.foldl (fun _ _ h1 => h1.setF) h.progress)
    (.columnTestsEnd (.foldl (fun _ _ h1 => .foldl (fun _ _ h2 => .ite h2 h2.arrayCtl) h1) h.progress)))))))

theorem canon_execFwStage (h : s.Canon) : LandsCanon (execFwStage s) := h.serve (fun _ _ _ h => .ite h.refuse (.ite h.refuse h.startLoad))

theorem State.Canon.beginActivation {d result} (h : s.Canon) : (s.beginActivation d result).Canon := h.setF.setF.setF.setF

theorem canon_execFwActivate (h : s.Canon) : LandsCanon (execFwActivate s) :=
  h.serve (fun _ _ _ h => .ite h.refuse (.ite h.refuse (.ite h.refuse (.ite (.foldl (fun _ _ h1 => h1.dropConn) (.foldl
    (fun _ _ h1 => h1.closeSession) h.replyOk.beginActivation)) (.ite h.progress.beginActivation h.progress.beginActivation.portReset)))))

theorem canon_execCalRead (h : s.Canon) : LandsCanon (execCalRead s) := h.serve (fun _ _ _ h => .ite h.refuse (.ite h.refuse h.replyOk))

theorem canon_execCalWrite (h : s.Canon) : LandsCanon (execCalWrite s) := h.serve (fun _ _ _ h => h.startLoad)

theorem canon_execFuncEnable (h : s.Canon) : LandsCanon (execFuncEnable s) := by
  unfold execFuncEnable
  dsimp only
  refine h.serve (fun _ _ _ h => ?_)
  split
  · exact h.refuse
  · split
    · exact h.refuse
    · split
      · exact .ite h.startFunc.progress h.refuse
      · exact h.progress
      · exact h.replyOk
      · exact h.replyOk
      · exact h.progress
      · exact h.refuse

theorem canon_execFuncDisable (h : s.Canon) : LandsCanon (execFuncDisable s) :=
  h.serve (fun _ _ _ h => .ite h.refuse (.ite h.refuse (.ite h.refuse (.ite h.finish.progress.finish h.finish.progress.setFunc))))

theorem canon_execFuncStatus (h : s.Canon) : LandsCanon (execFuncStatus s) := h.serve (fun _ _ _ h => h.replyOk)

theorem canon_execRetireCore (h : s.Canon) : LandsCanon (execRetireCore s) :=
  h.serve (fun _ _ _ h => .ite h.refuse (.ite h.refuse (.ite h.refuse (.ite h.refuse (.ite h.refuse h.progress.markRetire)))))

theorem State.Canon.retrainIf {c f k} (h : s.Canon) (hk : ∀ u, u.Canon → (k u).Canon) : (s.retrainIf c f k).Canon := by
  unfold State.retrainIf
  refine .ite h.refuse ?_
  split
  · exact hk _ h
  · exact hk _ h
  · exact h.refuse
  · exact h.refuse
  · exact h.refuse

theorem canon_execRetrain (h : s.Canon) : LandsCanon (execRetrain s) :=
  h.serve (fun _ _ _ h => .ite h.refuse (.ite h.refuse (.ite h.refuse (.ite (h.retrainIf (fun _ h1 => h1.progress.retrainEdge)) (h.retrainIf (fun _
    h1 => h1.progress.askRetrain))))))

theorem canon_execDieReset (h : s.Canon) : LandsCanon (execDieReset s) :=
  h.serve (fun _ _ _ h => .ite h.refuse (.ite h.refuse (.ite h.refuse (.ite h.refuse (.ite h.progress.portReset (.ite h.progress.warmReset
    h.progress.coldLoss))))))

theorem State.Canon.putSample {q bs} (h : s.Canon) : (s.putSample q bs).Canon := by
  unfold State.putSample
  split
  · next e => exact h.qGet.of_eq e
  · next e =>
      split
      · exact h.qGet.of_eq e
      · split
        · next e2 => exact (((h.qGet.of_eq e).narrowAt).of_eq e2).accessFailed
        · next e2 => exact .notify ((((h.qGet.of_eq e).narrowAt).of_eq e2).qPut)

theorem canon_execTelemetrySample {kind d q} (h : s.Canon) : LandsCanon (execTelemetrySample kind d q s) := by
  unfold execTelemetrySample
  dsimp only
  split
  · exact h
  · split
    · exact .ite h.putSample.modCtl.sendEvent h.putSample.modCtl
    · exact h.putSample.modCtl

theorem canon_execShedRise (h : s.Canon) : LandsCanon (execShedRise s) := .ite h h.setF

theorem canon_execShedFall (h : s.Canon) : LandsCanon (execShedFall s) := .ite h h.setF

theorem State.Canon.ipDrop {p} (h : s.Canon) : (s.ipDrop p).Canon := h.bump

theorem State.Canon.udpIn {e bs} (h : s.Canon) : (s.udpIn e bs).Canon := .ite h.ipDrop (.ite h.segArrive h)

theorem State.Canon.icmp6In {p mac src dst b} (h : s.Canon) : (s.icmp6In p mac src dst b).Canon := by
  unfold State.icmp6In
  split
  · exact h.ipDrop
  · split
    · exact .ite h.icmp6Out h.ipDrop
    · exact .ite h.ipDrop (.ite h (.ite h.icmp6Out h.icmp6Out))
    · exact h
    · exact h.ipDrop

theorem State.Canon.ip6In {p mac b} (h : s.Canon) : (s.ip6In p mac b).Canon := .ite h.ipDrop (.ite h.udpIn (.ite h.icmp6In h.ipDrop))

theorem State.Canon.ip4In {p mac b} (h : s.Canon) : (s.ip4In p mac b).Canon := by
  unfold State.ip4In
  split
  · exact .ite h.ipDrop h.udpIn
  · exact .ite h.ipDrop (.ite h.ipDrop h.ip4Out)
  · exact .ite h.ipDrop h.ipDrop

theorem State.Canon.arpIn {p b} (h : s.Canon) : (s.arpIn p b).Canon := by
  unfold State.arpIn
  split
  · exact .ite h.ipDrop (.ite h.arpOut h)
  · exact .ite h.ipDrop (.ite h.modCtl h)
  · exact .ite h.ipDrop h.ipDrop

theorem canon_execFrameReceive {p bytes fcs} (h : s.Canon) : LandsCanon (execFrameReceive p bytes fcs s) := by
  unfold execFrameReceive
  split
  · exact .ite h h.bump
  · exact .ite h (.ite h.bump.ip6In (.ite h.bump.ip4In h.bump.arpIn))

theorem canon_execRegRead {space off} (h : s.Canon) : LandsCanon (execRegRead space off s) := by
  unfold execRegRead
  dsimp only
  split
  · exact h
  · split
    · exact h.of.send
    · split
      · exact h.of.send
      · split
        · exact h.send
        · exact h.of.send

theorem canon_execRegWrite {ok space off value mask} (h : s.Canon) : LandsCanon (execRegWrite ok space off value mask s) := by
  unfold execRegWrite
  dsimp only
  split
  · exact h
  · split
    · exact h.of
    · split
      · exact h.of
      · split
        · exact h.of.writeReg
        · exact h.of

theorem canon_execLastStatus (h : s.Canon) : LandsCanon (execLastStatus s) := .ite h.send h

theorem canon_execSummary (h : s.Canon) : LandsCanon (execSummary s) := .ite h.send h

theorem canon_execAlertResponse (h : s.Canon) : LandsCanon (execAlertResponse s) := .ite h.of.send h

theorem State.Canon.cfgAccess {d v} (h : s.Canon) : (s.cfgAccess d v).2.Canon := .iteSnd h (.iteSnd h.writeReg h.readReg)

theorem canon_execJtagCfg {d v} (h : s.Canon) : LandsCanon (execJtagCfg d v s) := h.cfgAccess.of.send

theorem canon_execIdcode {d} (h : s.Canon) : LandsCanon (execIdcode d s) := h.of.send

theorem canon_execBypass {d} (h : s.Canon) : LandsCanon (execBypass d s) := h.of.send

theorem canon_execSamplePreload {d pins load} (h : s.Canon) : LandsCanon (execSamplePreload d pins load s) := h.of.send

theorem canon_execExtest {d pins load} (h : s.Canon) : LandsCanon (execExtest d pins load s) := h.of.send

end Sys2Proof.Machine
end

section
/-! Every command, and so every step, keeps the canonical form (O60). -/

namespace Sys2Proof.Machine

set_option Elab.async false

variable {s t : State}

/-- One arm for each command. -/
theorem canon_exec (h : s.Canon) : ∀ i, LandsCanon (exec i s)
  | .pkgResetNAssert => canon_execPkgResetNAssert
  | .dieResetRelease _ _ _ _ _ _ _ => canon_execDieResetRelease h
  | .railFailure _ => canon_execRailFailure h
  | .refclk100Loss => canon_execRefclk100Loss
  | .pllLoss _ _ => canon_execPllLoss h
  | .brownoutNFall => canon_execBrownoutNFall h
  | .brownoutNRise => canon_execBrownoutNRise h
  | .brownoutHoldExpiry _ => canon_execBrownoutHoldExpiry h
  | .pwrBudgetSample _ => canon_execPwrBudgetSample h
  | .enrolNChange _ => canon_execEnrolNChange h
  | .thermtrip => canon_execThermtrip
  | .thermalSample _ _ _ _ _ => canon_execThermalSample h
  | .hotCapTimer _ => canon_execHotCapTimer h
  | .governorTick _ _ _ => canon_execGovernorTick h
  | .powerManagerTick _ _ _ => canon_execPowerManagerTick h
  | .cpllLock => canon_execCpllLock h
  | .voutSettle _ => canon_execVoutSettle h
  | .pmbusPoll _ => canon_execPmbusPoll h
  | .pmbAlert => canon_execPmbAlert h
  | .vrmTelemetryLoss _ => canon_execVrmTelemetryLoss h
  | .functionReady _ _ _ _ _ _ _ => canon_execFunctionReady h
  | .functionStopped _ => canon_execFunctionStopped h
  | .sqNop _ _ _ _ => canon_execSqNop h
  | .sqEnd _ _ _ _ => canon_execSqEnd h
  | .sqJump _ _ _ _ => canon_execSqJump h
  | .sqLoop _ _ _ _ => canon_execSqLoop h
  | .sqEndloop _ _ _ _ => canon_execSqEndloop h
  | .sqXset _ _ _ _ => canon_execSqXset h
  | .sqXadd _ _ _ _ => canon_execSqXadd h
  | .sqIrload _ _ _ _ => canon_execSqIrload h
  | .irloadComplete _ _ => canon_execIrloadComplete h
  | .tokenArrival _ _ => canon_execTokenArrival h
  | .sourceRelease _ _ _ _ => canon_execSourceRelease h
  | .streamEndCheck _ => canon_execStreamEndCheck h
  | .go _ => canon_execGo h
  | .halt _ => canon_execHalt h
  | .mxWload _ _ _ _ _ => canon_execMxWload h
  | .mxWloadComplete _ _ => canon_execMxWloadComplete h
  | .mxMma _ _ _ _ _ => canon_execMxMma h
  | .mxMmaComplete _ _ _ => canon_execMxMmaComplete h
  | .mxPass2 _ _ => canon_execMxPass2 h
  | .mxGopen _ _ _ _ _ => canon_execMxGopen h
  | .mxGclose _ _ _ _ _ => canon_execMxGclose h
  | .mxGexport _ _ _ _ _ => canon_execMxGexport h
  | .mxGexportComplete _ _ => canon_execMxGexportComplete h
  | .sentinelPass _ => canon_execSentinelPass h
  | .sentinelCompare _ _ _ => canon_execSentinelCompare h
  | .ctest _ _ => canon_execCtest h
  | .ctestComplete _ _ _ _ => canon_execCtestComplete h
  | .apply _ _ => canon_execApply h
  | .disable _ _ => canon_execDisable h
  | .vsetvl _ _ _ _ _ => canon_execVsetvl h
  | .sli _ _ _ _ _ => canon_execSli h
  | .salu _ _ _ _ _ => canon_execSalu h
  | .smov _ _ _ _ _ => canon_execSmov h
  | .vadd _ _ _ _ _ => canon_execVadd h
  | .vsub _ _ _ _ _ => canon_execVsub h
  | .vmul _ _ _ _ _ => canon_execVmul h
  | .vfma _ _ _ _ _ => canon_execVfma h
  | .vfnma _ _ _ _ _ => canon_execVfnma h
  | .vmax _ _ _ _ _ => canon_execVmax h
  | .vmin _ _ _ _ _ => canon_execVmin h
  | .vbcast _ _ _ _ _ => canon_execVbcast h
  | .viota _ _ _ _ _ => canon_execViota h
  | .viadd _ _ _ _ _ => canon_execViadd h
  | .visub _ _ _ _ _ => canon_execVisub h
  | .vand _ _ _ _ _ => canon_execVand h
  | .vor _ _ _ _ _ => canon_execVor h
  | .vxor _ _ _ _ _ => canon_execVxor h
  | .vshl _ _ _ _ _ => canon_execVshl h
  | .vshr _ _ _ _ _ => canon_execVshr h
  | .vsra _ _ _ _ _ => canon_execVsra h
  | .vnot _ _ _ _ _ => canon_execVnot h
  | .vcmp _ _ _ _ _ => canon_execVcmp h
  | .plogic _ _ _ _ _ => canon_execPlogic h
  | .pcount _ _ _ _ _ => canon_execPcount h
  | .vsel _ _ _ _ _ => canon_execVsel h
  | .vsf _ _ _ _ _ => canon_execVsf h
  | .vcvt _ _ _ _ _ => canon_execVcvt h
  | .vmxpack _ _ _ _ _ => canon_execVmxpack h
  | .vred _ _ _ _ _ => canon_execVred h
  | .vperm _ _ _ _ _ => canon_execVperm h
  | .vslide _ _ _ _ _ => canon_execVslide h
  | .vsmax _ _ _ _ _ => canon_execVsmax h
  | .vsmerge _ _ _ _ _ => canon_execVsmerge h
  | .vxadd _ _ _ _ _ => canon_execVxadd h
  | .vxfold _ _ _ _ _ => canon_execVxfold h
  | .vxcvt _ _ _ _ _ => canon_execVxcvt h
  | .vld _ _ _ _ _ => canon_execVld h
  | .vst _ _ _ _ _ => canon_execVst h
  | .vacc _ _ _ _ _ => canon_execVacc h
  | .vxWordComplete _ _ _ => canon_execVxWordComplete h
  | .dmLoad _ _ _ _ _ => canon_execDmLoad h
  | .dmLoadComplete _ _ => canon_execDmLoadComplete h
  | .dmStore _ _ _ _ _ => canon_execDmStore h
  | .dmStoreComplete _ _ => canon_execDmStoreComplete h
  | .dmFill _ _ _ _ _ => canon_execDmFill h
  | .dmRclear _ _ _ _ _ => canon_execDmRclear h
  | .syInc _ _ _ _ _ => canon_execSyInc h
  | .syDec _ _ _ _ _ => canon_execSyDec h
  | .syRead _ _ _ _ _ => canon_execSyRead h
  | .syWatch _ _ _ _ _ => canon_execSyWatch h
  | .syUnwatch _ _ _ _ _ => canon_execSyUnwatch h
  | .syFence _ _ _ _ _ => canon_execSyFence h
  | .syQring _ _ _ _ _ => canon_execSyQring h
  | .syQcons _ _ _ _ _ => canon_execSyQcons h
  | .syWordComplete _ _ => canon_execSyWordComplete h
  | .berylOperationApply _ _ => canon_execBerylOperationApply h
  | .watchBoundExpiry _ _ => canon_execWatchBoundExpiry h
  | .watchFatalExpiry _ _ => canon_execWatchFatalExpiry h
  | .set _ _ => canon_execSet h
  | .arm _ => canon_execArm h
  | .release _ => canon_execRelease h
  | .snap _ => canon_execSnap h
  | .check _ => canon_execCheck h
  | .queueProdAdvance _ => canon_execQueueProdAdvance h
  | .watchDoorbellArrival _ => canon_execWatchDoorbellArrival h
  | .descriptorStart _ => canon_execDescriptorStart h
  | .descriptorComplete _ => canon_execDescriptorComplete h
  | .landPlace _ => canon_execLandPlace h
  | .creditReturn _ => canon_execCreditReturn h
  | .qstateMissFill _ => canon_execQstateMissFill h
  | .load _ => canon_execLoad h
  | .commit _ => canon_execCommit h
  | .clearErr _ => canon_execClearErr h
  | .qeDoorbell _ _ _ => canon_execQeDoorbell h
  | .stackRead _ _ _ => canon_execStackRead h
  | .stackWrite _ _ _ _ => canon_execStackWrite h
  | .narrowWrite _ _ _ _ _ _ => canon_execNarrowWrite h
  | .mergeTimeout _ => canon_execMergeTimeout h
  | .accDiagnosticRead _ _ => canon_execAccDiagnosticRead h
  | .stackPatrolScrub _ _ => canon_execStackPatrolScrub h
  | .spadPatrolScrub _ _ _ => canon_execSpadPatrolScrub h
  | .initSweep _ => canon_execInitSweep h
  | .incEpoch _ _ _ => canon_execIncEpoch h
  | .setClass _ _ _ _ => canon_execSetClass h
  | .setLost _ _ _ => canon_execSetLost h
  | .clearLost _ _ _ => canon_execClearLost h
  | .regionCmdComplete _ => canon_execRegionCmdComplete h
  | .firmwareRegionRestore _ _ _ => canon_execFirmwareRegionRestore h
  | .warmReset _ => canon_execWarmReset h
  | .coldDieLoss _ => canon_execColdDieLoss h
  | .dieRejoin _ => canon_execDieRejoin h
  | .ewFlitReceive _ _ _ => canon_execEwFlitReceive h
  | .ewNak _ _ => canon_execEwNak h
  | .linkIdleTimer _ => canon_execLinkIdleTimer h
  | .portRetrain _ => canon_execPortRetrain h
  | .portRetrainDone _ _ => canon_execPortRetrainDone h
  | .transferOriginate _ _ => canon_execTransferOriginate h
  | .transferHop _ _ => canon_execTransferHop h
  | .write _ => canon_execWrite h
  | .land _ => canon_execLand h
  | .signal _ => canon_execSignal h
  | .signalRelease _ => canon_execSignalRelease h
  | .fence _ => canon_execFence h
  | .fenceRelease _ => canon_execFenceRelease h
  | .fenceAck _ => canon_execFenceAck h
  | .credit _ => canon_execCredit h
  | .completion _ => canon_execCompletion h
  | .completionTimer _ _ _ => canon_execCompletionTimer h
  | .chunk _ _ _ => canon_execChunk h
  | .read _ => canon_execRead h
  | .readData _ => canon_execReadData h
  | .jasper _ => canon_execJasper h
  | .timeSyncEntry _ _ _ => canon_execTimeSyncEntry h
  | .delayMeasurement _ _ => canon_execDelayMeasurement h
  | .fabricTimeUnlock _ => canon_execFabricTimeUnlock h
  | .ceDescriptorStart _ _ => canon_execCeDescriptorStart h
  | .ceDescriptorComplete _ => canon_execCeDescriptorComplete h
  | .packageFlitReceive _ _ _ _ _ => canon_execPackageFlitReceive h
  | .d2dNak _ _ _ => canon_execD2dNak h
  | .moduleRetrain _ _ _ _ => canon_execModuleRetrain h
  | .moduleRetrainDone _ _ _ _ _ _ _ => canon_execModuleRetrainDone h
  | .d2dCtrlRetrain _ _ => canon_execD2dCtrlRetrain h
  | .fabOut _ => canon_execFabOut h
  | .fabIn _ => canon_execFabIn h
  | .cfgRd _ => canon_execCfgRd h
  | .cfgWr _ => canon_execCfgWr h
  | .cfgRsp _ => canon_execCfgRsp h
  | .hello _ _ _ => canon_execHello h
  | .helloTimer _ => canon_execHelloTimer h
  | .edgeSilentTimeout _ _ => canon_execEdgeSilentTimeout h
  | .position _ _ _ => canon_execPosition h
  | .qrecReq _ _ => canon_execQrecReq h
  | .qrec _ _ => canon_execQrec h
  | .portAdmission _ _ _ => canon_execPortAdmission h
  | .admitResult _ _ _ => canon_execAdmitResult h
  | .resetNotice _ _ => canon_execResetNotice h
  | .heartbeat _ _ _ => canon_execHeartbeat h
  | .dieLossTimeout _ _ => canon_execDieLossTimeout h
  | .phaseEndDetect => canon_execPhaseEndDetect h
  | .phaseEnd => canon_execPhaseEnd h
  | .phaseGo => canon_execPhaseGo h
  | .commitBoundaryActions _ => canon_execCommitBoundaryActions h
  | .normPass _ _ _ => canon_execNormPass h
  | .dieRecordBuild _ => canon_execDieRecordBuild h
  | .decisionDerive _ => canon_execDecisionDerive h
  | .checkpointRestore => canon_execCheckpointRestore h
  | .ruleStart _ => canon_execRuleStart h
  | .itemRelease _ => canon_execItemRelease h
  | .remoteTierFetch _ => canon_execRemoteTierFetch h
  | .pxor _ _ => canon_execPxor h
  | .parityValidSet => canon_execParityValidSet h
  | .storedCheckpointReadout => canon_execStoredCheckpointReadout h
  | .layoutInstall => canon_execLayoutInstall h
  | .reconstruction _ _ _ => canon_execReconstruction h
  | .selfRebuild => canon_execSelfRebuild h
  | .digestRun _ => canon_execDigestRun h
  | .digestBlockWrite => canon_execDigestBlockWrite h
  | .digestCompare => canon_execDigestCompare h
  | .errorRingWrite _ => canon_execErrorRingWrite h
  | .portRecordForward _ => canon_execPortRecordForward h
  | .errorForward => canon_execErrorForward h
  | .retirementRecordWrite => canon_execRetirementRecordWrite h
  | .firmwareVerify _ _ _ _ _ => canon_execFirmwareVerify h
  | .firmwareDistribute => canon_execFirmwareDistribute h
  | .assemblyCertCheck => canon_execAssemblyCertCheck h
  | .firmwareCommit => canon_execFirmwareCommit h
  | .keyStoreWrite => canon_execKeyStoreWrite h
  | .enrol => canon_execEnrol h
  | .revoke => canon_execRevoke h
  | .getIdentity => canon_execGetIdentity h
  | .getCerts => canon_execGetCerts h
  | .attest => canon_execAttest h
  | .getKeys => canon_execGetKeys h
  | .sessionChallenge => canon_execSessionChallenge h
  | .challengeExpiry _ => canon_execChallengeExpiry h
  | .sessionOpen => canon_execSessionOpen h
  | .sessionClose => canon_execSessionClose h
  | .sessionIdleTimeout _ => canon_execSessionIdleTimeout h
  | .sessionInfo => canon_execSessionInfo h
  | .configRead => canon_execConfigRead h
  | .configWrite => canon_execConfigWrite h
  | .setNetwork => canon_execSetNetwork h
  | .setTelemetry => canon_execSetTelemetry h
  | .loadImage => canon_execLoadImage h
  | .jobStart => canon_execJobStart h
  | .jobStop => canon_execJobStop h
  | .jobStatus => canon_execJobStatus h
  | .loadLayout => canon_execLoadLayout h
  | .layoutCommit => canon_execLayoutCommit h
  | .streamOpen => canon_execStreamOpen h
  | .streamNotify _ => canon_execStreamNotify h
  | .streamClose => canon_execStreamClose h
  | .memRead => canon_execMemRead h
  | .memWrite => canon_execMemWrite h
  | .regionCmd => canon_execRegionCmd h
  | .ckptConfig => canon_execCkptConfig h
  | .setPowerBudget => canon_execSetPowerBudget h
  | .getPower => canon_execGetPower h
  | .setThermal => canon_execSetThermal h
  | .getErrors => canon_execGetErrors h
  | .eventSubscribe => canon_execEventSubscribe h
  | .commandStatus => canon_execCommandStatus h
  | .getCounters => canon_execGetCounters h
  | .runSelftest => canon_execRunSelftest h
  | .fwStage => canon_execFwStage h
  | .fwActivate => canon_execFwActivate h
  | .calRead => canon_execCalRead h
  | .calWrite => canon_execCalWrite h
  | .funcEnable => canon_execFuncEnable h
  | .funcDisable => canon_execFuncDisable h
  | .funcStatus => canon_execFuncStatus h
  | .retireCore => canon_execRetireCore h
  | .retrain => canon_execRetrain h
  | .dieReset => canon_execDieReset h
  | .domainJoin => canon_execDomainJoin h
  | .domainLeave => canon_execDomainLeave h
  | .domainStatus => canon_execDomainStatus h
  | .reconstruct => canon_execReconstruct h
  | .cstSyn => canon_execCstSyn h
  | .cstData => canon_execCstData h
  | .cstAck => canon_execCstAck h
  | .cstFin => canon_execCstFin h
  | .cstRst => canon_execCstRst h
  | .cstPing => canon_execCstPing h
  | .cstPong => canon_execCstPong h
  | .cstAckTimer _ => canon_execCstAckTimer h
  | .cstRetxTimer _ => canon_execCstRetxTimer h
  | .cstPingTimer _ => canon_execCstPingTimer h
  | .cstIdleClose _ => canon_execCstIdleClose h
  | .telemetrySample _ _ _ => canon_execTelemetrySample h
  | .shedRise => canon_execShedRise h
  | .shedFall => canon_execShedFall h
  | .frameReceive _ _ _ => canon_execFrameReceive h
  | .serviceLinkUp _ _ => canon_execServiceLinkUp h
  | .regRead _ _ => canon_execRegRead h
  | .regWrite _ _ _ _ _ => canon_execRegWrite h
  | .lastStatus => canon_execLastStatus h
  | .summary => canon_execSummary h
  | .alertResponse => canon_execAlertResponse h
  | .jtagCfg _ _ => canon_execJtagCfg h
  | .idcode _ => canon_execIdcode h
  | .bypass _ => canon_execBypass h
  | .samplePreload _ _ _ => canon_execSamplePreload h
  | .extest _ _ _ => canon_execExtest h
  | .rcRead _ _ => canon_execRcRead h
  | .registerWrite _ _ _ => canon_execRegisterWrite h
  | .reservedEngineCodeOrOpcode _ _ _ _ => canon_execReservedEngineCodeOrOpcode h
  | .dmFillComplete _ _ => canon_execDmFillComplete h
  | .timeSyncSend _ => canon_execTimeSyncSend h
  | .d2dIdleTimer _ _ => canon_execD2dIdleTimer h
  | .flashWriteComplete _ => canon_execFlashWriteComplete h
  | .fwActivationDone => canon_execFwActivationDone h
  | .serviceLinkDown _ => canon_execServiceLinkDown h

theorem State.Canon.step (h : s.Canon) : LandsCanon (step s) := by
  unfold Machine.step
  split
  · exact h.tick
  · exact canon_exec (.of h) _

/-- Settles O60: time keeps the form, and so does each command. -/
theorem everyStepKeepsTheCanonicalForm : Obligations.EveryStepKeepsTheCanonicalForm := by
  intro s t h e
  have ht := h.step
  rw [e] at ht
  exact ht

end Sys2Proof.Machine
end

section
/-!
Accesses to stack memory in the order of R196: what a read of a good granule, a full write, a narrow write and the write-out of a merge entry do
(R206 to R209), one rule for each.
-/

namespace Sys2Proof.Machine

variable {s : State} {g : Nat}

/-! ### Merge entries -/

theorem MemState.mergeBuf_setMerge (m : MemState) (ch : Nat) (l : List MergeEntry) : (m.setMerge ch l).mergeBuf ch = l := mapGet_mapSet_same _ _ _ _

/-- The entry found for a granule is that granule's. -/
theorem MemState.gran_of_entryOf {m : MemState} {e : MergeEntry} (h : m.entryOf g = some e) : e.gran = g := by
  simpa using List.find?_some h

theorem MemState.entryOf_put (m : MemState) (g j : Nat) (v : GranBits) (k : GranMeta) : (m.put g v k).entryOf j = m.entryOf j := by
  rw [MemState.entryOf, MemState.mergeBuf, put_merge]
  rfl

theorem MemState.entryOf_dropEntry (m : MemState) (g : Nat) : (m.dropEntry g).entryOf g = none := by
  rw [MemState.entryOf, MemState.dropEntry, MemState.mergeBuf_setMerge]
  simp

theorem MemState.entryOf_damage (m : MemState) (g j : Nat) (l : List SymErr) : (m.damage g l).entryOf j = m.entryOf j := by
  unfold MemState.damage
  split <;> rfl

theorem MemState.region_damage (m : MemState) (g r : Nat) (l : List SymErr) : (m.damage g l).region r = m.region r := by
  unfold MemState.damage
  split <;> rfl

/-- The completions of an entry's writes that came as commands of their own (R209). -/
def MergeEntry.completions (e : MergeEntry) (err : Option Nat) : List OutMsg :=
  (e.writes.filter (fun w => w.2)).map (fun w => .narrowDone w.1 (e.gran * 128) err)

/-- Completing the writes of an entry sends what is shown and does nothing else (R209). -/
theorem State.answerWrites_eq (s : State) (e : MergeEntry) (err : Option Nat) : s.answerWrites e err = { s with out := s.out ++ e.completions err } := by
  rw [State.answerWrites, MergeEntry.completions]
  generalize e.writes.filter (fun w => w.2) = l
  induction l generalizing s with
  | nil => simp
  | cons w l ih =>
    rw [List.foldl_cons, ih]
    simp [State.send]

/-- Discarding a granule's merge entry changes the merge buffers, in which the granule then has none, and sends completions. -/
theorem State.dropMerge_spec (s : State) (g : Nat) :
    ∃ b l, s.dropMerge g = { s with mem := { s.mem with merge := b }, out := l } ∧ MemState.entryOf { s.mem with merge := b } g = none := by
  unfold State.dropMerge
  split
  · next h => exact ⟨_, _, rfl, h⟩
  · next e h =>
    rw [State.answerWrites_eq]
    exact ⟨_, _, rfl, s.mem.entryOf_dropEntry g⟩

/-! ### Reads -/

/-- Which stacks are at hand depends neither on what memory holds nor on what has been sent. -/
theorem State.stackNear_mem_out (s : State) (m : MemState) (l : List OutMsg) (q : Requester) (g : Nat) :
    State.stackNear { s with mem := m, out := l } q g = s.stackNear q g := by
  rw [State.stackNear, State.stackNear, reaches_of (s := s) (u := { s with mem := m, out := l }) (fun _ _ => rfl) rfl]
  rfl

/-- A good granule is delivered as it is stored. -/
theorem State.readStack_good (h : GoodGran s.mem g) : s.readStack g = (.ok (s.mem.gran g) (s.mem.metaOf g), s) := by
  obtain ⟨he, hk, hc⟩ := h
  simp [State.readStack, MemState.decode, he, hk, hc]

/-- A whole granule of an earlier epoch is delivered as zeros. -/
theorem State.readStack_stale (he : s.mem.errsOf g = []) (hk : (s.mem.metaOf g).epoch ≠ (s.mem.region (granRegion g)).epoch) :
    s.readStack g = (.ok 0 ⟨0, (s.mem.region (granRegion g)).epoch, 0xFF⟩, s) := by
  simp [State.readStack, MemState.decode, he, hk]

/-- A granule whose symbols are corrected is delivered corrected, if it is of the epoch and passes its block check. -/
theorem State.readStack_corrected {f : List SymErr} {v : GranBits} {k : GranMeta} (hd : s.mem.decode g = .corrected f v k)
    (hk : k.epoch = (s.mem.region (granRegion g)).epoch) (hc : chkOf v = k.chk) : (s.readStack g).1 = .ok v k := by
  simp [State.readStack, hd, hk, hc]

/-- A read that is admitted, of a region not LOST and a granule without a merge entry, is the read of the stack. -/
theorem State.memRead_admitted {q : Requester} (hand : AtHand s q g) (hcls : mayRead (s.mem.region (granRegion g)).cls q = true)
    (hlost : (s.mem.region (granRegion g)).lost = false) (he : s.mem.entryOf g = none) : s.memRead q g = s.readStack g := by
  obtain ⟨hg, hn⟩ := hand
  simp [State.memRead, Nat.not_le.mpr hg, hn, hcls, hlost, State.flushGran, he]

/-! ### Writes -/

/-- An admitted full write with the right block check discards the granule's merge entry and stores the granule. -/
theorem State.memWrite_admitted {q : Requester} {v : GranBits} (hand : AtHand s q g) (hcls : mayWrite (s.mem.region (granRegion g)).cls q = true)
    (hlost : (s.mem.region (granRegion g)).lost = false) :
    s.memWrite q g v (chkOf v) = (.ok v ⟨chkOf v, (s.mem.region (granRegion g)).epoch, q.code⟩,
      { s.dropMerge g with mem := (s.dropMerge g).mem.put g v ⟨chkOf v, (s.mem.region (granRegion g)).epoch, q.code⟩ }) := by
  obtain ⟨hg, hn⟩ := hand
  simp [State.memWrite, Nat.not_le.mpr hg, hn, hcls, hlost]

/-- The data that writing out an entry stores over a granule's. -/
def MergeEntry.over (e : MergeEntry) (v : GranBits) : GranBits := if e.mask = BitVec.allOnes 128 then e.data else mergeBits v e.data (maskToBits e.mask)

/-- Memory after a granule's entry has been written out (R208). -/
def MemState.flushed (m : MemState) (e : MergeEntry) : MemState :=
  (m.dropEntry e.gran).put e.gran (e.over (m.gran e.gran)) ⟨chkOf (e.over (m.gran e.gran)), (m.region (granRegion e.gran)).epoch, e.writer.code⟩

/-- An entry that covers its granule, or whose granule is good, is written out, in a region that is not LOST. -/
theorem State.flushEntry_written {e : MergeEntry} (hlost : (s.mem.region (granRegion e.gran)).lost = false)
    (h : e.mask = BitVec.allOnes 128 ∨ GoodGran s.mem e.gran) :
    ∃ x, s.flushEntry e = (none, { s with regs := x, mem := s.mem.flushed e, out := s.out ++ e.completions none }) := by
  by_cases hm : e.mask = BitVec.allOnes 128
  · simp only [State.flushEntry, hlost, hm, if_true, Bool.false_eq_true, if_false, State.answerWrites_eq, MemState.flushed, MergeEntry.over]
    exact ⟨_, rfl⟩
  · simp only [State.flushEntry, hlost, hm, Bool.false_eq_true, if_false, State.readStack_good (h.resolve_left hm), State.answerWrites_eq, MemState.flushed,
      MergeEntry.over]
    exact ⟨_, rfl⟩

/-- In a LOST region an entry is dropped and its writes fail. -/
theorem State.flushEntry_lost {e : MergeEntry} (hlost : (s.mem.region (granRegion e.gran)).lost = true) :
    ∃ x, s.flushEntry e = (some 3, { s with regs := x, mem := s.mem.dropEntry e.gran, out := s.out ++ e.completions (some 3) }) := by
  simp only [State.flushEntry, hlost, if_true, State.answerWrites_eq]
  exact ⟨_, rfl⟩

theorem MemState.gran_flushed (m : MemState) (e : MergeEntry) : (m.flushed e).gran e.gran = e.over (m.gran e.gran) := MemState.gran_put ..

theorem MemState.metaOf_flushed (m : MemState) (e : MergeEntry) :
    (m.flushed e).metaOf e.gran = ⟨chkOf (e.over (m.gran e.gran)), (m.region (granRegion e.gran)).epoch, e.writer.code⟩ := by
  rw [MemState.flushed, MemState.metaOf_put, if_pos rfl]

theorem MemState.entryOf_flushed (m : MemState) (e : MergeEntry) : (m.flushed e).entryOf e.gran = none := by
  rw [MemState.flushed, MemState.entryOf_put, MemState.entryOf_dropEntry]

/-- Writing an entry out leaves every other granule. -/
theorem MemState.flushed_other (m : MemState) (e : MergeEntry) {j : Nat} (h : j ≠ e.gran) :
    (m.flushed e).gran j = m.gran j ∧ (m.flushed e).metaOf j = m.metaOf j := by
  refine ⟨?_, ?_⟩
  · rw [MemState.flushed, MemState.gran_put_other _ h]
    rfl
  · rw [MemState.flushed, MemState.metaOf_put, if_neg h]
    rfl

theorem State.flushGran_of_none (h : s.mem.entryOf g = none) : s.flushGran g = s := by rw [State.flushGran, h]

/-- Writing out a granule's entry (R208). -/
theorem State.flushGran_written {e : MergeEntry} (he : s.mem.entryOf g = some e) (hlost : (s.mem.region (granRegion g)).lost = false)
    (h : e.mask = BitVec.allOnes 128 ∨ GoodGran s.mem g) :
    ∃ x, s.flushGran g = { s with regs := x, mem := s.mem.flushed e, out := s.out ++ e.completions none } := by
  obtain rfl := MemState.gran_of_entryOf he
  obtain ⟨x, hx⟩ := State.flushEntry_written hlost h
  refine ⟨x, ?_⟩
  rw [State.flushGran, he]
  dsimp only
  rw [hx]

/-! ### Narrow writes -/

/-- A narrow write that opens the granule's entry. -/
def MergeEntry.opened (g : Nat) (mask : BitVec 128) (data : GranBits) (q : Requester) : MergeEntry := ⟨g, mask, data &&& maskToBits mask, q, [(q, true)]⟩

/-- A narrow write that joins the granule's entry. -/
def MergeEntry.joined (e : MergeEntry) (mask : BitVec 128) (data : GranBits) (q : Requester) : MergeEntry :=
  { e with mask := e.mask ||| mask, data := mergeBits e.data data (maskToBits mask), writer := q, writes := e.writes ++ [(q, true)] }

/-- Memory with a new entry at the end of its channel's merge buffer. -/
def MemState.opens (m : MemState) (e : MergeEntry) : MemState := m.setMerge (granChan e.gran) (m.mergeBuf (granChan e.gran) ++ [e])

theorem MemState.entryOf_opens {m : MemState} {e : MergeEntry} (h : m.entryOf e.gran = none) : (m.opens e).entryOf e.gran = some e := by
  unfold MemState.entryOf at h
  rw [MemState.entryOf, MemState.opens, MemState.mergeBuf_setMerge, List.find?_append, h]
  simp

/-- Memory with an entry of its channel's merge buffer replaced. -/
def MemState.rejoins (m : MemState) (g : Nat) (e : MergeEntry) : MemState :=
  m.setMerge (granChan g) ((m.mergeBuf (granChan g)).map (fun x => if x.gran = g then e else x))

theorem MemState.entryOf_rejoins {m : MemState} {e e' : MergeEntry} (h : m.entryOf g = some e) (he : e'.gran = g) : (m.rejoins g e').entryOf g = some e' := by
  unfold MemState.entryOf at h
  rw [MemState.entryOf, MemState.rejoins, MemState.mergeBuf_setMerge]
  generalize m.mergeBuf (granChan g) = l at h
  induction l with
  | nil => exact absurd h (by simp)
  | cons x l ih =>
    by_cases hx : x.gran = g
    · simp [hx, he]
    · simp only [List.find?_cons, beq_eq_false_iff_ne.2 hx] at h
      simp [hx, ih h]

/-- An admitted narrow write with a right CRC to a granule without an entry opens one, where the channel has room, and writes it out on FLUSH. -/
theorem State.narrow_opens {q : Requester} {mask : BitVec 128} {v : GranBits} {flush : Bool} {t : State} (hand : AtHand s q g)
    (hcls : mayWrite (s.mem.region (granRegion g)).cls q = true) (hlost : (s.mem.region (granRegion g)).lost = false) (he : s.mem.entryOf g = none)
    (hroom : (s.mem.mergeBuf (granChan g)).length < 64) (hmask : mask ≠ BitVec.allOnes 128)
    (ht : if flush then State.flushEntry { s with mem := s.mem.opens (.opened g mask v q) } (.opened g mask v q) = (none, t)
      else t = { s with mem := s.mem.opens (.opened g mask v q) }) :
    s.narrow q g mask v (chkOf (v &&& maskToBits mask)) flush true = (none, t) := by
  obtain ⟨hg, hn⟩ := hand
  have hin : (s.mem.opens (.opened g mask v q)).entryOf g = some (.opened g mask v q) := MemState.entryOf_opens he
  have hne : (MergeEntry.opened g mask v q).mask ≠ BitVec.allOnes 128 := hmask
  unfold State.narrow
  extract_lets r view ch buf roomy e' u
  have hu : u = { s with mem := s.mem.opens (.opened g mask v q) } := by
    simp only [u, roomy, he]
    rw [if_neg (by simpa [buf, ch] using hroom)]
    rfl
  rw [if_neg (Nat.not_le.mpr hg), if_neg (by simp [hn]), if_neg (by simp [r, hcls]), if_neg (by simp [r, hlost]), if_neg (by simp [view]), hu]
  simp only [hin, beq_eq_false_iff_ne.2 hne, Bool.or_false]
  cases flush with
  | false => rw [if_neg Bool.false_ne_true, show t = _ from ht]
  | true => rw [if_pos rfl, show State.flushEntry _ _ = (none, t) from ht]

/-- One to a granule with an entry joins it, and leaves it where it does not yet cover the granule. -/
theorem State.narrow_joins {q : Requester} {mask : BitVec 128} {v : GranBits} {e : MergeEntry} (hand : AtHand s q g)
    (hcls : mayWrite (s.mem.region (granRegion g)).cls q = true) (hlost : (s.mem.region (granRegion g)).lost = false) (he : s.mem.entryOf g = some e)
    (hmask : e.mask ||| mask ≠ BitVec.allOnes 128) :
    s.narrow q g mask v (chkOf (v &&& maskToBits mask)) false true = (none, { s with mem := s.mem.rejoins g (e.joined mask v q) }) := by
  obtain ⟨hg, hn⟩ := hand
  have hin : (s.mem.rejoins g (e.joined mask v q)).entryOf g = some (e.joined mask v q) := MemState.entryOf_rejoins he (show e.gran = g from MemState.gran_of_entryOf he)
  have hne : (e.joined mask v q).mask ≠ BitVec.allOnes 128 := hmask
  unfold State.narrow
  extract_lets r view ch buf roomy e' u
  have hu : u = { s with mem := s.mem.rejoins g (e.joined mask v q) } := by
    simp only [u, he]
    rfl
  rw [if_neg (Nat.not_le.mpr hg), if_neg (by simp [hn]), if_neg (by simp [r, hcls]), if_neg (by simp [r, hlost]), if_neg (by simp [view]), hu]
  simp only [hin, beq_eq_false_iff_ne.2 hne, Bool.or_false, Bool.false_eq_true, if_false]

/-! ### The commands -/

theorem exec_stackWrite_eq (q : Requester) (gran : BitVec 41) (data : BitVec 1024) (chk : BitVec 16) (s : State) :
    exec (.stackWrite q gran data chk) s = .next ((s.memWrite q gran.toNat data chk).2.answerMem q gran.toNat (s.memWrite q gran.toNat data chk).1) := rfl

/-- A STACK_READ of a granule in which no symbol has gone wrong since. -/
theorem exec_stackRead_whole (q : Requester) (gran : BitVec 41) (s : State) :
    exec (.stackRead q gran []) s = .next ((s.memRead q gran.toNat).2.answerMem q gran.toNat (s.memRead q gran.toNat).1) := by
  have h : (if gran.toNat < stackBytes / 128 then { s with mem := s.mem.damage gran.toNat [] } else s) = s := by
    split <;> rfl
  show execStackRead q gran [] s = _
  unfold execStackRead
  dsimp only
  rw [h]

/-- A STACK_READ of a granule of which symbols have gone wrong. -/
theorem exec_stackRead_damaged (q : Requester) {gran : BitVec 41} (hg : gran.toNat < stackBytes / 128) (errs : List SymErr) (s : State) :
    exec (.stackRead q gran errs) s =
      .next ((State.memRead { s with mem := s.mem.damage gran.toNat errs } q gran.toNat).2.answerMem q gran.toNat
        (State.memRead { s with mem := s.mem.damage gran.toNat errs } q gran.toNat).1) := by
  show execStackRead q gran errs s = _
  unfold execStackRead
  dsimp only
  rw [if_pos hg]

/-- A NARROW_WRITE of 1 to 127 bytes is a narrow write of its own, without an answer where it does not fail. -/
theorem exec_narrowWrite_taken {mask : BitVec 128} {q : Requester} {gran : BitVec 41} {data : BitVec 1024} {crc : BitVec 16} {flush : Bool} {u : State}
    (h0 : mask ≠ 0) (h1 : mask ≠ BitVec.allOnes 128) (h : s.narrow q gran.toNat mask data crc flush true = (none, u)) :
    exec (.narrowWrite q gran mask data crc flush) s = .next u := by
  show execNarrowWrite q gran mask data crc flush s = _
  simp only [execNarrowWrite, if_neg (not_or.2 ⟨h0, h1⟩), h]

/-! ### Error completions (R50, Table 6.5, Table 6.19) -/

theorem State.out_accessFailed (s : State) (q : Requester) (g kind : Nat) : (s.accessFailed q g kind).out = s.out := by
  unfold State.accessFailed
  split
  · split
    · exact s.out_raise _ (fun _ _ _ => rfl)
    · rfl
  · dsimp only
    split
    · rfl
    · exact s.out_raise _ (fun _ _ _ => rfl)

/-- An error completion is answered, and changes neither memory nor a core. -/
theorem State.answerMem_err (s : State) (q : Requester) (g kind : Nat) :
    (s.answerMem q g (.err kind)).mem = s.mem ∧ (s.answerMem q g (.err kind)).cores = s.cores ∧
      OutMsg.memAnswer q (g * 128) (some kind) 0 ⟨0, 0, 0⟩ ∈ (s.answerMem q g (.err kind)).out := by
  have h := (s.send (.memAnswer q (g * 128) (some kind) 0 ⟨0, 0, 0⟩)).keeps_accessFailed q g kind
  refine ⟨h.mem, h.cores, ?_⟩
  rw [State.answerMem, State.out_accessFailed]
  simp

theorem exec_stackRead_err {q : Requester} {gran : BitVec 41} {kind : Nat} {u : State} (h : s.memRead q gran.toNat = (.err kind, u)) (hu : u.mem = s.mem) :
    ∃ t, exec (.stackRead q gran []) s = .next t ∧ t.mem = s.mem ∧ OutMsg.memAnswer q (gran.toNat * 128) (some kind) 0 ⟨0, 0, 0⟩ ∈ t.out := by
  obtain ⟨hm, -, ho⟩ := u.answerMem_err q gran.toNat kind
  refine ⟨u.answerMem q gran.toNat (.err kind), ?_, hm.trans hu, ho⟩
  rw [exec_stackRead_whole, h]

theorem exec_stackWrite_err {q : Requester} {gran : BitVec 41} {data : BitVec 1024} {chk : BitVec 16} {kind : Nat} {u : State}
    (h : s.memWrite q gran.toNat data chk = (.err kind, u)) (hu : Keeps .access s u) (hm : u.mem = s.mem) :
    ∃ t, exec (.stackWrite q gran data chk) s = .next t ∧ t.mem = s.mem ∧ t.cores = s.cores ∧
      OutMsg.memAnswer q (gran.toNat * 128) (some kind) 0 ⟨0, 0, 0⟩ ∈ t.out := by
  obtain ⟨ha, hc, ho⟩ := u.answerMem_err q gran.toNat kind
  refine ⟨u.answerMem q gran.toNat (.err kind), ?_, ha.trans hm, hc.trans hu.cores, ho⟩
  rw [exec_stackWrite_eq, h]

/-! ### The parts of R196 and R206 to R209 -/

/-- A read of a granule without a merge entry. -/
theorem stackRead_admitted {r : Requester} {gran : BitVec 41} (hand : AtHand s r gran.toNat)
    (hcls : mayRead (s.mem.region (granRegion gran.toNat)).cls r = true) (hlost : (s.mem.region (granRegion gran.toNat)).lost = false)
    (he : s.mem.entryOf gran.toNat = none) :
    (GoodGran s.mem gran.toNat → exec (.stackRead r gran []) s =
      .next { s with out := s.out ++ [.memAnswer r (gran.toNat * 128) none (s.mem.gran gran.toNat) (s.mem.metaOf gran.toNat)] }) ∧
    (s.mem.errsOf gran.toNat = [] → (s.mem.metaOf gran.toNat).epoch ≠ (s.mem.region (granRegion gran.toNat)).epoch → exec (.stackRead r gran []) s =
      .next { s with out := s.out ++ [.memAnswer r (gran.toNat * 128) none 0 ⟨0, (s.mem.region (granRegion gran.toNat)).epoch, 0xFF⟩] }) ∧
    ∀ (errs f : List SymErr) (v : GranBits) (k : GranMeta), (s.mem.damage gran.toNat errs).decode gran.toNat = .corrected f v k →
      k.epoch = (s.mem.region (granRegion gran.toNat)).epoch → chkOf v = k.chk →
      ∃ t l, exec (.stackRead r gran errs) s = .next t ∧ t.out = l ++ [.memAnswer r (gran.toNat * 128) none v k] := by
  have hread := State.memRead_admitted hand hcls hlost he
  refine ⟨fun hgood => ?_, fun herr hep => ?_, fun errs f v k hd hk hc => ?_⟩
  · rw [exec_stackRead_whole, hread, State.readStack_good hgood]
    rfl
  · rw [exec_stackRead_whole, hread, State.readStack_stale herr hep]
    rfl
  · let u : State := { s with mem := s.mem.damage gran.toNat errs }
    have hreg : u.mem.region (granRegion gran.toNat) = s.mem.region (granRegion gran.toNat) := MemState.region_damage ..
    have hnear : u.stackNear r gran.toNat = s.stackNear r gran.toNat := s.stackNear_mem_out ..
    have hm : u.memRead r gran.toNat = u.readStack gran.toNat :=
      State.memRead_admitted ⟨hand.1, hnear.trans hand.2⟩ (by rw [hreg]; exact hcls) (by rw [hreg]; exact hlost) ((MemState.entryOf_damage ..).trans he)
    refine ⟨_, (u.readStack gran.toNat).2.out, exec_stackRead_damaged r hand.1 errs s, ?_⟩
    rw [hm, State.readStack_corrected hd (hk.trans (congrArg Region.epoch hreg).symm) hc]
    rfl

/-- A full write with a right block check. -/
theorem stackWrite_admitted {r : Requester} {gran : BitVec 41} {data : BitVec 1024} (hand : AtHand s r gran.toNat)
    (hcls : mayWrite (s.mem.region (granRegion gran.toNat)).cls r = true) (hlost : (s.mem.region (granRegion gran.toNat)).lost = false) :
    let g := gran.toNat
    let k : GranMeta := ⟨chkOf data, (s.mem.region (granRegion g)).epoch, r.code⟩
    ∃ t, exec (.stackWrite r gran data (chkOf data)) s = .next t ∧ t.out = (s.dropMerge g).out ++ [.memAnswer r (g * 128) none data k] ∧ t.regs = s.regs ∧
      t.cores = s.cores ∧ (∀ j, j ≠ g → t.mem.gran j = s.mem.gran j ∧ t.mem.metaOf j = s.mem.metaOf j) ∧ t.mem.entryOf g = none ∧
      ∀ r', mayRead (s.mem.region (granRegion g)).cls r' = true → s.stackNear r' g = true → (t.memRead r' g).1 = .ok data k := by
  intro g k
  obtain ⟨b, l, hdrop, hnone⟩ := s.dropMerge_spec g
  have hwrite := State.memWrite_admitted (v := data) hand hcls hlost
  rw [hdrop] at hwrite
  let m : MemState := MemState.put { s.mem with merge := b } g data k
  let t : State := { s with mem := m, out := l ++ [.memAnswer r (g * 128) none data k] }
  have hreg : m.region (granRegion g) = s.mem.region (granRegion g) := MemState.region_put ..
  have hentry : m.entryOf g = none := (MemState.entryOf_put ..).trans hnone
  have hgood : GoodGran m g := by
    rw [GoodGran, MemState.errsOf_put, MemState.metaOf_put, MemState.gran_put, if_pos rfl, if_pos rfl, hreg]
    exact ⟨rfl, rfl, rfl⟩
  refine ⟨t, ?_, by rw [hdrop], rfl, rfl, fun j hj => ⟨?_, ?_⟩, hentry, fun r' hr' hn' => ?_⟩
  · rw [exec_stackWrite_eq, hwrite]
    rfl
  · exact MemState.gran_put_other _ hj _ _
  · exact (MemState.metaOf_put ..).trans (if_neg hj)
  · have hnear : t.stackNear r' g = s.stackNear r' g := s.stackNear_mem_out ..
    have hread : t.memRead r' g = t.readStack g := State.memRead_admitted ⟨hand.1, hnear.trans hn'⟩ (by rw [hreg]; exact hr') (by rw [hreg]; exact hlost) hentry
    rw [hread, State.readStack_good (s := t) hgood]
    show MemRes.ok (m.gran g) (m.metaOf g) = _
    rw [MemState.gran_put, MemState.metaOf_put, if_pos rfl]

/-- A full write with a wrong block check is refused with KIND 4. -/
theorem stackWrite_wrongCheck {r : Requester} {gran : BitVec 41} {data : BitVec 1024} {chk : BitVec 16} (hand : AtHand s r gran.toNat)
    (hcls : mayWrite (s.mem.region (granRegion gran.toNat)).cls r = true) (hlost : (s.mem.region (granRegion gran.toNat)).lost = false)
    (hchk : chk ≠ chkOf data) :
    ∃ t, exec (.stackWrite r gran data chk) s = .next t ∧ t.mem = s.mem ∧ t.cores = s.cores ∧
      OutMsg.memAnswer r (gran.toNat * 128) (some 4) 0 ⟨0, 0, 0⟩ ∈ t.out := by
  obtain ⟨hg, hn⟩ := hand
  exact exec_stackWrite_err (u := s.noteUncorr gran.toNat 4 0xFF) (by simp [State.memWrite, Nat.not_le.mpr hg, hn, hcls, hlost, hchk.symm])
    (s.keeps_noteUncorr ..) rfl

/-- A narrow write to a granule without a merge entry. -/
theorem narrowWrite_opens {r : Requester} {gran : BitVec 41} {mask : BitVec 128} {data : BitVec 1024} (h0 : mask ≠ 0) (h1 : mask ≠ BitVec.allOnes 128)
    (hand : AtHand s r gran.toNat) (hcls : mayWrite (s.mem.region (granRegion gran.toNat)).cls r = true)
    (hlost : (s.mem.region (granRegion gran.toNat)).lost = false) (he : s.mem.entryOf gran.toNat = none)
    (hroom : (s.mem.mergeBuf (granChan gran.toNat)).length < 64) :
    let g := gran.toNat
    let bits := maskToBits mask
    (∃ t, exec (.narrowWrite r gran mask data (chkOf (data &&& bits)) false) s = .next t ∧ t.regs = s.regs ∧ t.cores = s.cores ∧ t.out = s.out ∧
      t.mem.data = s.mem.data ∧ t.mem.gmeta = s.mem.gmeta ∧ t.mem.entryOf g = some ⟨g, mask, data &&& bits, r, [(r, true)]⟩) ∧
    (GoodGran s.mem g → ∃ t, exec (.narrowWrite r gran mask data (chkOf (data &&& bits)) true) s = .next t ∧ t.cores = s.cores ∧
      t.out = s.out ++ [.narrowDone r (g * 128) none] ∧ t.mem.entryOf g = none ∧ t.mem.gran g = mergeBits (s.mem.gran g) (data &&& bits) bits ∧
      ∀ j, j ≠ g → t.mem.gran j = s.mem.gran j ∧ t.mem.metaOf j = s.mem.metaOf j) := by
  intro g bits
  let e := MergeEntry.opened g mask data r
  let u : State := { s with mem := s.mem.opens e }
  refine ⟨⟨u, exec_narrowWrite_taken h0 h1 (State.narrow_opens hand hcls hlost he hroom h1 (show u = u from rfl)), rfl, rfl, rfl, rfl, rfl,
    MemState.entryOf_opens (e := e) he⟩, fun hgood => ?_⟩
  · obtain ⟨x, hx⟩ := State.flushEntry_written (s := u) (e := e) hlost (.inr hgood)
    refine ⟨{ u with regs := x, mem := u.mem.flushed e, out := u.out ++ e.completions none },
      exec_narrowWrite_taken h0 h1 (State.narrow_opens hand hcls hlost he hroom h1 hx), rfl, rfl, MemState.entryOf_flushed .., ?_,
      fun j hj => MemState.flushed_other _ _ hj⟩
    · exact (MemState.gran_flushed ..).trans (if_neg h1)

/-- One to a granule with a merge entry. -/
theorem narrowWrite_joins {r : Requester} {gran : BitVec 41} {mask : BitVec 128} {data : BitVec 1024} {e : MergeEntry} (h0 : mask ≠ 0)
    (h1 : mask ≠ BitVec.allOnes 128) (hand : AtHand s r gran.toNat) (hcls : mayWrite (s.mem.region (granRegion gran.toNat)).cls r = true)
    (hlost : (s.mem.region (granRegion gran.toNat)).lost = false) (he : s.mem.entryOf gran.toNat = some e) (hmask : e.mask ||| mask ≠ BitVec.allOnes 128) :
    ∃ t, exec (.narrowWrite r gran mask data (chkOf (data &&& maskToBits mask)) false) s = .next t ∧ t.regs = s.regs ∧ t.cores = s.cores ∧
      t.mem.data = s.mem.data ∧ t.mem.gmeta = s.mem.gmeta ∧ t.mem.entryOf gran.toNat = some (e.joined mask data r) := by
  exact ⟨_, exec_narrowWrite_taken h0 h1 (State.narrow_joins hand hcls hlost he hmask), rfl, rfl, rfl, rfl,
    MemState.entryOf_rejoins he (show e.gran = _ from MemState.gran_of_entryOf he)⟩

/-- The write-out of an entry when its time is over. -/
theorem mergeTimeout_writes {gran : BitVec 41} {e : MergeEntry} (he : s.mem.entryOf gran.toNat = some e)
    (hlost : (s.mem.region (granRegion gran.toNat)).lost = false) (h : e.mask = BitVec.allOnes 128 ∨ GoodGran s.mem gran.toNat) :
    let g := gran.toNat
    ∃ t, exec (.mergeTimeout gran) s = .next t ∧ t.cores = s.cores ∧ t.mem.entryOf g = none ∧
      t.mem.gran g = (if e.mask = BitVec.allOnes 128 then e.data else mergeBits (s.mem.gran g) e.data (maskToBits e.mask)) ∧
      t.mem.metaOf g = ⟨chkOf (t.mem.gran g), (s.mem.region (granRegion g)).epoch, e.writer.code⟩ ∧
      t.out = s.out ++ (e.writes.filter (fun w => w.2)).map (fun w => .narrowDone w.1 (g * 128) none) := by
  intro g
  have heg : e.gran = g := MemState.gran_of_entryOf he
  have hgran := s.mem.gran_flushed e
  have hmeta := s.mem.metaOf_flushed e
  have hnone := s.mem.entryOf_flushed e
  rw [heg] at hgran hmeta hnone
  obtain ⟨x, hx⟩ := State.flushGran_written he hlost h
  refine ⟨{ s with regs := x, mem := s.mem.flushed e, out := s.out ++ e.completions none }, congrArg Host.Outcome.next hx, rfl, hnone, hgran, ?_, ?_⟩
  · exact hmeta.trans (by rw [hgran])
  · rw [MergeEntry.completions, heg]

/-- Accesses that R196 refuses. -/
theorem stackAccess_refused {r : Requester} {gran : BitVec 41} (data : BitVec 1024) (hand : AtHand s r gran.toNat) :
    let g := gran.toNat
    let failed (c : Instr) (kind : Nat) : Prop := ∃ t, exec c s = .next t ∧ t.mem = s.mem ∧ OutMsg.memAnswer r (g * 128) (some kind) 0 ⟨0, 0, 0⟩ ∈ t.out
    (mayRead (s.mem.region (granRegion g)).cls r = false → failed (.stackRead r gran []) 0) ∧
    (mayWrite (s.mem.region (granRegion g)).cls r = false → failed (.stackWrite r gran data (chkOf data)) 0) ∧
    ((s.mem.region (granRegion g)).lost = true → mayRead (s.mem.region (granRegion g)).cls r = true → failed (.stackRead r gran []) 3) ∧
    ((s.mem.region (granRegion g)).lost = true → mayWrite (s.mem.region (granRegion g)).cls r = true → failed (.stackWrite r gran data (chkOf data)) 3) := by
  obtain ⟨hg, hn⟩ := hand
  have hg := Nat.not_le.mpr hg
  have write {kind : Nat} {u : State} (h : s.memWrite r gran.toNat data (chkOf data) = (.err kind, u)) (hu : Keeps .access s u) (hm : u.mem = s.mem) :
      ∃ t, exec (.stackWrite r gran data (chkOf data)) s = .next t ∧ t.mem = s.mem ∧ OutMsg.memAnswer r (gran.toNat * 128) (some kind) 0 ⟨0, 0, 0⟩ ∈ t.out := by
    obtain ⟨t, ht, hmem, -, hout⟩ := exec_stackWrite_err h hu hm
    exact ⟨t, ht, hmem, hout⟩
  refine ⟨fun hc => ?_, fun hc => ?_, fun hl hc => ?_, fun hl hc => ?_⟩
  · exact exec_stackRead_err (u := s) (by simp [State.memRead, hg, hn, hc]) rfl
  · exact write (u := s) (by simp [State.memWrite, hg, hn, hc]) (.refl s) rfl
  · exact exec_stackRead_err (u := s.noteUncorr gran.toNat 3 0xFF) (by simp [State.memRead, hg, hn, hc, hl]) rfl
  · exact write (u := s.noteUncorr gran.toNat 3 0xFF) (by simp [State.memWrite, hg, hn, hc, hl]) (s.keeps_noteUncorr ..) rfl

/-- Settles O39: an admitted access acts through the rule of its operation, and one that R196 refuses is answered with its KIND. -/
theorem stackMemoryAccesses : Obligations.StackMemoryAccesses := by
  unfold Obligations.StackMemoryAccesses
  refine ⟨fun r gran s => stackRead_admitted, fun r gran v k s u h => ?_, fun r gran data s hand hcls hlost => ?_,
    fun r gran mask data s h0 h1 hand hcls hlost => ?_, fun gran s => ?_, fun r gran data s => stackAccess_refused data⟩
  · exact ⟨u.answerMem r gran.toNat (.ok v k), by rw [exec_stackRead_whole, h], rfl, rfl, rfl⟩
  · exact ⟨stackWrite_admitted hand hcls hlost, fun chk => stackWrite_wrongCheck hand hcls hlost⟩
  · exact ⟨narrowWrite_opens h0 h1 hand hcls hlost, fun e => narrowWrite_joins h0 h1 hand hcls hlost⟩
  · exact ⟨fun he => congrArg Host.Outcome.next (State.flushGran_of_none he), fun e => mergeTimeout_writes⟩

end Sys2Proof.Machine
end

section
/-!
Region commands (R198 to R200, R218): what an operation on a run of regions leaves in the entry of each region, and the restore of a FIRMWARE region
(R214), whose granules are good before anything that waited for them is served.
-/

namespace Sys2Proof.Machine

variable {s : State} {m : MemState}

/-! ### Operations on regions -/

/-- A sweep leaves a region's entry as it is, but for what it notes of the sweep (R198). -/
theorem MemState.region_sweepRegion (m : MemState) (r r' : Nat) :
    (m.sweepRegion r).region r' = if r' = r then { m.region r with age := 0, swept := (m.region r).epoch, anew := 0 } else m.region r' := by
  have keep (l : List (Nat × GranMeta)) (m : MemState) :
      (l.foldl (fun (m : MemState) e => { m with gmeta := mapSet m.metaRest m.gmeta e.1 e.2 }) m).region r' = m.region r' := by
    induction l generalizing m with
    | nil => rfl
    | cons e l ih => exact ih _
  unfold MemState.sweepRegion
  extract_lets cur stale kept m1 m2 m3
  exact (keep kept m3).trans (MemState.region_setRegion m1 r r' _)

/-- An increment changes the EPOCH of its region and what the region notes of its sweeps. -/
theorem MemState.region_incEpoch (m : MemState) (r : Nat) :
    (∀ r', r' ≠ r → (m.incEpoch r).region r' = m.region r') ∧ ((m.incEpoch r).region r).epoch = ((m.region r).epoch + 1) % 64 ∧
      ((m.incEpoch r).region r).cls = (m.region r).cls ∧ ((m.incEpoch r).region r).lost = (m.region r).lost := by
  unfold MemState.incEpoch
  extract_lets m1 m2 e
  have h1 (r' : Nat) : m1.region r' = m.region r' := rfl
  have h2 : (∀ r', r' ≠ r → m2.region r' = m.region r') ∧ e.epoch = (m.region r).epoch ∧ e.cls = (m.region r).cls ∧ e.lost = (m.region r).lost := by
    simp only [e, m2]
    split
    · refine ⟨fun r' hr => ?_, ?_⟩
      · rw [MemState.region_sweepRegion, if_neg hr, h1]
      · rw [MemState.region_sweepRegion, if_pos rfl, h1]
        exact ⟨rfl, rfl, rfl⟩
    · exact ⟨fun r' _ => h1 r', by rw [h1]; exact ⟨rfl, rfl, rfl⟩⟩
  obtain ⟨hother, hepoch, hcls, hlost⟩ := h2
  refine ⟨fun r' hr => ?_, ?_⟩
  · rw [MemState.region_setRegion, if_neg hr, hother r' hr]
  · rw [MemState.region_setRegion, if_pos rfl]
    exact ⟨by rw [hepoch], hcls, hlost⟩

/-- What an operation makes of a region's entry (Table 6.13). -/
def RegionApplied (op cls : Nat) (v w : Region) : Prop :=
  (op = 0 → w.epoch = (v.epoch + 1) % 64 ∧ w.cls = v.cls ∧ w.lost = v.lost) ∧ (op = 1 → w = { v with cls := cls }) ∧ (op = 2 → w = { v with lost := true }) ∧
    (op = 3 → w.epoch = (v.epoch + 1) % 64 ∧ w.cls = v.cls ∧ w.lost = false)

/-- An operation applies to its region only. -/
theorem MemState.region_regionOp (m : MemState) {op : Nat} (hop : op ≤ 3) (cls r : Nat) :
    (∀ r', r' ≠ r → (m.regionOp op cls r).region r' = m.region r') ∧ RegionApplied op cls (m.region r) ((m.regionOp op cls r).region r) := by
  unfold RegionApplied
  match op, hop with
  | 0, _ =>
    obtain ⟨hother, happlied⟩ := m.region_incEpoch r
    exact ⟨hother, fun _ => happlied, by simp, by simp, by simp⟩
  | 1, _ =>
    refine ⟨fun r' hr => (MemState.region_setRegion ..).trans (if_neg hr), by simp, fun _ => ?_, by simp, by simp⟩
    exact (MemState.region_setRegion ..).trans (if_pos rfl)
  | 2, _ =>
    refine ⟨fun r' hr => (MemState.region_setRegion ..).trans (if_neg hr), by simp, by simp, fun _ => ?_, by simp⟩
    exact (MemState.region_setRegion ..).trans (if_pos rfl)
  | 3, _ =>
    obtain ⟨hother, hepoch, hcls, hlost⟩ := (m.setRegion r { m.region r with lost := false }).region_incEpoch r
    rw [MemState.region_setRegion, if_pos rfl] at hepoch hcls hlost
    refine ⟨fun r' hr => (hother r' hr).trans ((MemState.region_setRegion ..).trans (if_neg hr)), by simp, by simp, by simp, fun _ => ⟨hepoch, hcls, hlost⟩⟩

/-- Operations on regions leave the commands under way. -/
theorem MemState.regionOps_regionOp (m : MemState) (op cls r : Nat) : (m.regionOp op cls r).regionOps = m.regionOps := by
  have keep (l : List (Nat × GranMeta)) (m : MemState) :
      (l.foldl (fun (m : MemState) e => { m with gmeta := mapSet m.metaRest m.gmeta e.1 e.2 }) m).regionOps = m.regionOps := by
    induction l generalizing m with
    | nil => rfl
    | cons e l ih => exact ih _
  have inc (m : MemState) : (m.incEpoch r).regionOps = m.regionOps := by
    unfold MemState.incEpoch
    extract_lets m1 m2 e
    show m2.regionOps = _
    simp only [m2]
    split
    · exact keep ..
    · rfl
  unfold MemState.regionOp
  split
  · exact inc m
  · rfl
  · rfl
  · exact inc _

/-- An operation on a run of regions applies once to each region of the run, and to no other. -/
theorem MemState.region_regionRun (m : MemState) {op : Nat} (hop : op ≤ 3) (cls first count : Nat) :
    (∀ r, r < first ∨ first + count ≤ r → (m.regionRun op cls first count).region r = m.region r) ∧
      ∀ r, first ≤ r → r < first + count → RegionApplied op cls (m.region r) ((m.regionRun op cls first count).region r) := by
  induction count generalizing m first with
  | zero => exact ⟨fun r _ => rfl, fun r h h' => absurd h' (by omega)⟩
  | succ n ih =>
    obtain ⟨hother, happlied⟩ := m.region_regionOp hop cls first
    obtain ⟨hout, hin⟩ := ih (m.regionOp op cls first) (first + 1)
    have e : m.regionRun op cls first (n + 1) = (m.regionOp op cls first).regionRun op cls (first + 1) n := rfl
    rw [e]
    refine ⟨fun r hr => (hout r (by omega)).trans (hother r (by omega)), fun r h h' => ?_⟩
    by_cases hr : r = first
    · rw [hout r (by omega), hr]
      exact happlied
    · rw [← hother r hr]
      exact hin r (by omega) (by omega)

theorem MemState.regionOps_regionRun (m : MemState) (op cls first count : Nat) : (m.regionRun op cls first count).regionOps = m.regionOps := by
  unfold MemState.regionRun
  induction span first count generalizing m with
  | nil => rfl
  | cons r l ih => exact (ih _).trans (m.regionOps_regionOp op cls r)

/-- Where no sweep falls due of a granule with a wrong symbol, the controllers note nothing but the completion of discarded writes. -/
theorem State.regionNotes_eq (op first count : Nat) (h : ∀ e ∈ s.mem.errs, (s.mem.region (granRegion e.1)).age < 63) :
    ∃ l, s.regionNotes op first count = { s with out := l } := by
  have answers (l : List MergeEntry) (s : State) : ∃ o, l.foldl (fun (s : State) e => s.answerWrites e none) s = { s with out := o } := by
    induction l generalizing s with
    | nil => exact ⟨_, rfl⟩
    | cons e l ih =>
      obtain ⟨o, ho⟩ := ih { s with out := s.out ++ e.completions none }
      refine ⟨o, ?_⟩
      rw [List.foldl_cons, State.answerWrites_eq, ho]
  unfold State.regionNotes
  split
  · exact ⟨_, rfl⟩
  · extract_lets mine u
    obtain ⟨o, ho⟩ := answers ((s.mem.merge.flatMap Prod.snd).filter (fun e => mine e.gran)) s
    have hu : u = { s with out := o } := ho
    have none_due : (u.mem.errs.map Prod.fst).filter (fun g => mine g && decide ((u.mem.region (granRegion g)).age ≥ 63)) = [] := by
      rw [hu]
      refine List.filter_eq_nil_iff.2 (fun g hg => ?_)
      obtain ⟨e, he, rfl⟩ := List.mem_map.1 hg
      have := h e he
      simp [Nat.not_le.2 this]
    rw [none_due]
    exact ⟨o, hu⟩

/-! ### The commands -/

/-- A legal command to a register that has none under way is taken (R218). -/
theorem State.regionWrite_taken {d op first count : Nat} (cls : Nat) (hd : s.dieUp d = true) (hb : s.regionBusy d = false) (h0 : count ≠ 0)
    (hrun : first + count ≤ nRegions) (hop : op ≤ 3) (hlive : op = 1 → s.anyLive = false) :
    s.regionWrite d op first count cls = s.regionStart (.register d) op first count cls := by
  have hbad : s.regionBad op first count = false := by
    have h1 : (op == 1 && s.anyLive) = false := by
      by_cases h : op = 1
      · simp [hlive h]
      · simp [h]
    simp [State.regionBad, h0, h1, Nat.not_lt.2 hrun, Nat.not_lt.2 hop]
  rw [State.regionWrite, if_neg (by simp [hd]), if_neg (by simp [hb, hbad])]

/-- The completion of a register's command applies it. -/
theorem exec_regionCmdComplete_register {o : RegionOp} {d : Nat} (ho : s.mem.regionOps = [o]) (hsrc : o.src = .register d) :
    exec (.regionCmdComplete 0) s = .next (State.regionRun { s with mem := { s.mem with regionOps := [] } } o.op o.cls o.first o.count) := by
  show execRegionCmdComplete 0 s = _
  simp only [execRegionCmdComplete, ho, List.getElem?_cons_zero, hsrc]
  rfl

/-- What the completion of a register's command leaves. -/
theorem regionCmdComplete_applies {o : RegionOp} {d : Nat} (ho : s.mem.regionOps = [o]) (hsrc : o.src = .register d) (hop : o.op ≤ 3)
    (hage : ∀ e ∈ s.mem.errs, (s.mem.region (granRegion e.1)).age < 63) :
    ∃ t, exec (.regionCmdComplete 0) s = .next t ∧ t.cores = s.cores ∧ t.regs = s.regs ∧ t.mem.regionOps = [] ∧
      (∀ r, r < o.first ∨ o.first + o.count ≤ r → t.mem.region r = s.mem.region r) ∧
      ∀ r, o.first ≤ r → r < o.first + o.count → RegionApplied o.op o.cls (s.mem.region r) (t.mem.region r) := by
  let u : State := { s with mem := { s.mem with regionOps := [] } }
  obtain ⟨l, hnotes⟩ := State.regionNotes_eq (s := u) o.op o.first o.count hage
  have hrun : u.regionRun o.op o.cls o.first o.count = { u with mem := u.mem.regionRun o.op o.cls o.first o.count, out := l } := by
    rw [State.regionRun, hnotes]
  refine ⟨_, exec_regionCmdComplete_register ho hsrc, ?_⟩
  rw [hrun]
  exact ⟨rfl, rfl, u.mem.regionOps_regionRun .., u.mem.region_regionRun hop o.cls o.first o.count⟩

/-! ### The restore of a FIRMWARE region -/

/-- The job stays under a record whose class has no effect of its own. -/
theorem State.job_raise {i : ErrInfo} (s : State) (d : Nat) (h : ∀ (u : State) hd cause, u.classEffect hd cause i.cls = u) : (s.raise d i).job = s.job := by
  unfold State.raise
  dsimp only
  split
  · split <;> rfl
  · unfold State.fileRec
    dsimp only
    rw [h]
    split <;> split <;> rfl

theorem Keeps.flash {t : State} (h : Keeps .record s t) : t.flash = s.flash := by
  rw [h.rest]
  rfl

theorem State.job_accessFailed (s : State) (q : Requester) (g kind : Nat) : (s.accessFailed q g kind).job = s.job := by
  unfold State.accessFailed
  split
  · split
    · exact s.job_raise _ (fun _ _ _ => rfl)
    · rfl
  · dsimp only
    split
    · rfl
    · exact s.job_raise _ (fun _ _ _ => rfl)

theorem State.job_failWrites (s : State) (l : List (Requester × Bool)) (g kind : Nat) : (s.failWrites l g kind).job = s.job := by
  unfold State.failWrites
  induction l generalizing s with
  | nil => rfl
  | cons q l ih => exact (ih _).trans (s.job_accessFailed ..)

/-- Memory `m'` has the regions of `m` and the granules that wait in it, and every granule of region `r` good. -/
structure RegionServes (r : Nat) (m m' : MemState) : Prop where
  regions : ∀ j, m'.region j = m.region j
  restoring : m'.restoring = m.restoring
  good : ∀ g, granRegion g = r → GoodGran m' g

namespace RegionServes

variable {r : Nat} {m m' : MemState}

/-- Storing a granule with its block check keeps them good, if a granule of the region is stored with the region's epoch. -/
theorem put (h : RegionServes r m m') (g w : Nat) (v : GranBits) {k : Nat} (hk : granRegion g = r → k = (m'.region r).epoch) :
    RegionServes r m (m'.put g v ⟨chkOf v, k, w⟩) where
  regions j := (MemState.region_put ..).trans (h.regions j)
  restoring := by
    rw [← h.restoring]
    unfold MemState.put
    generalize leBytes v.toNat 128 = l
    rfl
  good j hj := by
    rw [GoodGran, MemState.errsOf_put, MemState.metaOf_put, MemState.region_put]
    by_cases hg : j = g
    · subst hg
      rw [MemState.gran_put, if_pos rfl, if_pos rfl, hj]
      exact ⟨rfl, hk hj, rfl⟩
    · rw [MemState.gran_put_other _ hg, if_neg hg, if_neg hg]
      exact h.good j hj

theorem dropEntry (h : RegionServes r m m') (g : Nat) : RegionServes r m (m'.dropEntry g) := ⟨h.regions, h.restoring, h.good⟩

theorem flushed (h : RegionServes r m m') (e : MergeEntry) : RegionServes r m (m'.flushed e) := (h.dropEntry e.gran).put _ _ _ (fun hr => by rw [hr]; rfl)

theorem restoreAll (w : Nat) : ∀ (n i : Nat) (bs : List Byte) {m' : MemState}, RegionServes r m m' → RegionServes r m (m'.restoreAll w r n i bs)
  | 0, _, _, _, h => h
  | n + 1, i, bs, m', h => by
    unfold MemState.restoreAll
    split
    · exact h
    · exact restoreAll w n (i + 1) _ (h.put _ _ _ (fun _ => rfl))

end RegionServes

/-- Memory in which a region's granules read as zeros of its epoch. -/
def MemState.emptied (m : MemState) (r : Nat) : MemState :=
  let mine (g : Nat) : Bool := granRegion g == r
  let m1 := { m with data := mapDrop (fun a => mine (a / 128)) m.data, gmeta := mapDrop mine m.gmeta, errs := mapDrop mine m.errs }
  m1.setRegion r { m1.region r with swept := (m1.region r).epoch, anew := 0 }

theorem MemState.restoreRegion_eq (m : MemState) (w r : Nat) (image : List Byte) : m.restoreRegion w r image = (m.emptied r).restoreAll w r 131072 0 image := by
  unfold MemState.restoreRegion MemState.emptied
  rfl

theorem MemState.region_emptied (m : MemState) (r j : Nat) :
    (m.emptied r).region j = if j = r then { m.region r with swept := (m.region r).epoch, anew := 0 } else m.region j := MemState.region_setRegion ..

theorem MemState.gran_emptied (m : MemState) {r g : Nat} (h : granRegion g = r) : (m.emptied r).gran g = 0 := by
  have hl : (span (128 * g) 128).map (mapGet (fun _ => (0 : Byte)) (m.emptied r).data) = (span (128 * g) 128).map (mapGet (fun _ => (0 : Byte)) []) := by
    refine List.map_congr_left (fun a ha => ?_)
    have ha := mem_span.1 ha
    have hd : (m.emptied r).data = mapDrop (fun a => granRegion (a / 128) == r) m.data := rfl
    rw [hd, mapGet_mapDrop, show a / 128 = g by omega, if_pos (beq_iff_eq.2 h)]
    rfl
  rw [MemState.gran, hl]
  exact gran_reset g

theorem MemState.metaOf_emptied (m : MemState) {r g : Nat} (h : granRegion g = r) : (m.emptied r).metaOf g = .swept (m.region r).epoch := by
  have hd : (m.emptied r).gmeta = mapDrop (fun g => granRegion g == r) m.gmeta := rfl
  rw [MemState.metaOf, hd, mapGet_mapDrop, if_pos (beq_iff_eq.2 h), MemState.metaRest, h, MemState.region_emptied, if_pos rfl]
  dsimp only
  rw [if_neg (by simp [natBits])]

/-- A region that has been rewritten from its copy serves what waited for it. -/
theorem MemState.restoreRegion_serves (m : MemState) (w r : Nat) (image : List Byte) : RegionServes r (m.emptied r) (m.restoreRegion w r image) := by
  rw [MemState.restoreRegion_eq]
  refine RegionServes.restoreAll w _ _ _ ⟨fun _ => rfl, rfl, fun g hg => ⟨?_, ?_, ?_⟩⟩
  · have hd : (m.emptied r).errs = mapDrop (fun g => granRegion g == r) m.errs := rfl
    rw [MemState.errsOf, hd, mapGet_mapDrop, if_pos (beq_iff_eq.2 hg)]
  · rw [MemState.metaOf_emptied m hg, hg, MemState.region_emptied, if_pos rfl]
    rfl
  · rw [MemState.metaOf_emptied m hg, MemState.gran_emptied m hg]
    exact chkOf_zero

/-- Writing out an entry of a region that serves leaves the job, the flash and the cores, and the region serves on. -/
theorem State.flushGran_serves {r g : Nat} (h : RegionServes r m s.mem) (hg : granRegion g = r) :
    RegionServes r m (s.flushGran g).mem ∧ (s.flushGran g).cores = s.cores ∧ (s.flushGran g).job = s.job ∧ (s.flushGran g).flash = s.flash := by
  cases he : s.mem.entryOf g with
  | none =>
    rw [State.flushGran_of_none he]
    exact ⟨h, rfl, rfl, rfl⟩
  | some e =>
    obtain rfl := MemState.gran_of_entryOf he
    cases hlost : (s.mem.region (granRegion e.gran)).lost with
    | false =>
      obtain ⟨x, hx⟩ := State.flushGran_written he hlost (.inr (h.good _ hg))
      rw [hx]
      exact ⟨h.flushed e, rfl, rfl, rfl⟩
    | true =>
      obtain ⟨x, hx⟩ := State.flushEntry_lost hlost
      have hf : s.flushGran e.gran =
          State.failWrites { s with regs := x, mem := s.mem.dropEntry e.gran, out := s.out ++ e.completions (some 3) } e.writes e.gran 3 := by
        rw [State.flushGran, he]
        dsimp only
        rw [hx]
      rw [hf]
      have hk := State.keeps_failWrites { s with regs := x, mem := s.mem.dropEntry e.gran, out := s.out ++ e.completions (some 3) } e.writes e.gran 3
      exact ⟨by rw [hk.mem]; exact h.dropEntry _, hk.cores, State.job_failWrites .., hk.flash⟩

/-- So does serving everything that waited for it, where no read waits. -/
theorem State.restoreServe_serves {r : Nat} (h : RegionServes r m s.mem) :
    RegionServes r m (s.restoreServe r []).mem ∧ (s.restoreServe r []).cores = s.cores ∧ (s.restoreServe r []).job = s.job ∧
      (s.restoreServe r []).flash = s.flash := by
  have fold (l : List MergeEntry) (hl : ∀ e ∈ l, granRegion e.gran = r) : ∀ {s : State}, RegionServes r m s.mem →
      let t := l.foldl (fun (s : State) e => s.flushGran e.gran) s
      RegionServes r m t.mem ∧ t.cores = s.cores ∧ t.job = s.job ∧ t.flash = s.flash := by
    induction l with
    | nil => exact fun h => ⟨h, rfl, rfl, rfl⟩
    | cons e l ih =>
      intro s h
      obtain ⟨h1, hc1, hj1, hf1⟩ := State.flushGran_serves h (hl e (by simp))
      obtain ⟨h2, hc2, hj2, hf2⟩ := ih (fun x hx => hl x (by simp [hx])) h1
      exact ⟨h2, hc2.trans hc1, hj2.trans hj1, hf2.trans hf1⟩
  exact fold _ (fun e he => by simpa using (List.mem_filter.1 he).2) h

/-- The restore of a region of which a granule waits, from a verified copy, while no read waits. -/
theorem firmwareRegionRestore_verified {region : BitVec 16} (image : List Byte) (hany : s.mem.restoring.any (fun g => granRegion g == region.toNat) = true)
    (hwait : s.mem.waiters = []) (hop : s.flash.ops.head? = some (.restore region.toNat)) :
    ∃ t, exec (.firmwareRegionRestore region image true) s = .next t ∧ t.cores = s.cores ∧ t.job = s.job ∧
      t.flash = { s.flash with ops := s.flash.ops.drop 1 } ∧ (∀ g ∈ t.mem.restoring, granRegion g ≠ region.toNat) ∧
      ∀ r, (t.mem.region r).cls = (s.mem.region r).cls ∧ (t.mem.region r).lost = (s.mem.region r).lost := by
  let m : MemState := { s.mem with restoring := s.mem.restoring.filter (fun g => !(granRegion g == region.toNat)), waiters := [] }
  let u : State := { s with flash := { s.flash with ops := s.flash.ops.drop 1 }, mem := m.restoreRegion (0x50 + s.lead) region.toNat image }
  let i : ErrInfo := ⟨.corrected, 0x0013, 0x0A, s.lead, region.toNat * 0x1000000, 0, 0, 0⟩
  have hk := u.keeps_raise s.lead i
  have hserves : RegionServes region.toNat (m.emptied region.toNat) (u.raise s.lead i).mem := by
    rw [hk.mem]
    exact m.restoreRegion_serves ..
  obtain ⟨hmem, hcores, hjob, hflash⟩ := State.restoreServe_serves hserves
  refine ⟨(u.raise s.lead i).restoreServe region.toNat [], ?_, hcores.trans hk.cores, hjob.trans (u.job_raise _ (fun _ _ _ => rfl)), hflash.trans hk.flash,
    fun g hg => ?_, fun r => ?_⟩
  · show execFirmwareRegionRestore region image true s = _
    unfold execFirmwareRegionRestore
    simp only [hany, hop, hwait, List.filter_nil, Bool.not_true, bne_self_eq_false, Bool.or_self, Bool.false_eq_true, if_false, if_true]
    rfl
  · rw [hmem.restoring] at hg
    have hg : g ∈ s.mem.restoring.filter (fun g => !(granRegion g == region.toNat)) := hg
    simpa using (List.mem_filter.1 hg).2
  · rw [hmem.regions, MemState.region_emptied]
    split
    · next hr =>
      subst hr
      exact ⟨rfl, rfl⟩
    · exact ⟨rfl, rfl⟩

/-- Settles O41: a legal command is taken, its completion applies it to each region of its run, and a verified restore ends the wait. -/
theorem regionCommandsApply : Obligations.RegionCommandsApply := by
  unfold Obligations.RegionCommandsApply
  refine ⟨fun d region count cls s hd hb h0 hrun => ?_, fun o d s ho hsrc hop _ _ hage => regionCmdComplete_applies ho hsrc hop hage,
    fun region image s hany hwait hop => firmwareRegionRestore_verified image hany hwait hop⟩
  have h0 : count.toNat ≠ 0 := fun h => h0 (BitVec.eq_of_toNat_eq h)
  have taken {op : Nat} (k : Nat) (hop : op ≤ 3) (hlive : op = 1 → s.anyLive = false) := State.regionWrite_taken k hd hb h0 hrun hop hlive
  refine ⟨?_, fun hlive => ?_, ?_, ?_⟩
  · exact ⟨_, congrArg Host.Outcome.next (taken 0 (op := 0) (by decide) nofun), rfl, rfl, rfl⟩
  · exact ⟨_, congrArg Host.Outcome.next (taken cls.toNat (op := 1) (by decide) (fun _ => hlive)), rfl, rfl, rfl⟩
  · exact ⟨_, congrArg Host.Outcome.next (taken 0 (op := 2) (by decide) nofun), rfl, rfl, rfl⟩
  · exact ⟨_, congrArg Host.Outcome.next (taken 0 (op := 3) (by decide) nofun), rfl, rfl, rfl⟩

end Sys2Proof.Machine
end

section
/-!
The data mover's words (R201 to R205): what each does as it issues, with what a local word holds for its completion, and what its completion moves.
-/

namespace Sys2Proof.Machine

variable {s : State} {lc : Fin 64} {st : Stream} {tok : BitVec 16} {ops : BitVec 96} {pc : Nat} {e : QEntry} {r : List QEntry}

/-! ### The package's identity under counts and records -/

theorem State.pkgReg_of_regs {s t : State} (h : t.regs = s.regs) : t.reg common oPkgId = s.reg common oPkgId := by rw [State.reg, h, State.reg]

/-- Registers but PKG_ID of the common space leave the package's identity. -/
theorem State.pkgReg_setReg {s : State} (d off : Nat) (v : BitVec 64) (h : off < 0x1000000 ∧ off ≠ oPkgId) :
    (s.setReg d off v).reg common oPkgId = s.reg common oPkgId := by
  refine s.reg_setReg_other v ?_
  obtain ⟨h, hne⟩ := h
  unfold regKey oPkgId at *
  omega

theorem State.pkgReg_bump {s : State} (d : Nat) (f : Fld) (k : Nat) (h : f.off < 0x1000000 ∧ f.off ≠ oPkgId) :
    (s.bump d f k).reg common oPkgId = s.reg common oPkgId := State.pkgReg_setReg _ _ _ h

theorem State.pkgReg_coreBump (s : State) (pc : Nat) (f : Fld) (k : Nat) (h : 0x100 ≤ f.off ∧ f.off < 0x800000) :
    (s.coreBump pc f k).reg common oPkgId = s.reg common oPkgId := by
  unfold State.coreBump
  split
  · rfl
  · refine State.pkgReg_bump _ _ _ ?_
    have := Nat.mod_lt pc (show 0 < 18 by decide)
    simp only [coreF, Fld.at, oPkgId]
    omega

/-- Handling a record whose class has no effect of its own leaves it. -/
theorem State.pkgReg_fileRec (s : State) (d : Nat) (x : ErrRec) {cls : ErrClass} (h : ∀ (u : State) hd cause, u.classEffect hd cause cls = u) :
    (s.fileRec d x cls).reg common oPkgId = s.reg common oPkgId := by
  have hcode : cls.code ≤ 5 := by cases cls <;> decide
  unfold State.fileRec
  extract_lets b s1 s2 s3 s4 s5
  have h1 : s1.reg common oPkgId = s.reg common oPkgId := State.pkgReg_setReg _ _ _ (by decide)
  have h2 : s2.reg common oPkgId = s1.reg common oPkgId := State.pkgReg_bump _ _ _ (by simp only [Fld.at, fErrCntCount, oPkgId]; omega)
  have h3 : s3.reg common oPkgId = s2.reg common oPkgId := State.pkgReg_of_regs (s2.regs_modDie ..)
  have h4 : s4.reg common oPkgId = s3.reg common oPkgId := by
    simp only [s4]
    split
    · exact State.pkgReg_bump _ _ _ (by decide)
    · rfl
  have h5 : s5.reg common oPkgId = s4.reg common oPkgId := by
    refine State.pkgReg_of_regs ?_
    simp only [s5]
    split <;> rfl
  rw [h, h5, h4, h3, h2, h1]

/-- So does raising one. -/
theorem State.pkgReg_raise {i : ErrInfo} (s : State) (d : Nat) (h : ∀ (u : State) hd cause, u.classEffect hd cause i.cls = u) :
    (s.raise d i).reg common oPkgId = s.reg common oPkgId := by
  unfold State.raise
  dsimp only
  split
  · refine State.pkgReg_of_regs ?_
    split <;> rfl
  · exact s.pkgReg_fileRec _ _ h

/-- Where an address leads depends on the package's identity. -/
theorem State.resolve_of_pkgReg {s t : State} (h : t.reg common oPkgId = s.reg common oPkgId) (g : Nat) : t.resolve g = s.resolve g := by
  have hid : t.idValid = s.idValid := by
    unfold State.idValid State.flag State.getF
    rw [show fPkgIdIdValid.off = oPkgId from rfl, h]
  have hpk : t.pkgId = s.pkgId := by
    unfold State.pkgId State.getF
    rw [show fPkgIdId.off = oPkgId from rfl, h]
  simp only [State.resolve, hid, hpk]

theorem State.resolve_noteSpad (s : State) (pc lc : Nat) (corrs : List (Nat × Nat)) (nbad g : Nat) : (s.noteSpad pc lc corrs nbad).resolve g = s.resolve g := by
  refine State.resolve_of_pkgReg ?_ g
  unfold State.noteSpad
  extract_lets s1 s2
  have h2 : s2.reg common oPkgId = s.reg common oPkgId := (State.pkgReg_coreBump _ _ _ _ (by decide)).trans (State.pkgReg_coreBump _ _ _ _ (by decide))
  split
  · exact h2
  · split
    · exact (State.pkgReg_raise _ _ (fun _ _ _ => rfl)).trans h2
    · exact h2

/-! ### Issue -/

/-- What a data mover word that issues leaves, of the state `u` its effect leaves. -/
theorem dmWord_issued {i : Instr} {opc : Nat} {check : State → Nat → QEntry → Option Refuse} {act : State → Nat → QEntry → Except (Refuse × State) State} {u : State}
    (hi : exec i s = .next (s.engineWord lc st .issue .dm opc tok ops check act)) (h : IssuesNext lc st .dm (mkWord Engine.dm.code opc tok ops) pc e r s)
    (hc : check s pc e = none) (ha : act (s.setCore pc ((s.core pc).issueHead .dm st e r)) pc e = .ok u) :
    ∃ t, exec i s = .next t ∧ t.mem = u.mem ∧ t.core pc = u.core pc :=
  ⟨_, hi, by rw [State.engineWord, State.issueWord_of_issuesNext h hc ha, State.mem_countIssue],
    by rw [State.engineWord, State.issueWord_of_issuesNext h hc ha, State.core_countIssue]⟩

/-- A LOAD of stack memory of this package is in flight. -/
theorem dmLoad_issues {a : Nat} (h : IssuesNext lc st .dm (mkWord 3 0x001 tok ops) pc e r s) (hc : dmCheck st (fun c => mayRead c (.core lc)) s pc e = none)
    (hres : s.resolve (dmAddr e) = .loc a) : ∃ t, exec (.dmLoad lc st .issue tok ops) s = .next t ∧ t.mem = s.mem ∧ t.core pc = issuedCore (s.core pc) .dm st e r := by
  let u := s.setCore pc ((s.core pc).issueHead .dm st e r)
  have hu : u.resolve (dmAddr e) = .loc a := hres
  obtain ⟨t, ht, hm, hcore⟩ := dmWord_issued (u := u) (i := .dmLoad lc st .issue tok ops) rfl h hc (by dsimp only; rw [hu])
  exact ⟨t, ht, hm, hcore.trans (s.core_setCore_same ..)⟩

theorem spadGrans_of_checks {c c' : Core} (h : spadChkOf pc c' = spadChkOf pc c) (l : List SpadBits) (w : Nat) : spadGrans pc c' w l = spadGrans pc c w l := by
  induction l using List.twoStepInduction generalizing w with
  | nil => rfl
  | singleton => rfl
  | cons_cons lo hi l ih _ => rw [spadGrans, spadGrans, h, ih]

theorem spadGrans_issueHead (c : Core) (l : List SpadBits) (w : Nat) : spadGrans pc (c.issueHead .dm st e r) w l = spadGrans pc c w l :=
  spadGrans_of_checks (by rw [Core.issueHead_eq]; rfl) l w

/-- What the word issued last holds is changed for it alone. -/
theorem Core.inflight_mapLast {c : Core} {l : List InFlight} {x : InFlight} (h : c.inflight = l ++ [x]) (f : InFlight → InFlight) :
    c.mapLast f = { c with inflight := l ++ [f x] } := by
  simp [Core.mapLast, h]

/-- A STORE to stack memory of this package is in flight with the granules it read and their block checks. -/
theorem dmStore_issues {a : Nat} (h : IssuesNext lc st .dm (mkWord 3 0x002 tok ops) pc e r s) (hc : dmCheck st (fun c => mayWrite c (.core lc)) s pc e = none)
    (hres : s.resolve (dmAddr e) = .loc a) (hbad : (spadReads pc (s.core pc) (span (spaAddr e 0) (2 * dmNgr e))).bad = none) :
    ∃ t, exec (.dmStore lc st .issue tok ops) s = .next t ∧ t.mem = s.mem ∧ (t.core pc).queue .dm st = r ∧ (t.core pc).spad = (s.core pc).spad ∧
      ∃ f, (t.core pc).inflight = (s.core pc).inflight ++ [f] ∧ f.ent = e ∧
        f.dm.data = spadGrans pc (s.core pc) (spaAddr e 0) (spadReads pc (s.core pc) (span (spaAddr e 0) (2 * dmNgr e))).vals := by
  let ws := span (spaAddr e 0) (2 * dmNgr e)
  let rd := spadReads pc (s.core pc) ws
  let k := (s.core pc).issueHead .dm st e r
  let n := (s.setCore pc k).noteSpad pc lc rd.corrs 0
  let m := if chkCorrs k ws = 0 then n else n.coreBump pc fSpadCorrCntCount (chkCorrs k ws)
  obtain ⟨hnm, at_, hnc⟩ := (s.setCore pc k).noteSpad_changes pc lc rd.corrs 0
  have hregs : RegsOnly n m := .ite (.refl n) (n.coreBump_regsOnly ..)
  have hmres : m.resolve (dmAddr e) = .loc a := by
    have hm : m.resolve (dmAddr e) = n.resolve (dmAddr e) := by
      simp only [m]
      split
      · rfl
      · exact State.resolve_of_pkgReg (State.pkgReg_coreBump _ _ _ _ (by decide)) _
    exact hm.trans (((s.setCore pc k).resolve_noteSpad ..).trans hres)
  have hmc : m.core pc = { k with recAt := at_ } := by
    rw [State.core, hregs.cores]
    exact hnc.trans (by rw [State.core_setCore_same])
  have hrd : spadReads pc k ws = rd := spadReads_issueHead ..
  obtain ⟨f, hf, hent⟩ := (s.core pc).inflight_issueHead (eng := .dm) (st := st) (e := e) (r := r)
  let x : DmXfer := ⟨spadGrans pc (s.core pc) (spaAddr e 0) rd.vals, 0, none⟩
  have hu : (m.setDm pc x).core pc = { k with recAt := at_, inflight := (s.core pc).inflight ++ [{ f with dm := x }] } := by
    rw [State.setDm, State.core_modCore_same, hmc]
    exact Core.inflight_mapLast (c := { k with recAt := at_ }) hf _
  obtain ⟨t, ht, htm, htc⟩ := dmWord_issued (u := m.setDm pc x) (i := .dmStore lc st .issue tok ops) rfl h hc (by
    dsimp only
    rw [State.core_setCore_same, hrd, show rd.bad = none from hbad]
    dsimp only
    split
    · next hremote => exact absurd (hmres.symm.trans hremote) nofun
    · exact congrArg (fun l => Except.ok (m.setDm pc ⟨l, 0, none⟩)) (spadGrans_issueHead ..))
  rw [hu] at htc
  refine ⟨t, ht, htm.trans (hregs.mem.trans hnm), ?_, ?_, { f with dm := x }, ?_, hent, rfl⟩ <;> rw [htc]
  · exact Core.queue_issueHead (s.core pc)
  · exact Core.spad_issueHead ..

/-- A FILL has written its pattern (R203). -/
theorem dmFill_issues (h : IssuesNext lc st .dm (mkWord 3 0x003 tok ops) pc e r s) (hres : spaReserved e 0 = 0) (hmod : opf e 48 16 = 0)
    (ha : spaAddr e 0 % 2 = 0) (hn : opf e 24 24 % 2 = 0) (hlo : 2 ≤ opf e 24 24) (hhi : opf e 24 24 ≤ 196608) (hdefr : st = .defr → opf e 24 24 ≤ 1024)
    (hspan : s.spanFault pc (spaAddr e 0) (opf e 24 24) = none) :
    ∃ t, exec (.dmFill lc st .issue tok ops) s = .next t ∧ t.mem = s.mem ∧
      t.core pc = spadWrite pc (issuedCore (s.core pc) .dm st e r) ((span (spaAddr e 0) (opf e 24 24)).map (fun w => (w, fillWord e))) := by
  have hlong : (st == .defr && decide (opf e 24 24 > 1024)) = false := by
    cases st with
    | crit => rfl
    | defr => simpa using hdefr rfl
  obtain ⟨t, ht, hm, hc⟩ := dmWord_issued (u := (s.setCore pc ((s.core pc).issueHead .dm st e r)).modCore pc (fun c =>
      spadWrite pc c ((span (spaAddr e 0) (opf e 24 24)).map (fun w => (w, fillWord e))))) (i := .dmFill lc st .issue tok ops) rfl h
    (by simp [hres, hmod, ha, hn, hlo, hhi, hspan, hlong]) rfl
  refine ⟨t, ht, hm, ?_⟩
  rw [hc, State.core_modCore_same, State.core_setCore_same]
  rfl

/-- An RCLEAR has given its command to the controllers (R204). -/
theorem dmRclear_issues (h : IssuesNext lc st .dm (mkWord 3 0x004 tok ops) pc e r s) (hres : opf e 32 64 = 0) (hn : opf e 16 16 ≠ 0)
    (hrun : opf e 0 16 + opf e 16 16 ≤ nRegions)
    (huser : ∀ i, opf e 0 16 ≤ i → i < opf e 0 16 + opf e 16 16 → (s.mem.region i).cls = 0 ∧ (s.mem.region i).lost = false) :
    ∃ t, exec (.dmRclear lc st .issue tok ops) s = .next t ∧ t.core pc = issuedCore (s.core pc) .dm st e r ∧
      t.mem = { s.mem with regionOps := s.mem.regionOps ++ [⟨.word lc st, 0, opf e 0 16, opf e 16 16, 0⟩] } := by
  have hfind : (span (opf e 0 16) (opf e 16 16)).find? (fun i => (s.mem.region i).cls != 0 || (s.mem.region i).lost) = none := by
    refine List.find?_eq_none.2 (fun i hi => ?_)
    obtain ⟨hlo, hhi⟩ := mem_span.1 hi
    obtain ⟨hcls, hlost⟩ := huser i hlo hhi
    simp [hcls, hlost]
  obtain ⟨t, ht, hm, hc⟩ := dmWord_issued (i := .dmRclear lc st .issue tok ops) rfl h (by simp [hres, beq_eq_false_iff_ne.2 hn, hfind, Nat.not_lt.2 hrun]) rfl
  exact ⟨t, ht, hc.trans (s.core_setCore_same ..), hm⟩

/-! ### Completion -/

/-- A word whose completion moves everything completes. -/
theorem State.dmComplete_moved {opc i : Nat} {f : InFlight} {k : State → Nat → InFlight → Option Nat × State} {u : State} (hp : s.physOf lc = some pc)
    (hf : (s.core pc).oldest .dm st = some (i, f)) (hw : f.dm.waiting = 0) (hopc : opcodeOf f.ent.word = opc) (hk : k s pc f = (none, u)) :
    s.dmComplete lc st opc k = u.complete pc lc i f := by
  simp [State.dmComplete, hp, hf, hw, hopc, hk]

/-- What it leaves, where its signal fits: memory and the scratchpad as moved, without the word. -/
theorem dmComplete_leaves {x : Instr} {opc i : Nat} {f : InFlight} {k : State → Nat → InFlight → Option Nat × State} {u : State}
    (hx : exec x s = .next (s.dmComplete lc st opc k)) (hp : s.physOf lc = some pc) (hf : (s.core pc).oldest .dm st = some (i, f)) (hw : f.dm.waiting = 0)
    (hroom : (toksOf f.ent.word).smode ≠ 0 → (s.core pc).token (toksOf f.ent.word).stok < 65535) (hopc : opcodeOf f.ent.word = opc)
    (hk : k s pc f = (none, u)) (hu : SpadOnly (s.core pc) (u.core pc)) :
    ∃ t, exec x s = .next t ∧ t.mem = u.mem ∧ (t.core pc).spad = (u.core pc).spad ∧ (t.core pc).inflight = ((s.core pc).landed i).inflight := by
  obtain ⟨hm, ts, hc⟩ := State.complete_of_fits (s := u) (pc := pc) (i := i) (f := f) lc (fun h0 => by
    rw [hu.token]
    exact hroom h0)
  refine ⟨u.complete pc lc i f, by rw [hx, State.dmComplete_moved hp hf hw hopc hk], hm, ?_, ?_⟩ <;> rw [hc]
  · rfl
  · simp only [Core.landed, hu.inflight]

/-- Copying granules into a scratchpad writes that scratchpad only. -/
theorem loadLocal_spadOnly (pc lc n : Nat) : ∀ (a w : Nat) (s : State), SpadOnly (s.core pc) ((State.loadLocal pc lc n a w s).2.core pc) := by
  induction n with
  | zero => exact fun _ _ s => .refl _
  | succ n ih =>
    intro a w s
    have hread : (s.memRead (.core lc) (a / 128)).2.core pc = s.core pc := (s.keeps_memRead ..).core pc
    unfold State.loadLocal
    split
    · next v k u hu =>
      rw [hu] at hread
      refine SpadOnly.trans ?_ (ih ..)
      rw [State.core_modCore_same, hread]
      exact .spadPutGran ..
    · next u _ hu =>
      rw [hu] at hread
      exact hread ▸ ih ..

theorem State.keeps_memWrite (s : State) (q : Requester) (g : Nat) (v : GranBits) (chk : BitVec 16) : Keeps .access s (s.memWrite q g v chk).2 := by
  have hdrop : Keeps .access s (s.dropMerge g) := by
    unfold State.dropMerge
    split
    · exact .refl s
    · exact (s.keeps_mem _).trans (State.keeps_answerWrites ..)
  exact .ite_snd (.refl s) (.ite_snd (.refl s) (.ite_snd (.refl s) (.ite_snd (s.keeps_noteUncorr ..) (.ite_snd (s.keeps_noteUncorr ..)
    (hdrop.trans (State.keeps_mem ..))))))

/-- Writing granules to stack memory leaves the cores. -/
theorem State.keeps_storeLocal (lc : Nat) (l : List DGran) : ∀ (a : Nat) (s : State), Keeps .access s (State.storeLocal lc l a s).2 := by
  induction l with
  | nil => exact fun _ s => .refl s
  | cons x l ih =>
    intro a s
    have hw := s.keeps_memWrite (.core lc) (a / 128) x.v x.chk
    unfold State.storeLocal
    split <;> rename_i hu <;> rw [hu] at hw <;> exact hw.trans (ih ..)

/-- Settles O34: a word that passes its checks issues with its effect, and its completion moves what is left and takes it out of flight. -/
theorem dataMoverWordsIssueAndComplete : Obligations.DataMoverWordsIssueAndComplete := by
  unfold Obligations.DataMoverWordsIssueAndComplete
  refine ⟨fun lc st tok ops pc a e r s => ⟨dmLoad_issues, dmStore_issues, dmFill_issues, dmRclear_issues⟩,
    fun lc st pc a i f s u hp hf hw hroom => ⟨fun hopc hres hload => ?load, fun hopc hres hstore => ?store, fun hopc => ?fill⟩⟩
  case load =>
    have hu : SpadOnly (s.core pc) (u.core pc) := by
      have h := loadLocal_spadOnly pc lc (dmNgr f.ent) a (spaAddr f.ent 0) s
      rwa [hload] at h
    obtain ⟨t, ht, -, hspad, hfl⟩ := dmComplete_leaves (x := .dmLoadComplete lc st) rfl hp hf hw hroom hopc (by simp only [hres, hload]; rfl) hu
    exact ⟨t, ht, hspad, hfl⟩
  case store =>
    have hc : u.core pc = s.core pc := by
      have h := State.keeps_storeLocal lc f.dm.data a s
      rw [hstore] at h
      exact h.core pc
    obtain ⟨t, ht, hm, hspad, hfl⟩ := dmComplete_leaves (x := .dmStoreComplete lc st) rfl hp hf hw hroom hopc (by simp only [hres, hstore]; rfl)
      (by rw [hc]; exact .refl _)
    exact ⟨t, ht, hm, hc ▸ hspad, hfl⟩
  case fill =>
    exact dmComplete_leaves (x := .dmFillComplete lc st) rfl hp hf hw hroom hopc rfl (.refl _)

end Sys2Proof.Machine
end

section
/-! A hit of a cached queue and the change of its state (R241, R244), a placement into a flow (R243), and an operation that reaches a Beryl unit (R221). -/

namespace Sys2Proof.Machine

variable {s t u : State}

/-- What does not look at registers stands where only registers differ. -/
theorem RegsOnly.proj {α : Type} (h : RegsOnly s t) (f : State → α) (hf : ∀ (x : State) r, f { x with regs := r } = f x := by intros; rfl) : f t = f s :=
  (congrArg f h).trans (hf s t.regs)

/-! ### Hits -/

theorem State.qe_setQe (s : State) (d d' : Nat) (q : QEngine) : (s.setQe d q).qe d' = if d' = d then q else s.qe d' := mapGet_mapSet ..

theorem QEngine.line_putLine (q : QEngine) (i j : Nat) (v : BitVec 256) (dirty : Bool) :
    (q.putLine i v dirty).line j = if j = i then some ⟨v, dirty, q.uses⟩ else q.line j := mapGet_mapSet ..

/-- `t` differs from `s` by a hit: which line was used last, and the count of hits. Each line holds the state that it held. -/
structure QueueHit (s t : State) : Prop where
  rest : t = { s with regs := t.regs, qes := t.qes }
  reg : ∀ d off, off < 0x1000000 → off ≠ fQeCacheHitCntCount.off → t.reg d off = s.reg d off
  engine : ∀ d, t.qe d = { s.qe d with cache := (t.qe d).cache, uses := (t.qe d).uses }
  lines : ∀ d i, ((t.qe d).line i).map QLine.v = ((s.qe d).line i).map QLine.v

theorem qShows_iff {d i : Nat} {v : BitVec 256} : QShows s d i v ↔ ((s.qe d).line i).map QLine.v = some v := Option.map_eq_some_iff.symm

namespace QueueHit

/-- What looks neither at registers nor at queue engines stands. -/
theorem proj {α : Type} (h : QueueHit s t) (f : State → α) (hf : ∀ (x : State) r q, f { x with regs := r, qes := q } = f x := by intros; rfl) : f t = f s :=
  (congrArg f h.rest).trans (hf s t.regs t.qes)

theorem mem (h : QueueHit s t) : t.mem = s.mem := h.proj State.mem

theorem shows {d i : Nat} {v : BitVec 256} (h : QueueHit s t) (hs : QShows s d i v) : QShows t d i v := by
  rw [qShows_iff] at hs ⊢
  rw [h.lines, hs]

theorem getF (h : QueueHit s t) (d : Nat) (f : Fld) (hf : f.off < 0x1000000 ∧ f.off ≠ fQeCacheHitCntCount.off := by decide) : t.getF d f = s.getF d f := by
  rw [State.getF, h.reg d f.off hf.1 hf.2, State.getF]

theorem pkgId (h : QueueHit s t) : t.pkgId = s.pkgId := h.getF ..

theorem flowHead (h : QueueHit s t) (q : Nat) (v : BitVec 256) (kind : Nat) : t.flowHead q v kind = s.flowHead q v kind := by
  simp only [State.flowHead, h.pkgId, h.proj State.planes]

theorem running (h : QueueHit s t) (d : Nat) : (t.qe d).running = (s.qe d).running := by rw [h.engine]

theorem freed (h : QueueHit s t) (d : Nat) : (t.qe d).freed = (s.qe d).freed := by rw [h.engine]

/-- An entry's state is the same, cached or in the table. -/
theorem qPeek (h : QueueHit s t) (d i : Nat) : t.qPeek d i = s.qPeek d i := by
  have hl := h.lines d i
  have ha : t.qstAddr d i = s.qstAddr d i := by simp only [State.qstAddr, h.getF d fQeCfgQstBase]
  unfold State.qPeek
  cases hs : (s.qe d).line i with
  | some l =>
    rw [hs] at hl
    obtain ⟨l', ht, hv⟩ := Option.map_eq_some_iff.1 hl
    rw [ht]
    exact hv
  | none =>
    rw [hs] at hl
    rw [Option.map_eq_none_iff.1 hl]
    simp only [ha, h.mem]

theorem pinned (h : QueueHit s t) (d : Nat) : t.pinned d = s.pinned d := by simp only [State.pinned, h.qPeek]

end QueueHit

/-- Using a line again is a hit. -/
theorem State.queueHit_putLine {d i : Nat} {l : QLine} (h : (s.qe d).line i = some l) :
    QueueHit s ((s.setQe d ((s.qe d).putLine i l.v l.dirty)).bump d fQeCacheHitCntCount 1) where
  rest := rfl
  reg d' off ho hne := State.reg_setReg_other _ _ (by
    have : fQeCacheHitCntCount.off < 0x1000000 := by decide
    unfold regKey
    omega)
  engine d' := by
    change (s.setQe d ((s.qe d).putLine i l.v l.dirty)).qe d' = { s.qe d' with
      cache := ((s.setQe d ((s.qe d).putLine i l.v l.dirty)).qe d').cache, uses := ((s.setQe d ((s.qe d).putLine i l.v l.dirty)).qe d').uses }
    rw [State.qe_setQe]
    split
    · next hd => rw [hd]; rfl
    · rfl
  lines d' j := by
    change (((s.setQe d ((s.qe d).putLine i l.v l.dirty)).qe d').line j).map QLine.v = _
    rw [State.qe_setQe]
    split
    · next hd =>
      rw [hd, QEngine.line_putLine]
      split
      · next hj => rw [hj, h]; rfl
      · rfl
    · rfl

theorem qShows_of_cached {d i : Nat} {v : BitVec 256} (h : QCached s d i v) : QShows s d i v := by
  obtain ⟨-, -, hs⟩ := h
  exact hs

theorem dieUp_of_cached {d i : Nat} {v : BitVec 256} (h : QCached s d i v) : s.dieUp d = true := by
  obtain ⟨hup, -⟩ := h
  rw [State.qeUp, Bool.and_eq_true] at hup
  exact hup.1

/-- A queue is cached as far as the dies, the functions and the queue engines say so. -/
theorem qCached_of {d i : Nat} {v : BitVec 256} (h : QCached s d i v) (hd : t.dies = s.dies := by rfl) (hf : t.funcs = s.funcs := by rfl)
    (hq : t.qes = s.qes := by rfl) : QCached t d i v := by
  simpa only [QCached, State.qeUp, State.dieUp, State.die, State.funcUp, State.func, State.qe, hd, hf, hq] using h

/-- An engine's own access to a cached queue is a hit. -/
theorem State.qGet_hits {d i : Nat} {v : BitVec 256} (h : QCached s d i v) : ∃ t, QueueHit s t ∧ s.qGet d i = (some v, t) := by
  obtain ⟨hup, hw, l, hl, rfl⟩ := h
  refine ⟨_, State.queueHit_putLine hl, ?_⟩
  rw [State.qGet, hup, State.qDrain_of_waits_false hw, State.qLook, hl]
  rfl

/-- An operation that reaches a cached queue is applied at once, after a hit. -/
theorem State.qSubmit_hits {d : Nat} {o : QOp} {v : BitVec 256} (h : QCached s d o.q v) (hr : s.reaches (o.from d) d o.q = true) :
    ∃ t, QueueHit s t ∧ s.qSubmit d o = t.qApply d o v := by
  obtain ⟨hup, hw, l, hl, rfl⟩ := h
  refine ⟨_, State.queueHit_putLine hl, ?_⟩
  simp only [State.qSubmit, hup, hr, hw, hl, Bool.not_true, Bool.or_self, Bool.false_eq_true, if_false]

/-- A die reaches itself. -/
theorem State.reaches_self (s : State) (d t : Nat) : s.reaches d d t = true := by
  simp [State.reaches, State.way, waysTo, State.pathOk]

/-! ### The change of a cached queue's state -/

theorem qShows_qPut {d i : Nat} {v : BitVec 256} (h : QShows s d i v) (w : BitVec 256) : QShows (s.qPut d i w) d i w := by
  rw [State.qPut_of_shown h]
  exact qShows_putLine ..

/-- What does not look at queue engines stands. -/
theorem State.proj_qPut {α : Type} {d i : Nat} {v : BitVec 256} (h : QShows s d i v) (w : BitVec 256) (f : State → α)
    (hf : ∀ (x : State) q, f { x with qes := q } = f x := by intros; rfl) : f (s.qPut d i w) = f s := by
  rw [State.qPut_of_shown h]
  exact hf ..

theorem State.engine_qPut {d i : Nat} {v : BitVec 256} (h : QShows s d i v) (w : BitVec 256) (d' : Nat) :
    (s.qPut d i w).qe d' = { s.qe d' with cache := ((s.qPut d i w).qe d').cache, uses := ((s.qPut d i w).qe d').uses } := by
  rw [State.qPut_of_shown h, State.qe_setQe]
  split
  · next hd => rw [hd]; rfl
  · rfl

theorem State.noteFreed_cases (s : State) (d i : Nat) (v : BitVec 256) (n : Nat) :
    s.noteFreed d i v n = s ∨ ∃ m, s.noteFreed d i v n = s.setQe d { s.qe d with freed := m } := by
  unfold State.noteFreed
  split
  · exact .inr ⟨_, rfl⟩
  · exact .inl rfl

theorem State.proj_noteFreed {α : Type} (s : State) (d i : Nat) (v : BitVec 256) (n : Nat) (f : State → α)
    (hf : ∀ (x : State) q, f { x with qes := q } = f x := by intros; rfl) : f (s.noteFreed d i v n) = f s := by
  rcases s.noteFreed_cases d i v n with h | ⟨m, h⟩ <;> rw [h]
  exact hf ..

theorem qShows_noteFreed {d i : Nat} {w : BitVec 256} (h : QShows s d i w) (v : BitVec 256) (n : Nat) : QShows (s.noteFreed d i v n) d i w := by
  rcases s.noteFreed_cases d i v n with hn | ⟨m, hn⟩ <;> rw [hn]
  · exact h
  · rw [QShows, State.qe_setQe_same]
    exact h

/-! ### Flows -/

@[simp] theorem State.flow_setFlow_same (s : State) (q : Nat) (f : Flow) : (s.setFlow q f).flow q = f := mapGet_mapSet_same ..

/-- An item without landing entries is placed into a flow in which nothing waits. -/
theorem State.toFlow_of_free {q : Nat} {i : FlowItem} (v : BitVec 256) (h : (s.flow q).held = []) (hi : i.need = 0) :
    s.toFlow q v i = s.setFlow q ((s.flow q).place i) := by
  simp [State.toFlow, h, hi]

/-- A cached SEND queue is usable toward its package. -/
theorem State.sendQueue_hits {q : Nat} {v : BitVec 256} {pkg : Option Nat} (h : QCached s (q / 2 ^ 18) (q % 2 ^ 18) v) (hk : qKind v = 1) (he : qEn v = true)
    (hp : ∀ p, pkg = some p → qPeerPkg v = p) : ∃ t, QueueHit s t ∧ s.sendQueue q pkg = (some v, t) := by
  obtain ⟨t, ht, hg⟩ := State.qGet_hits h
  refine ⟨t, ht, ?_⟩
  rw [State.sendQueue, hg]
  cases pkg with
  | none => simp [hk, he]
  | some p => simp [hk, he, hp p rfl]

/-! ### Counter operations -/

@[simp] theorem State.beryl_setBeryl_same (s : State) (d : Nat) (b : Beryl) : (s.setBeryl d b).beryl d = b := mapGet_mapSet_same ..

/-- An operation for a READY unit that a path reaches waits at its input port. -/
theorem State.berylSend_of_reached {d : Nat} {o : BerOp} (hup : s.berylUp d = true) (hr : s.reaches (o.from d) d o.ctr = true) :
    s.berylSend d o = s.setBeryl d { s.beryl d with ops := (s.beryl d).ops ++ [o] } := by
  simp only [State.berylSend, hup, hr, Bool.and_self, if_true]

end Sys2Proof.Machine
end

section
/-! The SY words (R222 to R224, R230, R233 to R235, R241, R242): their issue, the watches that no counter meets, and the acknowledgement that ends a word. -/

namespace Sys2Proof.Machine

variable {s t u : State} {lc : Fin 64} {st : Stream} {tok : BitVec 16} {ops : BitVec 96} {pc : Nat} {e : QEntry} {r : List QEntry}

/-! ### Completion -/

/-- `t` differs from `s` in the cores only. -/
def CoresOnly (s t : State) : Prop := t = { s with cores := t.cores }

namespace CoresOnly

theorem refl (s : State) : CoresOnly s s := rfl

theorem trans (h : CoresOnly s t) (h' : CoresOnly t u) : CoresOnly s u :=
  calc
    u = { t with cores := u.cores } := h'
    _ = { s with cores := u.cores } := congrArg (fun x : State => { x with cores := u.cores }) h

/-- What does not look at the cores stands. -/
theorem proj {α : Type} (h : CoresOnly s t) (f : State → α) (hf : ∀ (x : State) c, f { x with cores := c } = f x := by intros; rfl) : f t = f s :=
  (congrArg f h).trans (hf s t.cores)

end CoresOnly

theorem State.signal_coresOnly {w : InstrWord} {mode : Nat} (lc : Nat) (h : (toksOf w).smode = mode → (s.core pc).token (toksOf w).stok < 65535) :
    CoresOnly s (s.signal pc lc w mode) := by
  unfold State.signal
  dsimp only
  split
  · next hm =>
    rw [State.addToken_of_fits lc (h hm)]
    rfl
  · exact .refl s

/-- Of the two signals of a completion one at most is the word's. -/
theorem State.complete_coresOnly {i : Nat} {f : InFlight} (lc : Nat)
    (h : (toksOf f.ent.word).smode ≠ 0 → (s.core pc).token (toksOf f.ent.word).stok < 65535) : CoresOnly s (s.complete pc lc i f) := by
  let u := s.modCore pc (fun c => c.landed i)
  have hu : CoresOnly s u := rfl
  have htok : (u.core pc).token = (s.core pc).token := by
    rw [State.core_modCore_same]
    rfl
  have fits (mode : Nat) (hm : mode ≠ 0) : CoresOnly s (u.signal pc lc f.ent.word mode) := hu.trans (State.signal_coresOnly lc (fun he => by
    rw [htok]
    exact h (he ▸ hm)))
  unfold State.complete
  dsimp only
  by_cases h1 : (toksOf f.ent.word).smode = 1
  · rw [State.signal_of_ne (mode := 2) pc lc (by omega), ite_self]
    exact fits 1 (by decide)
  · rw [State.signal_of_ne (mode := 1) pc lc h1]
    split
    · exact hu
    · exact fits 2 (by decide)

theorem State.physOf_of_dies (h : t.dies = s.dies) (lc : Nat) : t.physOf lc = s.physOf lc := by
  unfold State.physOf State.dieUp State.die
  rw [h]

/-- An SY word in flight whose operation is done completes: it leaves, and tokens of its core change. -/
theorem State.settleSy_leaves {i : Nat} {f : InFlight} {lc : Nat} (hp : s.physOf lc = some pc) (hf : (s.core pc).oldest .sy st = some (i, f))
    (hroom : (toksOf f.ent.word).smode ≠ 0 → (s.core pc).token (toksOf f.ent.word).stok < 65535) :
    CoresOnly s (s.settleSy lc st .done) ∧ ∃ ts, (s.settleSy lc st .done).core pc = { (s.core pc).landed i with tokens := ts } := by
  have hs : s.settleSy lc st .done = s.complete pc lc i f := by simp only [State.settleSy, hp, hf]
  rw [hs]
  exact ⟨State.complete_coresOnly lc hroom, (State.complete_of_fits lc hroom).2⟩

/-- A word that is answered as it issues has left its queue and is not in flight. -/
theorem State.settleSy_of_issued {w : InstrWord} (h : IssuesNext lc st .sy w pc e r s) (hd : u.dies = s.dies)
    (hc : u.core pc = (s.core pc).issueHead .sy st e r) :
    CoresOnly u (u.settleSy lc st .done) ∧ ((u.settleSy lc st .done).core pc).queue .sy st = r ∧
      ((u.settleSy lc st .done).core pc).inflight = (s.core pc).inflight := by
  obtain ⟨hp, -, hw, -, -, -, -, hfree, hfits⟩ := h
  obtain ⟨f, hl, hent, heng, hstrm⟩ := (s.core pc).last_issueHead .sy st e r
  have hold : (u.core pc).oldest .sy st = some ((s.core pc).inflight.length, f) := by
    rw [hc]
    exact Core.oldest_of_last hl hfree heng hstrm
  obtain ⟨hu, ts, hts⟩ := State.settleSy_leaves ((State.physOf_of_dies hd lc).trans hp) hold (by
    rw [hc, hent, hw]
    exact fun h0 => (Core.token_issueHead_le ..).trans_lt (hfits h0))
  refine ⟨hu, ?_, ?_⟩ <;> rw [hts, hc]
  · exact Core.queue_issueHead (s.core pc)
  · simp [Core.landed, hl]

/-- So has one that is answered from another die, whose acknowledgement is on its way. -/
theorem State.answerSy_of_issued {w : InstrWord} (d : Nat) (h : IssuesNext lc st .sy w pc e r s) (hd : u.dies = s.dies)
    (hc : u.core pc = (s.core pc).issueHead .sy st e r) :
    (u.answerSy d lc st .done).mem = u.mem ∧ (u.answerSy d lc st .done).qes = u.qes ∧ ((u.answerSy d lc st .done).core pc).queue .sy st = r := by
  unfold State.answerSy
  split
  · obtain ⟨hu, hq, -⟩ := State.settleSy_of_issued h hd hc
    exact ⟨hu.proj State.mem, hu.proj State.qes, hq⟩
  · exact ⟨rfl, rfl, (congrArg (·.queue .sy st) hc).trans (Core.queue_issueHead (s.core pc))⟩

/-- The acknowledgement of a word ends it. -/
theorem syWordComplete_ends {i : Nat} {f : InFlight} {l : List SyAck} (hp : s.physOf lc = some pc) (ha : s.syAcks = ⟨lc, st, .done⟩ :: l)
    (hf : (s.core pc).oldest .sy st = some (i, f)) (hroom : (toksOf f.ent.word).smode ≠ 0 → (s.core pc).token (toksOf f.ent.word).stok < 65535) :
    ∃ t, exec (.syWordComplete lc st) s = .next t ∧ t.mem = s.mem ∧ t.syAcks = l ∧ (t.core pc).inflight = ((s.core pc).landed i).inflight := by
  obtain ⟨hu, ts, hts⟩ := State.settleSy_leaves (s := { s with syAcks := l }) (lc := lc) hp hf hroom
  have htake : takeFirst (fun (a : SyAck) => a.lc == lc.val && a.strm == st) s.syAcks = some (⟨lc, st, .done⟩, l) := by simp [ha, takeFirst]
  refine ⟨State.settleSy { s with syAcks := l } lc st .done, ?_, hu.proj State.mem, hu.proj State.syAcks, by rw [hts]; rfl⟩
  change execSyWordComplete lc st s = _
  rw [execSyWordComplete, htake]

/-! ### Issue -/

/-- An SY word that passes its checks issues with its effect `u`; the issues of the deferred stream are counted. -/
theorem syWord_issued {i : Instr} {opc : Nat} {check : State → Nat → QEntry → Option Refuse} {act : State → Nat → QEntry → Except (Refuse × State) State}
    (hi : exec i s = .next (s.engineWord lc st .issue .sy opc tok ops check act)) (h : IssuesNext lc st .sy (mkWord Engine.sy.code opc tok ops) pc e r s)
    (hc : check s pc e = none) (ha : act (s.setCore pc ((s.core pc).issueHead .sy st e r)) pc e = .ok u) : ∃ t, exec i s = .next t ∧ RegsOnly u t := by
  refine ⟨_, hi, ?_⟩
  rw [State.engineWord, State.issueWord_of_issuesNext h hc ha]
  cases st
  · exact .refl u
  · exact u.coreBump_regsOnly ..

/-! ### Counter words -/

theorem ctrDie_lt (e : QEntry) : ctrDie e < 4 := fld_lt ..

/-- The input port of Table 7.2 names the die that a core's operation comes from. -/
theorem BerOp.from_syPort {d own l ctr n : Nat} {k : BerKind} {org : BerOrigin} (hd : d < 4) (ho : own < 4) (hl : l < 16) :
    BerOp.from ⟨if d = own then l else diePort d own, k, ctr, n, org⟩ d = own := by
  unfold BerOp.from diePort
  dsimp only
  split_ifs <;> omega

/-- A die that runs is not absent. -/
theorem State.ctrAbsent_of_up (h : s.berylUp (ctrDie e) = true) : s.ctrAbsent e = none := by
  rw [State.berylUp, Bool.and_eq_true] at h
  simp [State.ctrAbsent, State.absent, h.1]

/-- A counter word for a READY unit that a path reaches is in flight, and its operation waits at the unit's input port. -/
theorem syCounterWord_issues {i : Instr} {opc n : Nat} {k : BerKind} {check : State → Nat → QEntry → Option Refuse}
    {act : State → Nat → QEntry → Except (Refuse × State) State}
    (hi : exec i s = .next (s.engineWord lc st .issue .sy opc tok ops check act)) (h : IssuesNext lc st .sy (mkWord Engine.sy.code opc tok ops) pc e r s)
    (hc : check s pc e = none) (ha : ∀ u, act u pc e = .ok (u.sySend lc st e k n)) (hup : s.berylUp (ctrDie e) = true)
    (hr : s.reaches (lc.val / 16) (ctrDie e) (opf e 0 16) = true) :
    ∃ t, exec i s = .next t ∧ t.mem = s.mem ∧ t.core pc = issuedCore (s.core pc) .sy st e r ∧
      (t.beryl (ctrDie e)).ops = (s.beryl (ctrDie e)).ops ++
        [⟨if ctrDie e = lc.val / 16 then lc.val % 16 else diePort (ctrDie e) (lc.val / 16), k, opf e 0 16, n, .sy lc st⟩] := by
  let a := s.setCore pc ((s.core pc).issueHead .sy st e r)
  have hway : a.reaches (lc.val / 16) (ctrDie e) (opf e 0 16) = true := (reaches_cores ..).trans hr
  have hsend : a.sySend lc st e k n = a.setBeryl (ctrDie e) _ := State.berylSend_of_reached hup (by
    rw [BerOp.from_syPort (ctrDie_lt e) (by omega) (Nat.mod_lt _ (by decide))]
    exact hway)
  obtain ⟨t, ht, hregs⟩ := syWord_issued hi h hc (ha a)
  rw [hsend] at hregs
  refine ⟨t, ht, hregs.mem, ?_, ?_⟩
  · exact (hregs.proj (·.core pc)).trans (s.core_setCore_same ..)
  · rw [hregs.proj (·.beryl (ctrDie e)), State.beryl_setBeryl_same]
    rfl

theorem syInc_counts (h : IssuesNext lc st .sy (mkWord 4 0x001 tok ops) pc e r s) (hres : syReserved e 0xFFFFFFFFFFFFFFFFF = none) (hn : opf e 52 16 ≠ 0)
    (hhere : opf e 30 1 = 0) (hpkg : opf e 18 12 = 0) (hflow : opf e 31 20 = 0) (hdef : opf e 51 1 = 0) (hup : s.berylUp (ctrDie e) = true)
    (hr : s.reaches (lc.val / 16) (ctrDie e) (opf e 0 16) = true) :
    ∃ t, exec (.syInc lc st .issue tok ops) s = .next t ∧ t.mem = s.mem ∧ t.core pc = issuedCore (s.core pc) .sy st e r ∧
      (t.beryl (ctrDie e)).ops = (s.beryl (ctrDie e)).ops ++
        [⟨if ctrDie e = lc.val / 16 then lc.val % 16 else diePort (ctrDie e) (lc.val / 16), .inc, opf e 0 16, opf e 52 16, .sy lc st⟩] :=
  syCounterWord_issues rfl h (by simp [hres, beq_eq_false_iff_ne.2 hn, hhere, hpkg, hflow, hdef, State.ctrAbsent_of_up hup]) (fun _ => if_pos hhere) hup hr

theorem syDec_counts (h : IssuesNext lc st .sy (mkWord 4 0x002 tok ops) pc e r s) (hres : syReserved e 0xFFFF000000003FFFF = none) (hn : opf e 52 16 ≠ 0)
    (hup : s.berylUp (ctrDie e) = true) (hr : s.reaches (lc.val / 16) (ctrDie e) (opf e 0 16) = true) :
    ∃ t, exec (.syDec lc st .issue tok ops) s = .next t ∧ t.mem = s.mem ∧ t.core pc = issuedCore (s.core pc) .sy st e r ∧
      (t.beryl (ctrDie e)).ops = (s.beryl (ctrDie e)).ops ++
        [⟨if ctrDie e = lc.val / 16 then lc.val % 16 else diePort (ctrDie e) (lc.val / 16), .dec, opf e 0 16, opf e 52 16, .sy lc st⟩] :=
  syCounterWord_issues rfl h (by simp [hres, beq_eq_false_iff_ne.2 hn, State.ctrAbsent_of_up hup]) (fun _ => rfl) hup hr

theorem syRead_counts (h : IssuesNext lc st .sy (mkWord 4 0x003 tok ops) pc e r s) (hres : syReserved e 0x3FFFFF00000000000003FFFF = none)
    (hal : spaAddr e 72 % 2 = 0) (hend : spaAddr e 72 + 2 ≤ spadWords) (hspan : s.spanFault pc (spaAddr e 72) 2 = none)
    (hup : s.berylUp (ctrDie e) = true) (hr : s.reaches (lc.val / 16) (ctrDie e) (opf e 0 16) = true) :
    ∃ t, exec (.syRead lc st .issue tok ops) s = .next t ∧ t.mem = s.mem ∧ t.core pc = issuedCore (s.core pc) .sy st e r ∧
      (t.beryl (ctrDie e)).ops = (s.beryl (ctrDie e)).ops ++
        [⟨if ctrDie e = lc.val / 16 then lc.val % 16 else diePort (ctrDie e) (lc.val / 16), .read, opf e 0 16, 0, .sy lc st⟩] :=
  syCounterWord_issues rfl h (by simp [hres, hal, Nat.not_lt.2 hend, hspan, State.ctrAbsent_of_up hup]) (fun _ => rfl) hup hr

/-! ### Words that use a flow -/

/-- A word that names its core's default flow names no other. -/
theorem noFlow_of_default {a b : Nat} (h : a = 1 → b = 0) : (a == 1 && b != 0) = false := by
  rcases eq_or_ne a 1 with rfl | ha
  · simp [h rfl]
  · simp [ha]

/-- SY.INC of another package: its signal is placed, and the word is complete. -/
theorem syInc_signals {q : Nat} {v : BitVec 256} (h : IssuesNext lc st .sy (mkWord 4 0x001 tok ops) pc e r s) (hres : syReserved e 0xFFFFFFFFFFFFFFFFF = none)
    (hn : opf e 52 16 ≠ 0) (hrem : opf e 30 1 = 1) (hdef : opf e 51 1 = 1 → opf e 31 20 = 0) (hq : s.syFlow lc e = some q)
    (hc : QCached s (q / 2 ^ 18) (q % 2 ^ 18) v) (hk : qKind v = 1) (hen : qEn v = true) (hpkg : qPeerPkg v = opf e 18 12) (hfree : (s.flow q).held = []) :
    ∃ t, exec (.syInc lc st .issue tok ops) s = .next t ∧ t.mem = s.mem ∧ (t.core pc).queue .sy st = r ∧ (t.core pc).inflight = (s.core pc).inflight ∧
      (t.flow q).placed = (s.flow q).placed ++ [(s.signalItem q v (opf e 0 18) (opf e 52 16)).x] := by
  let a := s.setCore pc ((s.core pc).issueHead .sy st e r)
  obtain ⟨g, hg, hsend⟩ := State.sendQueue_hits (qCached_of (t := a) hc) (pkg := some (opf e 18 12)) hk hen (fun _ hp => Option.some.inj hp ▸ hpkg)
  have hitem : g.signalItem q v (opf e 0 18) (opf e 52 16) = s.signalItem q v (opf e 0 18) (opf e 52 16) := by
    rw [State.signalItem, hg.flowHead]
    rfl
  have hflow : g.flow q = s.flow q := hg.proj (·.flow q)
  have hto := State.toFlow_of_free (i := g.signalItem q v (opf e 0 18) (opf e 52 16)) v (by rw [hflow]; exact hfree) rfl
  obtain ⟨hs, hqueue, hfl⟩ := State.settleSy_of_issued (u := g.toFlow q v (g.signalItem q v (opf e 0 18) (opf e 52 16))) h
    (by rw [hto]; exact hg.proj State.dies) (by rw [hto]; exact (hg.proj (·.core pc)).trans (s.core_setCore_same ..))
  obtain ⟨t, ht, hregs⟩ := syWord_issued (i := .syInc lc st .issue tok ops) rfl h (by simp [hres, beq_eq_false_iff_ne.2 hn, hrem, noFlow_of_default hdef]) (by
    rw [if_neg (by omega), show a.syFlow lc e = some q from hq]
    dsimp only
    rw [hsend])
  refine ⟨t, ht, ?_, ?_, ?_, ?_⟩
  · rw [hregs.mem, hs.proj State.mem, hto]
    exact hg.mem
  · rw [hregs.proj (·.core pc), hqueue]
  · rw [hregs.proj (·.core pc), hfl]
  · rw [hregs.proj (·.flow q), hs.proj (·.flow q), hto, State.flow_setFlow_same, ← hitem, ← hflow]
    rfl

/-- SY.FENCE: the fence is placed, and the word waits for its acknowledgement. -/
theorem syFence_fences {q : Nat} {v : BitVec 256} (h : IssuesNext lc st .sy (mkWord 4 0x020 tok ops) pc e r s) (hres : syReserved e 0xFFFFFBFFC0000 = none)
    (hdef : opf e 51 1 = 1 → opf e 31 20 = 0 ∧ qPeerPkg v = opf e 18 12) (hq : s.syFlow lc e = some q) (hc : QCached s (q / 2 ^ 18) (q % 2 ^ 18) v)
    (hk : qKind v = 1) (hen : qEn v = true) (hfree : (s.flow q).held = []) :
    ∃ t, exec (.syFence lc st .issue tok ops) s = .next t ∧ t.mem = s.mem ∧ t.core pc = issuedCore (s.core pc) .sy st e r ∧
      t.fences = s.fences ++ [(q, lc.val, st)] ∧ (t.flow q).placed = (s.flow q).placed ++ [⟨qClass v, s.flowHead q v 3, [], false⟩] := by
  let a := s.setCore pc ((s.core pc).issueHead .sy st e r)
  obtain ⟨g, hg, hsend⟩ := State.sendQueue_hits (qCached_of (t := a) hc) (pkg := if opf e 51 1 = 1 then some (opf e 18 12) else none) hk hen (by
    split
    · next h1 => exact fun _ hp => Option.some.inj hp ▸ (hdef h1).2
    · exact nofun)
  have hflow : g.flow q = s.flow q := hg.proj (·.flow q)
  have hto := State.toFlow_of_free (i := ⟨⟨qClass v, g.flowHead q v 3, [], false⟩, 0, .none⟩) v (by rw [hflow]; exact hfree) rfl
  obtain ⟨t, ht, hregs⟩ := syWord_issued (i := .syFence lc st .issue tok ops) rfl h (by simp [hres, noFlow_of_default fun h1 => (hdef h1).1]) (by
    rw [show a.syFlow lc e = some q from hq]
    dsimp only
    rw [hsend])
  rw [hto] at hregs
  refine ⟨t, ht, hregs.mem.trans hg.mem, ?_, ?_, ?_⟩
  · exact (hregs.proj (·.core pc)).trans ((hg.proj (·.core pc)).trans (s.core_setCore_same ..))
  · rw [hregs.proj State.fences]
    exact congrArg (· ++ _) (hg.proj State.fences)
  · rw [hregs.proj (·.flow q)]
    refine (congrArg Flow.placed (State.flow_setFlow_same ..)).trans ?_
    rw [hflow, hg.flowHead]
    rfl

/-! ### Words that change a queue's state -/

/-- A state operation on a cached queue that its engine applies changes the queue's state, and the word is answered. -/
theorem syQueueWord_issues {i : Instr} {opc : Nat} {check : State → Nat → QEntry → Option Refuse} {act : State → Nat → QEntry → Except (Refuse × State) State}
    {op : QKind} {v w : BitVec 256} (hi : exec i s = .next (s.engineWord lc st .issue .sy opc tok ops check act))
    (h : IssuesNext lc st .sy (mkWord Engine.sy.code opc tok ops) pc e r s) (hchk : check s pc e = none) (ha : ∀ u, act u pc e = .ok (u.syQueue lc st e op))
    (hr : s.reaches (lc.val / 16) (opf e 18 2) (opf e 0 18) = true) (hc : QCached s (opf e 18 2) (opf e 0 18) v)
    (happ : ∀ g, QShows g (opf e 18 2) (opf e 0 18) v → ∃ p, g.qApply (opf e 18 2) ⟨opf e 0 18, op, .sy lc st⟩ v = p.answerSy (opf e 18 2) lc st .done ∧
      QShows p (opf e 18 2) (opf e 0 18) w ∧ p.mem = g.mem ∧ p.dies = g.dies ∧ p.cores = g.cores) :
    ∃ t, exec i s = .next t ∧ t.mem = s.mem ∧ (t.core pc).queue .sy st = r ∧ QShows t (opf e 18 2) (opf e 0 18) w := by
  let a := s.setCore pc ((s.core pc).issueHead .sy st e r)
  obtain ⟨g, hg, hsub⟩ := State.qSubmit_hits (o := ⟨opf e 0 18, op, .sy lc st⟩) (qCached_of (t := a) hc) ((reaches_cores ..).trans hr)
  obtain ⟨p, hp, hshow, hmem, hdies, hcores⟩ := happ g (hg.shows (qShows_of_cached hc))
  have hcore : p.core pc = (s.core pc).issueHead .sy st e r := by
    rw [State.core, hcores]
    exact (hg.proj (·.core pc)).trans (s.core_setCore_same ..)
  obtain ⟨hm, hq, hqueue⟩ := State.answerSy_of_issued (opf e 18 2) h (hdies.trans (hg.proj State.dies)) hcore
  obtain ⟨t, ht, hregs⟩ := syWord_issued hi h hchk (ha a)
  rw [State.syQueue, hsub, hp] at hregs
  refine ⟨t, ht, hregs.mem.trans (hm.trans (hmem.trans hg.mem)), ?_, qShows_of_qes hshow ((hregs.proj State.qes).trans hq)⟩
  rw [hregs.proj (·.core pc), hqueue]

theorem syQring_adds {v : BitVec 256} (h : IssuesNext lc st .sy (mkWord 4 0x030 tok ops) pc e r s) (hres : syReserved e 0xFFFF00000000FFFFF = none)
    (hn : opf e 52 16 ≠ 0) (hr : s.reaches (lc.val / 16) (opf e 18 2) (opf e 0 18) = true) (hc : QCached s (opf e 18 2) (opf e 0 18) v)
    (hok : doorbellOk v (opf e 52 16) = true) :
    ∃ t, exec (.syQring lc st .issue tok ops) s = .next t ∧ t.mem = s.mem ∧ (t.core pc).queue .sy st = r ∧
      QShows t (opf e 18 2) (opf e 0 18) (putFld v 128 16 (qPending v + opf e 52 16)) :=
  syQueueWord_issues rfl h (by simp [hres, beq_eq_false_iff_ne.2 hn]) (fun _ => rfl) hr hc (fun _ hg =>
    ⟨_, if_pos hok, qShows_qPut hg _, State.proj_qPut hg _ State.mem, State.proj_qPut hg _ State.dies, State.proj_qPut hg _ State.cores⟩)

theorem syQcons_adds {v : BitVec 256} (h : IssuesNext lc st .sy (mkWord 4 0x031 tok ops) pc e r s) (hres : syReserved e 0xFFFF00000000FFFFF = none)
    (hn : opf e 52 16 ≠ 0) (hr : s.reaches (lc.val / 16) (opf e 18 2) (opf e 0 18) = true) (hc : QCached s (opf e 18 2) (opf e 0 18) v)
    (hok : consOk v (opf e 52 16) = true) :
    ∃ t, exec (.syQcons lc st .issue tok ops) s = .next t ∧ t.mem = s.mem ∧ (t.core pc).queue .sy st = r ∧
      QShows t (opf e 18 2) (opf e 0 18) (qAddCons v (opf e 52 16)) :=
  syQueueWord_issues rfl h (by simp [hres, beq_eq_false_iff_ne.2 hn]) (fun _ => rfl) hr hc (fun _ hg =>
    ⟨_, if_pos hok, qShows_noteFreed (qShows_qPut hg _) _ _, (State.proj_noteFreed _ _ _ _ _ State.mem).trans (State.proj_qPut hg _ State.mem),
      (State.proj_noteFreed _ _ _ _ _ State.dies).trans (State.proj_qPut hg _ State.dies),
      (State.proj_noteFreed _ _ _ _ _ State.cores).trans (State.proj_qPut hg _ State.cores)⟩)

/-! ### Watches -/

/-- Slot `k` holds a watch that no present value meets, and every other armed slot watches another counter. -/
structure Beryl.Unmet (b : Beryl) (k : Nat) (w : Watch) : Prop where
  slot : b.slot k = some w
  other : ∀ j y, b.slot j = some y → y.ctr = w.ctr → y = w
  cond : condHolds w.cond w.n (b.ctr w.ctr) = false

theorem Beryl.slot_setSlot (b : Beryl) (i j : Nat) (x : Option Watch) : (b.setSlot i x).slot j = if j = i then x else b.slot j := mapGet_mapSet ..

/-- A LEVEL watch that is not met is left as it is. -/
theorem Beryl.Unmet.levelFire {b : Beryl} {k : Nat} {w : Watch} (h : b.Unmet k w) (hm : w.met = false) (i : Nat) :
    (b.levelFire w.ctr i).2 = [] ∧ (b.levelFire w.ctr i).1.Unmet k w ∧ (b.levelFire w.ctr i).1.counters = b.counters := by
  unfold Beryl.levelFire
  cases hy : b.slot i with
  | none => exact ⟨rfl, h, rfl⟩
  | some y =>
    dsimp only
    by_cases hyw : y.ctr ≠ w.ctr ∨ y.take
    · rw [if_pos hyw]
      exact ⟨rfl, h, rfl⟩
    · have hy' : y = w := h.other i y hy (by simpa using (not_or.1 hyw).1)
      subst hy'
      rw [if_neg hyw, if_neg (by rw [h.cond]; decide), show ({ y with met := false } : Watch) = y by rw [← hm]]
      refine ⟨rfl, ⟨?_, fun j z hz hc => ?_, h.cond⟩, rfl⟩
      · rw [Beryl.slot_setSlot, h.slot, ite_self]
      · rw [Beryl.slot_setSlot] at hz
        split at hz
        · exact (Option.some.inj hz).symm
        · exact h.other j z hz hc

/-- No TAKE watch of the counter holds. -/
theorem Beryl.nextTake_of_unmet {b : Beryl} {w : Watch} (hlist : ∀ x ∈ b.slots, ∀ y, x.2 = some y → y.ctr = w.ctr → y = w)
    (hcond : condHolds w.cond w.n (b.ctr w.ctr) = false) (htake : w.take = true → w.cond = 0) : b.nextTake w.ctr = none := by
  refine List.findSome?_eq_none_iff.2 (fun x hx => ?_)
  split
  · next y hy =>
    refine if_neg (fun hc => ?_)
    simp only [Bool.and_eq_true, decide_eq_true_eq] at hc
    obtain ⟨⟨hctr, ht⟩, -, hle⟩ := hc
    obtain rfl := hlist x hx y hy hctr
    rw [htake ht] at hcond
    exact absurd hle (of_decide_eq_false hcond)
  · rfl

/-- Evaluating the counter of a watch that it does not meet fires nothing and leaves the watch armed. -/
theorem Beryl.evaluate_of_unmet {b : Beryl} {k : Nat} {w : Watch} (h : b.Unmet k w) (hlist : ∀ x ∈ b.slots, ∀ y, x.2 = some y → y.ctr = w.ctr → y = w)
    (hm : w.met = false) (htake : w.take = true → w.cond = 0) :
    ∃ c, b.evaluate w.ctr = (c, []) ∧ c.slot k = some w ∧ c.counters = b.counters := by
  have ht : b.takeFires w.ctr (b.ctr w.ctr + 1) = (b, []) := by
    rw [Beryl.takeFires, Beryl.nextTake_of_unmet hlist h.cond htake]
  let P (x : Beryl × List (Nat × Watch)) : Prop := x.2 = [] ∧ x.1.Unmet k w ∧ x.1.counters = b.counters
  have hP : P (b.evaluate w.ctr) := by
    rw [Beryl.evaluate, ht]
    refine List.foldlRecOn (motive := P) _ _ ⟨rfl, h, rfl⟩ (fun x hx i _ => ?_)
    obtain ⟨hx2, hx1, hxc⟩ := hx
    obtain ⟨h2, h1, hc⟩ := hx1.levelFire hm i
    exact ⟨by dsimp only; rw [hx2, h2]; rfl, h1, hc.trans hxc⟩
  obtain ⟨h2, h1, hc⟩ := hP
  exact ⟨_, Prod.ext rfl h2, h1.slot, hc⟩

theorem mapSet_mem {α : Type} [DecidableEq α] {d : Nat → α} {m : SMap α} {k : Nat} {v : α} {x : Nat × α} (h : x ∈ mapSet d m k v) : x = (k, v) ∨ x ∈ m := by
  rw [mapSet_eq] at h
  split at h
  · exact .inr (mapErase_mem.1 h).1
  · exact (mapInsert_mem.1 h).imp_right (fun hx => (mapErase_mem.1 hx).1)

theorem mapGet_mem {α : Type} {d : Nat → α} {m : SMap α} {k : Nat} {v : α} (h : mapGet d m k = v) (hv : d k ≠ v) : (k, v) ∈ m := by
  induction m with
  | nil => exact absurd h hv
  | cons x m ih =>
    obtain ⟨j, y⟩ := x
    rw [mapGet] at h
    split at h
    · next hj =>
      rw [hj, h]
      exact List.mem_cons_self
    · exact List.mem_cons_of_mem _ (ih h)

/-- A slot armed with a watch that its counter does not meet fires nothing: it is armed, and the counters stand. -/
theorem State.armSlot_of_unmet {d i : Nat} {w : Watch} (hcond : condHolds w.cond w.n ((s.beryl d).ctr w.ctr) = false) (hm : w.met = false)
    (htake : w.take = true → w.cond = 0) (hother : ∀ x ∈ (s.beryl d).slots, ∀ y, x.2 = some y → y.ctr ≠ w.ctr) :
    s.armSlot d i w = { s with beryls := (s.armSlot d i w).beryls } ∧ ((s.armSlot d i w).beryl d).slot i = some w ∧
      ((s.armSlot d i w).beryl d).counters = (s.beryl d).counters := by
  let b := (s.beryl d).setSlot i (some w)
  let b' : Beryl := { b with staged := mapSet (fun _ => (0 : BitVec 64)) (mapSet (fun _ => (0 : BitVec 64)) b.staged (2 * i) w.cfgBits) (2 * i + 1) w.tgtBits }
  have hlist : ∀ x ∈ b'.slots, ∀ y, x.2 = some y → y.ctr = w.ctr → y = w := by
    intro x hx y hy hc
    have hx : x ∈ mapSet (fun _ => none) (s.beryl d).slots i (some w) := hx
    rcases mapSet_mem hx with rfl | hx
    · exact (Option.some.inj hy).symm
    · exact absurd hc (hother x hx y hy)
  have hun : b'.Unmet i w := ⟨mapGet_mapSet_same .., fun j y hy hc => hlist (j, some y) (mapGet_mem hy nofun) y rfl hc, hcond⟩
  obtain ⟨c, hc, hslot, hctr⟩ := Beryl.evaluate_of_unmet hun hlist hm htake
  have harm : s.armSlot d i w = (s.setBeryl d b').setBeryl d c := by
    change (s.setBeryl d b').evaluate d w.ctr = _
    unfold State.evaluate
    dsimp only
    rw [State.beryl_setBeryl_same, hc]
    rfl
  rw [harm, State.beryl_setBeryl_same]
  exact ⟨rfl, hslot, hctr⟩

theorem Watch.bad_false {w : Watch} {d : Nat} (h : w.bad d = false) : w.take = true → w.cond = 0 := by
  intro ht
  simp only [Watch.bad, ht, Bool.true_and, Bool.or_eq_false_iff] at h
  obtain ⟨⟨⟨⟨-, hc⟩, -⟩, -⟩, -⟩ := h
  simpa using hc.1

/-- SY.WATCH of a free slot whose condition does not hold: the slot is armed, and the word is complete. -/
theorem syWatch_arms (h : IssuesNext lc st .sy (mkWord 4 0x010 tok ops) pc e r s) (hres : syReserved e 0xFFFFFFFFFFFFFF7FFFCFFFF = none)
    (hbad : (syWatch e).bad (lc.val / 16) = false) (hup : s.berylUp (lc.val / 16) = true) (hslot : (s.beryl (lc.val / 16)).slot (opf e 18 14) = none)
    (hcond : condHolds (syWatch e).cond (syWatch e).n ((s.beryl (lc.val / 16)).ctr (syWatch e).ctr) = false)
    (hother : ∀ x ∈ (s.beryl (lc.val / 16)).slots, ∀ y, x.2 = some y → y.ctr ≠ (syWatch e).ctr) :
    ∃ t, exec (.syWatch lc st .issue tok ops) s = .next t ∧ t.mem = s.mem ∧ (t.core pc).queue .sy st = r ∧ (t.core pc).inflight = (s.core pc).inflight ∧
      (t.beryl (lc.val / 16)).slot (opf e 18 14) = some (syWatch e) ∧ (t.beryl (lc.val / 16)).counters = (s.beryl (lc.val / 16)).counters := by
  let a := s.setCore pc ((s.core pc).issueHead .sy st e r)
  obtain ⟨harm, hset, hctr⟩ := a.armSlot_of_unmet (d := lc.val / 16) (i := opf e 18 14) hcond rfl (Watch.bad_false hbad) hother
  generalize hp : a.armSlot (lc.val / 16) (opf e 18 14) (syWatch e) = p at harm hset hctr
  have hcore : p.core pc = (s.core pc).issueHead .sy st e r := by
    rw [harm]
    exact s.core_setCore_same ..
  obtain ⟨hs, hqueue, hfl⟩ := State.settleSy_of_issued (u := p) h (by rw [harm]; rfl) hcore
  obtain ⟨t, ht, hregs⟩ := syWord_issued (i := .syWatch lc st .issue tok ops) rfl h (by simp [hres, hbad, hup, hslot])
    (congrArg (fun x : State => Except.ok (x.settleSy lc st .done)) hp)
  refine ⟨t, ht, ?_, ?_, ?_, ?_, ?_⟩
  · rw [hregs.mem, hs.proj State.mem, harm]
    rfl
  · rw [hregs.proj (·.core pc), hqueue]
  · rw [hregs.proj (·.core pc), hfl]
  · rw [hregs.proj (·.beryl (lc.val / 16)), hs.proj (·.beryl (lc.val / 16)), hset]
  · rw [hregs.proj (·.beryl (lc.val / 16)), hs.proj (·.beryl (lc.val / 16)), hctr]
    rfl

/-- SY.UNWATCH of an armed slot: the slot is released, and the word is complete. -/
theorem syUnwatch_releases (h : IssuesNext lc st .sy (mkWord 4 0x011 tok ops) pc e r s) (hres : syReserved e 0xFFFC0000 = none)
    (hup : s.berylUp (lc.val / 16) = true) (hslot : ((s.beryl (lc.val / 16)).slot (opf e 18 14)).isSome = true) :
    ∃ t, exec (.syUnwatch lc st .issue tok ops) s = .next t ∧ t.mem = s.mem ∧ (t.core pc).queue .sy st = r ∧ (t.core pc).inflight = (s.core pc).inflight ∧
      (t.beryl (lc.val / 16)).slot (opf e 18 14) = none ∧ (t.beryl (lc.val / 16)).counters = (s.beryl (lc.val / 16)).counters := by
  let a := s.setCore pc ((s.core pc).issueHead .sy st e r)
  let b := (s.beryl (lc.val / 16)).setSlot (opf e 18 14) none
  obtain ⟨hs, hqueue, hfl⟩ := State.settleSy_of_issued (u := a.setBeryl (lc.val / 16) b) h rfl (s.core_setCore_same ..)
  obtain ⟨x, hx⟩ := Option.isSome_iff_exists.1 hslot
  obtain ⟨t, ht, hregs⟩ := syWord_issued (i := .syUnwatch lc st .issue tok ops) rfl h (by simp [hres, hup, hx]) rfl
  refine ⟨t, ht, hregs.mem.trans (hs.proj State.mem), ?_, ?_, ?_, ?_⟩
  · exact (hregs.proj (·.core pc)).symm ▸ hqueue
  · exact (hregs.proj (·.core pc)).symm ▸ hfl
  · rw [hregs.proj (·.beryl (lc.val / 16))]
    refine (congrArg (·.slot (opf e 18 14)) ((hs.proj (·.beryl (lc.val / 16))).trans (State.beryl_setBeryl_same ..))).trans ?_
    exact mapGet_mapSet_same ..
  · rw [hregs.proj (·.beryl (lc.val / 16))]
    exact (congrArg Beryl.counters ((hs.proj (·.beryl (lc.val / 16))).trans (a.beryl_setBeryl_same (lc.val / 16) b)) : _)

/-- Settles O35, a word at a time: counter words wait at their unit, and of the others all but the fence are complete as they issue or once answered. -/
theorem syncWordsAct : Obligations.SyncWordsAct :=
  ⟨fun _ _ _ _ _ _ _ _ _ => ⟨syInc_counts, fun _ => syInc_signals, syDec_counts, syRead_counts, syWatch_arms, syUnwatch_releases, fun _ => syFence_fences,
    syQring_adds, syQcons_adds⟩, fun _ _ _ _ _ _ _ => syWordComplete_ends⟩

end Sys2Proof.Machine
end

section
/-! Doorbells, PROD and the operations of QE_CMD on a cached queue (R239 to R241, R247), and the miss whose entry has been read (R244). -/

namespace Sys2Proof.Machine

variable {s u : State}

/-! ### Operations on a cached queue -/

/-- PENDING entries for which the ring has room move to PROD. -/
theorem queueProdAdvance_moves {q : Fin 1048576} {v : BitVec 256} (h : QCached s (qSplit q).1 (qSplit q).2 v)
    (hk : min (qPending v) (qDepth v - qHeld v) ≠ 0) :
    let k := min (qPending v) (qDepth v - qHeld v)
    ∃ t, exec (.queueProdAdvance q) s = .next t ∧ t.mem = s.mem ∧
      QShows t (qSplit q).1 (qSplit q).2 (putFld (qAddProd v k) 128 16 (qPending v - k)) := by
  intro k
  obtain ⟨g, hg, hget⟩ := State.qGet_hits h
  have hs := hg.shows (qShows_of_cached h)
  let w := putFld (qAddProd v k) 128 16 (qPending v - k)
  have hn := (g.qPut (qSplit q).1 (qSplit q).2 w).keeps_notify (qSplit q).1 v k
  refine ⟨(g.qPut (qSplit q).1 (qSplit q).2 w).notify (qSplit q).1 v k, ?_, hn.mem.trans ((State.proj_qPut hs _ State.mem).trans hg.mem),
    qShows_of_qes (qShows_qPut hs _) hn.qes⟩
  change execQueueProdAdvance q s = _
  simp only [execQueueProdAdvance, hget, hk, if_false]
  rfl

/-- An operation that changes the state of a cached queue and answers nobody leaves all but registers and queue engines. -/
theorem State.qSubmit_changes {d : Nat} {o : QOp} {v w : BitVec 256} (h : QCached s d o.q v) (hr : s.reaches (o.from d) d o.q = true)
    (happ : ∀ g, QueueHit s g → g.qApply d o v = g.qPut d o.q w) :
    (s.qSubmit d o).mem = s.mem ∧ (s.qSubmit d o).doorbells = s.doorbells ∧ QShows (s.qSubmit d o) d o.q w := by
  obtain ⟨g, hg, hsub⟩ := State.qSubmit_hits h hr
  have hs := hg.shows (qShows_of_cached h)
  rw [hsub, happ g hg]
  exact ⟨(State.proj_qPut hs _ State.mem).trans hg.mem, (State.proj_qPut hs _ State.doorbells).trans (hg.proj State.doorbells), qShows_qPut hs _⟩

/-- A watch's doorbell that arrives adds 1 to PENDING. -/
theorem watchDoorbellArrival_adds {q : Fin 1048576} {v : BitVec 256} {r : List Nat} (h : QCached s (qSplit q).1 (qSplit q).2 v) (hd : s.doorbells = q.val :: r)
    (hok : doorbellOk v 1 = true) :
    ∃ t, exec (.watchDoorbellArrival q) s = .next t ∧ t.mem = s.mem ∧ t.doorbells = r ∧
      QShows t (qSplit q).1 (qSplit q).2 (putFld v 128 16 (qPending v + 1)) := by
  obtain ⟨hm, hr, hs⟩ := State.qSubmit_changes (s := { s with doorbells := r }) (o := ⟨(qSplit q).2, .doorbell 1, .watch⟩) (qCached_of h)
    (State.reaches_self ..) (fun _ _ => if_pos hok)
  refine ⟨_, ?_, hm, hr, hs⟩
  change execWatchDoorbellArrival q s = _
  simp only [execWatchDoorbellArrival, hd, takeFirst, beq_self_eq_true, if_true]

/-- QE_DOORBELL adds its amount to PENDING. -/
theorem qeDoorbell_adds {d : Fin 4} {queue : BitVec 18} {amount : BitVec 16} {v : BitVec 256} (h : QCached s d queue.toNat v) (h0 : amount ≠ 0)
    (hok : doorbellOk v amount.toNat = true) :
    ∃ t, exec (.qeDoorbell d queue amount) s = .next t ∧ t.mem = s.mem ∧ QShows t d queue.toNat (putFld v 128 16 (qPending v + amount.toNat)) := by
  obtain ⟨hm, -, hs⟩ := State.qSubmit_changes (o := ⟨queue.toNat, .doorbell amount.toNat, .reg⟩) h (State.reaches_self ..) (fun _ _ => if_pos hok)
  refine ⟨_, ?_, hm, hs⟩
  change execQeDoorbell d queue amount s = _
  simp only [execQeDoorbell, dieUp_of_cached h, h0, Bool.not_true, decide_false, Bool.or_self, Bool.false_eq_true, if_false]

/-! ### QE_CMD -/

theorem State.setView_regsOnly (s : State) (d : Nat) (v : BitVec 256) : RegsOnly s (s.setView d v) := rfl

/-- The view shows an entry as four words. -/
theorem State.reg_setView (s : State) (d : Nat) (v : BitVec 256) {k : Nat} (hk : k < 4) :
    (s.setView d v).reg d (oQeQstate + 8 * k) = BitVec.ofNat 64 (fld v (64 * k) 64) := by
  have hv : s.setView d v = (((s.setReg d (oQeQstate + 8 * 0) (BitVec.ofNat 64 (fld v (64 * 0) 64))).setReg d (oQeQstate + 8 * 1)
    (BitVec.ofNat 64 (fld v (64 * 1) 64))).setReg d (oQeQstate + 8 * 2) (BitVec.ofNat 64 (fld v (64 * 2) 64))).setReg d (oQeQstate + 8 * 3)
    (BitVec.ofNat 64 (fld v (64 * 3) 64)) := rfl
  have hne {j : Nat} (hj : k ≠ j) : regKey d (oQeQstate + 8 * k) ≠ regKey d (oQeQstate + 8 * j) := regKey_ne_off (by omega)
  rw [hv]
  match k with
  | 3 => exact State.reg_setReg_same ..
  | 2 => rw [State.reg_setReg_other _ _ (hne (by decide)), State.reg_setReg_same]
  | 1 => rw [State.reg_setReg_other _ _ (hne (by decide)), State.reg_setReg_other _ _ (hne (by decide)), State.reg_setReg_same]
  | 0 =>
    rw [State.reg_setReg_other _ _ (hne (by decide)), State.reg_setReg_other _ _ (hne (by decide)), State.reg_setReg_other _ _ (hne (by decide)),
      State.reg_setReg_same]
  | n + 4 => omega

/-- LOAD shows the cached state of the selected queue. -/
theorem load_shows {d : Fin 4} {v : BitVec 256} (h : QCached s d (s.getF d fQeQselQueue) v) :
    ∃ t, exec (.load d) s = .next t ∧ t.mem = s.mem ∧ ∀ k < 4, (t.reg d (oQeQstate + 8 * k)).toNat = fld v (64 * k) 64 := by
  obtain ⟨g, hg, hsub⟩ := State.qSubmit_hits (o := ⟨s.getF d fQeQselQueue, .load, .reg⟩) h (State.reaches_self ..)
  refine ⟨g.setView d v, ?_, (g.setView_regsOnly d v).mem.trans hg.mem, fun k hk => ?_⟩
  · change execLoad d s = _
    rw [execLoad, if_pos (dieUp_of_cached h), hsub]
    rfl
  · rw [State.reg_setView g d v hk, BitVec.toNat_ofNat, Nat.mod_eq_of_lt (fld_lt ..)]

/-- COMMIT of a legal view outside a schedule replaces the state of the selected queue. -/
theorem commit_replaces {d : Fin 4} {v : BitVec 256} (h : QCached s d (s.getF d fQeQselQueue) v) (hlive : s.anyLive = false)
    (hbad : viewBad (s.qView d) = false) (hpin : qPin (s.qView d) = true → qPin v = false → s.pinned d < 4096) :
    ∃ t, exec (.commit d) s = .next t ∧ t.mem = s.mem ∧ QShows t d (s.getF d fQeQselQueue) (s.qView d) := by
  have hpins (g : State) (hg : QueueHit s g) : (qPin (s.qView d) && !qPin v && decide (g.pinned d ≥ 4096)) = false := by
    rw [hg.pinned]
    cases hp : qPin (s.qView d) with
    | false => rfl
    | true =>
      cases hv : qPin v with
      | true => rfl
      | false => simpa using hpin hp hv
  obtain ⟨hm, -, hs⟩ := State.qSubmit_changes (o := ⟨s.getF d fQeQselQueue, .commit (s.qView d), .reg⟩) h (State.reaches_self ..) (fun g hg => if_neg (by
    rw [hg.proj State.anyLive, hlive, hbad, hpins g hg]
    decide))
  refine ⟨_, ?_, hm, hs⟩
  change execCommit d s = _
  rw [execCommit, if_pos (dieUp_of_cached h)]

/-- CLEAR_ERR outside a schedule clears ERR of the selected queue. -/
theorem clearErr_clears {d : Fin 4} {v : BitVec 256} (h : QCached s d (s.getF d fQeQselQueue) v) (hlive : s.anyLive = false) :
    ∃ t, exec (.clearErr d) s = .next t ∧ t.mem = s.mem ∧ QShows t d (s.getF d fQeQselQueue) (putFld v 56 1 0) := by
  obtain ⟨hm, -, hs⟩ := State.qSubmit_changes (o := ⟨s.getF d fQeQselQueue, .clearErr, .reg⟩) h (State.reaches_self ..) (fun g hg => if_neg (by
    rw [hg.proj State.anyLive, hlive]
    decide))
  refine ⟨_, ?_, hm, hs⟩
  change execClearErr d s = _
  rw [execClearErr, if_pos (dieUp_of_cached h)]

/-! ### Misses -/

/-- The entry of queue `i` of die `d` in granule `g` of the state table (R238). -/
def State.entryIn (s : State) (d i : Nat) (g : GranBits) : BitVec 256 := BitVec.ofNat 256 (natBits g.toNat (8 * (s.qstAddr d i % 128)) 256)

/-- An entry that is read goes into a set of the cache that has room. (The read is taken as any that answers so: the kernel would compute with the address.) -/
theorem State.qFill_of_room {d i : Nat} {g : GranBits} {m : GranMeta} (hread : s.memRead (.queueEngine d) (s.qstAddr d i / 128) = (.ok g m, u))
    (hroom : ((u.qe d).setLines i).length < 16) : s.qFill d i = (some (s.entryIn d i g), u.setQe d ((u.qe d).putLine i (s.entryIn d i g) false)) := by
  have he : u.qEvict d i = (u, true) := if_pos hroom
  obtain ⟨f, e⟩ : ∃ f, f = State.qFill := ⟨_, rfl⟩
  rw [← e]
  generalize hp : f s d i = p
  delta State.qFill at e
  generalize State.memRead = read at e hread
  subst e
  beta_reduce at hp
  extract_lets a at hp
  have ha : a = s.qstAddr d i := rfl
  clear_value a
  rw [← hp, ha, hread]
  simp only [he, if_true]
  rw [State.entryIn]

/-- The one operation that waits on a queue's miss is applied to the entry that is read. -/
theorem State.qDrain_of_one {d : Nat} {o : QOp} {v : BitVec 256} (hw : (s.qe d).waiting = [o])
    (hfill : (s.setQe d { s.qe d with waiting := [] }).qFill d o.q = (some v, u)) (hs : QShows u d o.q v) : s.qDrain d o.q = u.qApply d o v := by
  obtain ⟨l, hl, rfl⟩ := hs
  unfold State.qDrain
  simp only [hw, List.filter_cons, beq_self_eq_true, bne_self_eq_false, if_true, List.filter_nil, List.isEmpty_cons, Bool.false_eq_true, if_false, hfill,
    List.foldl_cons, List.foldl_nil, hl]

/-- The miss of a queue on which a doorbell waits: the entry is cached and the doorbell added to its PENDING. -/
theorem qstateMissFill_applies {q : Fin 1048576} {n : Nat} {g : GranBits} {m : GranMeta} (hup : s.qeUp (qSplit q).1 = true)
    (hw : (s.qe (qSplit q).1).waiting = [⟨(qSplit q).2, .doorbell n, .reg⟩]) (hroom : ((s.qe (qSplit q).1).setLines (qSplit q).2).length < 16)
    (hread : (s.setQe (qSplit q).1 { s.qe (qSplit q).1 with waiting := [] }).memRead (.queueEngine (qSplit q).1)
      (s.qstAddr (qSplit q).1 (qSplit q).2 / 128) = (.ok g m, u))
    (hok : doorbellOk (s.entryIn (qSplit q).1 (qSplit q).2 g) n = true) :
    let v := s.entryIn (qSplit q).1 (qSplit q).2 g
    ∃ t, exec (.qstateMissFill q) s = .next t ∧ t.mem = u.mem ∧ (t.qe (qSplit q).1).waiting = [] ∧
      QShows t (qSplit q).1 (qSplit q).2 (putFld v 128 16 (qPending v + n)) := by
  intro v
  let d := (qSplit q).1
  let i := (qSplit q).2
  have hqe : u.qe d = { s.qe d with waiting := [] } := by
    have hk := State.keeps_memRead (s.setQe d { s.qe d with waiting := [] }) (.queueEngine d) (s.qstAddr d i / 128)
    rw [hread] at hk
    rw [State.qe, hk.qes]
    exact State.qe_setQe_same ..
  have hfill := State.qFill_of_room (s := s.setQe d { s.qe d with waiting := [] }) (i := i) hread (by rw [hqe]; exact hroom)
  have hs := qShows_putLine u d i v false
  have hdrain := State.qDrain_of_one (o := ⟨i, .doorbell n, .reg⟩) hw hfill hs
  refine ⟨(u.setQe d ((u.qe d).putLine i v false)).qPut d i (putFld v 128 16 (qPending v + n)), ?_, State.proj_qPut hs _ State.mem, ?_, qShows_qPut hs _⟩
  · change execQstateMissFill q s = _
    rw [execQstateMissFill, if_pos hup]
    exact congrArg Host.Outcome.next (hdrain.trans (if_pos hok))
  · rw [State.engine_qPut hs, State.qe_setQe_same]
    exact congrArg QEngine.waiting hqe

/-- Settles O37: every operation but the last reaches a cached queue, and the last puts the entry it reads into the cache. -/
theorem queueCountsMove : Obligations.QueueCountsMove :=
  ⟨fun _ _ _ h => ⟨queueProdAdvance_moves h, fun _ => watchDoorbellArrival_adds h⟩, fun _ _ _ _ _ => qeDoorbell_adds,
    fun _ _ _ h => ⟨load_shows h, commit_replaces h, clearErr_clears h⟩, fun _ _ _ _ _ _ hup hw _ hroom => qstateMissFill_applies hup hw hroom⟩

end Sys2Proof.Machine
end

section
/-!
What arrives at a fabric interface (R228, R230, R240, R242 to R245, R264): writes, landings, held signals and fences and their releases, fence
acknowledgements and credit.
-/

namespace Sys2Proof.Machine

variable {s t u : State} {d : Fin 4} {x : Xfer} {r : List Xfer}

/-! ### Taking the first transfer -/

theorem State.fi_setFi_same (s : State) (d : Nat) (l : List Xfer) : (s.setFi d l).fi d = l := mapGet_mapSet_same ..

theorem takeArrived_first {kind : Nat} (hk : x.h.kind = kind) (r : List Xfer) : takeArrived kind [] (x :: r) = some (x, r) := by simp [takeArrived, hk]

theorem takeKind_first {kind : Nat} (hk : x.h.kind = kind) (r : List Xfer) : takeKind kind (x :: r) = some (x, r) := by simp [takeKind, takeFirst, hk]

theorem Keeps.fi {k : Extent} (h : Keeps k s t) (d : Nat) : t.fi d = s.fi d := by
  rw [State.fi, h.rest]
  cases k <;> rfl

theorem QueueHit.fi (h : QueueHit s t) (d : Nat) : t.fi d = s.fi d := h.proj (·.fi d)

/-! ### Flow tracking -/

/-- Retirement of a transfer leaves what does not look at tracking entries or responses. -/
theorem State.proj_retire {α : Type} (s : State) (d : Nat) (x : Xfer) (failed : Bool) (f : State → α)
    (hf : ∀ (x : State) a b, f { x with tracks := a, resp := b } = f x := by intros; rfl) : f (s.retire d x failed) = f s := by
  have h : ∃ a b, s.retire d x failed = { s with tracks := a, resp := b } := by
    unfold State.retire
    extract_lets t0 t1 t
    split
    · exact ⟨_, _, rfl⟩
    · exact ⟨_, s.resp, rfl⟩
  obtain ⟨a, b, h⟩ := h
  exact (congrArg f h).trans (hf s a b)

/-- The tracking entry of a flow names that flow. -/
theorem State.track_names (s : State) (d src flow : Nat) : (s.track d src flow).src = src ∧ (s.track d src flow).flow = flow := by
  unfold State.track
  cases h : (s.trackTab d).find? (fun t => t.src == src && t.flow == flow) with
  | none => exact ⟨rfl, rfl⟩
  | some t => simpa using List.find?_some h

/-- An entry that holds something stands in the table once it is put back. -/
theorem State.track_setTrack_of_held {k : Track} (d : Nat) (hk : k.held ≠ []) : (s.setTrack d k).track d k.src k.flow = k := by
  have htab : (s.setTrack d k).trackTab d = (s.trackTab d).filter (fun u => !(u.src == k.src && u.flow == k.flow)) ++ [k] := by
    refine (mapGet_mapSet_same ..).trans (if_neg ?_)
    simp [hk]
  have hnone : ((s.trackTab d).filter (fun u => !(u.src == k.src && u.flow == k.flow))).find? (fun u => u.src == k.src && u.flow == k.flow) = none := by
    rw [List.find?_filter, List.find?_eq_none]
    intro y _
    cases y.src == k.src && y.flow == k.flow <;> decide
  rw [State.track, htab, List.find?_append, hnone]
  simp

/-- The first transfer of a fabric interface is held behind none other. -/
theorem hold_first (hfi : s.fi d = x :: r) :
    (s.hold d x r).mem = s.mem ∧ (s.hold d x r).regs = s.regs ∧ (s.hold d x r).fi d = r ∧
      ((s.hold d x r).track d x.h.src x.h.flow).held = (s.track d x.h.src x.h.flow).held ++ [⟨x, 0⟩] := by
  let k : Track := { s.track d x.h.src x.h.flow with plane := x.h.plane, held := (s.track d x.h.src x.h.flow).held ++ [⟨x, 0⟩] }
  have hh : s.hold d x r = (s.setFi d r).setTrack d k := by simp [State.hold, hfi, k]
  obtain ⟨hsrc, hflow⟩ := s.track_names d x.h.src x.h.flow
  have hk := State.track_setTrack_of_held (s := s.setFi d r) (k := k) d (by simp [k])
  rw [show k.src = x.h.src from hsrc, show k.flow = x.h.flow from hflow] at hk
  rw [hh]
  exact ⟨rfl, rfl, State.fi_setFi_same .., by rw [hk]⟩

/-! ### Writes and landings -/

theorem State.keeps_fabricRefused (s : State) (d a : Nat) (x : Xfer) : Keeps .access s (s.fabricRefused d a x) := s.keeps_raiseAccess ..

theorem State.keeps_fabricWrite (d : Nat) (x : Xfer) (l : List DGran) : ∀ (a : Nat) (s : State), Keeps .access s (State.fabricWrite d x l a s).2 := by
  induction l with
  | nil => exact fun _ s => .refl s
  | cons g l ih =>
    intro a s
    have hw := s.keeps_memWrite (.fabric d) (a / 128) g.v g.chk
    unfold State.fabricWrite
    dsimp only
    split
    · exact hw.trans (ih ..)
    · exact (Keeps.ite (hw.trans (State.keeps_fabricRefused ..)) hw).trans (ih ..)
    · exact hw.trans (ih ..)

theorem State.keeps_landWrite (d : Nat) (x : Xfer) (v : BitVec 256) (k : Nat) (data : List DGran) (s : State) :
    Keeps .access s (State.landWrite d x v k data s).2 := by
  refine .ite_snd (List.foldlRecOn (motive := fun r : Bool × Nat × State => Keeps .access s r.2.2) _ _ (.refl s) (fun r hr g _ =>
    List.foldlRecOn (motive := fun q : Bool × State => Keeps .access s q.2) _ _ hr (fun q hq j _ => ?_)))
    (List.foldlRecOn (motive := fun q : Bool × State => Keeps .access s q.2) _ _ (.refl s) (fun q hq i _ => ?_))
  · have hn := q.2.keeps_narrowAt (.fabric d) (qEntryAt v (r.2.1 + j)) (((leBytes g.v.toNat 128).drop (qEsize v * j)).take (qEsize v)) false
    dsimp only
    split <;> rename_i hu <;> rw [hu] at hn
    · exact hq.trans hn
    · exact hq.trans (.ite (hn.trans (State.keeps_fabricRefused ..)) hn)
  · have hw := q.2.keeps_memWrite (.fabric d) ((qEntryAt v (k + i / (qEsize v / 128))) / 128 + i % (qEsize v / 128)) ((data[i]?).getD ⟨0, 0⟩).v
      ((data[i]?).getD ⟨0, 0⟩).chk
    dsimp only
    split <;> rename_i hu <;> rw [hu] at hw
    · exact hq.trans hw
    · exact hq.trans (.ite (hw.trans (State.keeps_fabricRefused ..)) hw)
    · exact hq.trans hw

/-- A WRITE leaves memory as its granule writes do. -/
theorem write_takesEffect {b : Bool} (hfi : s.fi d = x :: r) (hk : x.h.kind = 0) (hw : State.fabricWrite d x x.data x.h.addr (s.setFi d r) = (b, u)) :
    ∃ t, exec (.write d) s = .next t ∧ t.mem = u.mem ∧ t.fi d = r := by
  have hkeep := State.keeps_fabricWrite d x x.data x.h.addr (s.setFi d r)
  rw [hw] at hkeep
  refine ⟨u.retire d x b, ?_, u.proj_retire d x b State.mem, ?_⟩
  · change execWrite d s = _
    rw [execWrite, hfi, takeArrived_first hk]
    simp only [hw]
  · rw [u.proj_retire d x b (·.fi d), hkeep.fi, State.fi_setFi_same]

/-- A LAND into a cached queue that takes it is written there, and PROD moves on. -/
theorem land_takesEffect {v : BitVec 256} {b : Bool} (hfi : s.fi d = x :: r) (hk : x.h.kind = 1) (h : QCached s (qSplit x.h.peerQ).1 (qSplit x.h.peerQ).2 v)
    (hok : landBad v x = false)
    (hw : State.landWrite (qSplit x.h.peerQ).1 x v (qProd v) x.data ((s.setFi d r).qGet (qSplit x.h.peerQ).1 (qSplit x.h.peerQ).2).2 = (b, u)) :
    ∃ t, exec (.land d) s = .next t ∧ t.mem = u.mem ∧ t.fi d = r ∧
      QShows t (qSplit x.h.peerQ).1 (qSplit x.h.peerQ).2 (qAddProd v (landEntries v x.h.ngr)) := by
  obtain ⟨g, hg, hget⟩ := State.qGet_hits (s := s.setFi d r) (qCached_of h)
  rw [hget] at hw
  have hkeep := State.keeps_landWrite (qSplit x.h.peerQ).1 x v (qProd v) x.data g
  rw [hw] at hkeep
  let n := landEntries v x.h.ngr
  let l := u.noteLand x.h.peerQ v x.h
  have hs : QShows l (qSplit x.h.peerQ).1 (qSplit x.h.peerQ).2 v := qShows_of_qes (hg.shows (qShows_of_cached h)) hkeep.qes
  let p := l.qPut (qSplit x.h.peerQ).1 (qSplit x.h.peerQ).2 (qAddProd v n)
  have hn := p.keeps_notify (qSplit x.h.peerQ).1 v n
  refine ⟨(p.notify (qSplit x.h.peerQ).1 v n).retire d x b, ?_, ?_, ?_, ?_⟩
  · change execLand d s = _
    rw [execLand, hfi, takeArrived_first hk]
    simp only [hget, hok, hw, Bool.false_eq_true, if_false]
    rfl
  · rw [State.proj_retire _ d x b State.mem, hn.mem, State.proj_qPut hs _ State.mem]
    rfl
  · rw [State.proj_retire _ d x b (·.fi d), hn.fi, State.proj_qPut hs _ (·.fi d)]
    exact (hkeep.fi d).trans ((hg.fi d).trans (State.fi_setFi_same ..))
  · exact qShows_of_qes (qShows_qPut hs _) ((State.proj_retire _ d x b State.qes).trans hn.qes)

/-! ### Signals, fences and credit -/

/-- A FENCE_ACK ends the oldest SY.FENCE of its flow. -/
theorem fenceAck_ends {lc : Fin 64} {st : Stream} {f : List (Nat × Nat × Stream)} {pc i : Nat} {g : InFlight} (hfi : s.fi d = x :: r) (hk : x.h.kind = 4)
    (hf : s.fences = (x.h.flow, lc.val, st) :: f) (hp : s.physOf lc = some pc) (ho : (s.core pc).oldest .sy st = some (i, g))
    (hroom : (toksOf g.ent.word).smode ≠ 0 → (s.core pc).token (toksOf g.ent.word).stok < 65535) :
    ∃ t, exec (.fenceAck d) s = .next t ∧ t.mem = s.mem ∧ t.fi d = r ∧ t.fences = f ∧ (t.core pc).inflight = ((s.core pc).landed i).inflight := by
  obtain ⟨hu, ts, hts⟩ := State.settleSy_leaves (s := { s.setFi d r with fences := f }) (lc := lc) hp ho hroom
  have htake : takeFirst (fun (a : Nat × Nat × Stream) => a.1 == x.h.flow) s.fences = some ((x.h.flow, lc.val, st), f) := by simp [hf, takeFirst]
  refine ⟨_, ?_, hu.proj State.mem, (hu.proj (·.fi d)).trans (State.fi_setFi_same s d r), hu.proj State.fences, by rw [hts]; rfl⟩
  change execFenceAck d s = _
  rw [execFenceAck, hfi, takeKind_first hk]
  dsimp only
  rw [show (s.setFi d r).fences = s.fences from rfl, htake]

/-- CREDIT adds to the credit of a cached SEND queue. -/
theorem credit_adds {v : BitVec 256} (hfi : s.fi d = x :: r) (hk : x.h.kind = 5) (h : QCached s (qSplit x.h.peerQ).1 (qSplit x.h.peerQ).2 v)
    (hkind : qKind v = 1) :
    ∃ t, exec (.credit d) s = .next t ∧ t.mem = s.mem ∧ t.fi d = r ∧
      QShows t (qSplit x.h.peerQ).1 (qSplit x.h.peerQ).2 (putFld v 194 24 (satAdd (2 ^ 24 - 1) (qCredit v) x.h.amount)) := by
  obtain ⟨g, hg, hget⟩ := State.qGet_hits (s := s.setFi d r) (qCached_of h)
  have hs := hg.shows (qShows_of_cached h)
  refine ⟨g.qPut (qSplit x.h.peerQ).1 (qSplit x.h.peerQ).2 (putFld v 194 24 (satAdd (2 ^ 24 - 1) (qCredit v) x.h.amount)), ?_,
    (State.proj_qPut hs _ State.mem).trans hg.mem, (State.proj_qPut hs _ (·.fi d)).trans ((hg.fi d).trans (State.fi_setFi_same ..)), qShows_qPut hs _⟩
  change execCredit d s = _
  rw [execCredit, hfi, takeKind_first hk]
  change Host.Outcome.next ((s.setFi d r).addCredit x.h.peerQ x.h.amount) = _
  rw [State.addCredit, show (s.setFi d r).qGet (x.h.peerQ / 2 ^ 18) (x.h.peerQ % 2 ^ 18) = (some v, g) from hget]
  exact congrArg Host.Outcome.next (if_pos hkind)

/-- A signal that is released reaches its Beryl unit. -/
theorem signalRelease_signals {k : Track} (hrel : releasable 2 (s.trackTab d) = some (x, k)) (ha : x.h.amount ≠ 0) (hup : s.berylUp (natBits x.h.addr 16 2) = true) :
    let m := natBits x.h.addr 16 2
    let o : BerOp := ⟨if m = d then 19 else diePort m d, .inc, x.h.addr % 65536, x.h.amount, .fabric x.h.src x.h.flow⟩
    s.reaches (o.from m) m o.ctr = true →
    ∃ t, exec (.signalRelease d) s = .next t ∧ t.mem = s.mem ∧ t.regs = s.regs ∧ (t.beryl m).ops = (s.beryl m).ops ++ [o] := by
  intro m o hr
  let b : Beryl := { s.beryl m with ops := (s.beryl m).ops ++ [o] }
  have hsend : (s.setTrack d k).passSignal d x = (s.setTrack d k).setBeryl m b :=
    (if_neg ha).trans (State.berylSend_of_reached (s := s.setTrack d k) (o := o) hup ((reaches_of (s := s) (u := s.setTrack d k) (fun _ _ => rfl) rfl ..).trans hr))
  refine ⟨(s.setTrack d k).setBeryl m b, ?_, rfl, rfl, congrArg Beryl.ops (State.beryl_setBeryl_same (s.setTrack d k) m b)⟩
  change execSignalRelease d s = _
  rw [execSignalRelease, hrel]
  exact congrArg Host.Outcome.next hsend

/-- A fence that is released is acknowledged to its source. -/
theorem fenceRelease_acknowledges {k : Track} (hrel : releasable 3 (s.trackTab d) = some (x, k)) :
    ∃ t y, exec (.fenceRelease d) s = .next t ∧ t.mem = s.mem ∧ t.regs = s.regs ∧ mapGet (fun _ => []) t.resp d = mapGet (fun _ => []) s.resp d ++ [y] ∧
      y.h.kind = 4 ∧ y.h.dst = x.h.src ∧ y.h.flow = x.h.flow := by
  refine ⟨(s.setTrack d k).respond d ⟨1, s.answerHead x 4, [], false⟩, _, ?_, rfl, rfl, mapGet_mapSet_same .., rfl, rfl, rfl⟩
  change execFenceRelease d s = _
  rw [execFenceRelease, hrel]

/-- Settles O44, a kind at a time: each is the first at its interface, so the command takes it. -/
theorem arrivedTransfersTakeEffect : Obligations.ArrivedTransfersTakeEffect := by
  refine ⟨fun d x r s hfi => ⟨fun _ _ => write_takesEffect hfi, fun _ _ _ => land_takesEffect hfi, fun hk => ?signal, fun hk => ?fence,
    fun _ _ _ _ _ _ => fenceAck_ends hfi, fun _ => credit_adds hfi⟩, fun _ _ _ _ => ⟨signalRelease_signals, fenceRelease_acknowledges⟩⟩
  case signal =>
    refine ⟨s.hold d x r, ?_, hold_first hfi⟩
    change execSignal d s = _
    rw [execSignal, hfi, takeKind_first hk]
  case fence =>
    refine ⟨s.hold d x r, ?_, hold_first hfi⟩
    change execFence d s = _
    rw [execFence, hfi, takeKind_first hk]

end Sys2Proof.Machine
end

section
/-! What leaves the descriptors in progress alone: the rings' (R240) and the collective engines' (R274). -/

namespace Sys2Proof.Machine

set_option Elab.async false

variable {α : Type} {p : QEngine → α} {o s t u : State}

/-- Since `o` no collective engine has changed its runs, and no queue engine what `p` sees of it. A function of the machine that answers a state has one
lemma, under its name, that it leaves this so. -/
def EnginesStand (p : QEngine → α) (o s : State) : Prop := s.ces = o.ces ∧ ∀ d, p (s.qe d) = p (o.qe d)

/-- Since `o` no descriptor in progress has changed, neither of a ring nor of a collective engine. -/
abbrev RunsStand (o s : State) : Prop := EnginesStand QEngine.running o s

namespace EnginesStand

theorem refl (s : State) : EnginesStand p s s := ⟨rfl, fun _ => rfl⟩

theorem of (h : EnginesStand p o s) (hc : t.ces = s.ces := by rfl) (hq : t.qes = s.qes := by rfl) : EnginesStand p o t := by
  obtain ⟨hces, hp⟩ := h
  exact ⟨hc.trans hces, fun d => by rw [State.qe, hq]; exact hp d⟩

theorem keeps {k : Extent} (h : EnginesStand p o s) (hk : Keeps k s t) : EnginesStand p o t := h.of (by rw [hk.rest]; cases k <;> rfl) hk.qes

/-- The state that an operation answers beside a result. -/
theorem of_eq {β : Type} {q : β × State} {x : β} (h : EnginesStand p o q.2) (e : q = (x, t)) : EnginesStand p o t := by
  subst e
  exact h

theorem ite {c : Prop} [Decidable c] (h : EnginesStand p o s) (h' : EnginesStand p o t) : EnginesStand p o (if c then s else t) := by
  split
  · exact h
  · exact h'

theorem iteSnd {β : Type} {c : Prop} [Decidable c] {q r : β × State} (h : EnginesStand p o q.2) (h' : EnginesStand p o r.2) :
    EnginesStand p o (if c then q else r).2 := by
  split
  · exact h
  · exact h'

theorem foldl {β : Type} {f : State → β → State} (hf : ∀ u b, EnginesStand p o u → EnginesStand p o (f u b)) {l : List β} (h : EnginesStand p o s) :
    EnginesStand p o (l.foldl f s) :=
  List.foldlRecOn l f h (fun u hu b _ => hf u b hu)

theorem bump {d f k} (h : EnginesStand p o s) : EnginesStand p o (s.bump d f k) := h.of

/-! ### Words and accesses -/

theorem halt {pc lc st x} (h : EnginesStand p o s) : EnginesStand p o (s.halt pc lc st x) :=
  (h.of (t := s.setCore pc ((s.core pc).halted st x))).keeps (State.keeps_halt ..)

theorem addToken {pc lc k n} (h : EnginesStand p o s) : EnginesStand p o (s.addToken pc lc k n) := .ite (.halt h.of) h.of

theorem signal {pc lc w mode} (h : EnginesStand p o s) : EnginesStand p o (s.signal pc lc w mode) := .ite h.addToken h

theorem complete {pc lc i f} (h : EnginesStand p o s) : EnginesStand p o (s.complete pc lc i f) := by
  have h1 : EnginesStand p o ((s.modCore pc (fun c => c.landed i)).signal pc lc f.ent.word 1) := .signal h.of
  exact .ite h1 h1.signal

theorem settleSy {lc st ans} (h : EnginesStand p o s) : EnginesStand p o (s.settleSy lc st ans) := by
  unfold State.settleSy
  split
  · exact h
  · split
    · exact h
    · split
      · exact h.complete
      · exact .complete h.of
      · exact .halt h.of

theorem answerSy {d lc st ans} (h : EnginesStand p o s) : EnginesStand p o (s.answerSy d lc st ans) := .ite h.settleSy h.of

theorem noteSpad {pc lc l n} (h : EnginesStand p o s) : EnginesStand p o (s.noteSpad pc lc l n) := by
  have bumped {u : State} {f k} (hu : EnginesStand p o u) : EnginesStand p o (u.coreBump pc f k) := .ite hu hu.of
  unfold State.noteSpad
  extract_lets s1 s2
  have h2 : EnginesStand p o s2 := bumped (bumped h)
  split
  · exact h2
  · exact .ite (.keeps h2.of (State.keeps_raise ..)) h2

theorem localRead {r a} (h : EnginesStand p o s) : EnginesStand p o (s.localRead r a).2 := by
  unfold State.localRead
  dsimp only
  split
  · split <;> next e => exact of_eq (h.keeps (s.keeps_memRead ..)) e
  · split
    · exact h
    · split <;> exact h.noteSpad
  · exact h

theorem localWrite {r a x} (h : EnginesStand p o s) : EnginesStand p o (s.localWrite r a x).2 := by
  unfold State.localWrite
  split
  · split <;> next e => exact of_eq (h.keeps (s.keeps_memWrite ..)) e
  · split
    · exact h
    · exact h.of
  · exact h

theorem copyLocal {r a b n i} (h : EnginesStand p o s) : EnginesStand p o (State.copyLocal r a b n i s).2 := by
  induction n generalizing s i with
  | zero => exact h
  | succ n ih =>
    unfold State.copyLocal
    split
    · next e => exact h.localRead.of_eq e
    · next e =>
      have written {y} := (h.localRead.of_eq e).localWrite (r := r) (a := b + 128 * i) (x := y)
      split
      · next e => exact written.of_eq e
      · next e => exact ih (written.of_eq e)

theorem readLocal {r a n} (h : EnginesStand p o s) : EnginesStand p o (State.readLocal r a n s).2 := by
  induction n generalizing s a with
  | zero => exact h
  | succ n ih =>
    unfold State.readLocal
    split
    · next e => exact h.localRead.of_eq e
    · next e =>
      have rest := ih (h.localRead.of_eq e) (a := a + 128)
      split <;> next e => exact rest.of_eq e

theorem dataGrans {r g n} (h : EnginesStand p o s) : EnginesStand p o (State.dataGrans r g n s).2 := by
  have read {u : State} {g} (hu : EnginesStand p o u) : EnginesStand p o (u.dataRead r g).2 := .iteSnd hu (hu.keeps (u.keeps_memRead ..))
  induction n generalizing s g with
  | zero => exact h
  | succ n ih =>
    unfold State.dataGrans
    split
    · next e =>
      have rest := ih (of_eq (read h) e) (g := g + 1)
      split <;> next e => exact rest.of_eq e
    · next e => exact (of_eq (read h) e).keeps (State.keeps_accessFailed ..)
    · next e => exact of_eq (read h) e

theorem dataRun {r a n} (h : EnginesStand p o s) : EnginesStand p o (s.dataRun r a n).2 := h.dataGrans

theorem writeRunFuel {r n a l} (h : EnginesStand p o s) : EnginesStand p o (State.writeRunFuel r n a l s).2 := by
  induction n generalizing s a l with
  | zero => exact h
  | succ n ih =>
    unfold State.writeRunFuel
    extract_lets k part w
    refine .iteSnd h ?_
    have hw : EnginesStand p o w.2 := by
      refine .iteSnd ?_ (h.keeps (s.keeps_narrowAt ..))
      have put := h.keeps (s.keeps_memWrite r (a / 128) (BitVec.ofNat 1024 (leNat part)) (chkOf (BitVec.ofNat 1024 (leNat part))))
      split <;> next e => exact put.of_eq e
    split
    · exact hw.keeps (State.keeps_accessFailed ..)
    · exact ih hw

theorem writeRun {r a l} (h : EnginesStand p o s) : EnginesStand p o (s.writeRun r a l).2 := h.writeRunFuel

theorem srcElems {d x i n} (h : EnginesStand p o s) : EnginesStand p o (s.srcElems d x i n).2 := by
  unfold State.srcElems
  dsimp only
  split
  · next e => exact h.dataRun.of_eq e
  · next e =>
    have data := h.dataRun.of_eq e
    refine .iteSnd ?_ data
    split <;> next e => exact data.dataRun.of_eq e

theorem putElems {d x i l} (h : EnginesStand p o s) : EnginesStand p o (s.putElems d x i l).2 := by
  unfold State.putElems
  dsimp only
  split
  · next e => exact h.writeRun.of_eq e
  · next e => exact .iteSnd (h.writeRun.of_eq e).writeRun (h.writeRun.of_eq e)

theorem ceHalt {d ix why} (h : EnginesStand p o s) : EnginesStand p o (s.ceHalt d ix why) := .keeps h.of (State.keeps_raise ..)

/-- Writes are taken as any that leave this so: the kernel would compute with the address where it compares the definition with its text. -/
theorem qstWrite {d i v} (h : EnginesStand p o s) : EnginesStand p o (s.qstWrite d i v) := by
  have writes {u : State} {q a l b} (hu : EnginesStand p o u) : EnginesStand p o (u.narrowAt q a l b).2 := hu.keeps (u.keeps_narrowAt ..)
  obtain ⟨f, e⟩ : ∃ f, f = State.qstWrite := ⟨_, rfl⟩
  rw [← e]
  delta State.qstWrite at e
  generalize State.narrowAt = write at e writes
  subst e
  dsimp only
  split
  · next e => exact of_eq (writes h) e
  · next e => exact (of_eq (writes h) e).keeps (State.keeps_accessFailed ..)

/-! ### Queue states -/

/-- A queue engine's change that `p` does not see. -/
theorem setQe {d : Nat} {q : QEngine} (h : EnginesStand p o s) (hq : p q = p (s.qe d)) : EnginesStand p o (s.setQe d q) := by
  obtain ⟨hces, hp⟩ := h
  refine ⟨hces, fun d' => ?_⟩
  rw [State.qe_setQe]
  split
  · next hd => rw [hq, ← hd, hp]
  · exact hp d'

theorem qEvict {d i} (h : RunsStand o s) : RunsStand o (s.qEvict d i).1 := by
  unfold State.qEvict
  extract_lets ls
  split
  · exact h
  · split
    · exact h
    · exact .ite (.bump (.qstWrite (h.setQe rfl))) (h.setQe rfl)

/-- Reads are taken as any that leave this so: the kernel would compute with the address where it compares the definition with its text. -/
theorem qFill {d i} (h : RunsStand o s) : RunsStand o (s.qFill d i).2 := by
  have reads {u : State} {q g} (hu : RunsStand o u) : RunsStand o (u.memRead q g).2 := hu.keeps (u.keeps_memRead ..)
  obtain ⟨f, e⟩ : ∃ f, f = State.qFill := ⟨_, rfl⟩
  rw [← e]
  generalize hp : f s d i = z
  delta State.qFill at e
  generalize State.memRead = read at e reads
  subst e
  beta_reduce at hp
  extract_lets a at hp
  split at hp <;> subst hp <;> rename_i e
  · have room := qEvict (d := d) (i := i) (of_eq (reads h) e)
    exact .ite (room.setQe rfl) room
  · have failed {k} := (of_eq (reads h) e).keeps (State.keeps_accessFailed _ (.queueEngine d) (a / 128) k)
    exact failed
  · exact of_eq (reads h) e

theorem qPut {d i v} (h : RunsStand o s) : RunsStand o (s.qPut d i v) := by
  unfold State.qPut
  split
  · exact h.setQe rfl
  · exact h.qstWrite

theorem queueError {d i v entry reason} (h : RunsStand o s) : RunsStand o (s.queueError d i v entry reason) := by
  have raised := keeps (h.qPut (d := d) (i := i) (v := putFld v 56 1 1)) (State.keeps_raise _ d ⟨.contained, 0x0030, 0x06, d, d * 2 ^ 18 + i, entry, reason, 0⟩)
  exact .ite (raised.keeps (State.keeps_raise ..)) raised

theorem refuseQOp {d x v} (h : RunsStand o s) : RunsStand o (s.refuseQOp d x v) := by
  unfold State.refuseQOp
  split
  · exact h.answerSy
  · exact h.queueError
  · exact h.of
  · exact h

theorem qOpDone {d x} (h : RunsStand o s) : RunsStand o (s.qOpDone d x) := by
  unfold State.qOpDone
  split
  · exact h.answerSy
  · exact h

theorem noteFreed {d i v n} (h : RunsStand o s) : RunsStand o (s.noteFreed d i v n) := .ite (h.setQe rfl) h

theorem qApply {d x v} (h : RunsStand o s) : RunsStand o (s.qApply d x v) := by
  unfold State.qApply
  split
  · exact .ite h.qPut.qOpDone h.refuseQOp
  · exact .ite h.qPut.noteFreed.qOpDone h.refuseQOp
  · exact h.of
  · exact .ite h.refuseQOp h.qPut
  · exact .ite h.refuseQOp h.qPut

theorem qLook {d i} (h : RunsStand o s) : RunsStand o (s.qLook d i).2 := by
  unfold State.qLook
  split
  · exact .bump (h.setQe rfl)
  · exact h.bump.qFill

/-- Fills are taken as any that leave this so: the kernel would compute with the address where it compares the definition with its text. -/
theorem qDrain {d i} (h : RunsStand o s) : RunsStand o (s.qDrain d i) := by
  have fills {u : State} {d i} (hu : RunsStand o u) : RunsStand o (u.qFill d i).2 := hu.qFill
  obtain ⟨f, e⟩ : ∃ f, f = State.qDrain := ⟨_, rfl⟩
  rw [← e]
  generalize hp : f s d i = z
  delta State.qDrain at e
  generalize State.qFill = fill at e fills
  subst e
  beta_reduce at hp
  extract_lets q mine t r at hp
  split at hp
  · exact hp ▸ h
  · have hr : RunsStand o r.2 := fills (h.setQe rfl)
    split at hp <;> subst hp
    · exact .foldl (fun _ _ h => h.refuseQOp) hr
    · refine .foldl (fun u x h => ?_) hr
      split
      · exact h.qApply
      · exact (fills h).qApply

theorem qGet {d i} (h : RunsStand o s) : RunsStand o (s.qGet d i).2 := .iteSnd h h.qDrain.qLook

theorem toFlow {q v i} (h : RunsStand o s) : RunsStand o (s.toFlow q v i) := .ite h.of (.ite h.of (.ite (qPut h.of) h.of))

theorem sendQueue {q pkg} (h : RunsStand o s) : RunsStand o (s.sendQueue q pkg).2 := by
  unfold State.sendQueue
  split <;> next e => exact h.qGet.of_eq e

theorem sendDesc {d q x l n} (h : RunsStand o s) : RunsStand o (State.sendDesc d q x l n s).2 := by
  induction l generalizing s n with
  | nil => exact h
  | cons g l ih =>
    unfold State.sendDesc
    split
    · next e => exact h.readLocal.of_eq e
    · next e =>
      have got := qGet (h.readLocal.of_eq e) (d := d) (i := q % 2 ^ 18)
      split
      · next e => exact got.of_eq e
      · next e => exact ih (toFlow (got.of_eq e))

end EnginesStand

end Sys2Proof.Machine
end

section
/-! Ring descriptors (R240), and landings under credit with the credit that is returned (R242, R243). -/

namespace Sys2Proof.Machine

variable {s u w : State} {q : Fin 1048576} {v x : BitVec 256}

/-! ### Descriptors of a ring -/

theorem State.keeps_readBytes (s : State) (r : Requester) (a n : Nat) : Keeps .access s (s.readBytes r a n).2 := by
  have h := s.keeps_memRead r (a / 128)
  unfold State.readBytes
  split <;> next e => rw [e] at h; exact h

/-- The state with the descriptor in progress of queue `i` of die `d` replaced (R240). -/
def State.setRunning (s : State) (d i : Nat) (x : Option (BitVec 256)) : State :=
  s.setQe d { s.qe d with running := mapSet (fun _ => none) (s.qe d).running i x }

theorem State.running_setRunning (s : State) (d i : Nat) (x : Option (BitVec 256)) : mapGet (fun _ => none) ((s.setRunning d i x).qe d).running i = x := by
  rw [State.setRunning, State.qe_setQe_same]
  exact mapGet_mapSet_same ..

theorem qShows_setRunning {d i : Nat} (h : QShows s d i v) (x : Option (BitVec 256)) : QShows (s.setRunning d i x) d i v := by
  rw [QShows, State.setRunning, State.qe_setQe_same]
  exact h

/-- A descriptor that reads well is taken in progress; a SEND descriptor's transfers go into the flow. -/
theorem descriptorStart_starts {bs : List Byte} (h : QCached s (qSplit q).1 (qSplit q).2 v) (hk : qKind v ≤ 1) (he : qEn v = true) (herr : qErr v = false)
    (hd : qDepth v ≠ 0) (hh : qHeld v ≠ 0) (hrun : mapGet (fun _ => none) (s.qe (qSplit q).1).running (qSplit q).2 = none)
    (hread : (s.qGet (qSplit q).1 (qSplit q).2).2.readBytes (.queueEngine (qSplit q).1) (qEntryAt v (qCons v)) 32 = (some bs, u))
    (hbad : ringBad (qKind v == 1) (BitVec.ofNat 256 (leNat bs)) = false)
    (haddr : ringAddrBad (qKind v == 1) (qPeerPkg v) (BitVec.ofNat 256 (leNat bs)) = false) :
    let x : BitVec 256 := BitVec.ofNat 256 (leNat bs)
    (qKind v = 0 → ∃ t, exec (.descriptorStart q) s = .next t ∧ t.mem = u.mem ∧
      mapGet (fun _ => none) (t.qe (qSplit q).1).running (qSplit q).2 = some x ∧ QShows t (qSplit q).1 (qSplit q).2 v) ∧
    (qKind v = 1 → dRsig x = false → State.sendDesc (qSplit q).1 q x (xferSizes (dNgr x)) 0 (u.setRunning (qSplit q).1 (qSplit q).2 (some x)) = (true, w) →
      exec (.descriptorStart q) s = .next w ∧ mapGet (fun _ => none) (w.qe (qSplit q).1).running (qSplit q).2 = some x) := by
  intro x
  obtain ⟨g, hg, hget⟩ := State.qGet_hits h
  rw [hget] at hread
  have hkeep := g.keeps_readBytes (.queueEngine (qSplit q).1) (qEntryAt v (qCons v)) 32
  rw [hread] at hkeep
  have hs := qShows_of_qes (hg.shows (qShows_of_cached h)) hkeep.qes
  have hguard : (!(decide (qKind v ≤ 1) && qEn v && !qErr v && decide (qDepth v ≠ 0) && decide (qHeld v ≠ 0)) ||
      (mapGet (fun _ => none) (g.qe (qSplit q).1).running (qSplit q).2).isSome) = false := by
    simp [hk, he, herr, hd, hh, hg.running, hrun]
  refine ⟨fun h0 => ⟨u.setRunning (qSplit q).1 (qSplit q).2 (some x), ?_, rfl, State.running_setRunning .., qShows_setRunning hs _⟩,
    fun h1 hsig hsend => ⟨?_, ?_⟩⟩
  · change execDescriptorStart q s = _
    simp only [execDescriptorStart, hget, hguard, hread, hbad, haddr, Bool.false_eq_true, if_false]
    rw [h0]
    rfl
  · rw [State.setRunning] at hsend
    change execDescriptorStart q s = _
    simp only [execDescriptorStart, hget, hguard, hread, hbad, haddr, Bool.false_eq_true, if_false]
    simp [h1, hsend, hsig, x]
  · have hstand := (EnginesStand.refl (p := QEngine.running) (u.setRunning (qSplit q).1 (qSplit q).2 (some x))).sendDesc
      (d := (qSplit q).1) (q := q) (x := x) (l := xferSizes (dNgr x)) (n := 0)
    rw [hsend] at hstand
    obtain ⟨-, hrunning⟩ := hstand
    rw [hrunning]
    exact State.running_setRunning ..

/-- A descriptor in progress that has nothing held is over once its copy, if it has one, has succeeded. -/
theorem descriptorComplete_completes (h : QCached s (qSplit q).1 (qSplit q).2 v)
    (hrun : mapGet (fun _ => none) (s.qe (qSplit q).1).running (qSplit q).2 = some x) (hheld : qKind v = 1 → (s.flow q).held = [])
    (hcopy : (if qKind v = 1 then (true, (s.qGet (qSplit q).1 (qSplit q).2).2.setRunning (qSplit q).1 (qSplit q).2 none)
      else State.copyLocal (.queueEngine (qSplit q).1) (localOf (dSrc x)) (localOf (dDst x)) (dNgr x) 0
        ((s.qGet (qSplit q).1 (qSplit q).2).2.setRunning (qSplit q).1 (qSplit q).2 none)) = (true, u)) :
    ∃ t, exec (.descriptorComplete q) s = .next t ∧ t.mem = u.mem ∧ mapGet (fun _ => none) (t.qe (qSplit q).1).running (qSplit q).2 = none ∧
      QShows t (qSplit q).1 (qSplit q).2 (qAddCons v 1) := by
  obtain ⟨g, hg, hget⟩ := State.qGet_hits h
  rw [hget] at hcopy
  let g' := g.setRunning (qSplit q).1 (qSplit q).2 none
  have hstand : EnginesStand id g' u := .of_eq (.iteSnd (.refl g') (EnginesStand.copyLocal (.refl g'))) hcopy
  obtain ⟨-, hqe⟩ := hstand
  have hs : QShows u (qSplit q).1 (qSplit q).2 v := by
    rw [QShows, show u.qe _ = g'.qe _ from hqe _]
    exact qShows_setRunning (hg.shows (qShows_of_cached h)) none
  have hwait : ¬(qKind v = 1 ∧ (g.flow q).held.any (fun it => it.org == .desc) = true) := by
    rintro ⟨h1, hany⟩
    rw [hg.proj (·.flow q), hheld h1] at hany
    simp at hany
  let a := u.qPut (qSplit q).1 (qSplit q).2 (qAddCons v 1)
  have hinc := a.keeps_localInc (qSplit q).1 16 (dSctr x) (dSamt x)
  refine ⟨a.localInc (qSplit q).1 16 (dSctr x) (dSamt x), ?_, hinc.mem.trans (State.proj_qPut hs _ State.mem), ?_, qShows_of_qes (qShows_qPut hs _) hinc.qes⟩
  · change execDescriptorComplete q s = _
    rw [State.setRunning] at hcopy
    simp only [execDescriptorComplete, hget, hg.running, hrun]
    rw [if_neg hwait, ← hg.running, hcopy]
  · rw [State.qe, hinc.qes]
    change mapGet (fun _ => none) (a.qe (qSplit q).1).running _ = _
    rw [State.engine_qPut hs, show u.qe _ = g'.qe _ from hqe _]
    exact State.running_setRunning ..

/-- The descriptor of a copy is over when the copy has succeeded. -/
theorem descriptorComplete_copies (h : QCached s (qSplit q).1 (qSplit q).2 v)
    (hrun : mapGet (fun _ => none) (s.qe (qSplit q).1).running (qSplit q).2 = some x) (hk : qKind v = 0)
    (hcopy : State.copyLocal (.queueEngine (qSplit q).1) (localOf (dSrc x)) (localOf (dDst x)) (dNgr x) 0
      ((s.qGet (qSplit q).1 (qSplit q).2).2.setRunning (qSplit q).1 (qSplit q).2 none) = (true, u)) :
    ∃ t, exec (.descriptorComplete q) s = .next t ∧ t.mem = u.mem ∧ mapGet (fun _ => none) (t.qe (qSplit q).1).running (qSplit q).2 = none ∧
      QShows t (qSplit q).1 (qSplit q).2 (qAddCons v 1) :=
  descriptorComplete_completes h hrun (by omega) (by rwa [if_neg (by omega)])

/-- A SEND descriptor is over when the flow holds nothing. -/
theorem descriptorComplete_sent (h : QCached s (qSplit q).1 (qSplit q).2 v)
    (hrun : mapGet (fun _ => none) (s.qe (qSplit q).1).running (qSplit q).2 = some x) (hk : qKind v = 1) (hheld : (s.flow q).held = []) :
    ∃ t, exec (.descriptorComplete q) s = .next t ∧ t.mem = s.mem ∧ mapGet (fun _ => none) (t.qe (qSplit q).1).running (qSplit q).2 = none ∧
      QShows t (qSplit q).1 (qSplit q).2 (qAddCons v 1) := by
  obtain ⟨t, ht, hm, hrest⟩ := descriptorComplete_completes h hrun (fun _ => hheld) (if_pos hk)
  obtain ⟨g, hg, hget⟩ := State.qGet_hits h
  rw [hget] at hm
  exact ⟨t, ht, hm.trans hg.mem, hrest⟩

/-! ### Credit -/

/-- A held transfer that CREDIT covers is placed. -/
theorem landPlace_places {it : FlowItem} (h : QCached s (qSplit q).1 (qSplit q).2 v) (hheld : (s.flow q).held = [it]) (hc : it.need ≤ qCredit v) :
    ∃ t, exec (.landPlace q) s = .next t ∧ t.mem = s.mem ∧ (t.flow q).held = [] ∧ (t.flow q).placed = (s.flow q).placed ++ [it.x] ∧
      (it.need ≠ 0 → QShows t (qSplit q).1 (qSplit q).2 (putFld v 194 24 (qCredit v - it.need))) := by
  obtain ⟨g, hg, hget⟩ := State.qGet_hits h
  let f : Flow := { (g.flow q).place it with held := [] }
  have hflow : (g.setFlow q f).flow q = f := State.flow_setFlow_same ..
  have hplaced : f.placed = (s.flow q).placed ++ [it.x] := congrArg (fun y : Flow => y.placed ++ [it.x]) (hg.proj (·.flow q))
  have hs : QShows (g.setFlow q f) (qSplit q).1 (qSplit q).2 v := hg.shows (qShows_of_cached h)
  have hrun : exec (.landPlace q) s = .next (if it.need = 0 then g.setFlow q f
      else (g.setFlow q f).qPut (qSplit q).1 (qSplit q).2 (putFld v 194 24 (qCredit v - it.need))) := by
    change Host.Outcome.next (State.placeHeld q (s.flow q).held s) = _
    rw [hheld, State.placeHeld, show s.qGet (q.val / 2 ^ 18) (q.val % 2 ^ 18) = (some v, g) from hget]
    exact congrArg Host.Outcome.next (if_pos hc)
  by_cases h0 : it.need = 0
  · refine ⟨g.setFlow q f, by rw [hrun, if_pos h0], hg.mem, by rw [hflow], by rw [hflow, hplaced], fun hne => absurd h0 hne⟩
  · rw [if_neg h0] at hrun
    refine ⟨_, hrun, (State.proj_qPut hs _ State.mem).trans hg.mem, ?_, ?_, fun _ => qShows_qPut hs _⟩
    · rw [State.proj_qPut hs _ (·.flow q), hflow]
    · rw [State.proj_qPut hs _ (·.flow q), hflow, hplaced]

/-- Freed entries go back to the package that feeds the queue. -/
theorem creditReturn_returns (h : QCached s (qSplit q).1 (qSplit q).2 v) :
    let n := min 65535 (mapGet (fun _ => 0) (s.qe (qSplit q).1).freed (qSplit q).2)
    n ≠ 0 → qPeerPkg v ≠ s.pkgId → ∃ t x, exec (.creditReturn q) s = .next t ∧ t.mem = s.mem ∧
      mapGet (fun _ => []) t.resp (qSplit q).1 = mapGet (fun _ => []) s.resp (qSplit q).1 ++ [x] ∧ x.h.kind = 5 ∧ x.h.amount = n ∧
      x.h.peerQ = qPeerQ v ∧ x.h.dst = qPeerPkg v ∧
      mapGet (fun _ => 0) (t.qe (qSplit q).1).freed (qSplit q).2 = mapGet (fun _ => 0) (s.qe (qSplit q).1).freed (qSplit q).2 - n := by
  intro n hn hpkg
  obtain ⟨g, hg, hget⟩ := State.qGet_hits h
  let e := { g.qe (qSplit q).1 with
    freed := mapSet (fun _ => 0) (g.qe (qSplit q).1).freed (qSplit q).2 (mapGet (fun _ => 0) (g.qe (qSplit q).1).freed (qSplit q).2 - n) }
  let a := g.setQe (qSplit q).1 e
  let x : Xfer :=
    ⟨1, { XHead.zero with kind := 5, rdie := qPeerQ v / 2 ^ 18, hops := 63, dst := qPeerPkg v, src := a.pkgId, peerQ := qPeerQ v, amount := n }, [], false⟩
  refine ⟨a.respond (qSplit q).1 x, x, ?_, hg.mem, ?_, rfl, rfl, rfl, rfl, ?_⟩
  · have hp : ¬qPeerPkg v = a.pkgId := fun hp => hpkg (hp.trans hg.pkgId)
    change execCreditReturn q s = _
    simp only [execCreditReturn, hget]
    rw [if_neg hn, if_neg hp]
  · refine (mapGet_mapSet_same ..).trans ?_
    rw [show a.resp = s.resp from hg.proj State.resp]
  · change mapGet (fun _ => 0) (a.qe (qSplit q).1).freed (qSplit q).2 = _
    rw [show a.qe (qSplit q).1 = e from State.qe_setQe_same .., ← hg.freed]
    exact mapGet_mapSet_same ..

end Sys2Proof.Machine
end

section
/-! Collective descriptors (R274, R276): what starting one does leaves those in progress where they are, and the last to complete leaves none in flight. -/

namespace Sys2Proof.Machine

set_option Elab.async false

variable {o s t u : State}

/-! ### Attempts of the engine -/

/-- An attempt leaves the descriptors in progress: in the state it goes on with, if it does, and in the state it leaves. -/
structure TriesRuns (o : State) (z : Option State × State) : Prop where
  fst : ∀ t, z.1 = some t → RunsStand o t
  snd : RunsStand o z.2

namespace TriesRuns

variable {z : Option State × State} {r : Option State}

theorem some (h : RunsStand o s) (h' : RunsStand o t) : TriesRuns o (some s, t) := ⟨fun _ e => Option.some.inj e ▸ h, h'⟩

theorem none (h : RunsStand o s) : TriesRuns o (Option.none, s) := ⟨fun _ e => (nomatch e), h⟩

theorem of_some (h : TriesRuns o z) (e : z = (Option.some s, t)) : RunsStand o s := h.fst s (congrArg Prod.fst e)

theorem of_eq (h : TriesRuns o z) (e : z = (r, t)) : RunsStand o t := h.snd.of_eq e

end TriesRuns

namespace EnginesStand

theorem ceSend {d r p land num data} (h : RunsStand o s) : TriesRuns o (s.ceSend d r p land num data) := by
  unfold State.ceSend
  split
  · next e => exact .none (h.sendQueue.of_eq e).ceHalt
  · next e =>
    extract_lets sizes z
    have hz : RunsStand o z.2 := by
      refine List.foldlRecOn (motive := fun (a : Nat × State) => RunsStand o a.2) _ _ (h.sendQueue.of_eq e) (fun a ha g _ => ?_)
      split
      · next e => exact ha.qGet.of_eq e
      · next e => exact .toFlow (.of (ha.qGet.of_eq e))
    exact .some hz hz

theorem ceAll {β : Type} {f : β → State → Option State × State} {l : List β} (h : RunsStand o s) (hf : ∀ b u, RunsStand o u → TriesRuns o (f b u)) :
    TriesRuns o (Machine.ceAll f l s) := by
  induction l generalizing s with
  | nil => exact .some h h
  | cons b l ih =>
    unfold Machine.ceAll
    split
    · next e => exact ih ((hf b _ h).of_some e)
    · next e => exact .none ((hf b _ h).of_eq e)

theorem ceWrite {d r i l} (h : RunsStand o s) : TriesRuns o (s.ceWrite d r i l) := by
  unfold State.ceWrite
  split
  · next e => exact .some (h.putElems.of_eq e) (h.putElems.of_eq e)
  · next e => exact .none (h.putElems.of_eq e).ceHalt

theorem ceOwn {d r sh c k} (h : RunsStand o s) (hk : ∀ l i u, RunsStand o u → TriesRuns o (k l i u)) : TriesRuns o (s.ceOwn d r sh c k) := by
  unfold State.ceOwn
  extract_lets x sp first
  split
  · next e => exact .none (h.srcElems.of_eq e).ceHalt
  · next e => exact hk _ _ _ (h.srcElems.of_eq e)

theorem ceCopy {d r sh i} (h : RunsStand o s) : TriesRuns o (State.ceCopy d r sh i s) := h.ceAll (fun _ _ h => h.ceOwn (fun _ _ _ h => h.ceWrite))

theorem ceSendOwn {d r p land sh tsh num} (h : RunsStand o s) : TriesRuns o (State.ceSendOwn d r p land sh tsh num s) :=
  h.ceAll (fun _ _ h => h.ceOwn (fun _ _ _ h => h.ceSend))

theorem verdictLand {d r rec} (h : RunsStand o s) : TriesRuns o (s.verdictLand d r rec) := by
  unfold State.verdictLand
  split
  · exact .none (.keeps h.of (State.keeps_raise ..))
  · split
    · next e => exact .some (h.writeRun.of_eq e) (h.writeRun.of_eq e)
    · next e => exact .none (h.writeRun.of_eq e).ceHalt

theorem ownVerdict {d r} (h : RunsStand o s) : RunsStand o (s.ownVerdict d r).2 := by
  unfold State.ownVerdict
  split
  · next e => exact h.dataRun.of_eq e
  · next e => exact (h.dataRun.of_eq e).ceHalt

/-- A descriptor that is no VERDICT starts without a change of the runs. -/
theorem ceBegin {d r} (h : RunsStand o s) (hop : cOp r.desc ≠ 5) : RunsStand o (s.ceBegin d r).2 := by
  unfold State.ceBegin
  extract_lets x n me shard
  split
  · next h5 => exact absurd h5 hop
  · split
    · next e => exact h.ceCopy.of_eq e
    · next e => exact ((h.ceCopy.of_some e).ceAll (fun _ _ h => h.ceSendOwn)).snd
  · refine .iteSnd h ?_
    split
    · next e => exact h.ceCopy.of_eq e
    · next e =>
      have copied := h.ceCopy.of_some e
      exact .iteSnd (copied.ceAll (fun _ _ h => h.ceSendOwn)).snd (.iteSnd copied copied.ceSendOwn.snd)
  · split
    · next e => exact h.ceCopy.of_eq e
    · next e =>
      have copied := h.ceCopy.of_some e
      exact .iteSnd copied copied.ceSendOwn.snd
  · exact .iteSnd (.iteSnd h (.iteSnd h.ceCopy.snd h.ceSendOwn.snd)) (.iteSnd h.ceCopy.snd h.ceSendOwn.snd)

end EnginesStand

/-! ### A descriptor in progress -/

/-- A descriptor is in progress on a die, with its place in the program and its peers. -/
def Running (s : State) (d ix : Nat) (x : BitVec 512) (l : List CPeer) : Prop := ∃ y ∈ s.runs d, y.ix = ix ∧ y.desc = x ∧ y.peers = l

theorem Running.stands {d ix : Nat} {x : BitVec 512} {l : List CPeer} (h : Running s d ix x l) (hst : RunsStand s t) : Running t d ix x l := by
  obtain ⟨hces, -⟩ := hst
  rwa [Running, State.runs, hces]

theorem State.runs_setRuns (s : State) (d : Nat) (l : List CRun) : (s.setRuns d l).runs d = l := mapGet_mapSet_same ..

/-- Putting a run back in its place changes neither its descriptor nor its peers. -/
theorem Running.setRun {d : Nat} {r y : CRun} (h : Running s d r.ix r.desc r.peers) (hi : y.ix = r.ix) (hd : y.desc = r.desc) (hp : y.peers = r.peers) :
    Running (s.setRun d y) d r.ix r.desc r.peers := by
  obtain ⟨z, hz, hix, -⟩ := h
  refine ⟨y, ?_, hi, hd, hp⟩
  rw [State.setRun, State.runs_setRuns]
  exact List.mem_map.2 ⟨z, hz, if_pos (hix.trans hi.symm)⟩

theorem Running.startVerdict {d : Nat} {r : CRun} (h : Running s d r.ix r.desc r.peers) : Running (s.startVerdict d r).2 d r.ix r.desc r.peers := by
  have hown : RunsStand s (s.ownVerdict d r).2 := (EnginesStand.refl s).ownVerdict
  unfold State.startVerdict
  split
  · next e => exact h.stands (hown.of_eq e)
  · next own t e =>
    have read : RunsStand s t := hown.of_eq e
    extract_lets r'
    have put : Running (t.setRun d r') d r.ix r.desc r.peers := (h.stands read).setRun rfl rfl rfl
    split
    · exact h.stands (.iteSnd read (.iteSnd read.verdictLand.snd read.ceSend.snd))
    · split
      · exact h.stands read.verdictLand.snd
      · exact put.stands (EnginesStand.refl _).ceSend.snd

/-- What a rank sends and copies when a descriptor starts leaves the descriptor in progress. -/
theorem Running.ceBegin {d : Nat} {r : CRun} (h : Running s d r.ix r.desc r.peers) : Running (s.ceBegin d r).2 d r.ix r.desc r.peers := by
  by_cases h5 : cOp r.desc = 5
  · have hv : s.ceBegin d r = s.startVerdict d r := by simp only [State.ceBegin, h5]
    exact hv ▸ h.startVerdict
  · exact h.stands ((EnginesStand.refl s).ceBegin h5)

theorem Running.ceResidue {d d' ix ix' : Nat} {x : BitVec 512} {l : List CPeer} {res : Bool} (h : Running s d ix x l) : Running (s.ceResidue d' ix' res) d ix x l :=
  h.stands (.ite (.refl s) ((EnginesStand.refl s).keeps (State.keeps_raise ..)))

/-- An accepted descriptor is put in progress (the checks of R276 hold). -/
theorem ceDescriptorStart_starts {d : Fin 4} {residue : Bool} {v : BitVec 256} {bs ps : List Byte} {a b : State} (hup : s.ceUp d = true)
    (hrun : s.flag d fCeStatusHalted = false) (hlen : (s.runs d).length < 8) (h : QCached s d (s.getF d fCeCfgTrigq) v) (hk : qKind v = 2) (he : qEn v = true)
    (herr : qErr v = false) (hd : 16 ≤ qDepth v) (hpkg : qPeerPkg v = s.pkgId) (hh : qHeld v ≠ 0)
    (hread : (((s.qGet d (s.getF d fCeCfgTrigq)).2.qPut d (s.getF d fCeCfgTrigq) (qAddCons v 1)).noteFreed d (s.getF d fCeCfgTrigq) v 1).readRun
      (.collective d) (s.ceAddr d (s.getF d fCeStatusNext)) 64 = (some bs, a))
    (hok : cRefused (BitVec.ofNat 512 (leNat bs)) (a.getF d fCeLayoutGenGen) = false)
    (hdata : a.dataRun (.collective d) (cPeers (BitVec.ofNat 512 (leNat bs))) (cPeerBytes (BitVec.ofNat 512 (leNat bs))) = (some ps, b))
    (hres : (peersOf ps (cEntries (BitVec.ofNat 512 (leNat bs)))).2 = false)
    (hroles : rolesOk (BitVec.ofNat 512 (leNat bs)) (peersOf ps (cEntries (BitVec.ofNat 512 (leNat bs)))).1 = true) :
    ∃ t, exec (.ceDescriptorStart d residue) s = .next t ∧
      Running t d (s.getF d fCeStatusNext) (BitVec.ofNat 512 (leNat bs)) (peersOf ps (cEntries (BitVec.ofNat 512 (leNat bs)))).1 := by
  obtain ⟨g, hg, hget⟩ := State.qGet_hits h
  rw [hget] at hread
  obtain ⟨taken, htaken⟩ : ∃ t, t = (g.qPut d (s.getF d fCeCfgTrigq) (qAddCons v 1)).noteFreed d (s.getF d fCeCfgTrigq) v 1 := ⟨_, rfl⟩
  rw [← htaken] at hread
  have hreg (f : Fld) (hf : f.off < 0x1000000 ∧ f.off ≠ fQeCacheHitCntCount.off) : taken.getF d f = s.getF d f := by
    rw [htaken, State.proj_noteFreed _ _ _ _ _ (·.getF d f), State.proj_qPut (hg.shows (qShows_of_cached h)) _ (·.getF d f), hg.getF d f hf]
  have hnext : taken.getF d fCeStatusNext = s.getF d fCeStatusNext := hreg _ (by decide)
  have haddr : taken.ceAddr d (s.getF d fCeStatusNext) = s.ceAddr d (s.getF d fCeStatusNext) := by rw [State.ceAddr, hreg _ (by decide), State.ceAddr]
  let x : BitVec 512 := BitVec.ofNat 512 (leNat bs)
  let r : CRun := ⟨s.getF d fCeStatusNext, x, (peersOf ps (cEntries x)).1, [], [], []⟩
  let c := (b.setF d fCeStatusNext (s.getF d fCeStatusNext + 1)).setRuns d (b.runs d ++ [r])
  have hc : Running c d r.ix r.desc r.peers := ⟨r, by rw [State.runs_setRuns]; simp, rfl, rfl, rfl⟩
  have hguard : (!s.ceUp d || s.flag d fCeStatusHalted || decide ((s.runs d).length ≥ 8)) = false := by
    simp [hup, hrun, hlen]
  have hqueue : ¬(qKind v ≠ 2 ∨ qEn v = false ∨ qErr v = true ∨ qDepth v < 16 ∨ qPeerPkg v ≠ g.pkgId ∨ qHeld v = 0) := by
    simp [hk, he, herr, hd, hh, hg.pkgId, hpkg]
  refine ⟨((c.ceResidue d (s.getF d fCeStatusNext) (residue && cConverts x)).ceBegin d r).2, ?_, hc.ceResidue.ceBegin⟩
  change execCeDescriptorStart d residue s = _
  simp only [execCeDescriptorStart, hguard, Bool.false_eq_true, if_false, hget]
  rw [if_neg hqueue]
  simp only [← htaken, hnext, haddr, hread, hok, hdata, hres, hroles, Bool.false_eq_true, if_false, Bool.not_true, Bool.or_self]
  rfl

/-! ### What a record of an error leaves -/

/-- The registers that a record of an error, or a counter operation that is refused, can change: those of R364 and R496, the counters of the answers of a job
that ends (R290), the reconstruction that stops, the package's ID and BERYL_REJECT_CNT. -/
def recordRegs : List Nat :=
  answerCounters ++ (List.range 6).map (fun k => (fErrCntCount.at (8 * k)).off) ++
    [fErrStatusNextSeq, fErrStatusDropped, fParStatusGenRun, fUpdStatusBusy, fPkgIdIdValid, fBerylRejectCntCount].map Fld.off

/-- `t` differs from `s`, of the registers, in those only. -/
structure RegsStand (s t : State) : Prop where
  reg : ∀ d off, off < 0x1000000 → off ∉ recordRegs → t.reg d off = s.reg d off

namespace RegsStand

theorem refl (s : State) : RegsStand s s := ⟨fun _ _ _ _ => rfl⟩

theorem trans (h : RegsStand s t) (h' : RegsStand t u) : RegsStand s u := ⟨fun d off ho hn => (h'.reg d off ho hn).trans (h.reg d off ho hn)⟩

theorem ite {c : Prop} [Decidable c] (h : RegsStand s t) (h' : RegsStand s u) : RegsStand s (if c then t else u) := by
  split
  · exact h
  · exact h'

theorem foldl {β : Type} {f : State → β → State} (h : ∀ s b, RegsStand s (f s b)) (l : List β) : ∀ s, RegsStand s (l.foldl f s) := by
  induction l with
  | nil => exact refl
  | cons b l ih => exact fun s => (h s b).trans (ih (f s b))

theorem of_regs (h : t.regs = s.regs) : RegsStand s t := ⟨fun d off _ _ => by rw [State.reg, h, State.reg]⟩

theorem after (h : RegsStand u t) (hr : u.regs = s.regs := by rfl) : RegsStand s t := (of_regs hr).trans h

theorem of_answers (h : Answers s t) : RegsStand s t := ⟨fun d off ho hn => h.reg d off ho (fun hm => hn (by simp [recordRegs, hm]))⟩

theorem getF (h : RegsStand s t) (d : Nat) (f : Fld) (hf : f.off < 0x1000000 ∧ f.off ∉ recordRegs := by decide) : t.getF d f = s.getF d f := by
  rw [State.getF, h.reg d f.off hf.1 hf.2, State.getF]

end RegsStand

namespace State

variable (s : State)

theorem regsStand_setF (d : Nat) (f : Fld) (v : Nat) (hf : f.off ∈ recordRegs := by decide) : RegsStand s (s.setF d f v) where
  reg d' off ho hn := by
    have hlt : ∀ x ∈ recordRegs, x < 0x1000000 := by decide
    have hne : off ≠ f.off := fun h => hn (h ▸ hf)
    have := hlt _ hf
    exact s.reg_setF_other _ (by unfold regKey; omega)

theorem regsStand_bump (d : Nat) (f : Fld) (n : Nat) (hf : f.off ∈ recordRegs := by decide) : RegsStand s (s.bump d f n) := s.regsStand_setF d f _ hf

theorem regsStand_respond (d : Nat) (x : Xfer) : RegsStand s (s.respond d x) := .of_regs rfl

theorem regsStand_finish (p : Waits → Bool) (status detail : Nat) : RegsStand s (s.finish p status detail) :=
  .after (.of_answers (s.answers_finish p status detail))

theorem regsStand_stopRules : RegsStand s s.stopRules := by
  refine .foldl (fun s d => ?_) _ _
  have h : RegsStand s ((s.setUpd d { s.upd d with rule := .none, late := false }).setF d fParStatusGenRun 0) := .after (regsStand_setF ..)
  exact .ite h (h.trans (regsStand_setF ..))

theorem regsStand_endFatal (cause : Nat) : RegsStand s (s.endFatal cause) := by
  unfold endFatal
  extract_lets j s1
  have h1 : RegsStand s s1 := .after (regsStand_stopRules _)
  exact (h1.trans (regsStand_finish ..)).trans (regsStand_finish ..)

theorem regsStand_abortJob (cause : Nat) : RegsStand s (s.abortJob cause) := by
  have sent (ports : List Nat) (kind step phase status : Nat) : RegsStand s (s.sendBound ports kind step phase status) :=
    .foldl (fun s _ => s.regsStand_respond ..) _ _
  exact .ite ((RegsStand.ite (sent ..) (sent ..)).trans (regsStand_endFatal ..)) (.refl s)

theorem regsStand_classEffect (h cause : Nat) (cls : ErrClass) : RegsStand s (s.classEffect h cause cls) := by
  cases cls with
  | tainted => exact .of_regs rfl
  | jobFatal => exact s.regsStand_abortJob _
  | packageFatal =>
    have hset : RegsStand s ((s.abortJob cause).setF common fPkgIdIdValid 0) := (s.regsStand_abortJob cause).trans (regsStand_setF ..)
    exact .ite (.of_regs rfl) (hset.trans (.of_regs rfl))
  | info => exact .refl s
  | corrected => exact .refl s
  | contained => exact .refl s

theorem errCnt_mem_recordRegs (cls : ErrClass) : (fErrCntCount.at (8 * cls.code)).off ∈ recordRegs := by
  cases cls <;> decide

theorem regsStand_fileRec (h : Nat) (r : ErrRec) (cls : ErrClass) : RegsStand s (s.fileRec h r cls) := by
  have marked (u : State) (d : Nat) (f : Die → Die) : RegsStand u (u.modDie d f) := .of_regs rfl
  have alert (u : State) : RegsStand u { u with alert := true } := .of_regs rfl
  unfold fileRec
  extract_lets b s1 s2 s3 s4 s5
  have h2 : RegsStand s s2 := (s.regsStand_setF ..).trans (regsStand_bump _ _ _ _ (errCnt_mem_recordRegs cls))
  have h3 : RegsStand s s3 := h2.trans (marked ..)
  have h4 : RegsStand s s4 := .ite (h3.trans (regsStand_bump ..)) h3
  have h5 : RegsStand s s5 := .ite (h4.trans (alert _)) h4
  exact h5.trans (regsStand_classEffect ..)

theorem regsStand_raise (d : Nat) (i : ErrInfo) : RegsStand s (s.raise d i) := by
  unfold raise
  extract_lets x
  split
  · exact .ite (.of_regs rfl) (.of_regs rfl)
  · exact s.regsStand_fileRec ..

theorem regsStand_localInc (d port ctr n : Nat) : RegsStand s (s.localInc d port ctr n) := by
  have refused : RegsStand s (s.refuseCtr d ⟨port, .inc, ctr, n, .unit d⟩ 0 false) :=
    (RegsStand.ite (s.regsStand_bump ..) (.refl s)).trans (regsStand_raise ..)
  exact .ite (.refl s) (.ite (.of_regs rfl) refused)

end State

/-! ### Completion -/

/-- The one descriptor in progress, with all received and nothing unreported, is taken out. -/
theorem ceDescriptorComplete_completes {d : Fin 4} {r : CRun} (hup : s.ceUp d = true) (hrun : s.flag d fCeStatusHalted = false) (hone : s.runs d = [r])
    (hrec : r.received = true) (hsent : mapGet (fun _ => 0) s.collSent (d.val * 4096 + r.ix) = 0) :
    ∃ t, exec (.ceDescriptorComplete d) s = .next t ∧ t.mem = s.mem ∧ t.runs d = [] ∧ t.getF d fCeStatusInflight = 0 := by
  let e := s.setRuns d []
  have hkeep := e.keeps_localInc d 17 (cDctr r.desc) (cDamt r.desc)
  refine ⟨e.localInc d 17 (cDctr r.desc) (cDamt r.desc), ?_, hkeep.mem, ?_, ?_⟩
  · have hfind : [r].find? (fun r => r.received && decide (mapGet (fun _ => 0) s.collSent (d.val * 4096 + r.ix) = 0)) = some r := by simp [hrec, hsent]
    have hrest : [r].filter (fun y => y.ix != r.ix) = [] := by simp
    change execCeDescriptorComplete d s = _
    simp only [execCeDescriptorComplete, hup, hrun, hone, hfind, hrest, Bool.not_true, Bool.or_self, Bool.false_eq_true, if_false]
    rfl
  · rw [State.runs, hkeep.rest]
    exact State.runs_setRuns s d []
  · rw [(e.regsStand_localInc ..).getF d fCeStatusInflight]
    exact State.getF_setF_same _ _ _ _ (by decide)

/-- Settles O38: a ring's descriptor at a cached queue, held landings and freed credit; then the engine's own descriptors. -/
theorem descriptorsAndLandingsMove : Obligations.DescriptorsAndLandingsMove := by
  refine ⟨fun q v s h => ⟨fun bs u w hk he herr hd hh hrun hread hbad haddr => descriptorStart_starts h hk he herr hd hh hrun hread hbad haddr,
    fun x u hrun => ⟨descriptorComplete_copies h hrun, descriptorComplete_sent h hrun⟩, fun it => landPlace_places h, creditReturn_returns h⟩,
    fun d residue v bs ps s a b => ceDescriptorStart_starts, fun d r s => ceDescriptorComplete_completes⟩

end Sys2Proof.Machine
end

section
/-! A READ whose read of stack memory finds the third failed pin of a channel (R192): the ABORT of the job (R290) goes out before the READ_DATA (R266). -/

namespace Sys2Proof.Machine

/-- A READ of the granule at address 0, from package 9. -/
def readOfFirstGran : Xfer := ⟨0, { XHead.zero with kind := 8, src := 9, ngr := 1 }, [], false⟩

/-- A package of a domain that runs a job. The READ has reached C0. In the channel of its granule two pins are erased, a third symbol of the granule is wrong, and
that symbol has been corrected 255 times within the last millisecond. -/
def thirdPinAtRead : State :=
  let s : State := { State.reset with
    dies := [(0, { Die.reset with st := .up })], funcs := [(stackFunc 0, 2)], job := { Job.none with running := true }, fiIn := [(0, [readOfFirstGran])]
    mem := { MemState.reset with errs := [(0, [⟨2, 1⟩])], erased := [(granChan 0, [0, 1])], pins := [(72 * granChan 0 + 2, List.replicate 255 0)] } }
  s.setF common fPkgIdIdValid 1

/-- The kinds of the transfers that a die's fabric interface has to send of itself. -/
def State.respKinds (s : State) (d : Nat) : List Nat := (mapGet (fun _ => []) s.resp d).map (fun y : Xfer => y.h.kind)

/-- The third pin takes the package out of its domain and aborts the job: the lead die's boundary message stands before the READ_DATA. -/
theorem read_at_thirdPin_aborts :
    (match exec (.read 0) thirdPinAtRead with | .next t => t.respKinds 0 | _ => []) = [10, 9] := by decide +kernel

/-- Refutes O45: where the READ's own read of memory fails a third pin during a job, the JASPER message of the ABORT is among what the READ adds to the responses
of the lead die, so not all of it is READ_DATA. -/
theorem not_answersAndFabricTime : ¬ Obligations.AnswersAndFabricTime := by
  intro h
  obtain ⟨harrived, -⟩ := h
  obtain ⟨-, hread, -⟩ := harrived 0 readOfFirstGran [] thirdPinAtRead (by decide +kernel)
  obtain ⟨t, l, hexec, -, -, hresp, -, hkind⟩ := hread _ _ rfl Prod.mk.eta.symm
  have hkinds : t.respKinds 0 = [10, 9] := by
    have hran := read_at_thirdPin_aborts
    rwa [hexec] at hran
  have hl : l.map (fun y => y.h.kind) = [10, 9] := by
    have hadds : mapGet (fun _ => []) t.resp 0 = l := hresp
    rwa [State.respKinds, hadds] at hkinds
  have hall : ∀ k ∈ l.map (fun y => y.h.kind), k = 9 := by
    simp only [List.mem_map]
    rintro k ⟨y, hy, rfl⟩
    exact (hkind y hy).1
  rw [hl] at hall
  exact absurd (hall 10 (by simp)) (by decide)

end Sys2Proof.Machine
end

section
/-!
The link layer of an Ewerlink port (R250, R254 to R257): what sending changes at a port and beside it, what a received flit does, resends and retraining.
-/

namespace Sys2Proof.Machine

variable {s t u : State}

/-! ### Ports -/

theorem State.port_setPort_same (s : State) (p : Nat) (x : Port) : (s.setPort p x).port p = x := mapGet_mapSet_same ..

theorem State.port_send (s : State) (m : OutMsg) (p : Nat) : (s.send m).port p = s.port p := rfl

theorem Keeps.port {k : Extent} (h : Keeps k s t) (p : Nat) : t.port p = s.port p := by
  rw [State.port, h.rest]
  cases k <;> rfl

/-- An ACK and a credit return change the sending half of a port (R254, R257). -/
theorem Port.heard_eq (x : Port) (ack buf n : Nat) : ∃ r c, (x.acked ack).credited buf n = { x with replay := r, credit := c } := by
  obtain ⟨r, hr⟩ : ∃ r, x.acked ack = { x with replay := r } := by
    unfold Port.acked
    split
    · exact ⟨_, rfl⟩
    · exact ⟨_, rfl⟩
  rw [hr]
  unfold Port.credited
  split
  · exact ⟨_, _, rfl⟩
  · exact ⟨_, _, rfl⟩

theorem Port.payCredit_eq (x : Port) : ∃ o, x.payCredit.2.2 = { x with owed := o } := by
  unfold Port.payCredit
  split
  · exact ⟨_, rfl⟩
  · exact ⟨_, rfl⟩

/-! ### Sending -/

/-- `t` differs from `s` by what port `p` has sent: in the sending half of the port, the credit it owes, and what has gone out. -/
structure Sends (p : Nat) (s t : State) : Prop where
  rest : t = { s with ports := t.ports, out := t.out }
  port : t.port p = { s.port p with
    txSeq := (t.port p).txSeq, replay := (t.port p).replay, credit := (t.port p).credit, owed := (t.port p).owed, tx := (t.port p).tx
    turn := (t.port p).turn, rest := (t.port p).rest, restLen := (t.port p).restLen, slot := (t.port p).slot }

namespace Sends

variable {p : Nat}

theorem refl (p : Nat) (s : State) : Sends p s s := ⟨rfl, rfl⟩

/-- What of the state lies outside ports and messages stays. -/
theorem proj {α : Type} (h : Sends p s t) (f : State → α) (hf : ∀ (x : State) a b, f { x with ports := a, out := b } = f x := by intros; rfl) : f t = f s :=
  (congrArg f h.rest).trans (hf s _ _)

/-- What of the port lies outside its sending half stays. -/
theorem portProj {α : Type} (h : Sends p s t) (f : Port → α)
    (hf : ∀ (x : Port) a b c d e g i j k,
      f { x with txSeq := a, replay := b, credit := c, owed := d, tx := e, turn := g, rest := i, restLen := j, slot := k } = f x := by intros; rfl) :
    f (t.port p) = f (s.port p) := (congrArg f h.port).trans (hf ..)

theorem trans (h : Sends p s t) (h' : Sends p t u) : Sends p s u where
  rest := h'.rest.trans (congrArg (fun x : State => { x with ports := u.ports, out := u.out }) h.rest)
  port := h'.port.trans (h.portProj (fun x => { x with
    txSeq := (u.port p).txSeq, replay := (u.port p).replay, credit := (u.port p).credit, owed := (u.port p).owed, tx := (u.port p).tx
    turn := (u.port p).turn, rest := (u.port p).rest, restLen := (u.port p).restLen, slot := (u.port p).slot }))

/-- The sending half of the port changes. -/
theorem setPort {y : Port} (hy : y = { s.port p with
    txSeq := y.txSeq, replay := y.replay, credit := y.credit, owed := y.owed, tx := y.tx, turn := y.turn, rest := y.rest, restLen := y.restLen, slot := y.slot }) :
    Sends p s (s.setPort p y) := by
  refine ⟨rfl, ?_⟩
  rw [State.port_setPort_same]
  exact hy

theorem send (p : Nat) (s : State) (m : OutMsg) : Sends p s (s.send m) := ⟨rfl, rfl⟩

theorem foldl {β : Type} {f : State → β → State} (h : ∀ s b, Sends p s (f s b)) (l : List β) : ∀ s, Sends p s (l.foldl f s) := by
  induction l with
  | nil => exact refl p
  | cons b l ih => exact fun s => (h s b).trans (ih (f s b))

end Sends

namespace State

variable (s : State) (p : Nat)

/-- A flit goes out as its 270 bytes; at the port the bits that fill no codeword yet change. -/
theorem sendLine_eq (f : Flit) : ∃ a b c w, s.sendLine p f = (s.setPort p { s.port p with rest := a, restLen := b, slot := c }).send (.ewFlit p f.bits w) :=
  ⟨_, _, _, _, rfl⟩

theorem sends_sendLine (f : Flit) : Sends p s (s.sendLine p f) := by
  obtain ⟨a, b, c, w, h⟩ := s.sendLine_eq p f
  rw [h]
  exact (Sends.setPort rfl).trans (.send ..)

theorem replay_sendLine (f : Flit) : ((s.sendLine p f).port p).replay = (s.port p).replay := by
  obtain ⟨a, b, c, w, h⟩ := s.sendLine_eq p f
  rw [h, port_send, port_setPort_same]

theorem out_sendLine (f : Flit) : ∃ w, (s.sendLine p f).out = s.out ++ [.ewFlit p f.bits w] := ⟨_, rfl⟩

theorem sends_sendFree (typ : Nat) (pay : BitVec 2048) : Sends p s (s.sendFree p typ pay) := by
  obtain ⟨o, ho⟩ := (s.port p).payCredit_eq
  exact Sends.trans (.setPort (by rw [ho])) (sends_sendLine ..)

theorem replay_sendFree (typ : Nat) (pay : BitVec 2048) : ((s.sendFree p typ pay).port p).replay = (s.port p).replay := by
  obtain ⟨o, ho⟩ := (s.port p).payCredit_eq
  refine (replay_sendLine ..).trans ?_
  rw [port_setPort_same, ho]

/-- A flit outside the replay buffer carries the last SEQ accepted as its ACK (R254). -/
theorem out_sendFree (typ : Nat) (pay : BitVec 2048) :
    ∃ w, ∃ f : Flit, (s.sendFree p typ pay).out = s.out ++ [.ewFlit p f.bits w] ∧ f.typ = typ ∧ f.ack = (s.port p).lastAck :=
  ⟨_, ⟨typ, 0, (s.port p).txSeq, (s.port p).lastAck, (s.port p).payCredit.1, (s.port p).payCredit.2.1, 0, chkOf (pay.extractLsb' 0 1024),
    chkOf (pay.extractLsb' 1024 1024), pay⟩, rfl, rfl, rfl⟩

theorem sends_sendCtrl (e : LinkEntry) : Sends p s (s.sendCtrl p e) := (Sends.send ..).trans (sends_sendFree ..)

theorem out_sendCtrl (e : LinkEntry) : ∃ c w, (s.sendCtrl p e).out = s.out ++ [.ewCtrl p e, .ewFlit p c w] := by
  obtain ⟨w, f, hout, -⟩ := (s.send (.ewCtrl p e)).out_sendFree p 3 ((Config.linkEntry e).setWidth 2048)
  refine ⟨f.bits, w, hout.trans ?_⟩
  rw [out_send, List.append_assoc]
  rfl

theorem replay_sendCtrl (e : LinkEntry) : ((s.sendCtrl p e).port p).replay = (s.port p).replay := replay_sendFree ..

theorem sends_sendFlit (cls turn : Nat) : Sends p s (s.sendFlit p cls turn) := by
  obtain ⟨o, ho⟩ := (s.port p).payCredit_eq
  unfold sendFlit
  dsimp only
  split
  · exact .refl p s
  · exact Sends.trans (.setPort (by rw [ho])) (sends_sendLine ..)

theorem sends_pump (n : Nat) : ∀ s, Sends p s (pump p n s) := by
  induction n with
  | zero => exact .refl p
  | succ n ih =>
    intro s
    unfold pump
    dsimp only
    split
    · exact .refl p s
    · split
      · exact .refl p s
      · exact (s.sends_sendFlit ..).trans (ih _)

/-! ### Resends (R255) -/

theorem sends_resend : Sends p s (s.resend p) := .foldl (fun s (y : TxFlit) => s.sends_sendLine p y.f) _ _

/-- Flits that are sent again stay in the replay buffer. -/
theorem replay_resend : ((s.resend p).port p).replay = (s.port p).replay :=
  List.foldlRecOn (motive := fun u : State => (u.port p).replay = (s.port p).replay) _ _ rfl (fun u hu y _ => (u.replay_sendLine p y.f).trans hu)

/-- The flits of the replay buffer go out in order. -/
theorem out_resend : ∃ l, (s.resend p).out = s.out ++ l ∧ l.map flitSent = (s.port p).replay.map (fun y => some (p, y.f.bits)) := by
  unfold resend
  generalize (s.port p).replay = r
  induction r generalizing s with
  | nil => exact ⟨[], (List.append_nil _).symm, rfl⟩
  | cons y r ih =>
    obtain ⟨w, hw⟩ := s.out_sendLine p y.f
    obtain ⟨l, hout, hl⟩ := ih (s.sendLine p y.f)
    exact ⟨.ewFlit p y.f.bits w :: l, by rw [List.foldl_cons, hout, hw, List.append_assoc]; rfl, by rw [List.map_cons, hl]; rfl⟩

/-! ### Receiving (R250, R254, R255) -/

/-- What a flit brings off the line changes at its port the place in the group of flits, the carry and the times of lost codewords. -/
theorem port_takeLine (o : FecOut) : ∃ a b c, (s.takeLine p o).port p = { s.port p with rxFlits := a, rxCarry := b, fecTimes := c } :=
  ⟨_, _, _, State.port_setPort_same ..⟩

theorem refuse_takeLine (o : FecOut) (b : BitVec 2160) (bad : Bool) : ((s.takeLine p o).port p).refuse b bad = (s.port p).refuse b bad := by
  obtain ⟨x, y, z, h⟩ := s.port_takeLine p o
  rw [h]
  rfl

/-- An accepted HEAD or DATA flit enters its receive buffer, and the next SEQ is expected; ACK and credit change the sending half only. -/
theorem port_acceptFlit_of_data {f : Flit} (hf : f.typ = 1 ∨ f.typ = 2) : ∃ r c, (s.acceptFlit p f).port p = { s.port p with
    replay := r, credit := c, rxSeq := ((s.port p).rxSeq + 1) % 1024, skip := none, refusals := 0
    rxVl := mapSet (fun _ => 0) (s.port p).rxVl f.cls ((s.port p).bufOf f % 2)
    rx := mapSet (fun _ => []) (s.port p).rx ((s.port p).bufOf f) (mapGet (fun _ => []) (s.port p).rx ((s.port p).bufOf f) ++ [f]) } := by
  obtain ⟨r, c, h⟩ := (s.port p).heard_eq f.ack f.cbuf f.ccount
  refine ⟨r, c, ?_⟩
  unfold acceptFlit
  dsimp only
  rw [h, if_neg (by omega), port_setPort_same]

/-- An accepted IDLE or CTRL flit enters no buffer. -/
theorem port_acceptFlit_of_free {f : Flit} (hf : f.typ = 0 ∨ f.typ = 3) :
    ∃ r c, (s.acceptFlit p f).port p = { s.port p with replay := r, credit := c, skip := none } := by
  obtain ⟨r, c, h⟩ := (s.port p).heard_eq f.ack f.cbuf f.ccount
  refine ⟨r, c, ?_⟩
  unfold acceptFlit
  dsimp only
  rw [h, if_pos hf, port_setPort_same]

theorem mem_acceptFlit (f : Flit) : (s.acceptFlit p f).mem = s.mem := by
  unfold acceptFlit
  dsimp only
  split <;> rfl

/-- A refused flit brings one NAK of the expected SEQ, and is counted; the receiving half notes that it discards until a resend. -/
theorem refuseFlit_naks (kind : Nat) (b : BitVec 2160) : ∃ u : State, s.refuseFlit p kind b = u.sendCtrl p (.nak (s.port p).rxSeq) ∧
    u.port p = { s.port p with skip := some (nextSkip b (s.port p).rxSeq), refusals := (s.port p).refusals + 1, refKind := kind } ∧
    u.mem = s.mem ∧ u.out = s.out := by
  unfold refuseFlit
  dsimp only
  split
  · exact ⟨_, rfl, s.port_setPort_same .., rfl, rfl⟩
  · exact ⟨_, rfl, s.port_setPort_same .., rfl, rfl⟩
  · exact ⟨_, rfl, s.port_setPort_same .., rfl, rfl⟩

end State

section Receive

variable {p : Fin 12} {b : BitVec 2160} {hits : List FecHit} {o : FecOut}

theorem execEwFlitReceive_of_accepted (hup : s.portUp p = true) (ho : (s.port p).fec b hits = o) (hr : (s.port p).refuse o.flit o.bad = none)
    (h3 : (flitOf o.flit).typ ≠ 3) :
    exec (.ewFlitReceive p b hits) s = .next (State.pump p pumpFuel ((s.takeLine p o).acceptFlit p (flitOf o.flit))) := by
  change execEwFlitReceive p b hits s = _
  simp only [execEwFlitReceive, hup, ho, State.refuse_takeLine, hr, h3, Bool.not_true, Bool.false_eq_true, if_false]

theorem ewFlitReceive_takes (hup : s.portUp p = true) (ho : (s.port p).fec b hits = o) (hr : (s.port p).refuse o.flit o.bad = none)
    (hf : (flitOf o.flit).typ = 1 ∨ (flitOf o.flit).typ = 2) :
    ∃ t, exec (.ewFlitReceive p b hits) s = .next t ∧ t.mem = s.mem ∧ (t.port p).rxSeq = ((s.port p).rxSeq + 1) % 1024 ∧ (t.port p).refusals = 0 ∧
      (t.port p).skip = none ∧ mapGet (fun _ => []) (t.port p).rx ((s.port p).bufOf (flitOf o.flit)) =
        mapGet (fun _ => []) (s.port p).rx ((s.port p).bufOf (flitOf o.flit)) ++ [flitOf o.flit] := by
  obtain ⟨a, c, d, hline⟩ := s.port_takeLine p o
  obtain ⟨r, k, hacc⟩ := (s.takeLine p o).port_acceptFlit_of_data p hf
  rw [hline] at hacc
  have hs := State.sends_pump p pumpFuel ((s.takeLine p o).acceptFlit p (flitOf o.flit))
  refine ⟨_, execEwFlitReceive_of_accepted hup ho hr (by omega), (hs.proj State.mem).trans (State.mem_acceptFlit ..), ?_⟩
  rw [hs.portProj Port.rxSeq, hs.portProj Port.refusals, hs.portProj Port.skip, hs.portProj Port.rx, hacc]
  exact ⟨rfl, rfl, rfl, mapGet_mapSet_same ..⟩

theorem ewFlitReceive_passesIdle (hup : s.portUp p = true) (ho : (s.port p).fec b hits = o) (hr : (s.port p).refuse o.flit o.bad = none)
    (hf : (flitOf o.flit).typ = 0) :
    ∃ t, exec (.ewFlitReceive p b hits) s = .next t ∧ t.mem = s.mem ∧ (t.port p).rxSeq = (s.port p).rxSeq ∧ (t.port p).rx = (s.port p).rx ∧
      (t.port p).skip = none := by
  obtain ⟨a, c, d, hline⟩ := s.port_takeLine p o
  obtain ⟨r, k, hacc⟩ := (s.takeLine p o).port_acceptFlit_of_free p (f := flitOf o.flit) (.inl hf)
  rw [hline] at hacc
  have hs := State.sends_pump p pumpFuel ((s.takeLine p o).acceptFlit p (flitOf o.flit))
  refine ⟨_, execEwFlitReceive_of_accepted hup ho hr (by omega), (hs.proj State.mem).trans (State.mem_acceptFlit ..), ?_⟩
  rw [hs.portProj Port.rxSeq, hs.portProj Port.rx, hs.portProj Port.skip, hacc]
  exact ⟨rfl, rfl, rfl⟩

theorem ewFlitReceive_naks {k : Nat} (hup : s.portUp p = true) (ho : (s.port p).fec b hits = o) (hr : (s.port p).refuse o.flit o.bad = some k)
    (hskip : ∀ n, (s.port p).skip = some n → (s.port p).passes o.flit k n = false) :
    ∃ t c w, exec (.ewFlitReceive p b hits) s = .next t ∧ t.mem = s.mem ∧ t.out = s.out ++ [.ewCtrl p (.nak (s.port p).rxSeq), .ewFlit p c w] ∧
      (t.port p).rxSeq = (s.port p).rxSeq ∧ (t.port p).rx = (s.port p).rx ∧ (t.port p).skip = some (nextSkip o.flit (s.port p).rxSeq) ∧
      (t.port p).refusals = (s.port p).refusals + 1 := by
  obtain ⟨a, c, d, hline⟩ := s.port_takeLine p o
  have hexec : exec (.ewFlitReceive p b hits) s = .next ((s.takeLine p o).refuseFlit p k o.flit) := by
    change execEwFlitReceive p b hits s = _
    simp only [execEwFlitReceive, hup, ho, State.refuse_takeLine, hr, Bool.not_true, Bool.false_eq_true, if_false]
    rw [hline]
    cases hn : (s.port p).skip with
    | none => rfl
    | some n => exact congrArg Host.Outcome.next (if_neg (by simpa [Port.passes] using hskip n hn))
  obtain ⟨u, href, hport, hmem, hout⟩ := (s.takeLine p o).refuseFlit_naks p k o.flit
  rw [hline] at hport href
  have hs := u.sends_sendCtrl p (.nak (s.port p).rxSeq)
  obtain ⟨x, w, hx⟩ := u.out_sendCtrl p (.nak (s.port p).rxSeq)
  refine ⟨_, x, w, hexec.trans (congrArg _ href), (hs.proj State.mem).trans hmem, hx.trans (by rw [hout]; rfl), ?_⟩
  rw [hs.portProj Port.rxSeq, hs.portProj Port.rx, hs.portProj Port.skip, hs.portProj Port.refusals, hport]
  exact ⟨rfl, rfl, rfl, rfl⟩

theorem ewFlitReceive_passesOver {k n : Nat} (hup : s.portUp p = true) (ho : (s.port p).fec b hits = o) (hr : (s.port p).refuse o.flit o.bad = some k)
    (hn : (s.port p).skip = some n) (hp : (s.port p).passes o.flit k n = true) :
    ∃ t, exec (.ewFlitReceive p b hits) s = .next t ∧ t.mem = s.mem ∧ t.out = s.out ∧ (t.port p).rxSeq = (s.port p).rxSeq ∧ (t.port p).rx = (s.port p).rx ∧
      (t.port p).skip = some (nextSkip o.flit n) ∧ (t.port p).refusals = (s.port p).refusals := by
  obtain ⟨a, c, d, hline⟩ := s.port_takeLine p o
  refine ⟨(s.takeLine p o).setPort p { (s.takeLine p o).port p with skip := some (nextSkip o.flit n) }, ?_, rfl, rfl, ?_⟩
  · change execEwFlitReceive p b hits s = _
    simp only [execEwFlitReceive, hup, ho, State.refuse_takeLine, hr, Bool.not_true, Bool.false_eq_true, if_false]
    rw [hline]
    simp only [hn]
    exact congrArg Host.Outcome.next (if_pos hp)
  · rw [State.port_setPort_same, hline]
    exact ⟨rfl, rfl, rfl, rfl⟩

end Receive

/-! ### NAKs and idle time (R254, R255) -/

theorem ewNak_resends {p : Fin 12} {seq : BitVec 10} {a c : List TxFlit} {z : TxFlit} (hup : s.portUp p = true) (hrep : (s.port p).replay = a ++ z :: c)
    (hz : z.f.seq = seq.toNat) (ha : ∀ y ∈ a, y.f.seq ≠ seq.toNat) :
    ∃ t l, exec (.ewNak p seq) s = .next t ∧ t.mem = s.mem ∧ t.regs = s.regs ∧ (t.port p).replay = z :: c ∧ t.out = s.out ++ l ∧
      l.map flitSent = (z :: c).map (fun y => some (p.val, y.f.bits)) := by
  have hany : (s.port p).replay.any (fun t => t.f.seq == seq.toNat) = true := by simp [hrep, hz]
  have hdrop : (s.port p).replay.dropWhile (fun t => t.f.seq != seq.toNat) = z :: c := by
    rw [hrep, List.dropWhile_append_of_pos (by simpa using ha), List.dropWhile_cons_of_neg (by simp [hz])]
  let u := s.setPort p { s.port p with replay := z :: c }
  have hu : (u.port p).replay = z :: c := by rw [s.port_setPort_same]
  have hs := u.sends_resend p
  obtain ⟨l, hout, hl⟩ := u.out_resend p
  refine ⟨u.resend p, l, ?_, hs.proj State.mem, hs.proj State.regs, (u.replay_resend p).trans hu, hout, hu ▸ hl⟩
  change Host.Outcome.next (s.takeNak p seq.toNat) = _
  simp only [State.takeNak, hup, hany, hdrop, Bool.not_true, Bool.or_self, Bool.false_eq_true, if_false]
  rfl

theorem linkIdleTimer_sendsIdle {p : Fin 12} (hup : s.portUp p = true) (h : (s.port p).nextClass (s.weights p) = none ∨ 121 ≤ (s.port p).replay.length) :
    ∃ t w, ∃ f : Flit, exec (.linkIdleTimer p) s = .next t ∧ t.mem = s.mem ∧ t.regs = s.regs ∧ t.out = s.out ++ [.ewFlit p f.bits w] ∧ f.typ = 0 ∧
      f.ack = (s.port p).lastAck ∧ (t.port p).replay = (s.port p).replay := by
  have hidle : (decide ((s.port p).replay.length < 121) && ((s.port p).nextClass (s.weights p)).isSome) = false := by
    rcases h with h | h
    · simp [h]
    · simp [Nat.not_lt.mpr h]
  have hs := s.sends_sendFree p 0 0
  obtain ⟨w, f, hout, htyp, hack⟩ := s.out_sendFree p 0 0
  refine ⟨s.sendFree p 0 0, w, f, ?_, hs.proj State.mem, hs.proj State.regs, hout, htyp, hack, s.replay_sendFree ..⟩
  change execLinkIdleTimer p s = _
  simp only [execLinkIdleTimer, hup, hidle, Bool.not_true, Bool.or_self, Bool.false_eq_true, if_false]

/-! ### Retraining (R249, R256) -/

/-- A port that starts to retrain is STARTING; nothing else of it changes, and nothing is sent. -/
theorem State.portRetrain_starts (s : State) (p : Nat) : (s.portRetrain p).mem = s.mem ∧ (s.portRetrain p).port p = s.port p ∧ (s.portRetrain p).job = s.job ∧
    (s.portRetrain p).out = s.out ∧ (s.portRetrain p).func (portFunc p) = 1 :=
  ⟨(s.portRetrain_leaves p).1, (State.keeps_raise ..).port p, State.job_raise _ _ (fun _ _ _ => rfl), State.out_raise _ _ (fun _ _ _ => rfl),
    (s.portRetrain_leaves p).2.2⟩

theorem portRetrain_asks {p : Fin 12} (hup : s.portUp p = true) (h : s.fecOver p = true ∨ 8 ≤ (s.port p).refusals) :
    ∃ t, exec (.portRetrain p) s = .next t ∧ t.mem = s.mem ∧ (t.port p).replay = (s.port p).replay ∧ (t.port p).rx = (s.port p).rx ∧ t.job = s.job ∧
      t.func (portFunc p) = 1 ∧ OutMsg.ewCtrl p .retrain ∈ t.out := by
  have hs := s.sends_sendCtrl p .retrain
  obtain ⟨c, w, hsent⟩ := s.out_sendCtrl p .retrain
  obtain ⟨hmem, hport, hjob, hout, hfunc⟩ := (s.sendCtrl p .retrain).portRetrain_starts p
  refine ⟨(s.sendCtrl p .retrain).portRetrain p, ?_, hmem.trans (hs.proj State.mem), ?_, ?_, hjob.trans (hs.proj State.job), hfunc, ?_⟩
  · change execPortRetrain p s = _
    have hdue : (s.fecOver p || decide ((s.port p).refusals ≥ 8)) = true := by simpa using h
    simp only [execPortRetrain, State.askRetrain, hup, hdue, Bool.and_self, if_true]
  · rw [hport, s.replay_sendCtrl]
  · rw [hport, hs.portProj Port.rx]
  · rw [hout, hsent]
    simp

/-- A record that ends the job, raised on a compute die, leaves none running (R290). -/
theorem State.running_raise_jobFatal {i : ErrInfo} (s : State) {d : Nat} (hd : d < 4) (hi : i.cls = .jobFatal) : (s.raise d i).job.running = false := by
  have hend (u : State) (cause : Nat) : (u.abortJob cause).job.running = false := by
    rw [job_abortJob]
    split
    · rfl
    · next h => simpa using h
  have hh : (if 4 ≤ d ∧ (s.die d).portRecs ≠ [] then none else s.recordHandler d) = some d := by
    rw [if_neg (by omega), recordHandler, if_pos hd]
  simp only [raise, hh, fileRec, hi]
  exact hend ..

/-- A port with a usable width is READY or DEGRADED, and its count of failures starts anew. -/
theorem portRetrainDone_ends {p : Fin 12} (w : Fin 4) (hup : s.dieUp (portDie p) = true) (hf : s.func (portFunc p) = 1) (hw : w ≠ 0) :
    ∃ t, exec (.portRetrainDone p w) s = .next t ∧ t.mem = s.mem ∧ t.func (portFunc p) = (if w = 1 then 2 else 3) ∧ (t.port p).fails = 0 ∧ (t.port p).refusals = 0 := by
  have hw0 : w.val ≠ 0 := fun h => hw (Fin.ext h)
  have hw1 : (w = 1) = (w.val = 1) := by simp [Fin.ext_iff]
  let x : Port := { s.port p with
    fails := 0, refusals := 0, skip := none, rest := 0, restLen := 0, slot := 0, rxFlits := 0, rxCarry := [], fecTimes := [] }
  let a := ((s.setPort p x).setWidth p w).setFunc (portFunc p) (if w.val = 1 then 2 else 3)
  let v := a.finish (fun z => z == .retrain 1 (portDie p) p) 0 0
  have hk := a.keeps_finish (fun z => z == .retrain 1 (portDie p) p) 0 0
  have hs := (v.sends_resend p).trans (State.sends_pump p pumpFuel _)
  have hport : v.port p = x := (hk.port p).trans (s.port_setPort_same p x)
  refine ⟨State.pump p pumpFuel (v.resend p), ?_, (hs.proj State.mem).trans (Keeps.of_transport hk).mem, ?_, ?_, ?_⟩
  · change execPortRetrainDone p w s = _
    simp only [execPortRetrainDone, hup, hf, hw0, Bool.not_true, ne_eq, not_true_eq_false, decide_false, Bool.or_self, Bool.false_eq_true, if_false]
    rfl
  · simp only [hw1]
    exact (hs.proj (·.func (portFunc p))).trans ((a.func_finish ..).trans (State.func_setFunc_same ..))
  · rw [hs.portProj Port.fails, hport]
  · rw [hs.portProj Port.refusals, hport]

theorem portRetrainDone_retrains {p : Fin 12} (hup : s.dieUp (portDie p) = true) (hf : s.func (portFunc p) = 1) (hn : (s.port p).fails + 1 < 3) :
    ∃ t, exec (.portRetrainDone p 0) s = .next t ∧ t.mem = s.mem ∧ t.func (portFunc p) = 1 ∧ (t.port p).fails = (s.port p).fails + 1 := by
  let u := s.setPort p { s.port p with fails := (s.port p).fails + 1 }
  obtain ⟨hmem, hport, -, -, hfunc⟩ := u.portRetrain_starts p
  refine ⟨u.portRetrain p, ?_, hmem, hfunc, by rw [hport, s.port_setPort_same]⟩
  change execPortRetrainDone p 0 s = _
  simp only [execPortRetrainDone, hup, hf, hn, Bool.not_true, ne_eq, not_true_eq_false, decide_false, Bool.or_self, Bool.false_eq_true, if_false, Fin.val_zero,
    if_true]
  rfl

theorem portRetrainDone_fails {p : Fin 12} (hup : s.dieUp (portDie p) = true) (hf : s.func (portFunc p) = 1) (hn : 3 ≤ (s.port p).fails + 1) :
    ∃ t, exec (.portRetrainDone p 0) s = .next t ∧ t.mem = s.mem ∧ t.func (portFunc p) = 5 ∧ t.job.running = false := by
  let u := s.setPort p { s.port p with fails := (s.port p).fails + 1 }
  let v := (u.failFunc (portFunc p)).finish (fun w => w == .retrain 1 (portDie p) p) 0x200 0x41
  have hk : Keeps .record (u.setFunc (portFunc p) 5) v := .of_transport ((State.keeps_finish ..).trans (State.keeps_finish ..))
  let i : ErrInfo := ⟨.jobFatal, 0x0041, 0x0B, p, 0, p, u.getF (portDie p) (portF p fEwRetrainCntCount), 0⟩
  have hr := hk.trans (v.keeps_raise u.lead i)
  refine ⟨v.raise u.lead i, ?_, hr.mem, (hr.func _).trans (State.func_setFunc_same ..), State.running_raise_jobFatal v u.lead_lt rfl⟩
  change execPortRetrainDone p 0 s = _
  simp only [execPortRetrainDone, hup, hf, Nat.not_lt.mpr hn, Bool.not_true, ne_eq, not_true_eq_false, decide_false, Bool.or_self, Bool.false_eq_true, if_false,
    Fin.val_zero, if_true]
  rfl

/-- Settles O42, a command at a time; what a flit does at its port follows the answer of the checks of R255. -/
theorem ewerlinkPortsFollowTheirProtocol : Obligations.EwerlinkPortsFollowTheirProtocol := by
  refine ⟨fun p b hits s hup => ⟨ewFlitReceive_takes hup rfl, ewFlitReceive_passesIdle hup rfl, fun k => ewFlitReceive_naks hup rfl,
      fun k n => ewFlitReceive_passesOver hup rfl⟩,
    fun p seq a c z s => ewNak_resends, fun p s => linkIdleTimer_sendsIdle, fun p s => portRetrain_asks,
    fun p s hup hf => ⟨fun w => portRetrainDone_ends w hup hf, portRetrainDone_retrains hup hf, portRetrainDone_fails hup hf⟩⟩

end Sys2Proof.Machine
end

section
/-!
The way of a transfer (R257, R261, R262, R268, R269) and of a message between dies (R372): origination, the hop through a port die, the hand-over on either
side of an edge, delivery, and the CFG messages.
-/

namespace Sys2Proof.Machine

variable {s s' t u : State}

/-! ### Messages that wait for their action -/

theorem takeFirst_cons_pos {α : Type} {p : α → Bool} {x : α} (hx : p x = true) (r : List α) : takeFirst p (x :: r) = some (x, r) := by
  rw [takeFirst, if_pos hx]

theorem State.msgAt_first {d : Nat} {p : MsgBody → Bool} {m : DieMsg} {r : List DieMsg} (hm : s.msgs = m :: r) (hat : m.at_ / 4 = d) (hp : p m.body = true) :
    s.msgAt d p = some (m, r) := by
  rw [State.msgAt, hm]
  exact takeFirst_cons_pos (by simp [hat, hp]) r

/-- The first message of all is the oldest that its edge handed to its class. -/
theorem State.oldestHanded_first {m : DieMsg} {r : List DieMsg} {port : Nat} {x : Xfer} (hm : s.msgs = m :: r) (hb : m.body = .fabOut port x) :
    s.oldestHanded m = true := by
  unfold State.oldestHanded
  rw [hb, hm]
  simp [hb]

/-! ### Delivery (R262, R264, R267) -/

/-- A sound transfer for a die of this package joins what awaits its action at that die's fabric interface. -/
theorem State.deliver_of_sound {d : Nat} {x : Xfer} (hbad : x.bad = false) (hgr : ngrOk x.h = true) (hid : s.idValid = true)
    (hin : s.outside d x.h = false) (hd : x.h.rdie = d) : s.deliver d x = s.setFi d (s.fi d ++ [x]) := by
  simp [State.deliver, hbad, hgr, hid, hin, hd]

theorem State.deliver_joins {d : Nat} {x : Xfer} (hbad : x.bad = false) (hgr : ngrOk x.h = true) (hid : s.idValid = true)
    (hin : s.outside d x.h = false) (hd : x.h.rdie = d) :
    (s.deliver d x).mem = s.mem ∧ (s.deliver d x).regs = s.regs ∧ (s.deliver d x).msgs = s.msgs ∧ (s.deliver d x).fi d = s.fi d ++ [x] := by
  rw [State.deliver_of_sound hbad hgr hid hin hd]
  exact ⟨rfl, rfl, rfl, s.fi_setFi_same ..⟩

/-! ### TRANSFER_ORIGINATE (R261) -/

/-- Taking the next transfer of a source changes the flow or the responses it comes from. -/
theorem State.fiNext_leaves {d : Nat} {src : FiSource} {x : Xfer} (h : s.fiNext d src = some (x, s')) : s' = { s with flows := s'.flows, resp := s'.resp } := by
  cases src with
  | flow q =>
    unfold State.fiNext at h
    dsimp only at h
    split at h
    · cases h
    · cases h
      rfl
  | response =>
    unfold State.fiNext at h
    dsimp only at h
    split at h
    · cases h
    · cases h
      rfl

theorem transferOriginate_hands {d : Fin 4} {src : FiSource} {x : Xfer} {p g : Nat} (hup : s.dieUp d = true) (hx : s.fiNext d src = some (x, s'))
    (hturn : winner (s.xbar d 0 x.cls).next (s.fiInputs d x.cls) = some (srcInput src)) (hn : nextOf (s.route d x.h.plane x.h.dst) = .port p)
    (hp : s.func (portFunc p) ≠ 5) (hg : s.gateTo d (portDie p) = some g) :
    exec (.transferOriginate d src) s = .next ((s'.setXbar d 0 x.cls ⟨none, srcInput src + 1⟩).edgeSend g 2 d (portDie p)
      (.fabOut (p % 6) { x with h := { x.h with vl := nextVl (s.route d x.h.plane x.h.dst) x.h.vl } })) := by
  change execTransferOriginate d src s = _
  simp only [execTransferOriginate, hup, hx, hturn, hn, hp, hg, Bool.not_true, Bool.false_eq_true, ne_eq, not_true_eq_false, if_false]

theorem transferOriginate_delivers {d : Fin 4} {src : FiSource} {x : Xfer} (hup : s.dieUp d = true) (hx : s.fiNext d src = some (x, s'))
    (hturn : winner (s.xbar d 0 x.cls).next (s.fiInputs d x.cls) = some (srcInput src)) (hn : nextOf (s.route d x.h.plane x.h.dst) = .here)
    (hdst : x.h.dst = s.pkgId) (hto : s.dieUp x.h.rdie = true) (hway : s.reaches d x.h.rdie 0 = true) (hid : s.idValid = true)
    (hin : s.outside x.h.rdie x.h = false) (hbad : x.bad = false) (hgr : ngrOk x.h = true) :
    ∃ t, exec (.transferOriginate d src) s = .next t ∧ t.mem = s.mem ∧ t.regs = s.regs ∧
      t.fi x.h.rdie = s.fi x.h.rdie ++ [{ x with h := { x.h with vl := nextVl (s.route d x.h.plane x.h.dst) x.h.vl } }] := by
  have hrun : exec (.transferOriginate d src) s = .next ((s'.setXbar d 0 x.cls ⟨none, srcInput src + 1⟩).deliver x.h.rdie
      { x with h := { x.h with vl := nextVl (s.route d x.h.plane x.h.dst) x.h.vl } }) := by
    change execTransferOriginate d src s = _
    simp only [execTransferOriginate, hup, hx, hturn, hn, if_neg (not_not.mpr hdst), hto, hway, Bool.not_true, Bool.false_eq_true, ne_eq,
      not_true_eq_false, if_false, if_true]
  obtain ⟨hmem, hregs, -, hfi⟩ := State.deliver_joins (s := s'.setXbar d 0 x.cls ⟨none, srcInput src + 1⟩) (d := x.h.rdie)
    (x := { x with h := { x.h with vl := nextVl (s.route d x.h.plane x.h.dst) x.h.vl } }) hbad hgr
    (by rw [State.fiNext_leaves hx]; exact hid) (by rw [State.fiNext_leaves hx]; exact hin) rfl
  rw [State.fiNext_leaves hx] at hmem hregs hfi hrun
  exact ⟨_, hrun, hmem, hregs, hfi⟩

/-! ### FAB_OUT and FAB_IN (R372) -/

theorem fabOut_gives {pd : Fin 2} {port : Nat} {x : Xfer} {m : DieMsg} {r : List DieMsg} (had : s.admitted (4 + pd.val) = true) (hm : s.msgs = m :: r)
    (hat : m.at_ / 4 = 4 + pd.val) (hb : m.body = .fabOut port x) (hturn : s.xbarGrants (4 + pd.val) port x.cls (12 + m.at_ % 4) = true)
    (htx : mapGet (fun _ => []) (s.port (6 * pd.val + port)).tx x.cls = []) :
    exec (.fabOut pd) s = .next (((s.msgGone m r).setXbar (4 + pd.val) port x.cls ⟨none, 12 + m.at_ % 4 + 1⟩).portSend (6 * pd.val + port) x) := by
  change execFabOut pd s = _
  simp only [execFabOut, had, hm, takeFirst, hat, hb, hturn, State.oldestHanded_first hm hb, htx, beq_self_eq_true, Bool.and_self, List.isEmpty_nil,
    Bool.not_true, Bool.false_eq_true, if_false, if_true]

theorem fabIn_delivers {d : Fin 4} {port : Nat} {x : Xfer} {m : DieMsg} {r : List DieMsg} (hup : s.dieUp d = true) (hm : s.msgs = m :: r) (hat : m.at_ / 4 = d.val)
    (hb : m.body = .fabIn port none x) (hto : s.dieUp x.h.rdie = true) (hway : s.reaches d x.h.rdie 0 = true) (hroom : s.trackFull x.h.rdie x = false)
    (hid : s.idValid = true) (hin : s.outside x.h.rdie x.h = false) (hbad : x.bad = false) (hgr : ngrOk x.h = true) :
    ∃ t, exec (.fabIn d) s = .next t ∧ t.mem = s.mem ∧ t.regs = s.regs ∧ t.msgs = r ∧ t.fi x.h.rdie = s.fi x.h.rdie ++ [x] := by
  refine ⟨(s.msgGone m r).deliver x.h.rdie x, ?_, State.deliver_joins (s := s.msgGone m r) hbad hgr hid hin rfl⟩
  change execFabIn d s = _
  simp only [execFabIn, hup, hm, takeFirst, hat, hb, hto, hway, hroom, beq_self_eq_true, Bool.and_self, Bool.or_self, Bool.not_true,
    Bool.false_eq_true, if_false, if_true]

theorem fabIn_passesOn {d : Fin 4} {port q g : Nat} {x : Xfer} {m : DieMsg} {r : List DieMsg} (hup : s.dieUp d = true) (hm : s.msgs = m :: r)
    (hat : m.at_ / 4 = d.val) (hb : m.body = .fabIn port (some q) x) (hg : s.gateTo d (if m.src = 4 then 5 else 4) = some g) :
    exec (.fabIn d) s = .next ((s.msgGone m r).edgeSend g 2 m.src (if m.src = 4 then 5 else 4) (.fabOut q x)) := by
  change execFabIn d s = _
  simp only [execFabIn, hup, hm, takeFirst, hat, hb, hg, beq_self_eq_true, Bool.and_self, Bool.not_true, Bool.false_eq_true, if_false, if_true]

/-! ### TRANSFER_HOP (R257, R261 to R263) -/

/-- A HEAD is due: the buffer has no transfer in progress. -/
theorem transferHop_of_idle {p : Fin 12} {buf : Fin 8} {f : Flit} (had : s.admitted (portDie p) = true) (hf : s.rxFlit p buf = some f) (hr : s.hop p buf = none) :
    exec (.transferHop p buf) s = .next (s.hopStart p buf f) := by
  change execTransferHop p buf s = _
  simp only [execTransferHop, had, hf, hr, Bool.not_true, Bool.false_eq_true, if_false]

theorem transferHop_of_run {p : Fin 12} {buf : Fin 8} {f : Flit} {r : HopRun} (had : s.admitted (portDie p) = true) (hf : s.rxFlit p buf = some f)
    (hr : s.hop p buf = some r) : exec (.transferHop p buf) s = .next (s.hopNext p buf f r) := by
  change execTransferHop p buf s = _
  simp only [execTransferHop, had, hf, hr, Bool.not_true, Bool.false_eq_true, if_false]

/-- More flits are to come of a transfer in progress. -/
theorem State.hopStep_of_left {p buf : Nat} {r : HopRun} (h : r.left ≠ 0) : s.hopStep p buf r = s.setHop p buf (some r) := if_pos h

/-- The last flit of a transfer for a compute die has come: the output is free, and the transfer goes out as one message. -/
theorem State.hopStep_of_last {p buf n : Nat} {cross : Option Nat} {r : HopRun} (hl : r.left = 0) (hg : r.goal = .die n cross) (hbad : r.bad = false)
    (hk : r.head.kind ≠ 8) : s.hopStep p buf r =
      (((s.setHop p buf none).setXbar (portDie p) (if n < 2 then 6 else 7) (buf / 2)
        { (s.setHop p buf none).xbar (portDie p) (if n < 2 then 6 else 7) (buf / 2) with own := none }).edgeSend
          (portDie p) (if n < 2 then 0 else 1) (portDie p) (if cross.isSome then 9 - portDie p else r.head.rdie)
          (.fabIn (p % 6) cross ⟨buf / 2, r.head, r.took.take r.head.ngr, false⟩)) := by
  simp only [State.hopStep, State.hopDeliver, outOf, hl, hg, hbad, hk, ne_eq, not_true_eq_false, Bool.false_eq_true, if_false]

/-- A HEAD whose output is free begins its transfer: on its way through a local port, or gathered for a compute die. -/
theorem State.hopStart_of_granted {p buf o : Nat} {f : Flit} {g : HopGoal} (ht : f.typ = 1) (hh : headBad (fld f.pay 0 2048) = false)
    (hg : s.hopGoal (portDie p) (headOf (fld f.pay 0 2048)) = some g) (ho : outOf g = some o)
    (hturn : s.xbarGrants (portDie p) o (buf / 2) (inputOf p buf) = true) :
    (let h := headOf (fld f.pay 0 2048)
     let y := { h with hops := h.hops - 1, vl := nextVl (s.route (portDie p) h.plane h.dst) h.vl }
     let t := (s.freeRx p buf).setXbar (portDie p) o (buf / 2) ⟨some (inputOf p buf), inputOf p buf + 1⟩
     let run : HopRun := ⟨g, y, dataFlits h, [], false⟩
     (∀ q, g = .port q → s.portTakes q (2 * (buf / 2) + y.vl) = true →
       s.hopStart p buf f = (t.portFlits q (2 * (buf / 2) + y.vl) [headFlit (buf / 2) y]).hopStep p buf run) ∧
     (∀ n cross, g = .die n cross → s.hopStart p buf f = t.hopStep p buf run)) := by
  constructor
  · rintro q rfl hq
    simp only [State.hopStart, ht, hh, hg, ho, hturn, hq, ne_eq, not_true_eq_false, Bool.not_true, Bool.false_eq_true, if_false, if_true]
  · rintro n cross rfl
    simp only [State.hopStart, ht, hh, hg, ho, hturn, ne_eq, not_true_eq_false, Bool.not_true, Bool.false_eq_true, if_false]

section next

variable {p buf : Nat} {f : Flit} {r : HopRun}

/-- A DATA flit on its way through a local port. -/
theorem State.hopNext_of_port {q : Nat} (ht : f.typ = 2) (hg : r.goal = .port q) (hq : s.portTakes q (2 * (buf / 2) + r.head.vl) = true) :
    s.hopNext p buf f r = ((s.freeRx p buf).portFlits q (2 * (buf / 2) + r.head.vl) [f]).hopStep p buf { r with left := r.left - 1 } := by
  simp [State.hopNext, ht, hg, hq]

/-- A DATA flit whose index fits, of a sound transfer for a compute die: its granules are kept. -/
theorem State.hopNext_of_die {n : Nat} {cross : Option Nat} (ht : f.typ = 2) (hg : r.goal = .die n cross) (hbad : r.bad = false)
    (hix : f.idx + r.left = dataFlits r.head) :
    s.hopNext p buf f r = (s.freeRx p buf).hopStep p buf { r with
      left := r.left - 1, took := r.took ++ [⟨BitVec.ofNat 1024 (fld f.pay 0 1024), f.chk0⟩, ⟨BitVec.ofNat 1024 (fld f.pay 1024 1024), f.chk1⟩] } := by
  simp [State.hopNext, ht, hg, hbad, hix]

theorem State.hopNext_of_drain (ht : f.typ = 2) (hg : r.goal = .drain) : s.hopNext p buf f r = (s.freeRx p buf).hopStep p buf { r with left := r.left - 1 } := by
  simp [State.hopNext, ht, hg]

end next

/-! ### CFG messages (R372, R384) -/

theorem cfgRd_answers {pd : Fin 2} {tag off : Nat} {m : DieMsg} {r : List DieMsg} (hup : s.dieUp (4 + pd.val) = true) (hm : s.msgs = m :: r)
    (hat : m.at_ / 4 = 4 + pd.val) (hb : m.body = .cfgRd tag off) :
    exec (.cfgRd pd) s = .next (
      if cfgAllowed (!s.flag (4 + pd.val) fD2dAdmitAdmitted) off then
        ((s.msgGone m r).readReg (4 + pd.val) off).2.cfgAnswer m tag (((s.msgGone m r).readReg (4 + pd.val) off).1.map BitVec.toNat)
      else (s.msgGone m r).cfgAnswer m tag none) := by
  change execCfgRd pd s = _
  have hadm : (s.msgGone m r).flag (4 + pd.val) fD2dAdmitAdmitted = s.flag (4 + pd.val) fD2dAdmitAdmitted := rfl
  simp only [execCfgRd, State.msgAt_first hm hat, hb, hup, hadm, Bool.not_true,
    Bool.false_eq_true, if_false]
  split
  · rfl
  · rfl

theorem cfgWr_answers {pd : Fin 2} {tag off v : Nat} {m : DieMsg} {r : List DieMsg} (hup : s.dieUp (4 + pd.val) = true) (hm : s.msgs = m :: r)
    (hat : m.at_ / 4 = 4 + pd.val) (hb : m.body = .cfgWr tag off v) :
    exec (.cfgWr pd) s = .next (
      if s.flag (4 + pd.val) fD2dAdmitAdmitted = true ∧ (regSpecOf (4 + pd.val) off).isSome = true then
        ((s.msgGone m r).writeReg (4 + pd.val) off (BitVec.ofNat 64 v)).cfgAnswer m tag (some 0)
      else (s.msgGone m r).cfgAnswer m tag none) := by
  change execCfgWr pd s = _
  have hadm : (s.msgGone m r).flag (4 + pd.val) fD2dAdmitAdmitted = s.flag (4 + pd.val) fD2dAdmitAdmitted := rfl
  simp only [execCfgWr, State.msgAt_first hm hat, hb, hup, hadm, Bool.not_true,
    Bool.false_eq_true, if_false]
  cases s.flag (4 + pd.val) fD2dAdmitAdmitted with
  | false => simp
  | true => cases regSpecOf (4 + pd.val) off with
    | none => simp
    | some _ => simp

/-- The result of the one access that waits is its requester's answer; an error is recorded first. -/
theorem cfgRsp_of_waiting {d : Fin 4} {tag v a : Nat} {err : Bool} {m : DieMsg} {r : List DieMsg} (hup : s.dieUp d = true) (hm : s.msgs = m :: r)
    (hat : m.at_ / 4 = d.val) (hw : s.cfgOuts = [(m.src, tag, a)]) (hb : m.body = .cfgRsp tag err v) :
    let t : State := { s.msgGone m r with cfgOuts := [] }
    exec (.cfgRsp d) s = .next ((if err then t.clusterFailed a else t).send (.readAnswer a (if err then none else some v))) := by
  change execCfgRsp d s = _
  have hc : (s.msgGone m r).cfgOuts = [(m.src, tag, a)] := hw
  simp [execCfgRsp, State.msgAt_first hm hat, hb, hup, hc]

theorem Keeps.msgs {k : Extent} (h : Keeps k s t) : t.msgs = s.msgs := by
  rw [h.rest]
  cases k <;> rfl

theorem Keeps.cfgOuts {k : Extent} (h : Keeps k s t) : t.cfgOuts = s.cfgOuts := by
  rw [h.rest]
  cases k <;> rfl

/-- A failed access of the cluster is a record: messages and accesses that wait stay. -/
theorem State.keeps_clusterFailed (s : State) (a : Nat) : Keeps .record s (s.clusterFailed a) := s.keeps_raise ..

section response

variable {d : Fin 4} {tag v a : Nat} {m : DieMsg} {r : List DieMsg} (hup : s.dieUp d = true) (hm : s.msgs = m :: r) (hat : m.at_ / 4 = d.val)
  (hw : s.cfgOuts = [(m.src, tag, a)])
include hup hm hat hw

theorem cfgRsp_answers (hb : m.body = .cfgRsp tag false v) :
    ∃ t, exec (.cfgRsp d) s = .next t ∧ t.mem = s.mem ∧ t.regs = s.regs ∧ t.msgs = r ∧ t.cfgOuts = [] ∧ t.out = s.out ++ [.readAnswer a (some v)] :=
  ⟨_, cfgRsp_of_waiting hup hm hat hw hb, rfl, rfl, rfl, rfl, rfl⟩

theorem cfgRsp_fails (hb : m.body = .cfgRsp tag true v) :
    ∃ t, exec (.cfgRsp d) s = .next t ∧ t.mem = s.mem ∧ t.msgs = r ∧ t.cfgOuts = [] ∧ t.out = s.out ++ [.readAnswer a none] := by
  have hk := State.keeps_clusterFailed { s.msgGone m r with cfgOuts := [] } a
  obtain ⟨-, -, hout⟩ := State.clusterFailed_leaves { s.msgGone m r with cfgOuts := [] } a
  exact ⟨_, cfgRsp_of_waiting hup hm hat hw hb, hk.mem, hk.msgs, hk.cfgOuts, congrArg (· ++ [OutMsg.readAnswer a none]) hout⟩

end response

/-! ### The obligation -/

/-- Settles O43, clause by clause: origination, FAB_OUT, the hop (a HEAD, a flit with more to come, the last flit), FAB_IN, and the CFG messages. -/
theorem transfersAndMessagesTravel : Obligations.TransfersAndMessagesTravel := by
  unfold Obligations.TransfersAndMessagesTravel
  refine ⟨fun d src x s s' hup hx hturn => ⟨fun p g hn hp hg => transferOriginate_hands hup hx hturn hn hp hg,
      fun hn hdst hto hway hid hin hbad hgr => transferOriginate_delivers hup hx hturn hn hdst hto hway hid hin hbad hgr⟩,
    fun pd port x m r s had hm hat hb hturn htx => fabOut_gives had hm hat hb hturn htx,
    fun p buf f s had hf => ⟨fun g o hr ht hh hg ho hturn => ?head,
      fun r hr ht hl => ⟨fun q hg hq => ?port, fun n cross hg hbad hix => ?die, fun hg => ?drain⟩,
      fun r n cross hr ht hl hg hbad hix hk => ?last⟩,
    fun d port x m r s hup hm hat => ⟨fun hb hto hway hroom hid hin hbad hgr => fabIn_delivers hup hm hat hb hto hway hroom hid hin hbad hgr,
      fun q g hb hg => fabIn_passesOn hup hm hat hb hg⟩,
    fun pd tag off v m r s hup hm hat => ⟨cfgRd_answers hup hm hat, cfgWr_answers hup hm hat⟩,
    fun d tag v a m r s hup hm hat hw => ⟨cfgRsp_answers hup hm hat hw, cfgRsp_fails hup hm hat hw⟩⟩
  case head =>
    rw [transferHop_of_idle had hf hr]
    obtain ⟨hport, hdie⟩ := State.hopStart_of_granted ht hh hg ho hturn
    exact ⟨fun q hq htk => congrArg Host.Outcome.next (hport q hq htk), fun n cross hn => congrArg Host.Outcome.next (hdie n cross hn)⟩
  case port => rw [transferHop_of_run had hf hr, State.hopNext_of_port ht hg hq, State.hopStep_of_left (Nat.sub_ne_zero_of_lt hl)]
  case die => rw [transferHop_of_run had hf hr, State.hopNext_of_die ht hg hbad hix, State.hopStep_of_left (Nat.sub_ne_zero_of_lt hl)]
  case drain => rw [transferHop_of_run had hf hr, State.hopNext_of_drain ht hg, State.hopStep_of_left (Nat.sub_ne_zero_of_lt hl)]
  case last =>
    rw [transferHop_of_run had hf hr, State.hopNext_of_die ht hg hbad (hl ▸ hix)]
    exact congrArg Host.Outcome.next (State.hopStep_of_last (Nat.sub_eq_zero_of_le hl.le) hg hbad hk)

end Sys2Proof.Machine
end
